-- ==== Sys2Proof/Word.lean ====
section
/-! DEFINITION. The word types of BX-4816 and the finite tables that hold its sparse state
(00_scope.md R10-R12: little-endian, bit 0 least significant; a word Wi is 64 bits). -/
namespace Sys2Proof

/-- A byte of memory. -/
abbrev Byte := BitVec 8
/-- An instruction word (05 R200: every instruction is 32 bits). -/
abbrev W32 := BitVec 32
/-- A 64-bit register, descriptor or record word (00 R12). -/
abbrev W64 := BitVec 64
/-- A phase sub-sum of a tally (04 R167). -/
abbrev W128 := BitVec 128

/-- A sparse table: key and value pairs with strictly rising keys, no value equal to what an
unlisted key reads as. The operations are in Machine/Tbl.lean. -/
abbrev Tbl (α : Type) := List (Nat × α)

end Sys2Proof
end

