-- ==== Sys2Proof/Syntax.lean ====
section
/-! DEFINITION. The commands of BX-4816: one constructor of `Instr` for each row of
spec/opcode_table.json, with the operand types its commands carry. A command carries what comes
from outside the modelled state at its step (a measurement, a module's answer, a host's choice);
everything else the step reads from the machine's state. -/
namespace Sys2Proof

/-- Who makes an access (03 R95, 05 R192, 13 R487). -/
inductive Requester where
  | hart (h : Nat)
  | tile (t : Nat)
  | lighter (lc : Nat)
  | crane (deck kind : Nat)
  | wharf (stack : Nat)
  | pier (p : Nat)
  | hub
  | pcie (port id : Nat)
  deriving DecidableEq, Repr, Inhabited

/-- What a level-2 check found on the words of one read (03 R115, R116, R118). -/
inductive Ecc where
  | clean
  | corrected
  | uncorrectable
  deriving DecidableEq, Repr, Inhabited

/-- A requester's burst marking on a bank (05 R193, R194): a single access, a declared burst of
2 to 62 accesses, or an open burst. -/
inductive Burst where
  | single
  | length (n : Nat)
  | openEnded
  deriving DecidableEq, Repr, Inhabited

/-- A request for a new grant at an arbiter input in one cycle (05 R192): how long it asks for, and whose it
is, with the item it serves and whether it stores, which the watchdog reports (05 R196). -/
structure ArbRequest where
  input : Nat
  burst : Burst
  req : Requester
  item : Option (Nat × Nat)
  write : Bool
  deriving DecidableEq, Repr, Inhabited

/-- One physical read or write (03 R99, R105, R110): who, where, how long, and the bytes of a
write; `item` is the ring item the access serves, when it serves one. It meets its unit's arbiter in one
cycle (05 R192): the requests for new grants in that cycle, and whether the holder of the grant keeps it. -/
structure PhysAccess where
  req : Requester
  pa : Nat
  len : Nat
  write : Option (List Byte)
  ecc : Ecc
  item : Option (Nat × Nat)
  /-- The virtual address it was made at, which a launch's record reports (03 R110). -/
  va : W64
  reqs : List ArbRequest
  keeps : Bool
  deriving DecidableEq, Repr, Inhabited

/-- An atomic or reduce request on memory (03 R107, 08 R328, 10 R404): `wide` selects 64 bits
over 32, `h16` the H16 element of a reduce over F32. -/
structure AtomicReq where
  req : Requester
  pa : Nat
  wide : Bool
  h16 : Bool
  shared : Bool
  operand : W64
  compare : W64
  ecc : Ecc
  item : Option (Nat × Nat)
  va : W64
  deriving DecidableEq, Repr, Inhabited

/-- The eleven atomic operations (08 R328, 10 R404, 13 R502). -/
inductive AtomicOp where
  | add | fadd | min | max | minu | maxu | and | or | xor | swap | cas
  deriving DecidableEq, Repr, Inhabited

/-- The operand kinds of the warehouse's MIN / MAX row (03 R107). -/
inductive MinMaxOp where
  | min | max | minu | maxu | fmin | fmax
  deriving DecidableEq, Repr, Inhabited

/-- The warehouse's AND / OR / XOR row (03 R107). -/
inductive BitOp where
  | and | or | xor
  deriving DecidableEq, Repr, Inhabited

/-- A bank or pseudo-channel with a fixed-priority arbiter, or the arbiter of a deck's crane kinds in front
of a warehouse bank (05 R192, 03 R106, 09 R343, 10 R378). -/
inductive BankId where
  | localMem (t bank : Nat)
  | warehouse (deck bank : Nat)
  | cranes (deck bank : Nat)
  | pool (stack pc : Nat)
  deriving DecidableEq, Repr, Inhabited

/-- A memory row (03 R125): which bank holds it, its spare rows left as the stack reports them
(HBM only), and the physical lines it holds. -/
inductive RowId where
  | warehouse (deck bank row : Nat)
  | hbm (stack : Nat) (row : Nat) (sparesLeft : Nat) (firstPa : Nat)
  deriving DecidableEq, Repr, Inhabited

/-- What the check of a transit cache's line found (13 R511): an uncorrectable tag or state, and the 16-byte
data chunks with bad parity, one bit each. -/
structure TcErr where
  tag : Bool
  chunks : Nat
  deriving DecidableEq, Repr, Inhabited

/-- A fill of a transit cache (12 R464; 13 R505, R511): the context that asked for the line, whether its segment is
HOST_SHARED and STREAM, and what the check of the line found, when it found an error. -/
structure TcFill where
  ctx : Nat
  shared : Bool
  stream : Bool
  err : Option TcErr
  deriving DecidableEq, Repr, Inhabited

/-- A turn of a tile's control core or gang processor (05 R201, 08 R312); `parity` when a register file that
it reads shows a parity error (13 R511). -/
structure TileIssue where
  tile : Nat
  parity : Bool
  deriving DecidableEq, Repr, Inhabited

/-- A memory that patrol scrub walks (03 R122). -/
inductive ScrubUnit where
  | stack (s : Nat)
  | warehouse (deck : Nat)
  | localMem (t : Nat)
  deriving DecidableEq, Repr, Inhabited

/-- A holder of segment and page entries (12 R470). -/
inductive Holder where
  | cluster (lc : Nat)
  | crane (deck kind : Nat)
  | wharf (stack : Nat)
  | pier (p : Nat)
  | harbourmaster
  deriving DecidableEq, Repr, Inhabited

/-- A die-to-die link by its deck and slot (01 R25), or the hub-host link (01 R57). -/
inductive LinkId where
  | deck (d slot : Nat)
  | hubHost
  deriving DecidableEq, Repr, Inhabited

/-- What a tick latches from the sensors and rails (15 R564, R565). -/
structure Telemetry where
  measuredW : Nat
  estimatedW : Nat
  classW : List Nat
  dieC : List Int
  stackC : List Int
  deckC : List Int
  hubC : Int
  hostC : Int
  deriving DecidableEq, Repr, Inhabited

/-- The lockkeeper's predictions for a decision (15 R565, R574, R575): the demand of each class,
the demand of each class at full activity (R582), the power in mW of each logical die at each
step F, and the time in ns each die's rail needs to settle at a raised point (R568, R682). -/
structure Prediction where
  demand : List Nat
  fullDemand : List Nat
  dieMw : List (List Nat)
  settleNs : List Nat
  deriving DecidableEq, Repr, Inhabited

/-- How a program or host core accesses memory (05 R207, 13 R490). -/
inductive AccessKind where
  | scalar | atomic | loadReserved | storeConditional | vector | cacheBlock | fetch
  deriving DecidableEq, Repr, Inhabited

/-- The channel a token or evidence request arrives on (16 R612). -/
inductive Channel where
  | host | bmc
  deriving DecidableEq, Repr, Inhabited

/-- What one rail's VRM answers in the identity sweep (16 R596): volts in mV, the current warning
limit in A, and the identity summary logged for it. -/
structure VrmAnswer where
  voutMv : Nat
  warnA : Nat
  summary : Nat
  deriving DecidableEq, Repr, Inhabited

/-- What a laser module answers in the identity sweep (14 R530, 16 R596). -/
structure LaserAnswer where
  powerClass : Nat
  fault : Nat
  summary : Nat
  deriving DecidableEq, Repr, Inhabited

/-- What an HBM stack answers over IEEE 1500 (03 R98, 16 R596): density in Gbit, height in dies,
and the speed bins it supports. -/
structure StackAnswer where
  density : Nat
  height : Nat
  bins : List Nat
  summary : Nat
  deriving DecidableEq, Repr, Inhabited

/-- What the flash module answers (16 R596, 19 R695): its size, whether it has octal DTR, and its
bytes at the sweep (address and byte, unlisted bytes erased to 0xFF). -/
structure FlashAnswer where
  mib : Nat
  octalDtr : Bool
  summary : Nat
  bytes : List (Nat × Byte)
  deriving DecidableEq, Repr, Inhabited

/-- What the board ID EEPROM answers (16 R596): its 256-byte record. -/
structure BoardAnswer where
  record : List Byte
  summary : Nat
  deriving DecidableEq, Repr, Inhabited

/-- Every module's answer in the identity sweep, in the order of 16 R596's table. -/
structure Sweep where
  board : Option BoardAnswer
  flash : Option FlashAnswer
  vrms : List (Option VrmAnswer)
  lasers : List (Option LaserAnswer)
  hbm : List (Option StackAnswer)
  deriving DecidableEq, Repr, Inhabited

/-- What one link's two ends trained (01 R48): a width code for each module at each end
(0 failed, 1 degraded, 2 full). -/
structure LinkTraining where
  link : LinkId
  near : List Nat
  far : List Nat
  deriving DecidableEq, Repr, Inhabited

/-- The outcomes of bring-up's training and self-tests (16 R594, R595, R604; 03 R98, R128, R132). -/
structure BringUp where
  links : List LinkTraining
  badDies : List (Nat × Nat)
  badStacks : List Nat
  badPcs : List (Nat × Nat)
  badCoreDies : List (Nat × Nat)
  hubOk : Bool
  deriving DecidableEq, Repr, Inhabited

/-- What one port's training found (14 R521, R522, R528). -/
structure PortTraining where
  flitMode : Bool
  lanes : Nat
  gbd : Nat
  pam4 : Bool
  rs544 : Bool
  dataChannel : Bool
  mgmtChannel : Bool
  capability : Nat
  goodLanes : Nat
  peerNode : Nat
  deriving DecidableEq, Repr, Inhabited

/-- What a maintenance activity's own tests and writes found (17 R646): the units that failed,
measured values, whether it succeeded, and bytes it produced. -/
structure MaintResult where
  ok : Bool
  failed : List Nat
  values : List Nat
  bytes : List Byte
  deriving DecidableEq, Repr, Inhabited

/-- The content of a Hawser message (14 R533, R546, R551, R557, R558, R561, R540). -/
inductive MsgBody where
  | put (va : Nat) (data : List Byte)
  | getReq (va len : Nat)
  | getData (data : List Byte) (code va : Nat)
  | atomicReq (op : AtomicOp) (wide : Bool) (va : Nat) (operand compare : W64)
  | atomicResp (old : W64) (code va : Nat)
  | ack (upTo code va : Nat)
  | openReq (context remoteContext remoteConn : Nat)
  | openAck (accepted : Bool)
  | close
  | collData (collId dim chunk step : Nat) (gather : Bool) (data : List Byte) (anchors : List Byte)
  | collSync (collId op fmt dims : Nat) (phases1 : Bool) (n root : Nat) (abort : Bool)
  | beacon (k periodNs node : Nat)
  | linkNotice (node port : Nat)
  deriving DecidableEq, Repr, Inhabited

/-- A Hawser message with the header fields of its flits (14 R532). -/
structure LinkMsg where
  dest : Nat
  src : Nat
  conn : Nat
  seq : Nat
  epoch : Nat
  dirs : Nat
  vc : Nat
  hops : Nat
  body : MsgBody
  deriving DecidableEq, Repr, Inhabited

/-- How a PCIe request is addressed (13 R487): untranslated, translated by the endpoint, or with a PASID
prefix. -/
inductive InboundKind where
  | untranslated | translated
  | pasid (id : Nat)
  deriving DecidableEq, Repr, Inhabited

/-- An address of a PCIe request, as its sender gives it (13 R487). -/
structure InboundAddr where
  kind : InboundKind
  addr : Nat
  deriving DecidableEq, Repr, Inhabited

/-- The commands: one constructor for each row of spec/opcode_table.json, in its order. -/
inductive Instr where
  /-- TICK (R63): The tide tick swaps shadowed tables, latches telemetry, applies operating points, refreshes credits, writes progress lines and releases admitted items and slices. -/
  | tick (m : Telemetry)
  /-- ADMISSION_CUT (R72): At 15/16 of the tide the harbourmaster admits the items and launches for the next tide in three passes. -/
  | admissionCut
  /-- OVERRUN_STOP (R80): A launch that exceeds its overrun limit is stopped and completes FAIL_TIDE_OVERRUN. -/
  | overrunStop (ring : Nat) (index : Nat)
  /-- BEACON_SEND (R87): A coupled node sends beacon k once its period has elapsed and its tide-closing items are complete. -/
  | beaconSend
  /-- BEACON (R88): A received beacon counts toward the next coupled tick, and a period mismatch is flagged. -/
  | beacon (port : Nat) (k : Nat) (periodNs : Nat) (node : Nat)
  /-- BEACON_TIMEOUT (R90): A port whose expected beacon is TIMEOUT periods late leaves the coupled set. -/
  | beaconTimeout (port : Nat)
  /-- JOIN_TIMEOUT (R90): A port with no first beacon within JOIN_LIMIT_MS leaves the coupled set. -/
  | joinTimeout (port : Nat)
  /-- LAUNCH_START (R74): A released launch starts once every named cluster has finished earlier launches, zeroing tiles of a new context first. -/
  | launchStart (ring : Nat) (index : Nat)
  /-- TILE_END (R211): A tile ends once its queues have drained, its jobs have completed and its stores are visible, and its dirty lines are written back. -/
  | tileEnd (t : Nat)
  /-- LAUNCH_COMPLETE (R212): A launch completes when every named tile has ended or has been stopped. -/
  | launchComplete (ring : Nat) (index : Nat)
  /-- SLICE_COMPLETE (R76): An engine finishes a slice at an element boundary, and its progress position advances. -/
  | sliceComplete (ring : Nat) (index : Nat)
  /-- RECORD_WRITE (R452): Once every path has acknowledged an item's writes, its completion record is written. -/
  | recordWrite (ring : Nat) (index : Nat)
  /-- BELL_LINE_WAKE (R416): A write to a watched bell line invalidates its pinned copy and wakes the ring's fetcher. -/
  | bellLineWake (ring : Nat)
  /-- DESCRIPTOR_FETCH (R417): A woken fetcher reads the bell line and fetches and checks descriptors while space remains. -/
  | descriptorFetch (ring : Nat)
  /-- SLOT_RECHECK (R419): A slot that failed its check is read again every 100 ns. -/
  | slotRecheck (ring : Nat)
  /-- RING_ENABLE (R417): Writing ENABLE 1 to a disabled ring resets its indices and wakes its fetcher. -/
  | ringEnable (hart : Nat) (ring : Nat) (value : W64)
  /-- RING_DISABLE (R423): Writing ENABLE 0 puts the ring in DRAINING until every fetched item has a record. -/
  | ringDisable (hart : Nat) (ring : Nat) (value : W64)
  /-- FENCE_RING (R437): A FENCE with SCOPE 0 completes once every earlier item of its ring has completed. -/
  | fenceRing (ring : Nat) (index : Nat)
  /-- FENCE_CONTEXT (R437): A FENCE with SCOPE 1 completes once the context's items admitted at earlier cuts have completed. -/
  | fenceContext (ring : Nat) (index : Nat)
  /-- LAUNCH_TILES (R432): A LAUNCH_TILES item runs tile programs on the named clusters and tiles. -/
  | launchTiles (ring : Nat) (index : Nat)
  /-- LAUNCH_GANGS (R309): A LAUNCH_GANGS item runs G gangs on each named tile. -/
  | launchGangs (ring : Nat) (index : Nat)
  /-- MOVE (R434): A MOVE item copies up to five dimensions through a lighter, in slices. -/
  | move (ring : Nat) (index : Nat)
  /-- INLINE_WRITE (R438): An INLINE_WRITE performs a write of up to 40 bytes as one indivisible write at its release. -/
  | inlineWrite (ring : Nat) (index : Nat)
  /-- SIGNAL_ADD (R430): A SIGNAL with OP ADD adds VALUE to an event. -/
  | signalAdd (ring : Nat) (index : Nat)
  /-- SIGNAL_SET (R430): A SIGNAL with OP SET writes VALUE to an event. -/
  | signalSet (ring : Nat) (index : Nat)
  /-- WAIT (R431): A WAIT becomes eligible when its event reaches THRESHOLD and completes OK at its release. -/
  | wait (ring : Nat) (index : Nat)
  /-- HINT_MATRIX_HEAVY (R582): A HINT raises the predicted COMPUTE demand for the covered tides. -/
  | hintMatrixHeavy (ring : Nat) (index : Nat)
  /-- HINT_MEMORY_HEAVY (R582): A HINT raises the predicted MEMORY demand for the covered tides. -/
  | hintMemoryHeavy (ring : Nat) (index : Nat)
  /-- HINT_LINK_HEAVY (R582): A HINT raises the predicted LINKS demand for the covered tides. -/
  | hintLinkHeavy (ring : Nat) (index : Nat)
  /-- HINT_IDLE (R583): A HINT lowers the COMPUTE prediction when every hinting context hints IDLE. -/
  | hintIdle (ring : Nat) (index : Nat)
  /-- SEG_INVAL_WHOLE (R476): A SEG_INVAL with WHOLE 1 withdraws the descriptors and page entries of the named segments. -/
  | segInvalWhole (ring : Nat) (index : Nat)
  /-- SEG_INVAL_RANGE (R476): A SEG_INVAL with WHOLE 0 withdraws the page entries of a range. -/
  | segInvalRange (ring : Nat) (index : Nat)
  /-- SEG_INVAL_DRAINED (R477): Once accesses under stale entries have drained, the stale entries are removed and the record is written. -/
  | segInvalDrained (ring : Nat) (index : Nat)
  /-- REMOTE_PUT (R551): A REMOTE PUT copies bytes to the remote context over a connection. -/
  | remotePut (ring : Nat) (index : Nat)
  /-- REMOTE_GET (R551): A REMOTE GET copies bytes from the remote context. -/
  | remoteGet (ring : Nat) (index : Nat)
  /-- REMOTE_ATOMIC (R551): A REMOTE ATOMIC performs an atomic at the remote home and returns the old value. -/
  | remoteAtomic (ring : Nat) (index : Nat)
  /-- ALL_REDUCE (R556): A COLLECTIVE ALL_REDUCE sums the send buffers into every receive buffer. -/
  | allReduce (ring : Nat) (index : Nat)
  /-- REDUCE_SCATTER (R556): A COLLECTIVE REDUCE_SCATTER gives each rank its part of the sum. -/
  | reduceScatter (ring : Nat) (index : Nat)
  /-- ALL_GATHER (R556): A COLLECTIVE ALL_GATHER places every rank's elements in every receive buffer. -/
  | allGather (ring : Nat) (index : Nat)
  /-- BROADCAST (R556): A COLLECTIVE BROADCAST copies the ROOT's buffer to every participant. -/
  | broadcast (ring : Nat) (index : Nat)
  /-- CONVERT (R354): The layout crane converts and relayouts a tensor of up to five dimensions. -/
  | convert (ring : Nat) (index : Nat)
  /-- CRANE_GATHER (R357): The gather crane copies indexed table rows. -/
  | craneGather (ring : Nat) (index : Nat)
  /-- CRANE_BAGSUM (R359): The gather crane sums bags of table rows. -/
  | craneBagsum (ring : Nat) (index : Nat)
  /-- CRANE_SCATTER_ADD (R360): The gather crane adds rows into a warehouse table. -/
  | craneScatterAdd (ring : Nat) (index : Nat)
  /-- STREAM (R362): The decompression crane expands a chunked stream. -/
  | stream (ring : Nat) (index : Nat)
  /-- SPARSE28 (R363): The decompression crane expands 2:8 sparse groups. -/
  | sparse28 (ring : Nat) (index : Nat)
  /-- SORT_ASC (R365): The sort crane sorts keys ascending and stably. -/
  | sortAsc (ring : Nat) (index : Nat)
  /-- SORT_DESC (R365): The sort crane sorts keys descending and stably. -/
  | sortDesc (ring : Nat) (index : Nat)
  /-- TOPK_MAX (R365): The sort crane writes the k greatest keys. -/
  | topkMax (ring : Nat) (index : Nat)
  /-- TOPK_MIN (R365): The sort crane writes the k least keys. -/
  | topkMin (ring : Nat) (index : Nat)
  /-- FFT (R369): The FFT crane transforms a complex array of up to three dimensions. -/
  | fft (ring : Nat) (index : Nat)
  /-- RANDOM_U32 (R371): The random crane writes 32-bit random values. -/
  | randomU32 (ring : Nat) (index : Nat)
  /-- RANDOM_U64 (R371): The random crane writes 64-bit random values. -/
  | randomU64 (ring : Nat) (index : Nat)
  /-- UNIFORM_F32 (R371): The random crane writes uniform F32 values. -/
  | uniformF32 (ring : Nat) (index : Nat)
  /-- UNIFORM_F64 (R371): The random crane writes uniform F64 values. -/
  | uniformF64 (ring : Nat) (index : Nat)
  /-- NORMAL_F32 (R371): The random crane writes normal F32 values. -/
  | normalF32 (ring : Nat) (index : Nat)
  /-- BERNOULLI (R371): The random crane writes Bernoulli bits. -/
  | bernoulli (ring : Nat) (index : Nat)
  /-- SHA3_256 (R372): The digest crane computes SHA3-256 over a range list. -/
  | sha3256 (ring : Nat) (index : Nat)
  /-- CRC32C (R372): The digest crane computes CRC-32C over a range list. -/
  | crc32c (ring : Nat) (index : Nat)
  /-- BLOCKMAX (R373): The scale-scan crane writes block scales. -/
  | blockmax (ring : Nat) (index : Nat)
  /-- ANCHOR (R374): The scale-scan crane computes a covering tally anchor. -/
  | anchor (ring : Nat) (index : Nat)
  /-- HIST (R375): The scale-scan crane writes an exponent histogram. -/
  | hist (ring : Nat) (index : Nat)
  /-- CRANE_FENCE (R349): A crane with an internal error, or with 1 ms without progress, is fenced and its items are failed or reassigned. -/
  | craneFence (deck : Nat) (kind : Nat)
  /-- AXPY (R394): Wharf engines set y to a·x + y. -/
  | axpy (ring : Nat) (index : Nat)
  /-- SCALE (R394): Wharf engines set y to a·y. -/
  | scale (ring : Nat) (index : Nat)
  /-- REDUCE_ADD (R395): Wharf engines add x into y, in float or by tally addition. -/
  | reduceAdd (ring : Nat) (index : Nat)
  /-- OPTIM_MOMENTUM (R400): The shipped momentum optimizer in slot 0 updates θ. -/
  | optimMomentum (ring : Nat) (index : Nat)
  /-- OPTIM_ADAPTIVE (R400): The shipped adaptive optimizer in slot 1 updates θ. -/
  | optimAdaptive (ring : Nat) (index : Nat)
  /-- OPTIM_FACTORED (R401): The shipped factored optimizer in slot 2 updates θ in three passes. -/
  | optimFactored (ring : Nat) (index : Nat)
  /-- OPTIM_LOADED_SLOT (R399): An optimizer loaded from the image into slots 3–15 updates θ. -/
  | optimLoadedSlot (ring : Nat) (index : Nat)
  /-- WHARF_GATHER (R398): Wharf engines gather table rows held in the pool. -/
  | wharfGather (ring : Nat) (index : Nat)
  /-- WHARF_BAGSUM (R398): Wharf engines sum bags of pool table rows. -/
  | wharfBagsum (ring : Nat) (index : Nat)
  /-- WHARF_SCATTER_ADD (R398): Wharf engines add rows into a pool table. -/
  | wharfScatterAdd (ring : Nat) (index : Nat)
  /-- FILL (R397): Wharf engines write a pattern to n words. -/
  | fill (ring : Nat) (index : Nat)
  /-- COPY (R397): Wharf engines copy n words. -/
  | copy (ring : Nat) (index : Nat)
  /-- WAVE_READ_PHASE (R380): A complex reads and locks the operand lines of its part of a wave. -/
  | waveReadPhase (ring : Nat) (index : Nat) (stack : Nat) (wave : Nat)
  /-- WAVE_WRITE_PHASE (R380): Once every complex has finished the read phases up to this wave, a complex writes the wave's results. -/
  | waveWritePhase (ring : Nat) (index : Nat) (stack : Nat) (wave : Nat)
  /-- WHARF_FENCE (R408): A complex with an error, or with 1 ms without progress, is fenced and its far atomics go to the fallback unit. -/
  | wharfFence (stack : Nat)
  /-- FAR_ADD (R404): The far-atomic unit performs an integer add. -/
  | farAdd (a : AtomicReq)
  /-- FAR_FADD (R404): The far-atomic unit performs a float add. -/
  | farFadd (a : AtomicReq)
  /-- FAR_MIN (R404): The far-atomic unit performs a signed minimum. -/
  | farMin (a : AtomicReq)
  /-- FAR_MAX (R404): The far-atomic unit performs a signed maximum. -/
  | farMax (a : AtomicReq)
  /-- FAR_MINU (R404): The far-atomic unit performs an unsigned minimum. -/
  | farMinu (a : AtomicReq)
  /-- FAR_MAXU (R404): The far-atomic unit performs an unsigned maximum. -/
  | farMaxu (a : AtomicReq)
  /-- FAR_AND (R404): The far-atomic unit performs a bitwise AND. -/
  | farAnd (a : AtomicReq)
  /-- FAR_OR (R404): The far-atomic unit performs a bitwise OR. -/
  | farOr (a : AtomicReq)
  /-- FAR_XOR (R404): The far-atomic unit performs a bitwise XOR. -/
  | farXor (a : AtomicReq)
  /-- FAR_SWAP (R404): The far-atomic unit performs a swap. -/
  | farSwap (a : AtomicReq)
  /-- FAR_CAS (R404): The far-atomic unit performs a compare and swap. -/
  | farCas (a : AtomicReq)
  /-- WAREHOUSE_ADD (R107): A warehouse bank unit performs an integer add. -/
  | warehouseAdd (a : AtomicReq)
  /-- WAREHOUSE_FADD (R107): A warehouse bank unit performs a float add. -/
  | warehouseFadd (a : AtomicReq)
  /-- WAREHOUSE_MIN_MAX (R107): A warehouse bank unit performs a minimum or maximum. -/
  | warehouseMinMax (op : MinMaxOp) (a : AtomicReq)
  /-- WAREHOUSE_AND_OR_XOR (R107): A warehouse bank unit performs a bitwise operation. -/
  | warehouseAndOrXor (op : BitOp) (a : AtomicReq)
  /-- WAREHOUSE_SWAP (R107): A warehouse bank unit performs a swap. -/
  | warehouseSwap (a : AtomicReq)
  /-- WAREHOUSE_CAS (R107): A warehouse bank unit performs a compare and swap. -/
  | warehouseCas (a : AtomicReq)
  /-- RADD_H16_F32 (R107): A warehouse bank unit reduce-adds an H16 or F32 value. -/
  | raddH16F32 (a : AtomicReq)
  /-- RADD_T128 (R107): A warehouse bank unit adds a 128-bit phase sub-sum. -/
  | raddT128 (a : AtomicReq) (hi : W64) (lo : W64)
  /-- POOL_ACCESS (R99): A read or write reaches its stack and pseudo-channel and is checked and corrected there. -/
  | poolAccess (a : PhysAccess)
  /-- WAREHOUSE_ACCESS (R105): A read or write is performed at a warehouse bank after arbitration. -/
  | warehouseAccess (deck : Nat) (bank : Nat) (cranes : List ArbRequest) (a : PhysAccess)
  /-- LOCAL_MEMORY_ACCESS (R198): A requester's access is performed at a local-memory bank in issue order. -/
  | localMemoryAccess (t : Nat) (bank : Nat) (input : Nat) (a : PhysAccess)
  /-- BANK_WATCHDOG_RESET (R196): A grant held for more than 65,536 cycles resets its requester and kills the context of its work. -/
  | bankWatchdogReset (bank : BankId)
  /-- ROW_SPARE (R125): A row is copied through correction into a spare row, and accesses to it wait until the copy ends. -/
  | rowSpare (row : RowId)
  /-- PATROL_SCRUB (R122): Patrol scrub reads lines and words at the lowest arbiter input and corrects or poisons them. -/
  | patrolScrub (unit : ScrubUnit) (addr : Nat) (ecc : Ecc)
  /-- SCRUB_PASS_DONE (R123): A finished HBM patrol pass is logged. -/
  | scrubPassDone (unit : ScrubUnit)
  /-- SCRUB_LATE (R123): A scrub pass not finished within twice its period is logged. -/
  | scrubLate (unit : ScrubUnit)
  /-- TRANSIT_FILL (R505): A transit-cache miss fill arrives and the line is allocated, or refused when a half is poisoned. -/
  | transitFill (lc : Nat) (line : Nat) (f : TcFill)
  /-- SEGMENT_DESCRIPTOR_LOAD (R462): A missing segment descriptor is read through the hub into a translation cache and checked. -/
  | segmentDescriptorLoad (holder : Holder) (ctx : Nat) (seg : Nat)
  /-- PAGE_WALK (R469): A walker reads a page entry and returns it to every translation cache that missed on it. -/
  | pageWalk (holder : Holder) (ctx : Nat) (seg : Nat) (page : Nat)
  /-- TEARDOWN (R481): Writing TEARDOWN to SEG_CTX_CMD stops a context's rings and items and releases its state. -/
  | teardown (hart : Nat) (ctx : Nat)
  /-- CTX_TEARDOWN_DONE (R481): Once drained, the teardown clears the fault record and returns the context to LIVE. -/
  | ctxTeardownDone (ctx : Nat)
  /-- CC_LOAD (R207): A control-core load is decoded, translated and performed. -/
  | ccLoad (t : Nat)
  /-- CC_STORE (R201): A control-core store is posted to its store queue. -/
  | ccStore (t : Nat)
  /-- CC_AMO (R204): A control-core AMO is performed at the home of its address. -/
  | ccAmo (t : Nat)
  /-- CC_LR_SC (R203): An LR or SC is performed on own local memory only. -/
  | ccLrSc (t : Nat)
  /-- CC_FENCE (R205): A FENCE orders the control core's own loads and stores. -/
  | ccFence (t : Nat)
  /-- CC_FENCE_I (R205): A FENCE.I invalidates the instruction cache. -/
  | ccFenceI (t : Nat)
  /-- ECALL (R211): An ECALL ends its tile program, or its thread in a gang. -/
  | ecall (t : Nat)
  /-- EBREAK (R214): An EBREAK halts under authorised debug and traps otherwise. -/
  | ebreak (t : Nat)
  /-- X_MMA (R223): An X.MMA reads and checks a job descriptor and returns a token. -/
  | xMma (t : Nat)
  /-- MATRIX_JOB_START (R246): A job begins reading its operands once its SERIAL or ordering wait ends. -/
  | matrixJobStart (t : Nat) (seq : Nat)
  /-- MATRIX_JOB_COMPLETE (R245): A job completes after every output and every earlier job. -/
  | matrixJobComplete (t : Nat) (seq : Nat)
  /-- X_WAIT (R226): An X.WAIT waits for a job and returns its cycles. -/
  | xWait (t : Nat)
  /-- X_STAT_COUNTS (R227): An X.STAT with selector 0 returns a job's counts. -/
  | xStatCounts (t : Nat)
  /-- X_STAT_PROGRESS (R227): An X.STAT with selector 1 returns a job's output blocks written. -/
  | xStatProgress (t : Nat)
  /-- X_STAT_STATE (R227): An X.STAT with selector 2 returns a job's state. -/
  | xStatState (t : Nat)
  /-- V_ADD (R265): Vector integer add. -/
  | vAdd (t : Nat)
  /-- V_SUB (R265): Vector integer subtract. -/
  | vSub (t : Nat)
  /-- V_MUL (R265): Vector integer multiply, low bits. -/
  | vMul (t : Nat)
  /-- V_MIN (R265): Vector signed minimum. -/
  | vMin (t : Nat)
  /-- V_MAX (R265): Vector signed maximum. -/
  | vMax (t : Nat)
  /-- V_MINU (R265): Vector unsigned minimum. -/
  | vMinu (t : Nat)
  /-- V_MAXU (R265): Vector unsigned maximum. -/
  | vMaxu (t : Nat)
  /-- V_AND (R265): Vector bitwise AND. -/
  | vAnd (t : Nat)
  /-- V_OR (R265): Vector bitwise OR. -/
  | vOr (t : Nat)
  /-- V_XOR (R265): Vector bitwise XOR. -/
  | vXor (t : Nat)
  /-- V_SLL (R265): Vector logical shift left. -/
  | vSll (t : Nat)
  /-- V_SRL (R265): Vector logical shift right. -/
  | vSrl (t : Nat)
  /-- V_SRA (R265): Vector arithmetic shift right. -/
  | vSra (t : Nat)
  /-- V_MOV (R265): Vector move. -/
  | vMov (t : Nat)
  /-- V_SEL (R265): Vector select under m0. -/
  | vSel (t : Nat)
  /-- V_FADD (R269): Vector float add. -/
  | vFadd (t : Nat)
  /-- V_FSUB (R269): Vector float subtract. -/
  | vFsub (t : Nat)
  /-- V_FMUL (R269): Vector float multiply. -/
  | vFmul (t : Nat)
  /-- V_FMA (R269): Vector fused multiply-add. -/
  | vFma (t : Nat)
  /-- V_FNMS (R269): Vector fused negated multiply-subtract. -/
  | vFnms (t : Nat)
  /-- V_FMIN (R265): Vector float minimumNumber. -/
  | vFmin (t : Nat)
  /-- V_FMAX (R265): Vector float maximumNumber. -/
  | vFmax (t : Nat)
  /-- V_FDIV (R269): Vector float divide. -/
  | vFdiv (t : Nat)
  /-- V_FABS (R265): Vector float absolute value. -/
  | vFabs (t : Nat)
  /-- V_FNEG (R265): Vector float negate. -/
  | vFneg (t : Nat)
  /-- V_CMPEQ (R265): Vector integer equality compare into a mask. -/
  | vCmpeq (t : Nat)
  /-- V_CMPLT (R265): Vector signed less-than compare into a mask. -/
  | vCmplt (t : Nat)
  /-- V_CMPLTU (R265): Vector unsigned less-than compare into a mask. -/
  | vCmpltu (t : Nat)
  /-- V_FCMPEQ (R265): Vector float equality compare into a mask. -/
  | vFcmpeq (t : Nat)
  /-- V_FCMPLT (R265): Vector float less-than compare into a mask. -/
  | vFcmplt (t : Nat)
  /-- V_FCMPLE (R265): Vector float less-or-equal compare into a mask. -/
  | vFcmple (t : Nat)
  /-- V_MAND (R265): Mask AND. -/
  | vMand (t : Nat)
  /-- V_MOR (R265): Mask OR. -/
  | vMor (t : Nat)
  /-- V_MXOR (R265): Mask XOR. -/
  | vMxor (t : Nat)
  /-- V_MNOT (R265): Mask NOT. -/
  | vMnot (t : Nat)
  /-- V_MMV (R265): Mask move. -/
  | vMmv (t : Nat)
  /-- V_CVTIF (R265): Vector conversion from integer to float. -/
  | vCvtif (t : Nat)
  /-- V_CVTFI (R271): Vector conversion from float to integer, saturating. -/
  | vCvtfi (t : Nat)
  /-- V_CVTFF (R266): Vector conversion from float to float. -/
  | vCvtff (t : Nat)
  /-- V_REDROW (R281): Row reduction of a tile register. -/
  | vRedrow (t : Nat)
  /-- V_REDCOL (R281): Column reduction of a tile register. -/
  | vRedcol (t : Nat)
  /-- V_SUMX (R287): Sum of the active elements into a scalar register. -/
  | vSumx (t : Nat)
  /-- V_MAXX (R287): Maximum of the active elements into a scalar register. -/
  | vMaxx (t : Nat)
  /-- V_ANY (R265): Test whether any mask bit is set. -/
  | vAny (t : Nat)
  /-- V_ALL (R265): Test whether all mask bits are set. -/
  | vAll (t : Nat)
  /-- V_SETA (R266): Set TANCHOR. -/
  | vSeta (t : Nat)
  /-- V_CNT (R265): Read the vector counts. -/
  | vCnt (t : Nat)
  /-- V_SEED (R270): Set SEED and SRC. -/
  | vSeed (t : Nat)
  /-- V_SETL (R259): Set VL, EW, ROUND and FLUSH. -/
  | vSetl (t : Nat)
  /-- V_LD (R273): Vector strided load. -/
  | vLd (t : Nat)
  /-- V_ST (R273): Vector strided store. -/
  | vSt (t : Nat)
  /-- V_LDX (R274): Vector indexed load. -/
  | vLdx (t : Nat)
  /-- V_STX (R274): Vector indexed store. -/
  | vStx (t : Nat)
  /-- V_OCLD (R278): Load an operand-cache slot into a register. -/
  | vOcld (t : Nat)
  /-- V_OCEV (R278): Write a register to an operand-cache slot. -/
  | vOcev (t : Nat)
  /-- V_LUT (R296): Table lookup. -/
  | vLut (t : Nat)
  /-- V_LUTLD (R297): Load the lookup table. -/
  | vLutld (t : Nat)
  /-- V_NORM (R299): Row mean and variance. -/
  | vNorm (t : Nat)
  /-- V_SMEXP (R301): Softmax exponent step. -/
  | vSmexp (t : Nat)
  /-- V_SMDIV (R302): Softmax scale step. -/
  | vSmdiv (t : Nat)
  /-- V_SF_EXP2 (R289): Special function 2^x. -/
  | vSfExp2 (t : Nat)
  /-- V_SF_LOG2 (R289): Special function log2 x. -/
  | vSfLog2 (t : Nat)
  /-- V_SF_RECIP (R289): Special function 1/x. -/
  | vSfRecip (t : Nat)
  /-- V_SF_RSQRT (R289): Special function 1/sqrt x. -/
  | vSfRsqrt (t : Nat)
  /-- V_SF_SQRT (R289): Special function sqrt x. -/
  | vSfSqrt (t : Nat)
  /-- V_SF_SIN (R289): Special function sin x. -/
  | vSfSin (t : Nat)
  /-- V_SF_COS (R289): Special function cos x. -/
  | vSfCos (t : Nat)
  /-- V_SF_TANH (R289): Special function tanh x. -/
  | vSfTanh (t : Nat)
  /-- V_SF_SIGMOID (R289): Special function sigmoid. -/
  | vSfSigmoid (t : Nat)
  /-- V_SF_ERF (R289): Special function erf x. -/
  | vSfErf (t : Nat)
  /-- V_SF_EXP (R289): Special function e^x. -/
  | vSfExp (t : Nat)
  /-- V_SF_LOG (R289): Special function ln x. -/
  | vSfLog (t : Nat)
  /-- V_SF_GELU (R289): Special function GELU. -/
  | vSfGelu (t : Nat)
  /-- V_SF_SILU (R289): Special function SILU. -/
  | vSfSilu (t : Nat)
  /-- V_SF_SINPI (R289): Special function sin πx. -/
  | vSfSinpi (t : Nat)
  /-- V_SF_COSPI (R289): Special function cos πx. -/
  | vSfCospi (t : Nat)
  /-- V_SF_IMAGE_SLOT (R289): A special function loaded from the image into slots 16–63. -/
  | vSfImageSlot (t : Nat)
  /-- G_BAR (R319): Threads wait at a barrier, and the barrier completes when every live thread waits at it. -/
  | gBar (t : Nat)
  /-- G_YIELD (R313): A thread yields, making its gang eligible for swap-out. -/
  | gYield (t : Nat)
  /-- G_EXIT (R332): Threads end, and their gang and tile end when all threads have ended. -/
  | gExit (t : Nat)
  /-- G_VOTE_ANY (R323): Vote whether any thread of the group has a non-zero value. -/
  | gVoteAny (t : Nat)
  /-- G_VOTE_ALL (R323): Vote whether every thread of the group has a non-zero value. -/
  | gVoteAll (t : Nat)
  /-- G_VOTE_BALLOT (R323): Ballot of the group's non-zero values. -/
  | gVoteBallot (t : Nat)
  /-- G_SHFL (R323): Shuffle of integer registers within the group. -/
  | gShfl (t : Nat)
  /-- G_SHFL_F (R323): Shuffle of float registers within the group. -/
  | gShflF (t : Nat)
  /-- U_GET (R324): Copy the lowest thread's value to a uniform register. -/
  | uGet (t : Nat)
  /-- U_PUT (R324): Copy a uniform register to every thread of the group. -/
  | uPut (t : Nat)
  /-- U_ADD (R336): Uniform add. -/
  | uAdd (t : Nat)
  /-- U_SUB (R336): Uniform subtract. -/
  | uSub (t : Nat)
  /-- U_AND (R336): Uniform AND. -/
  | uAnd (t : Nat)
  /-- U_OR (R336): Uniform OR. -/
  | uOr (t : Nat)
  /-- U_XOR (R336): Uniform XOR. -/
  | uXor (t : Nat)
  /-- U_SLL (R336): Uniform logical shift left. -/
  | uSll (t : Nat)
  /-- U_SRL (R336): Uniform logical shift right. -/
  | uSrl (t : Nat)
  /-- U_SRA (R336): Uniform arithmetic shift right. -/
  | uSra (t : Nat)
  /-- U_SLT (R336): Uniform signed set-less-than. -/
  | uSlt (t : Nat)
  /-- U_SLTU (R336): Uniform unsigned set-less-than. -/
  | uSltu (t : Nat)
  /-- U_MUL (R336): Uniform multiply. -/
  | uMul (t : Nat)
  /-- U_ADDI (R336): Uniform add immediate. -/
  | uAddi (t : Nat)
  /-- U_BEQ (R324): Uniform branch if equal. -/
  | uBeq (t : Nat)
  /-- U_BNE (R324): Uniform branch if not equal. -/
  | uBne (t : Nat)
  /-- U_BLT (R324): Uniform branch if less than. -/
  | uBlt (t : Nat)
  /-- U_BGE (R324): Uniform branch if greater or equal. -/
  | uBge (t : Nat)
  /-- G_AMO_ADD (R328): Gang atomic integer add, combined per issue. -/
  | gAmoAdd (t : Nat)
  /-- G_AMO_FADD (R328): Gang atomic float add. -/
  | gAmoFadd (t : Nat)
  /-- G_AMO_MIN (R328): Gang atomic signed minimum. -/
  | gAmoMin (t : Nat)
  /-- G_AMO_MAX (R328): Gang atomic signed maximum. -/
  | gAmoMax (t : Nat)
  /-- G_AMO_MINU (R328): Gang atomic unsigned minimum. -/
  | gAmoMinu (t : Nat)
  /-- G_AMO_MAXU (R328): Gang atomic unsigned maximum. -/
  | gAmoMaxu (t : Nat)
  /-- G_AMO_AND (R328): Gang atomic AND. -/
  | gAmoAnd (t : Nat)
  /-- G_AMO_OR (R328): Gang atomic OR. -/
  | gAmoOr (t : Nat)
  /-- G_AMO_XOR (R328): Gang atomic XOR. -/
  | gAmoXor (t : Nat)
  /-- G_AMO_SWAP (R328): Gang atomic swap. -/
  | gAmoSwap (t : Nat)
  /-- G_AMO_CAS (R328): Gang atomic compare and swap. -/
  | gAmoCas (t : Nat)
  /-- THREAD_LR_SC (R331): A thread's LR or SC on own local memory, one reservation per thread. -/
  | threadLrSc (t : Nat)
  /-- THREAD_MEMORY_ACCESS (R326): A thread load or store is decoded and performed. -/
  | threadMemoryAccess (t : Nat)
  /-- GANG_SWAP_OUT (R313): An active gang is swapped out when a pending gang is ready and a swap condition holds. -/
  | gangSwapOut (t : Nat) (gang : Nat)
  /-- GANG_SWAP_IN (R315): After the frame bursts, the earliest ready pending gang takes the freed place. -/
  | gangSwapIn (t : Nat)
  /-- SCRUB (R646): Maintenance scrub makes one immediate patrol pass. -/
  | scrub (ring : Nat) (index : Nat) (r : MaintResult)
  /-- HBM_RETRAIN (R646): Maintenance retrains a stack's pseudo-channels one at a time. -/
  | hbmRetrain (ring : Nat) (index : Nat) (r : MaintResult)
  /-- D2D_RETRAIN (R646): Maintenance retrains a link's modules one at a time. -/
  | d2dRetrain (ring : Nat) (index : Nat) (r : MaintResult)
  /-- LANE_RECAL (R646): Maintenance moves each Hawser lane onto a spare and back. -/
  | laneRecal (ring : Nat) (index : Nat) (r : MaintResult)
  /-- AGEING (R646): Maintenance remeasures a die's ageing and updates the ledger. -/
  | ageing (ring : Nat) (index : Nat) (r : MaintResult)
  /-- FLASH_WRITE (R646): Maintenance writes and verifies a new image in flash. -/
  | flashWrite (ring : Nat) (index : Nat) (r : MaintResult)
  /-- SECURE_ERASE (R407): Maintenance zeroes and reads back a range. -/
  | secureErase (ring : Nat) (index : Nat) (r : MaintResult)
  /-- LOG_EXPORT (R646): Maintenance copies logbook or vault records to memory. -/
  | logExport (ring : Nat) (index : Nat) (r : MaintResult)
  /-- SPARE_TEST (R646): Maintenance schedules a spare self-test at the next DEV_WARM. -/
  | spareTest (ring : Nat) (index : Nat) (r : MaintResult)
  /-- REPAIR (R34): Maintenance fuses a repair record that substitutes a spare for a fenced die. -/
  | repair (ring : Nat) (index : Nat) (r : MaintResult)
  /-- PAGE_RETIRE (R646): Maintenance adds a retirement entry. -/
  | pageRetire (ring : Nat) (index : Nat) (r : MaintResult)
  /-- LEDGER_CLEAR (R643): Maintenance removes ledger entries, if the BMC has armed the removal. -/
  | ledgerClear (ring : Nat) (index : Nat) (r : MaintResult)
  /-- ATTEST (R618): Maintenance writes signed attestation evidence. -/
  | attest (ring : Nat) (index : Nat) (r : MaintResult)
  /-- MODULE_TRAINING_DONE (R48): An end finishes training a UCIe module at full, degraded or failed width. -/
  | moduleTrainingDone (link : LinkId) (far : Bool) (module : Nat) (width : Nat)
  /-- WIDTH_EXCHANGE (R49): The ends exchange per-module width vectors over the sideband and adopt the narrower widths. -/
  | widthExchange (link : LinkId)
  /-- D2D_LINK_DOWN (R53): An in-package link leaving ACTIVE moves its packets to REROUTE channels and triggers new tables. -/
  | d2dLinkDown (link : LinkId)
  /-- HOST_LINK_TIMEOUT (R57): A hub–host link out of ACTIVE for 750 µs begins a HOST_ONLY reset. -/
  | hostLinkTimeout
  /-- PORT_TRAINING_DONE (R528): A Hawser port finishes admission and training and enters ACTIVE, MISWIRED, OE_REFUSED or NO_LASER. -/
  | portTrainingDone (port : Nat) (r : PortTraining)
  /-- LANE_SPARE (R525): A lane that loses lock or errs replaces itself with a spare. -/
  | laneSpare (port : Nat) (lane : Nat)
  /-- PORT_DOWN (R540): A port going DOWN discards its queues, overrides its direction and sends a LINK_NOTICE. -/
  | portDown (port : Nat) (cause : Nat)
  /-- LASER_MODULE_FAULT (R530): A laser module removed or failing takes its port DOWN. -/
  | laserModuleFault (port : Nat) (status : Nat)
  /-- LINK_RETRY (R523): A flit that fails its CRC is requested again and resent from the retry buffer. -/
  | linkRetry (port : Nat) (seq : Nat)
  /-- OE_FILTERED (R529): A breakwater stage drops a non-link message from an optical engine. -/
  | oeFiltered (port : Nat) (kind : Nat)
  /-- MESSAGE_FORWARD (R539): A message for another node is routed cut-through over the FWD class. -/
  | messageForward (port : Nat) (msg : LinkMsg)
  /-- PUT (R551): A received PUT message is performed at the remote home. -/
  | put (port : Nat) (msg : LinkMsg)
  /-- GET_REQ (R551): A received GET request reads remote data and returns it. -/
  | getReq (port : Nat) (msg : LinkMsg)
  /-- GET_DATA (R551): Returned GET data is written at the local VA. -/
  | getData (port : Nat) (msg : LinkMsg)
  /-- ATOMIC_REQ (R551): A received atomic request is performed at its home. -/
  | atomicReq (port : Nat) (msg : LinkMsg)
  /-- ATOMIC_RESP (R551): A returned old value is written at the local VA. -/
  | atomicResp (port : Nat) (msg : LinkMsg)
  /-- ACK (R548): A cumulative acknowledgement advances the connection or reports a failed check. -/
  | ack (port : Nat) (msg : LinkMsg)
  /-- OPEN (R546): A received OPEN is accepted when the mirror entry is OPENING, or is answered NOT_READY. -/
  | openMsg (port : Nat) (msg : LinkMsg)
  /-- OPEN_ACK (R546): A received OPEN_ACK establishes the connection or notes NOT_READY. -/
  | openAck (port : Nat) (msg : LinkMsg)
  /-- CLOSE (R549): A received CLOSE makes the connection LOST. -/
  | close (port : Nat) (msg : LinkMsg)
  /-- COLL_DATA (R557): A collective chunk is received and reduced or placed. -/
  | collData (port : Nat) (msg : LinkMsg)
  /-- COLL_SYNC (R558): A collective's parameters are compared, or an abort is received. -/
  | collSync (port : Nat) (msg : LinkMsg)
  /-- LINK_NOTICE (R541): A LINK_NOTICE is forwarded, and the node stages a detour table. -/
  | linkNotice (port : Nat) (msg : LinkMsg)
  /-- RETRANSMIT_TIMEOUT (R548): RTO_US without progress resends unacknowledged messages or OPEN. -/
  | retransmitTimeout (conn : Nat)
  /-- COLL_TIMEOUT (R558): A participant waiting COLL_TIMEOUT_MS aborts the collective with FAIL_LINK. -/
  | collTimeout (ring : Nat) (index : Nat)
  /-- CONN_OPEN (R546): Writing OPEN to HAW_CONN_CMD establishes a group entry or starts opening a point entry. -/
  | connOpen (hart : Nat) (conn : Nat)
  /-- CONN_CLOSE (R550): Writing CLOSE makes the entry LOST and sends CLOSE. -/
  | connClose (hart : Nat) (conn : Nat)
  /-- ROUTE_SWAP (R542): Writing SWAP stages a dimension's inactive routing table for the next tick. -/
  | routeSwap (hart : Nat) (dims : Nat)
  /-- RETRAIN (R530): Writing RETRAIN retrains a port from scratch and rereads its laser module. -/
  | retrain (hart : Nat) (port : Nat) (laser : Nat)
  /-- DISABLE (R531): Writing DISABLE holds the port in DISABLED. -/
  | disable (hart : Nat) (port : Nat)
  /-- LOCKKEEPER_DECISION (R567): At 7/8 of the tide the lockkeeper fixes the allocation and operating points for the next tide. -/
  | lockkeeperDecision (d : Prediction)
  /-- PMB_ALERT (R572): PMB_ALERT_N assertion makes the device read and clear the VRM status and throttle, fence or stop. -/
  | pmbAlert (rail : Nat) (off : Bool) (status : Nat)
  /-- DROOP_DETECTED (R580): A droop stretches the cluster's clock to 1.5 cycles. -/
  | droopDetected (lc : Nat)
  /-- DROOP_RELEASE (R580): After 64 droop-free cycles the stretch is released. -/
  | droopRelease (lc : Nat)
  /-- AGEING_UPDATE (R579): Once per second, ageing drift updates the voltage offset and may derate the effective maximum. -/
  | ageingUpdate (offsets : List Nat)
  /-- THERMAL_TRIP (R587): A sensor reaching 115 °C asserts THERMTRIP_N and stops clocks. -/
  | thermalTrip (locator : Nat) (celsius : Nat)
  /-- CAP_NOW_ASSERT (R588): CAP_NOW_N assertion sets every compute die to 350 MHz. -/
  | capNowAssert (pulseNs : Nat)
  /-- CAP_NOW_DEASSERT (R588): CAP_NOW_N release lets normal decisions resume. -/
  | capNowDeassert
  /-- PKG_POR_N_ASSERT (R688): PKG_POR_N assertion stops clocks and holds every unit in reset. -/
  | pkgPorNAssert
  /-- PKG_POR_N_DEASSERT (R594): PKG_POR_N deassertion begins start-up with the fuse load. -/
  | pkgPorNDeassert
  /-- IDENTITY_SWEEP (R596): P1 reads the attached modules and adapts the device. -/
  | identitySweep (r : Sweep)
  /-- IMAGE_VERIFICATION (R601): P2 verifies and loads the configuration image. -/
  | imageVerification (readError : Bool)
  /-- BRING_UP (R594): P3 trains links and HBM, self-tests dies and zeroes memory. -/
  | bringUp (r : BringUp)
  /-- HOST_RELEASE (R594): P4 places HOST_FW, opens registers, releases the host die and starts ticks. -/
  | hostRelease
  /-- DEV_WARM (R628): A DEV_WARM request accounts for every item and then resets, keeping fuses. -/
  | devWarm
  /-- PKG_COLD (R628): A PKG_COLD request accounts for every item and then resets everything but the always-on island. -/
  | pkgCold
  /-- HUB_WDT_EXPIRY (R631): A firmware watchdog channel expires and requests a DEV_WARM. -/
  | hubWdtExpiry (channel : Nat)
  /-- COMPUTE_DIE_FENCE (R626): A failing compute die is fenced and its launches complete FAIL_HW. -/
  | computeDieFence (ld : Nat) (cause : Nat)
  /-- UNIT_RESET (R634): A write to MNT_UNIT_RESET resets an idle tile, cluster or crane. -/
  | unitReset (hart : Nat) (locator : Nat)
  /-- PORT_RESET (R635): A write to MNT_PORT_RESET resets a die-to-die link or a Hawser port. -/
  | portReset (hart : Nat) (locator : Nat) (slot : Nat)
  /-- CLUSTER_GATE (R636): A cluster idle for IDLE_TIDES tides is gated. -/
  | clusterGate (lc : Nat)
  /-- CLUSTER_UNGATE (R636): A launch or window access wakes a gated cluster. -/
  | clusterUngate (lc : Nat)
  /-- DECK_RETENTION_ENTER (R637): A permitted idle deck enters retention. -/
  | deckRetentionEnter (deck : Nat)
  /-- DECK_RETENTION_EXIT (R637): A deck leaves retention when work or an access arrives or its bit clears. -/
  | deckRetentionExit (deck : Nat) (tookUs : Nat)
  /-- PKG_IDLE_ENTER (R638): The package enters PKG_IDLE once requested and quiescent. -/
  | pkgIdleEnter
  /-- PKG_IDLE_EXIT (R638): A bell write, pool access or clear of PKG_IDLE ends the state. -/
  | pkgIdleExit (cause : Nat) (tookUs : Nat)
  /-- HOST_CMD_RESET (R513): Writing MNT_HOST_CMD.RESET begins a HOST_ONLY reset. -/
  | hostCmdReset (hart : Nat)
  /-- HOST_DIE_INTERNAL_ERROR (R512): An uncorrectable host-die error begins a HOST_ONLY reset. -/
  | hostDieInternalError
  /-- HOST_RESET_QUIESCENT (R514): When the last admitted item has its record, QUIESCENT is set. -/
  | hostResetQuiescent
  /-- RESUME (R516): Writing RESUME moves HELD rings back to ACTIVE and sends pending MSIs. -/
  | resume (hart : Nat)
  /-- GETS (R497): A home serves a read for a readable copy. -/
  | gets (agent : Nat) (line : Nat)
  /-- GETM (R497): A home serves a read with ownership. -/
  | getm (agent : Nat) (line : Nat)
  /-- CLAIM (R497): A home grants ownership without data. -/
  | claim (agent : Nat) (line : Nat)
  /-- LOOK (R497): A home serves a coherent read that keeps no copy. -/
  | look (agent : Nat) (line : Nat)
  /-- PUTFULL (R497): A home performs a full-line I/O write and removes cached copies. -/
  | putfull (agent : Nat) (line : Nat) (data : List Byte)
  /-- ATOMICHOME (R502): A home performs an atomic operation. -/
  | atomichome (agent : Nat) (pa : Nat) (size : Nat) (op : AtomicOp) (operand : Nat) (compare : Nat)
  /-- CLEAN (R497): A home takes dirty data while the requester keeps a clean copy. -/
  | clean (agent : Nat) (line : Nat)
  /-- PURGE (R497): A home writes back dirty data and removes every copy. -/
  | purge (agent : Nat) (line : Nat)
  /-- DISCARD (R497): A home removes every copy without write-back. -/
  | discard (agent : Nat) (line : Nat)
  /-- PROBESHARE (R497): A holder keeps a readable copy and forwards its data. -/
  | probeshare (agent : Nat) (line : Nat)
  /-- PROBETAKE (R497): A holder forwards its data and removes its copy. -/
  | probetake (agent : Nat) (line : Nat)
  /-- PROBECLEAN (R497): A holder writes back and keeps a clean copy. -/
  | probeclean (agent : Nat) (line : Nat)
  /-- PROBEDROP (R499): A holder removes its copy, and the bell monitor wakes the fetcher. -/
  | probedrop (agent : Nat) (line : Nat)
  /-- RETIRE (R497): An L2 evicts an M or O line with its data. -/
  | retire (agent : Nat) (line : Nat)
  /-- YIELD (R497): An L2 gives notice of an E-line eviction. -/
  | yield (agent : Nat) (line : Nat)
  /-- SNOOP_RESPONSE (R497): A probe acknowledgement or completion is received. -/
  | snoopResponse (agent : Nat) (line : Nat)
  /-- SNOOP_DATA (R497): Line data is received by its requester. -/
  | snoopData (agent : Nat) (line : Nat)
  /-- CBO_CLEAN (R500): A host CBO.CLEAN writes back a line. -/
  | cboClean (hart : Nat) (pa : Nat)
  /-- CBO_FLUSH (R500): A host CBO.FLUSH writes back a line and removes it. -/
  | cboFlush (hart : Nat) (pa : Nat)
  /-- CBO_INVAL (R500): A host CBO.INVAL invalidates a line, or flushes it where invalidation is not permitted. -/
  | cboInval (hart : Nat) (pa : Nat) (permitted : Bool)
  /-- HOST_ATOMIC (R502): A host atomic is performed in the L1, the home, a far unit or a bank. -/
  | hostAtomic (hart : Nat) (op : AtomicOp) (size : Nat) (cacheable : Bool) (pa : Nat) (operand : Nat) (compare : Nat)
  /-- HOST_LOAD (R490): A host load from the device spaces is performed, faulting on poisoned data. -/
  | hostLoad (hart : Nat) (pa : Nat) (size : Nat) (kind : AccessKind) (cacheable : Bool)
  /-- HOST_STORE (R490): A host store to the device spaces is performed. -/
  | hostStore (hart : Nat) (pa : Nat) (size : Nat) (kind : AccessKind) (cacheable : Bool) (value : W64)
  /-- INBOUND_REQUEST (R493): An inbound PCIe request is passed into an MSI file or bounce window, or is denied by the breakwater. -/
  | inboundRequest (port : Nat) (requester : Nat) (addr : InboundAddr) (len : Nat) (write : Option (List Byte))
  /-- FLASH_ACQUIRE (R608): Writing FLASH_ACQUIRE retakes the flash and resumes mirroring. -/
  | flashAcquire (hart : Nat)
  /-- FLASH_RELEASE (R608): Writing FLASH_RELEASE releases the flash interface. -/
  | flashRelease (hart : Nat)
  /-- DEBUG_LOCK (R617): Writing DEBUG_LOCK clears the debug scope. -/
  | debugLock (hart : Nat)
  /-- STAGE_MP (R609): Writing STAGE_MP verifies the image and stages new micro-program stores. -/
  | stageMp (hart : Nat)
  /-- NEW_NONCE (R613): Writing NEW_NONCE replaces the host channel's nonce. -/
  | newNonce (hart : Nat)
  /-- DEBUG_UNLOCK (R615): An accepted DEBUG_UNLOCK token adds debug scope bits. -/
  | debugUnlock (chan : Channel) (token : List Byte)
  /-- LOG_CLEAR (R654): An accepted LOG_CLEAR token erases the logbook. -/
  | logClear (chan : Channel) (token : List Byte)
  /-- OWNER_ENROL (R615): An accepted OWNER_ENROL token activates an owner slot. -/
  | ownerEnrol (chan : Channel) (token : List Byte)
  /-- OWNER_REVOKE (R615): An accepted OWNER_REVOKE token revokes an owner slot. -/
  | ownerRevoke (chan : Channel) (token : List Byte)
  /-- OWNER_ONLY (R615): An accepted OWNER_ONLY token refuses vendor keys from then on. -/
  | ownerOnly (chan : Channel) (token : List Byte)
  /-- GET_NONCE (R613): An MCTP GET_NONCE returns the BMC channel's nonce. -/
  | getNonce
  /-- GET_EVIDENCE (R618): An MCTP GET_EVIDENCE returns signed evidence. -/
  | getEvidence (nonce : List Byte)
  /-- REG_READ (R694): A BMC REG_READ returns a register over I3C. -/
  | regRead (offset : Nat)
  /-- REG_WRITE (R673): A BMC REG_WRITE writes only the fields open to the BMC. -/
  | regWrite (offset : Nat) (value : W64)
  /-- RESET (R694): A BMC RESET requests a DEV_WARM or a PKG_COLD. -/
  | reset (kind : Nat)
  /-- HOST_RESET (R512): A BMC HOST_RESET begins a HOST_ONLY reset. -/
  | hostReset
  /-- RETRY (R607): A BMC RETRY restarts a halted start-up at P1. -/
  | retry
  /-- ALERT_ACK (R691): A BMC ALERT_ACK releases DEV_ALERT_N unless a new cause has arisen. -/
  | alertAck
  /-- LEDGER_ARM_EXPIRY (R643): A ledger arm not used within 10 s lapses. -/
  | ledgerArmExpiry
  /-- LOG_INDEX_WRITE (R653): Writing LOG_INDEX latches a record into LOG_DATA_0–7. -/
  | logIndexWrite (hart : Nat) (value : W64)
  /-- HM_EVENT_VALUE_WRITE (R459): Writing HM_EVENT_VALUE sets the selected event as SIGNAL SET does. -/
  | hmEventValueWrite (hart : Nat) (value : W64)
  /-- RATE_WINDOW_END (R652): A code's rate window ends and a summary record carries its suppressed count. -/
  | rateWindowEnd (code : Nat)
  /-- VAULT_MIRROR (R656): A logbook record is copied into the current vault slot within 50 ms. -/
  | vaultMirror (ok : Bool)
  /-- LEDGER_FLASH_WRITE (R642): A ledger change is written to the older flash copy within 100 ms. -/
  | ledgerFlashWrite (ok : Bool)
  /-- REGISTER_WRITE (R663): A write to a register without a row of its own sets its fields or receives an error response. -/
  | registerWrite (hart : Nat) (offset : Nat) (value : W64)
  /-- LOSS_OF_POWER (R633): Package power, the always-on supply included, is lost; every clock stops and items in flight receive no records. -/
  | lossOfPower
  /-- CONTROL_CORE_INSTRUCTION (R201): The control core issues an integer, F or D arithmetic, branch, CSR or illegal instruction and retires it or traps. -/
  | controlCoreInstruction (turn : TileIssue)
  /-- GANG_THREAD_INSTRUCTION (R312): The gang processor issues an ordinary RV64IMAF instruction, a CSR access or an illegal instruction for one group of an active gang, choosing the group under R317. -/
  | gangThreadInstruction (turn : TileIssue)
  /-- HOST_DIE_LEAVES_RESET (R513): At the end of a HOST_ONLY reset the pilot has verified and placed HOST_FW, the hub–host link has retrained, and the host die leaves reset, or it stays in reset with HALT_CAUSE set. -/
  | hostDieLeavesReset
  deriving DecidableEq, Repr

end Sys2Proof
end

