-- ==== Sys2Proof/Decode.lean ====
section
/-! DEFINITION. The command that a word of the opcode table spells. No row of
spec/opcode_table.json gives its command any bits (every row's fields are empty), so no word spells
one; the encodings the manual does give, of the instructions that tiles and gangs run, are decoded
in Machine/Rv.lean. -/
namespace Sys2Proof

/-- The command a table word spells: none. -/
def decodeTableWord (_nbits _w : Nat) : Option Instr := none

end Sys2Proof
end

