-- ==== Sys2Proof/Machine/Tbl.lean ====
section
/-! DEFINITION. Sparse tables and byte order: reading and writing a `Tbl` in its canonical form, and
the little-endian layout of 00 R11 and R12. -/
namespace Sys2Proof.Machine

/-- The value of key `k`, `d` when it is not listed. -/
def tget {α : Type} (d : α) (t : List (Nat × α)) (k : Nat) : α :=
  match t with
  | [] => d
  | (j, v) :: rest => if j = k then v else tget d rest k

/-- Put `v` at key `k`, keeping the keys rising. -/
def tins {α : Type} (t : List (Nat × α)) (k : Nat) (v : α) : List (Nat × α) :=
  match t with
  | [] => [(k, v)]
  | (j, w) :: rest =>
    if k < j then (k, v) :: (j, w) :: rest
    else if j = k then (k, v) :: rest
    else (j, w) :: tins rest k v

/-- Put `v` at key `k`; `d` is what an unlisted key reads as and is never listed. -/
def tset {α : Type} [DecidableEq α] (d : α) (t : List (Nat × α)) (k : Nat) (v : α) : List (Nat × α) :=
  if v = d then t.filter (fun e => !(e.1 == k)) else tins t k v

/-- The keys of a table rise strictly and no entry holds the default. -/
def twf {α : Type} [DecidableEq α] (d : α) : List (Nat × α) → Bool
  | [] => true
  | [(_, v)] => decide (v ≠ d)
  | (j, v) :: (k, w) :: rest => decide (j < k) && decide (v ≠ d) && twf d ((k, w) :: rest)

/-- The canonical table with the same readings as `t` (the first entry of a key counts). -/
def tcanon {α : Type} [DecidableEq α] (d : α) (t : List (Nat × α)) : List (Nat × α) :=
  if twf d t then t else t.foldr (fun e acc => tset d acc e.1 e.2) []

/-- Little-endian value of bytes (00 R11). -/
def leNat : List Byte → Nat
  | [] => 0
  | b :: bs => b.toNat + 256 * leNat bs

/-- The `n` low bytes of a value, little-endian. -/
def leBytes : Nat → Nat → List Byte
  | 0, _ => []
  | n + 1, v => BitVec.ofNat 8 v :: leBytes n (v / 256)

/-- Words to bytes. -/
def wordsBytes (ws : List Nat) : List Byte := ws.flatMap (leBytes 8)

/-- Bits [hi:lo] of a value (00 R10). -/
def bits (v hi lo : Nat) : Nat := (v / 2 ^ lo) % 2 ^ (hi + 1 - lo)

/-- Bit `i` of a value. -/
def bit (v i : Nat) : Bool := v.testBit i

/-- `v` with bits [hi:lo] replaced by `x`. -/
def setBits (v hi lo x : Nat) : Nat :=
  v - bits v hi lo * 2 ^ lo + (x % 2 ^ (hi + 1 - lo)) * 2 ^ lo

/-- A Bool as a bit. -/
def b2n (b : Bool) : Nat := if b then 1 else 0

/-- The value of an `n`-bit two's-complement field. -/
def toInt (n v : Nat) : Int :=
  let u := v % 2 ^ n
  if u < 2 ^ (n - 1) then (u : Int) else (u : Int) - (2 ^ n : Nat)

/-- The `n`-bit two's-complement code of an integer. -/
def ofInt (n : Nat) (x : Int) : Nat := (x % (2 ^ n : Nat)).toNat

/-- The sign extension of an `n`-bit value to 64 bits. -/
def sext (n v : Nat) : W64 := BitVec.ofInt 64 (toInt n v)

/-- ⌈a / b⌉. -/
def cdiv (a b : Nat) : Nat := (a + b - 1) / b

/-- Numbers lo, lo+1, …, of which there are n. -/
def rangeFrom (lo n : Nat) : List Nat := (List.range n).map (lo + ·)

end Sys2Proof.Machine
end

