-- ==== Sys2Proof/Machine/Num.lean ====
section
/-! DEFINITION. Exact values: numbers (c0 + c1·r + c2·r² + c3·r³) / den with r = 2^(1/4), which hold
every finite value the formats of chapter 04 can name and every exact sum and product of them; their
signs, comparisons and floors, and the rounding step of 04 R158 and R159. -/
namespace Sys2Proof.Machine

/-- An exact value (c0 + c1·r + c2·r² + c3·r³) / den, r = 2^(1/4); den is positive. -/
structure QR where
  c0 : Int
  c1 : Int
  c2 : Int
  c3 : Int
  den : Nat
  deriving DecidableEq, Repr, Inhabited

namespace QR

/-- An integer. -/
def ofInt (n : Int) : QR := ⟨n, 0, 0, 0, 1⟩

/-- A rational number. -/
def ofRat (n : Int) (d : Nat) : QR := ⟨n, 0, 0, 0, d⟩

/-- Zero. -/
def zero : QR := ofInt 0

/-- `x · 2^e`. -/
def shift (x : QR) (e : Int) : QR :=
  if 0 ≤ e then
    let k : Int := (2 ^ e.toNat : Nat)
    ⟨x.c0 * k, x.c1 * k, x.c2 * k, x.c3 * k, x.den⟩
  else ⟨x.c0, x.c1, x.c2, x.c3, x.den * 2 ^ (-e).toNat⟩

/-- `x · r`. -/
def mulR (x : QR) : QR := ⟨2 * x.c3, x.c0, x.c1, x.c2, x.den⟩

/-- `x · 2^(q/4)`. -/
def quarter (x : QR) (q : Int) : QR :=
  let e := q / 4
  let y := match (q % 4).toNat with
    | 0 => x
    | 1 => x.mulR
    | 2 => x.mulR.mulR
    | _ => x.mulR.mulR.mulR
  y.shift e

/-- `n · 2^(q/4)` (04 R156). -/
def term (n q : Int) : QR := (ofInt n).quarter q

/-- Sum. -/
def add (x y : QR) : QR :=
  if x.den = y.den then ⟨x.c0 + y.c0, x.c1 + y.c1, x.c2 + y.c2, x.c3 + y.c3, x.den⟩
  else
    let a : Int := x.den
    let b : Int := y.den
    ⟨x.c0 * b + y.c0 * a, x.c1 * b + y.c1 * a, x.c2 * b + y.c2 * a, x.c3 * b + y.c3 * a, x.den * y.den⟩

/-- Negation. -/
def neg (x : QR) : QR := ⟨-x.c0, -x.c1, -x.c2, -x.c3, x.den⟩

/-- Difference. -/
def sub (x y : QR) : QR := x.add y.neg

/-- Product. -/
def mul (x y : QR) : QR :=
  ⟨x.c0 * y.c0 + 2 * (x.c1 * y.c3 + x.c2 * y.c2 + x.c3 * y.c1),
   x.c0 * y.c1 + x.c1 * y.c0 + 2 * (x.c2 * y.c3 + x.c3 * y.c2),
   x.c0 * y.c2 + x.c1 * y.c1 + x.c2 * y.c0 + 2 * (x.c3 * y.c3),
   x.c0 * y.c3 + x.c1 * y.c2 + x.c2 * y.c1 + x.c3 * y.c0,
   x.den * y.den⟩

/-- The quotient of two rational values (the higher coefficients of `y` are 0). -/
def divRat (x y : QR) : QR :=
  let s : Int := if y.c0 < 0 then -(y.den : Int) else y.den
  ⟨x.c0 * s, x.c1 * s, x.c2 * s, x.c3 * s, x.den * y.c0.natAbs⟩

/-- The sign of an integer. -/
def isign (a : Int) : Int := if a < 0 then -1 else if a = 0 then 0 else 1

/-- The sign of a + b·√2. -/
def sign2 (a b : Int) : Int :=
  if 0 ≤ a ∧ 0 ≤ b then (if a = 0 ∧ b = 0 then 0 else 1)
  else if a ≤ 0 ∧ b ≤ 0 then -1
  else isign a * isign (a * a - 2 * b * b)

/-- The sign of a value. -/
def sign (x : QR) : Int :=
  let sa := sign2 x.c0 x.c2
  let sb := sign2 x.c1 x.c3
  if sb = 0 then sa
  else if sa = 0 then sb
  else if sa = sb then sa
  else
    -- |c0 + c2√2| against |c1 + c3√2|·r, by their squares
    let a := x.c0 * x.c0 + 2 * x.c2 * x.c2 - 4 * x.c1 * x.c3
    let b := 2 * x.c0 * x.c2 - x.c1 * x.c1 - 2 * x.c3 * x.c3
    sa * sign2 a b

/-- Magnitude. -/
def abs (x : QR) : QR := if x.sign < 0 then x.neg else x

/-- Whether x ≤ y. -/
def le (x y : QR) : Bool := decide ((y.sub x).sign ≥ 0)

/-- Whether x < y. -/
def lt (x y : QR) : Bool := decide (0 < (y.sub x).sign)

/-- A rational value. -/
def rational (x : QR) : Bool := x.c1 == 0 && x.c2 == 0 && x.c3 == 0

/-- A natural number above a value's magnitude. -/
def bound (x : QR) : Nat :=
  (x.c0.natAbs + 2 * (x.c1.natAbs + x.c2.natAbs + x.c3.natAbs)) / x.den + 1

/-- ⌊x⌋ for x ≥ 0. -/
def floor (x : QR) : Nat :=
  if x.rational then x.c0.toNat / x.den
  else
    let bits := x.bound.log2 + 1
    (List.range bits).foldl (fun n i =>
      let m : Nat := n + 2 ^ (bits - 1 - i)
      if (ofInt (m : Nat)).le x then m else n) 0

/-- ⌊x⌋ toward negative infinity. -/
def floorInt (x : QR) : Int :=
  if 0 ≤ x.sign then (x.floor : Int)
  else
    let n := x.neg.floor
    if (ofInt (n : Nat)).lt x.neg then -(n : Int) - 1 else -(n : Int)

/-- The greatest e with 2^e ≤ x, for x > 0; values below 2^(−7000) answer a number that small. -/
def expo (x : QR) : Int :=
  if x.rational then
    let e : Int := (x.c0.toNat.log2 : Int) - (x.den.log2 : Int)
    if ((ofInt 1).shift e).le x then e else e - 1
  else
    let up : Int := (x.bound.log2 : Int) + 1
    let base := up - 8192
    let k := (List.range 14).foldl (fun (n : Nat) i =>
      let m : Nat := n + 2 ^ (13 - i)
      if ((ofInt 1).shift (base + (m : Int))).le x then m else n) 0
    base + (k : Int)

end QR

/-- A rounding mode with the noise of a stochastic rounding (04 R158, R159); the last three are those
of the RISC-V F and D extensions beside RNE and RTZ (05 R200). -/
inductive Mode where
  | rne | rtz | sr (u : Nat) | rdn | rup | rmm
  deriving DecidableEq, Repr, Inhabited

/-- Choose between grid indices `lo` and `lo + 1`, the value lying at fraction `rem` of the way
(04 R158, R159); `neg` is the sign of the value. -/
def pick (lo : Nat) (rem : QR) (neg : Bool) (m : Mode) : Nat :=
  if rem.sign = 0 then lo
  else
    let half := ((rem.shift 1).sub (QR.ofInt 1)).sign
    match m with
    | .rne => if half < 0 then lo else if 0 < half then lo + 1 else lo + lo % 2
    | .rmm => if half < 0 then lo else lo + 1
    | .rtz => lo
    | .rdn => if neg then lo + 1 else lo
    | .rup => if neg then lo else lo + 1
    | .sr u =>
      -- lo < v < hi as signed values: for a negative value hi is the smaller magnitude
      if neg then (if u < (((QR.ofInt 1).sub rem).shift 32).floor then lo else lo + 1)
      else if u < (rem.shift 32).floor then lo + 1 else lo

/-- A value a format names: NaN, an infinity, or a finite value, with the sign of a zero. -/
inductive FV where
  | nan
  | inf (neg : Bool)
  | fin (x : QR) (negZero : Bool)
  deriving DecidableEq, Repr, Inhabited

/-- A finite value as it stands. -/
def FV.of (x : QR) : FV := .fin x false

/-- The sign of a value: negative. -/
def FV.neg? : FV → Bool
  | .nan => false
  | .inf s => s
  | .fin x nz => if x.sign = 0 then nz else x.sign < 0

/-- The value is a zero. -/
def FV.isZero : FV → Bool
  | .fin x _ => x.sign == 0
  | _ => false

/-- Negation. -/
def FV.negate : FV → FV
  | .nan => .nan
  | .inf s => .inf (!s)
  | .fin x nz => .fin x.neg (!nz)

/-- The exact sum of two values; the zero of an exact sum of nonzero values is +0 and −0 + −0 is −0
(round to nearest). -/
def FV.add : FV → FV → FV
  | .nan, _ => .nan
  | _, .nan => .nan
  | .inf a, .inf b => if a = b then .inf a else .nan
  | .inf a, _ => .inf a
  | _, .inf b => .inf b
  | .fin x nx, .fin y ny =>
    .fin (x.add y) (x.sign == 0 && y.sign == 0 && nx && ny)

/-- The exact product of two values. -/
def FV.mul (a b : FV) : FV :=
  let s := a.neg? != b.neg?
  match a, b with
  | .nan, _ => .nan
  | _, .nan => .nan
  | .inf _, y => if y.isZero then .nan else .inf s
  | x, .inf _ => if x.isZero then .nan else .inf s
  | .fin x _, .fin y _ => .fin (x.mul y) s

/-- The exact quotient of two rational values. -/
def FV.div (a b : FV) : FV :=
  let s := a.neg? != b.neg?
  match a, b with
  | .nan, _ => .nan
  | _, .nan => .nan
  | .inf _, .inf _ => .nan
  | .inf _, _ => .inf s
  | .fin _ _, .inf _ => .fin QR.zero s
  | .fin x _, .fin y _ =>
    if y.sign = 0 then (if x.sign = 0 then .nan else .inf s)
    else .fin (x.divRat y) s

/-- Exact comparison of two values that are not NaN: x < y; −0 equals +0. -/
def FV.lt : FV → FV → Bool
  | .nan, _ => false
  | _, .nan => false
  | .inf a, .inf b => a && !b
  | .inf a, .fin _ _ => a
  | .fin _ _, .inf b => !b
  | .fin x _, .fin y _ => x.lt y

/-- Exact equality of two values that are not NaN. -/
def FV.eq : FV → FV → Bool
  | .nan, _ => false
  | _, .nan => false
  | .inf a, .inf b => a == b
  | .fin x _, .fin y _ => (x.sub y).sign == 0
  | _, _ => false

/-- The noise of stochastic rounding (04 R160). -/
def noise (seed : W64) (idx : Nat) : Nat :=
  let z := seed + BitVec.ofNat 64 idx * 0x8F3E5C27A1D96B4D#64
  let z := (z ^^^ (z >>> 31)) * 0xE3C17A954D2B86F1#64
  let z := (z ^^^ (z >>> 29)) * 0x6C8E9CF570453DA3#64
  let z := z ^^^ (z >>> 32)
  z.toNat % 2 ^ 32

/-- ⌊√n⌋ of a number below 2^(2k). -/
def isqrt (k n : Nat) : Nat :=
  (List.range k).foldl (fun r i =>
    let m := r + 2 ^ (k - 1 - i)
    if m * m ≤ n then m else r) 0

end Sys2Proof.Machine
end

