-- ==== Sys2Proof/Machine/Formats.lean ====
section
/-! DEFINITION. The number formats (04 R141 to R165, R703): reading a code as an exact value, writing
an exact value under a rounding mode with its range handling, block scales, and where elements lie. -/
namespace Sys2Proof.Machine

/-- The fields of a floating format: stored mantissa bits, exponent bits, bias, sign position, the
largest finite exponent and mantissa codes, and the codes of infinity and NaN (04 R144, R147, R148). -/
structure FpFmt where
  mb : Nat
  bias : Int
  sign : Option Nat
  maxE : Nat
  maxM : Nat
  inf : Option Nat
  nan : Nat
  deriving DecidableEq, Repr

def fpH16 : FpFmt := ⟨9, 31, some 15, 62, 511, some 0x7E00, 0x7F00⟩
def fpF32 : FpFmt := ⟨23, 127, some 31, 254, 2 ^ 23 - 1, some 0x7F800000, 0x7FC00000⟩
def fpF64 : FpFmt := ⟨52, 1023, some 63, 2046, 2 ^ 52 - 1, some 0x7FF0000000000000, 0x7FF8000000000000⟩
def fpQ8S (b : Nat) : FpFmt := ⟨3, b, some 7, 15, 6, none, 0x7F⟩
def fpQ8U (b : Nat) : FpFmt := ⟨4, b, none, 15, 14, none, 0xFF⟩

/-- What a value takes when it is written: its code and whether it counts saturated or flushed
(04 R165). -/
structure Enc where
  code : Nat
  sat : Bool := false
  flush : Bool := false
  deriving DecidableEq, Repr, Inhabited

/-- Bits of an element of a format (04 R141, R150, R181). -/
def fmtBits (f : Nat) : Nat :=
  match f with
  | 0 => 4 | 1 => 4 | 2 => 6 | 3 => 6 | 4 => 8 | 5 => 8 | 6 => 4 | 7 => 4 | 8 => 8 | 9 => 8
  | 10 => 16 | 11 => 32 | 12 => 64 | 13 => 32 | _ => 512

/-- A logarithmic format: step in quarter octaves, code of 1.0, largest code, sign position
(04 R143). -/
structure LogFmt where
  step : Nat
  one : Nat
  max : Nat
  sign : Option Nat
  deriving DecidableEq, Repr

/-- The logarithmic format of a code. -/
def logFmt? (f : Nat) : Option LogFmt :=
  match f with
  | 0 => some ⟨2, 4, 7, some 3⟩
  | 1 => some ⟨2, 8, 15, none⟩
  | 2 => some ⟨1, 16, 31, some 5⟩
  | 3 => some ⟨1, 32, 63, none⟩
  | _ => none

/-- The floating format of a code. -/
def fpFmt? (f bias : Nat) : Option FpFmt :=
  match f with
  | 4 => some (fpQ8S bias)
  | 5 => some (fpQ8U bias)
  | 10 => some fpH16
  | 11 => some fpF32
  | 12 => some fpF64
  | _ => none

/-- The integer format of a code: least value, greatest value, bits (04 R146). -/
def intFmt? (f : Nat) : Option (Int × Int × Nat) :=
  match f with
  | 6 => some (-8, 7, 4)
  | 7 => some (0, 15, 4)
  | 8 => some (-128, 127, 8)
  | 9 => some (0, 255, 8)
  | 13 => some (-2147483648, 2147483647, 32)
  | _ => none

/-- A format of the short family (04 R142). -/
def isShort (f : Nat) : Bool := decide (f ≤ 9)

/-- The value of a code of a floating format; Q8 negative zeros read as +0 (04 R144, R147, R148,
R703). -/
def FpFmt.decode (p : FpFmt) (code : Nat) : FV :=
  let neg := match p.sign with | some s => bit code s | none => false
  let body := match p.sign with | some s => code % 2 ^ s | none => code
  let e : Nat := body / 2 ^ p.mb
  let m : Nat := body % 2 ^ p.mb
  let sgn (x : QR) : FV :=
    if neg then .fin x.neg (m = 0 && e = 0 && p.inf.isSome) else .fin x false
  match p.inf with
  | some _ =>
    if p.maxE < e then (if m = 0 then .inf neg else .nan)
    else if e = 0 then sgn ((QR.ofInt (Int.ofNat m)).shift (1 - p.bias - p.mb))
    else sgn ((QR.ofInt (Int.ofNat (2 ^ p.mb + m))).shift ((e : Int) - p.bias - p.mb))
  | none =>
    if e = p.maxE && p.maxM < m then .nan
    else if e = 0 then sgn ((QR.ofInt (Int.ofNat m)).shift (1 - p.bias - p.mb))
    else sgn ((QR.ofInt (Int.ofNat (2 ^ p.mb + m))).shift ((e : Int) - p.bias - p.mb))

/-- Significand and quarter-octave exponent of a finite short-format code (04 R156); none for NaN. -/
def shortElem (f bias code : Nat) : Option (Int × Int) :=
  match logFmt? f with
  | some l =>
    let c := match l.sign with | some s => code % 2 ^ s | none => code
    let neg := match l.sign with | some s => bit code s | none => false
    if c = 0 then some (0, 0)
    else some (if neg then -1 else 1, (l.step : Int) * ((c : Int) - (l.one : Int)))
  | none =>
    match intFmt? f with
    | some (lo, _, n) => some (if lo < 0 then toInt n code else Int.ofNat (code % 2 ^ n), 0)
    | none =>
      match fpFmt? f bias with
      | none => none
      | some p =>
        let neg := match p.sign with | some s => bit code s | none => false
        let body := match p.sign with | some s => code % 2 ^ s | none => code
        let e := body / 2 ^ p.mb
        let m := body % 2 ^ p.mb
        if e = p.maxE && p.maxM < m then none
        else
          let n : Int := if e = 0 then (m : Int) else (Int.ofNat (2 ^ p.mb + m))
          let q : Int := 4 * ((if e = 0 then 1 else (e : Int)) - (bias : Int) - (p.mb : Int))
          some (if neg then -n else n, q)

/-- The exact value of a code of any format but T128, without its block scale (04 R143 to R148,
R157). -/
def decodeFmt (f bias code : Nat) : FV :=
  if isShort f then
    match shortElem f bias code with
    | none => .nan
    | some (n, q) => .of (QR.term n q)
  else match intFmt? f with
    | some (_, _, n) => .of (QR.ofInt (toInt n code))
    | none => match fpFmt? f bias with
      | some p => p.decode code
      | none => .nan

/-- The value of a code under block scale `s` (04 R151, R156, R354): a ZERO block is zero, a POISON
block has no value. -/
def decodeScaled (f bias s code : Nat) : Option FV :=
  if s = 0 then some (.of QR.zero)
  else if s = 0xFF then none
  else match decodeFmt f bias code with
    | .fin x nz => some (.fin (x.quarter ((s : Int) - 128)) nz)
    | v => some v

/-- A code with its sign bit. -/
def signed (s : Option Nat) (neg : Bool) (body : Nat) : Nat :=
  match s with
  | some k => if neg then 2 ^ k + body else body
  | none => body

/-- Round a nonzero magnitude to a floating grid with its exponent range extended upward: the
mantissa index and the exponent of its unit (04 R158, R159, R161). -/
def FpFmt.roundMag (p : FpFmt) (x : QR) (neg : Bool) (m : Mode) : Nat × Int :=
  let emin : Int := 1 - p.bias
  let e0 := x.expo
  let ue := (if e0 < emin then emin else e0) - (p.mb : Int)
  let y := x.shift (-ue)
  let lo := y.floor
  let i := pick lo (y.sub (QR.ofInt (lo : Nat))) neg m
  if i = 2 ^ (p.mb + 1) then (2 ^ p.mb, ue + 1) else (i, ue)

/-- Write a finite value in a floating format with its range handling (04 R161 to R163). -/
def FpFmt.encodeFin (p : FpFmt) (x : QR) (nz : Bool) (m : Mode) (flush : Bool) : Enc :=
  let s := x.sign
  if s = 0 then ⟨signed p.sign (nz && p.inf.isSome) 0, false, false⟩
  else
    let neg := decide (s < 0)
    let (i, ue) := p.roundMag x.abs neg m
    -- a negative result of an unsigned format is a saturated zero, and flushed too where it is subnormal
    if p.sign.isNone && neg && i ≠ 0 then ⟨0, true, decide (i < 2 ^ p.mb)⟩
    else
      let e : Int := if i < 2 ^ p.mb then 0 else ue + (p.mb : Int) + p.bias
      let mm := if i < 2 ^ p.mb then i else i - 2 ^ p.mb
      if (p.maxE : Int) < e || (e = (p.maxE : Int) && p.maxM < mm) then
        let top := signed p.sign neg (p.maxE * 2 ^ p.mb + p.maxM)
        match p.inf, m with
        | some f, .rne => ⟨signed p.sign neg f, true, false⟩
        | some f, .sr _ => ⟨signed p.sign neg f, true, false⟩
        | _, _ => ⟨top, true, false⟩
      else if e = 0 then
        if p.inf.isNone then ⟨0, false, true⟩
        else if i = 0 then ⟨signed p.sign neg 0, false, true⟩
        else if flush then ⟨signed p.sign neg 0, false, true⟩
        else ⟨signed p.sign neg i, false, false⟩
      else ⟨signed p.sign neg (e.toNat * 2 ^ p.mb + mm), false, false⟩

/-- Write a finite value in a logarithmic format (04 R158, R159, R161, R163). -/
def LogFmt.encodeFin (l : LogFmt) (x : QR) (m : Mode) : Enc :=
  let s := x.sign
  if s = 0 then ⟨0, false, false⟩
  else
    let neg := decide (s < 0)
    let a := x.abs
    let grid (c : Nat) : QR := QR.term 1 ((l.step : Int) * ((c : Int) - (l.one : Int)))
    let lo := (rangeFrom 1 (l.max + 1)).foldl (fun n c => if (grid c).le a then c else n) 0
    if lo = l.max + 1 then
      if l.sign.isNone && neg then ⟨0, true, false⟩ else ⟨signed l.sign neg l.max, true, false⟩
    else
      let rem := if lo = 0 then a.quarter (-((l.step : Int) * (1 - (l.one : Int))))
        else
          let w := (a.quarter (-((l.step : Int) * ((lo : Int) - (l.one : Int))))).sub (QR.ofInt 1)
          -- 1 / (2^(step/4) − 1)
          w.mul (if l.step = 2 then ⟨1, 0, 1, 0, 1⟩ else ⟨1, 1, 1, 1, 1⟩)
      let c := pick lo rem neg m
      if c = 0 then ⟨0, false, true⟩
      else if l.sign.isNone && neg then ⟨0, true, false⟩
      else if l.max < c then ⟨signed l.sign neg l.max, true, false⟩
      else ⟨signed l.sign neg c, false, false⟩

/-- Write a finite value in an integer format (04 R158, R161). -/
def intEncode (lo hi : Int) (n : Nat) (x : QR) (m : Mode) : Enc :=
  let neg := decide (x.sign < 0)
  let a := x.abs
  let f := a.floor
  let i := pick f (a.sub (QR.ofInt (f : Nat))) neg m
  let v : Int := if neg then -(i : Int) else (i : Int)
  if hi < v then ⟨ofInt n hi, true, false⟩
  else if v < lo then ⟨ofInt n lo, true, false⟩
  else ⟨ofInt n v, false, false⟩

/-- The canonical NaN of a format, zero where it has none (04 R149, R161). -/
def nanCode (f bias : Nat) : Nat := match fpFmt? f bias with | some p => p.nan | none => 0

/-- Write a value in a format (04 R158 to R163). -/
def encodeFmt (f bias : Nat) (m : Mode) (flush : Bool) (v : FV) : Enc :=
  match logFmt? f with
  | some l =>
    match v with
    | .nan => ⟨0, true, false⟩
    | .inf neg => if l.sign.isNone && neg then ⟨0, true, false⟩ else ⟨signed l.sign neg l.max, true, false⟩
    | .fin x _ => l.encodeFin x m
  | none =>
    match intFmt? f with
    | some (lo, hi, n) =>
      match v with
      | .nan => ⟨0, true, false⟩
      | .inf neg => ⟨ofInt n (if neg then lo else hi), true, false⟩
      | .fin x _ => intEncode lo hi n x m
    | none =>
      match fpFmt? f bias with
      | none => ⟨0, false, false⟩
      | some p =>
        match v with
        | .nan => ⟨p.nan, false, false⟩
        | .inf neg =>
          match p.inf with
          | some c => ⟨signed p.sign neg c, false, false⟩
          | none =>
            if p.sign.isNone && neg then ⟨0, true, false⟩
            else ⟨signed p.sign neg (p.maxE * 2 ^ p.mb + p.maxM), true, false⟩
        | .fin x nz => p.encodeFin x nz m (flush && (f == 10 || f == 11))

/-- Write a value under an output block scale (04 R164); a poisoned output is written as scale 0xFF
states (R154, R178). -/
def encodeScaled (f bias s : Nat) (m : Mode) (flush poison : Bool) (v : FV) : Enc :=
  if poison || s = 0xFF then ⟨nanCode f bias, true, false⟩
  else if s = 0 then ⟨0, false, !v.isZero⟩
  else match v with
    | .fin x nz => encodeFmt f bias m flush (.fin (x.quarter (128 - (s : Int))) nz)
    | v => encodeFmt f bias m flush v

/-- Encode in a floating format by nearest even. -/
def FpFmt.rne (p : FpFmt) (v : FV) : Nat :=
  match v with
  | .nan => p.nan
  | .inf neg => signed p.sign neg (p.inf.getD 0)
  | .fin x nz => (p.encodeFin x nz .rne false).code

/-- minimumNumber and maximumNumber of IEEE 754-2019 with −0 below +0 (07 R265, 03 R107). -/
def fvMinMax (max : Bool) (a b : FV) : FV :=
  match a, b with
  | .nan, b => b
  | a, .nan => a
  | a, b =>
    let less := a.lt b || (a.eq b && a.neg? && !b.neg?)
    if less then (if max then b else a) else (if max then a else b)

/-- Where element `e` of a dense run lies from the run's base: byte offset, bytes, bit shift
(04 R150). -/
def elemAt (bitsPer e : Nat) : Nat × Nat × Nat :=
  if bitsPer = 4 then (e / 2, 1, 4 * (e % 2))
  else if bitsPer = 6 then (3 * (e / 4), 3, 6 * (e % 4))
  else (e * (bitsPer / 8), bitsPer / 8, 0)

/-- A saturating 32-bit count (04 R165). -/
def satAdd32 (a b : Nat) : Nat := min 0xFFFFFFFF (a + b)

end Sys2Proof.Machine
end

