-- ==== Sys2Proof/Machine/Crc.lean ====
section
/-! DEFINITION. The two checks the manual names by standard: CRC-32C (09 R372, 16 R596, 17 R649,
R656) and SHA3-256 (09 R372, 16 R599). -/
namespace Sys2Proof.Machine

/-- One bit of CRC-32C, reflected polynomial 0x82F63B78. -/
def crcBit (c : BitVec 32) : BitVec 32 :=
  if c.getLsbD 0 then (c >>> 1) ^^^ 0x82F63B78#32 else c >>> 1

/-- One byte of CRC-32C. -/
def crcByte (c : BitVec 32) (b : Byte) : BitVec 32 :=
  (List.range 8).foldl (fun c _ => crcBit c) (c ^^^ b.zeroExtend 32)

/-- CRC-32C of bytes. -/
def crc32c (bs : List Byte) : BitVec 32 := ~~~ (bs.foldl crcByte 0xFFFFFFFF#32)

/-- The lane in column `x` of row `y`, of 25 lanes in row order. -/
def lane (a : List W64) (x y : Nat) : W64 := a.getD (x % 5 + 5 * (y % 5)) 0

/-- θ: every lane takes the parity of the column before it and of the one after it, turned by 1. -/
def keccakTheta (a : List W64) : List W64 :=
  let par := (List.range 5).map (fun x => (List.range 5).foldl (fun p y => p ^^^ lane a x y) 0)
  let mix := (List.range 5).map (fun x => lane par (x + 4) 0 ^^^ (lane par (x + 1) 0).rotateLeft 1)
  a.zipIdx.map (fun e => e.1 ^^^ lane mix e.2 0)

/-- ρ and π together: a walk from lane (1, 0) that goes from (x, y) to (y, 2x + 3y), where step `t` carries
its lane along and turns it by (t + 1)(t + 2) / 2; lane (0, 0) stays. -/
def keccakWalk (a : List W64) : Nat → Nat → Nat → Nat → List W64 → List W64
  | 0, _, _, _, b => b
  | n + 1, t, x, y, b =>
    let z := (2 * x + 3 * y) % 5
    keccakWalk a n (t + 1) y z (b.set (y + 5 * z) ((lane a x y).rotateLeft ((t + 1) * (t + 2) / 2 % 64)))

/-- χ: every lane takes the bits of the lane after next where the next one has none. -/
def keccakChi (a : List W64) : List W64 :=
  a.zipIdx.map (fun e => e.1 ^^^ (~~~ (lane a (e.2 % 5 + 1) (e.2 / 5)) &&& lane a (e.2 % 5 + 2) (e.2 / 5)))

/-- The feedback register of ι moves on one step. -/
def keccakStep (r : Nat) : Nat := (2 * r % 256) ^^^ (if 128 ≤ r then 0x71 else 0)

/-- The constant of a round, from the feedback register `r` at its start: step j gives bit 2^j − 1. -/
def keccakIota : Nat → Nat → Nat → Nat × Nat
  | 0, _, r => (0, r)
  | n + 1, j, r =>
    let r := keccakStep r
    let (c, r') := keccakIota n (j + 1) r
    (c + (if r.testBit 1 then 2 ^ (2 ^ j - 1) else 0), r')

/-- A round of Keccak-f[1600] on the lanes and the feedback register. -/
def keccakRound (s : List W64 × Nat) : List W64 × Nat :=
  let th := keccakTheta s.1
  let ch := keccakChi (keccakWalk th 24 0 1 0 th)
  let (c, r) := keccakIota 7 0 s.2
  (ch.set 0 (lane ch 0 0 ^^^ BitVec.ofNat 64 c), r)

/-- Keccak-f[1600]: 24 rounds. -/
def keccakF (a : List W64) : List W64 := ((List.range 24).foldl (fun s _ => keccakRound s) (a, 1)).1

/-- Bytes cut into `n` blocks of `k`. -/
def blocks (k : Nat) : Nat → List Byte → List (List Byte)
  | 0, _ => []
  | n + 1, bs => bs.take k :: blocks k n (bs.drop k)

/-- Absorb one block of 136 bytes. -/
def sha3Absorb (a : List W64) (blk : List Byte) : List W64 :=
  keccakF ((List.range 25).map (fun i =>
    if i < 17 then a.getD i 0 ^^^ BitVec.ofNat 64 (leNat ((blk.drop (8 * i)).take 8)) else a.getD i 0))

/-- SHA3-256 of bytes (FIPS 202). -/
def sha3 (bs : List Byte) : List Byte :=
  let n := bs.length / 136 + 1
  let padLen := 136 * n - bs.length
  let pad : List Byte :=
    if padLen = 1 then [0x86] else 0x06 :: (List.replicate (padLen - 2) 0 ++ [0x80])
  let st := (blocks 136 n (bs ++ pad)).foldl sha3Absorb (List.replicate 25 0)
  (List.range 4).flatMap (fun i => leBytes 8 (st.getD i 0).toNat)

end Sys2Proof.Machine
end

