-- ==== Sys2Proof/Config.lean ====
section
/-! DEFINITION. What an implementation of BX-4816 fixes and what its manual leaves open: each free
value is an `opaque` constant without a body, so that no proof can see it. The assumption log names
each. The constants that the manual states stand beside the operations that use them. -/
namespace Sys2Proof

/-- What the fuses of a part hold (01 R29, R30, R35; 15 R569; 16 R611; 18 R675). Dies are indexed by
physical site 6·deck + site. -/
structure Fuses where
  /-- The fuse block's check passes (16 R604). -/
  ok : Bool
  enabled : List Bool
  fmaxStep : List Nat
  /-- V/F table of each physical die: mV at step F (15 R565). -/
  vfMv : List (List Nat)
  /-- Repair records: logical die and the physical die that serves it (01 R35). -/
  repairs : List (Nat × Nat)
  serial : List Byte
  major : Nat
  minor : Nat
  svnMin : Nat
  ownerOnly : Bool
  /-- Owner slots 0 and 1: state (0 EMPTY, 1 ACTIVE, 2 REVOKED) and key hash (16 R611). -/
  slots : List (Nat × List Byte)
  deriving DecidableEq, Repr, Inhabited

namespace Config

/-- The fuse values of this part that no rule fixes. -/
opaque rawFuses : Fuses
/-- The decks and sites of this part's four spares, as they come. -/
opaque rawSpares : List (Nat × Nat)

/-- The four decks that carry a spare, each once (01 R29). -/
def spareDecks : List Nat := ((rawSpares.map (fun (e : Nat × Nat) => e.1 % 8) ++ List.range 8).eraseDups).take 4

/-- The site of a deck's spare. -/
def sparePlace (k : Nat) : Nat := ((rawSpares.find? (fun (e : Nat × Nat) => e.1 % 8 == k)).map (fun (e : Nat × Nat) => e.2 % 6)).getD 0

/-- The enable map of this part: 44 of its 48 dies, at least five on every deck (01 R29). -/
def partEnabled : List Bool := (List.range 48).map (fun p => !(spareDecks.contains (p / 6) && sparePlace (p / 6) == p % 6))

/-- The fuses of this part at manufacture: the enable map of 01 R29, a maximum frequency step of 0 to 12 for
every die (01 R37), and no repair record. -/
def partFuses : Fuses := { rawFuses with
  enabled := partEnabled
  fmaxStep := (List.range 48).map (fun p => rawFuses.fmaxStep.getD p 0 % 13)
  repairs := [] }
/-- The fuse map without the device secret, as attestation measures it (16 R618). -/
opaque fuseMap : Fuses → List Byte
/-- SHA3-256 of the vendor's public key in mask ROM (16 R600). -/
opaque vendorKeyHash : List Byte
/-- ML-DSA-44 verification: public key, message, signature (16 R601, R615). -/
opaque mlDsaVerify : List Byte → List Byte → List Byte → Bool
/-- The default board cap in W that a board record holds (16 R596). -/
opaque boardRecordCap : List Byte → Nat
/-- The signature of the attestation key over a message (16 R612, R618). -/
opaque attestSign : List Byte → List Byte
/-- The device certificate kept in one-time-programmable storage (16 R612). -/
opaque deviceCertificate : List Byte
/-- The fresh random 256-bit nonce drawn at the n-th draw (16 R613). -/
opaque nonce : Nat → List Byte

/-- The number behind the code of a record that 01 R31 asks for and no table names. -/
opaque spareCode : Nat

/-- A byte of a pool line not written since cold start number n (03 R124). -/
opaque coldByte : Nat → Nat → Byte
/-- Whether a read of such a line reports it uncorrectable (03 R124). -/
opaque coldUncorrectable : Nat → Nat → Bool

/-- The way a transit cache's pseudo-LRU gives up (13 R503), at the n-th choice. -/
opaque tcVictim : Nat → Nat
/-- The entry a full translation cache gives up (12 R470), at the n-th choice. -/
opaque xlatVictim : Nat → Nat
/-- Whether a cache holds back a choice the manual leaves to it, at the n-th choice. -/
opaque choice : Nat → Bool
/-- A value the manual calls undefined or does not state, at the n-th use. -/
opaque freeValue : Nat → W64
/-- The instruction code of IDCODE, which gives the instruction register its length (19 R696). -/
opaque jtagIdcode : List Bool

/-- A shipped or loaded special function's result (07 R290, R291): store version, slot, element
width and element. Bits 62 and 63 say of a loaded function whether a zero is exact and whether an infinity
is an overflow. -/
opaque specialFunction : Nat → Nat → Nat → W64 → W64
/-- Which element widths a loaded micro-program supports (07 R294): store version, slot, width. -/
opaque slotSupports : Nat → Nat → Nat → Bool
/-- The softmax exponent e^(x − m) within 1 ulp (07 R301): element width, x, m. -/
opaque softmaxExp : Nat → W64 → W64 → W64
/-- One number of the FFT crane's result before SCALE (09 R367 to R369): the dimensions, the direction and
the size of a number; the input codes; the number's place. -/
opaque fftElement : List Nat → List W64 → Nat → W64
/-- The NORMAL_F32 value of the two random words a and b (09 R371). -/
opaque normalF32 : W64 → W64 → W64
/-- The state update of a loaded wharf optimizer (10 R399): version, slot, and the element's inputs give
the new state and θ and how many of them count saturated and flushed. -/
opaque loadedOptimizer : Nat → Nat → List W64 → List W64
/-- The number a log payload carries for a cause the manual names but does not number (17 R700): log
code and row of its table. -/
opaque causeCode : Nat → Nat → Nat
/-- The geometry of memory rows (03 R125): the row of a word or line within its warehouse bank or HBM
stack. -/
opaque rowOf : Nat → Nat
/-- The geometry of an HBM row (03 R127): the physical lines of a stack's row beside a known one. -/
opaque rowLines : Nat → Nat → Nat → List Nat
/-- Whether a write that a stop interrupts landed for one 64-byte word (06 R254, 10 R408). -/
opaque partialWrite : Nat → Bool

end Config
end Sys2Proof
end

