-- ==== Sys2Proof/Machine/RegTable.lean ====
section
/-! DEFINITION. The set-up registers of BX-4816: where each lies (18 R659, R660, R677) and the
fields the spec's field tables give each (types of 00 R22, reset sources of 00 R23). -/
namespace Sys2Proof.Machine

/-- The set-up registers of 18 R677, one name for each indexed group. -/
inductive Reg where
  /-- DEV_ID (18 R675). -/
  | devId
  /-- DEV_SERIAL_LO (18 R675). -/
  | devSerialLo
  /-- DEV_SERIAL_HI (18 R675). -/
  | devSerialHi
  /-- DEV_CAP_COMPUTE (18 R675). -/
  | devCapCompute
  /-- DEV_CAP_MEMORY (18 R675). -/
  | devCapMemory
  /-- DEV_CAP_LINKS (18 R675). -/
  | devCapLinks
  /-- DEV_CAP_CONTROL (18 R675). -/
  | devCapControl
  /-- DEV_ASSET_TAG (18 R675). -/
  | devAssetTag
  /-- DEV_SCRATCH (18 R675). -/
  | devScratch
  /-- DEV_ERR_INFO (18 R675). -/
  | devErrInfo
  /-- DEV_ERR_COUNT (18 R675). -/
  | devErrCount
  /-- PIL_BOOT_PROGRESS (16 R620). -/
  | pilBootProgress
  /-- PIL_STATUS (16 R620). -/
  | pilStatus
  /-- PIL_CMD (16 R620). -/
  | pilCmd
  /-- PIL_IMAGE (16 R620). -/
  | pilImage
  /-- PIL_KEYS (16 R620). -/
  | pilKeys
  /-- PIL_DEBUG (16 R620). -/
  | pilDebug
  /-- PIL_TOKEN_ADDR (16 R620). -/
  | pilTokenAddr
  /-- PIL_TOKEN_STATUS (16 R620). -/
  | pilTokenStatus
  /-- PIL_NONCE (16 R620). -/
  | pilNonce
  /-- HM_RECORD_COUNT (11 R459). -/
  | hmRecordCount
  /-- HM_EVENT_SELECT (11 R459). -/
  | hmEventSelect
  /-- HM_EVENT_VALUE (11 R459). -/
  | hmEventValue
  /-- HM_BELL_WATCH (11 R459). -/
  | hmBellWatch
  /-- HM_EVENT_OWNER (11 R459). -/
  | hmEventOwner
  /-- HM_RING_SQ_BASE (11 R459). -/
  | hmRingSqBase
  /-- HM_RING_CQ_BASE (11 R459). -/
  | hmRingCqBase
  /-- HM_RING_CTRL (11 R459). -/
  | hmRingCtrl
  /-- HM_RING_CFG (11 R459). -/
  | hmRingCfg
  /-- HM_RING_MSI_ADDR (11 R459). -/
  | hmRingMsiAddr
  /-- HM_RING_MSI (11 R459). -/
  | hmRingMsi
  /-- HM_RING_STATUS (11 R459). -/
  | hmRingStatus
  /-- HM_RING_INDEX (11 R459). -/
  | hmRingIndex
  /-- SEG_CTX_TABLE_BASE (12 R484). -/
  | segCtxTableBase
  /-- SEG_CTX_SELECT (12 R484). -/
  | segCtxSelect
  /-- SEG_CTX_STATUS (12 R484). -/
  | segCtxStatus
  /-- SEG_CTX_FAULT_VA (12 R484). -/
  | segCtxFaultVa
  /-- SEG_CTX_FAULT_INFO (12 R484). -/
  | segCtxFaultInfo
  /-- SEG_CTX_CMD (12 R484). -/
  | segCtxCmd
  /-- SEG_WALK_STATUS (12 R484). -/
  | segWalkStatus
  /-- TIDE_PERIOD_NS (02 R92). -/
  | tidePeriodNs
  /-- TIDE_COUNT (02 R92). -/
  | tideCount
  /-- TIDE_MODE (02 R92). -/
  | tideMode
  /-- TIDE_RESERVE (02 R92). -/
  | tideReserve
  /-- TIDE_OVERRUN_LIMIT (02 R92). -/
  | tideOverrunLimit
  /-- TIDE_HELD_COUNT (02 R92). -/
  | tideHeldCount
  /-- TIDE_STATUS (02 R92). -/
  | tideStatus
  /-- TIDE_ADMIT_CFG (02 R92). -/
  | tideAdmitCfg
  /-- TIDE_BEACON_CFG (02 R92). -/
  | tideBeaconCfg
  /-- TIDE_COUPLED_COUNT (02 R92). -/
  | tideCoupledCount
  /-- TIDE_LAST_TICK_NS (02 R92). -/
  | tideLastTickNs
  /-- TIDE_OVERRUN_COUNT (02 R92). -/
  | tideOverrunCount
  /-- TIDE_RING_SHARE (02 R92). -/
  | tideRingShare
  /-- LKP_MODE (15 R592). -/
  | lkpMode
  /-- LKP_CAP (15 R592). -/
  | lkpCap
  /-- LKP_STATUS (15 R592). -/
  | lkpStatus
  /-- LKP_POWER (15 R592). -/
  | lkpPower
  /-- LKP_TEMP (15 R592). -/
  | lkpTemp
  /-- LKP_COOLANT (15 R592). -/
  | lkpCoolant
  /-- LKP_DROOP (15 R592). -/
  | lkpDroop
  /-- LKP_CLASS (15 R592). -/
  | lkpClass
  /-- LKP_DIE (15 R592). -/
  | lkpDie
  /-- LOG_STATUS (17 R658). -/
  | logStatus
  /-- LOG_INDEX (17 R658). -/
  | logIndex
  /-- LOG_RATE (17 R658). -/
  | logRate
  /-- LOG_VAULT_STATUS (17 R658). -/
  | logVaultStatus
  /-- LOG_DATA (17 R658). -/
  | logData
  /-- BWF_LOCK (13 R518). -/
  | bwfLock
  /-- BWF_DENIED_COUNT (13 R518). -/
  | bwfDeniedCount
  /-- BWF_DENIED_ADDR (13 R518). -/
  | bwfDeniedAddr
  /-- BWF_DENIED_INFO (13 R518). -/
  | bwfDeniedInfo
  /-- BWF_WIN_BASE (13 R518). -/
  | bwfWinBase
  /-- BWF_WIN_CFG (13 R518). -/
  | bwfWinCfg
  /-- MNT_RESET_CMD (17 R658). -/
  | mntResetCmd
  /-- MNT_RESET_CAUSE (17 R658). -/
  | mntResetCause
  /-- MNT_SETTINGS_EPOCH (17 R658). -/
  | mntSettingsEpoch
  /-- MNT_UNIT_RESET (17 R658). -/
  | mntUnitReset
  /-- MNT_PORT_RESET (17 R658). -/
  | mntPortReset
  /-- MNT_POWER_CMD (17 R658). -/
  | mntPowerCmd
  /-- MNT_POWER_STATUS (17 R658). -/
  | mntPowerStatus
  /-- MNT_LEDGER_ARM (17 R658). -/
  | mntLedgerArm
  /-- MNT_HUB_WDT (17 R658). -/
  | mntHubWdt
  /-- MNT_HOST_LINK_STATUS (01 R57). -/
  | mntHostLinkStatus
  /-- MNT_POOL_LAYOUT (03 R140). -/
  | mntPoolLayout
  /-- MNT_RETIRE_COUNT (03 R140). -/
  | mntRetireCount
  /-- MNT_RETIRE_INDEX (03 R140). -/
  | mntRetireIndex
  /-- MNT_RETIRE_ENTRY (03 R140). -/
  | mntRetireEntry
  /-- MNT_HOST_CMD (13 R518). -/
  | mntHostCmd
  /-- MNT_PSR (13 R518). -/
  | mntPsr
  /-- DCK_D2D_STATUS (01 R57). -/
  | dckD2dStatus
  /-- DCK_SPARE_STATUS (01 R37). -/
  | dckSpareStatus
  /-- DCK_WH_STATUS (03 R140). -/
  | dckWhStatus
  /-- DCK_WH_SCRUB_CFG (03 R140). -/
  | dckWhScrubCfg
  /-- DCK_CRANE_STATUS (09 R376). -/
  | dckCraneStatus
  /-- HAW_PORT_STATUS (14 R563). -/
  | hawPortStatus
  /-- HAW_PORT_CMD (14 R563). -/
  | hawPortCmd
  /-- HAW_PORT_COUNTS (14 R563). -/
  | hawPortCounts
  /-- HAW_NODE (14 R563). -/
  | hawNode
  /-- HAW_CONN_TABLE_BASE (14 R563). -/
  | hawConnTableBase
  /-- HAW_CONN_CMD (14 R563). -/
  | hawConnCmd
  /-- HAW_CONN_CFG (14 R563). -/
  | hawConnCfg
  /-- HAW_ROUTE_CTRL (14 R563). -/
  | hawRouteCtrl
  /-- HAW_ROUTE (14 R563). -/
  | hawRoute
  /-- HBM_STATUS (03 R140). -/
  | hbmStatus
  /-- HBM_PC_FENCED (03 R140). -/
  | hbmPcFenced
  /-- HBM_ERR_COUNT (03 R140). -/
  | hbmErrCount
  /-- HBM_SCRUB_CFG (03 R140). -/
  | hbmScrubCfg
  /-- WHF_STATUS (10 R409). -/
  | whfStatus
  /-- WHF_ATOMIC_COUNT (10 R409). -/
  | whfAtomicCount
  /-- WHF_MP_LOADED (10 R409). -/
  | whfMpLoaded
  /-- WHF_MP_VERSION (10 R409). -/
  | whfMpVersion
  /-- CD_LOCATION (01 R37). -/
  | cdLocation
  /-- CD_CLUSTER_STATUS (05 R217). -/
  | cdClusterStatus
  /-- CD_WATCHDOG_COUNT (05 R218). -/
  | cdWatchdogCount
  /-- CD_SF_LOADED (07 R305). -/
  | cdSfLoaded
  /-- CD_SF_VERSION (07 R305). -/
  | cdSfVersion
  /-- CD_GANG_CFG (08 R338). -/
  | cdGangCfg
  /-- CD_GANG_STATUS (08 R338). -/
  | cdGangStatus
  /-- CD_TC_STATUS (13 R518). -/
  | cdTcStatus
  /-- CD_TC_LOCK_BASE (13 R518). -/
  | cdTcLockBase
  /-- CD_TC_LOCK_CFG (13 R518). -/
  | cdTcLockCfg
  /-- CD_GATE_CFG (17 R658). -/
  | cdGateCfg
  deriving DecidableEq, Repr, Inhabited

/-- A register access type (00 R22). -/
inductive RegType where
  | ro | rw | wo | w1c | w1s | rwl
  deriving DecidableEq, Repr, Inhabited

/-- Where a field's value comes from after a reset that defaults it (00 R23, 18 R674); `view` is a
field with no stored state. -/
inductive ResetSource where
  | literal | fuse | image | board | ledger | view
  deriving DecidableEq, Repr, Inhabited

/-- A field: its register and its bits [hi:lo] (00 R10). -/
structure Fld where
  reg : Reg
  hi : Nat
  lo : Nat
  deriving DecidableEq, Repr, Inhabited

/-- A row of a register field table. -/
structure FieldSpec where
  fld : Fld
  typ : RegType
  src : ResetSource
  dflt : Nat
  deriving DecidableEq, Repr, Inhabited

/-- A run of instances of a register: the first instance number, its offset in the register
window, and the count and stride of each index, outermost first. -/
structure RegSeg where
  first : Nat
  base : Nat
  dims : List (Nat × Nat)
  deriving DecidableEq, Repr, Inhabited

namespace F

/-- DEV_ID.VENDOR. -/
abbrev devId_VENDOR : Fld := ⟨.devId, 63, 48⟩
/-- DEV_ID.PART. -/
abbrev devId_PART : Fld := ⟨.devId, 47, 32⟩
/-- DEV_ID.MAJOR. -/
abbrev devId_MAJOR : Fld := ⟨.devId, 23, 16⟩
/-- DEV_ID.MINOR. -/
abbrev devId_MINOR : Fld := ⟨.devId, 15, 8⟩
/-- DEV_ID.MAP_VERSION. -/
abbrev devId_MAP_VERSION : Fld := ⟨.devId, 7, 0⟩
/-- DEV_SERIAL_LO.SERIAL. -/
abbrev devSerialLo_SERIAL : Fld := ⟨.devSerialLo, 63, 0⟩
/-- DEV_SERIAL_HI.SERIAL. -/
abbrev devSerialHi_SERIAL : Fld := ⟨.devSerialHi, 63, 0⟩
/-- DEV_CAP_COMPUTE.DIES_ACTIVE. -/
abbrev devCapCompute_DIES_ACTIVE : Fld := ⟨.devCapCompute, 47, 40⟩
/-- DEV_CAP_COMPUTE.DIES_ENABLED. -/
abbrev devCapCompute_DIES_ENABLED : Fld := ⟨.devCapCompute, 39, 32⟩
/-- DEV_CAP_COMPUTE.DIES_FITTED. -/
abbrev devCapCompute_DIES_FITTED : Fld := ⟨.devCapCompute, 31, 24⟩
/-- DEV_CAP_COMPUTE.CLUSTERS. -/
abbrev devCapCompute_CLUSTERS : Fld := ⟨.devCapCompute, 19, 12⟩
/-- DEV_CAP_COMPUTE.TILES. -/
abbrev devCapCompute_TILES : Fld := ⟨.devCapCompute, 11, 0⟩
/-- DEV_CAP_MEMORY.STACKS_ACTIVE. -/
abbrev devCapMemory_STACKS_ACTIVE : Fld := ⟨.devCapMemory, 55, 48⟩
/-- DEV_CAP_MEMORY.STACKS. -/
abbrev devCapMemory_STACKS : Fld := ⟨.devCapMemory, 47, 40⟩
/-- DEV_CAP_MEMORY.GIB_PER_STACK. -/
abbrev devCapMemory_GIB_PER_STACK : Fld := ⟨.devCapMemory, 39, 32⟩
/-- DEV_CAP_MEMORY.WAREHOUSE_MIB. -/
abbrev devCapMemory_WAREHOUSE_MIB : Fld := ⟨.devCapMemory, 27, 16⟩
/-- DEV_CAP_MEMORY.SYSCACHE_MIB. -/
abbrev devCapMemory_SYSCACHE_MIB : Fld := ⟨.devCapMemory, 11, 0⟩
/-- DEV_CAP_LINKS.PORTS. -/
abbrev devCapLinks_PORTS : Fld := ⟨.devCapLinks, 47, 40⟩
/-- DEV_CAP_LINKS.LANES. -/
abbrev devCapLinks_LANES : Fld := ⟨.devCapLinks, 39, 32⟩
/-- DEV_CAP_LINKS.ACTIVE_LANES. -/
abbrev devCapLinks_ACTIVE_LANES : Fld := ⟨.devCapLinks, 31, 24⟩
/-- DEV_CAP_LINKS.LANE_MBPS. -/
abbrev devCapLinks_LANE_MBPS : Fld := ⟨.devCapLinks, 18, 0⟩
/-- DEV_CAP_CONTROL.EVENTS. -/
abbrev devCapControl_EVENTS : Fld := ⟨.devCapControl, 63, 48⟩
/-- DEV_CAP_CONTROL.CONNECTIONS. -/
abbrev devCapControl_CONNECTIONS : Fld := ⟨.devCapControl, 47, 32⟩
/-- DEV_CAP_CONTROL.RING_PAIRS. -/
abbrev devCapControl_RING_PAIRS : Fld := ⟨.devCapControl, 31, 16⟩
/-- DEV_CAP_CONTROL.CONTEXTS. -/
abbrev devCapControl_CONTEXTS : Fld := ⟨.devCapControl, 15, 0⟩
/-- DEV_ASSET_TAG.TAG. -/
abbrev devAssetTag_TAG : Fld := ⟨.devAssetTag, 63, 0⟩
/-- DEV_SCRATCH.VALUE. -/
abbrev devScratch_VALUE : Fld := ⟨.devScratch, 63, 0⟩
/-- DEV_ERR_INFO.VALID. -/
abbrev devErrInfo_VALID : Fld := ⟨.devErrInfo, 63, 63⟩
/-- DEV_ERR_INFO.CAUSE. -/
abbrev devErrInfo_CAUSE : Fld := ⟨.devErrInfo, 59, 56⟩
/-- DEV_ERR_INFO.SOURCE. -/
abbrev devErrInfo_SOURCE : Fld := ⟨.devErrInfo, 55, 52⟩
/-- DEV_ERR_INFO.HART. -/
abbrev devErrInfo_HART : Fld := ⟨.devErrInfo, 47, 40⟩
/-- DEV_ERR_INFO.WRITE. -/
abbrev devErrInfo_WRITE : Fld := ⟨.devErrInfo, 32, 32⟩
/-- DEV_ERR_INFO.OFFSET. -/
abbrev devErrInfo_OFFSET : Fld := ⟨.devErrInfo, 23, 0⟩
/-- DEV_ERR_COUNT.COUNT. -/
abbrev devErrCount_COUNT : Fld := ⟨.devErrCount, 63, 0⟩
/-- PIL_BOOT_PROGRESS.PHASE. -/
abbrev pilBootProgress_PHASE : Fld := ⟨.pilBootProgress, 23, 16⟩
/-- PIL_BOOT_PROGRESS.PERCENT. -/
abbrev pilBootProgress_PERCENT : Fld := ⟨.pilBootProgress, 13, 0⟩
/-- PIL_STATUS.HALT_CAUSE. -/
abbrev pilStatus_HALT_CAUSE : Fld := ⟨.pilStatus, 15, 8⟩
/-- PIL_STATUS.STAGING. -/
abbrev pilStatus_STAGING : Fld := ⟨.pilStatus, 2, 2⟩
/-- PIL_STATUS.FLASH_BUSY. -/
abbrev pilStatus_FLASH_BUSY : Fld := ⟨.pilStatus, 1, 1⟩
/-- PIL_STATUS.FLASH_RELEASED. -/
abbrev pilStatus_FLASH_RELEASED : Fld := ⟨.pilStatus, 0, 0⟩
/-- PIL_CMD.FLASH_ACQUIRE. -/
abbrev pilCmd_FLASH_ACQUIRE : Fld := ⟨.pilCmd, 5, 5⟩
/-- PIL_CMD.FLASH_RELEASE. -/
abbrev pilCmd_FLASH_RELEASE : Fld := ⟨.pilCmd, 4, 4⟩
/-- PIL_CMD.DEBUG_LOCK. -/
abbrev pilCmd_DEBUG_LOCK : Fld := ⟨.pilCmd, 3, 3⟩
/-- PIL_CMD.STAGE_MP. -/
abbrev pilCmd_STAGE_MP : Fld := ⟨.pilCmd, 2, 2⟩
/-- PIL_CMD.SUBMIT_TOKEN. -/
abbrev pilCmd_SUBMIT_TOKEN : Fld := ⟨.pilCmd, 1, 1⟩
/-- PIL_CMD.NEW_NONCE. -/
abbrev pilCmd_NEW_NONCE : Fld := ⟨.pilCmd, 0, 0⟩
/-- PIL_IMAGE.IMAGE_VERSION. -/
abbrev pilImage_IMAGE_VERSION : Fld := ⟨.pilImage, 63, 32⟩
/-- PIL_IMAGE.SVN_MIN. -/
abbrev pilImage_SVN_MIN : Fld := ⟨.pilImage, 13, 8⟩
/-- PIL_IMAGE.SVN. -/
abbrev pilImage_SVN : Fld := ⟨.pilImage, 5, 0⟩
/-- PIL_KEYS.OWNER_ONLY. -/
abbrev pilKeys_OWNER_ONLY : Fld := ⟨.pilKeys, 7, 7⟩
/-- PIL_KEYS.SLOT1. -/
abbrev pilKeys_SLOT1 : Fld := ⟨.pilKeys, 5, 4⟩
/-- PIL_KEYS.SLOT0. -/
abbrev pilKeys_SLOT0 : Fld := ⟨.pilKeys, 3, 2⟩
/-- PIL_KEYS.KEY_USED. -/
abbrev pilKeys_KEY_USED : Fld := ⟨.pilKeys, 1, 0⟩
/-- PIL_DEBUG.EVER. -/
abbrev pilDebug_EVER : Fld := ⟨.pilDebug, 7, 4⟩
/-- PIL_DEBUG.SCOPE. -/
abbrev pilDebug_SCOPE : Fld := ⟨.pilDebug, 3, 0⟩
/-- PIL_TOKEN_ADDR.PA. -/
abbrev pilTokenAddr_PA : Fld := ⟨.pilTokenAddr, 39, 12⟩
/-- PIL_TOKEN_STATUS.KIND. -/
abbrev pilTokenStatus_KIND : Fld := ⟨.pilTokenStatus, 15, 8⟩
/-- PIL_TOKEN_STATUS.RESULT. -/
abbrev pilTokenStatus_RESULT : Fld := ⟨.pilTokenStatus, 7, 0⟩
/-- PIL_NONCE.NONCE. -/
abbrev pilNonce_NONCE : Fld := ⟨.pilNonce, 63, 0⟩
/-- HM_RECORD_COUNT.RECORDS. -/
abbrev hmRecordCount_RECORDS : Fld := ⟨.hmRecordCount, 63, 0⟩
/-- HM_EVENT_SELECT.EVENT. -/
abbrev hmEventSelect_EVENT : Fld := ⟨.hmEventSelect, 11, 0⟩
/-- HM_EVENT_VALUE.VALUE. -/
abbrev hmEventValue_VALUE : Fld := ⟨.hmEventValue, 63, 0⟩
/-- HM_BELL_WATCH.WATCHED. -/
abbrev hmBellWatch_WATCHED : Fld := ⟨.hmBellWatch, 10, 0⟩
/-- HM_EVENT_OWNER.OWNER7. -/
abbrev hmEventOwner_OWNER7 : Fld := ⟨.hmEventOwner, 63, 56⟩
/-- HM_EVENT_OWNER.OWNER6. -/
abbrev hmEventOwner_OWNER6 : Fld := ⟨.hmEventOwner, 55, 48⟩
/-- HM_EVENT_OWNER.OWNER5. -/
abbrev hmEventOwner_OWNER5 : Fld := ⟨.hmEventOwner, 47, 40⟩
/-- HM_EVENT_OWNER.OWNER4. -/
abbrev hmEventOwner_OWNER4 : Fld := ⟨.hmEventOwner, 39, 32⟩
/-- HM_EVENT_OWNER.OWNER3. -/
abbrev hmEventOwner_OWNER3 : Fld := ⟨.hmEventOwner, 31, 24⟩
/-- HM_EVENT_OWNER.OWNER2. -/
abbrev hmEventOwner_OWNER2 : Fld := ⟨.hmEventOwner, 23, 16⟩
/-- HM_EVENT_OWNER.OWNER1. -/
abbrev hmEventOwner_OWNER1 : Fld := ⟨.hmEventOwner, 15, 8⟩
/-- HM_EVENT_OWNER.OWNER0. -/
abbrev hmEventOwner_OWNER0 : Fld := ⟨.hmEventOwner, 7, 0⟩
/-- HM_RING_SQ_BASE.BASE. -/
abbrev hmRingSqBase_BASE : Fld := ⟨.hmRingSqBase, 39, 12⟩
/-- HM_RING_CQ_BASE.BASE. -/
abbrev hmRingCqBase_BASE : Fld := ⟨.hmRingCqBase, 39, 12⟩
/-- HM_RING_CTRL.BASE. -/
abbrev hmRingCtrl_BASE : Fld := ⟨.hmRingCtrl, 39, 8⟩
/-- HM_RING_CFG.ENABLE. -/
abbrev hmRingCfg_ENABLE : Fld := ⟨.hmRingCfg, 63, 63⟩
/-- HM_RING_CFG.CONTEXT. -/
abbrev hmRingCfg_CONTEXT : Fld := ⟨.hmRingCfg, 39, 32⟩
/-- HM_RING_CFG.CQ_LOG2. -/
abbrev hmRingCfg_CQ_LOG2 : Fld := ⟨.hmRingCfg, 28, 24⟩
/-- HM_RING_CFG.SQ_LOG2. -/
abbrev hmRingCfg_SQ_LOG2 : Fld := ⟨.hmRingCfg, 20, 16⟩
/-- HM_RING_MSI_ADDR.ADDR. -/
abbrev hmRingMsiAddr_ADDR : Fld := ⟨.hmRingMsiAddr, 63, 2⟩
/-- HM_RING_MSI.MOD_TIDES. -/
abbrev hmRingMsi_MOD_TIDES : Fld := ⟨.hmRingMsi, 47, 40⟩
/-- HM_RING_MSI.ERR_IRQ. -/
abbrev hmRingMsi_ERR_IRQ : Fld := ⟨.hmRingMsi, 32, 32⟩
/-- HM_RING_MSI.DATA. -/
abbrev hmRingMsi_DATA : Fld := ⟨.hmRingMsi, 31, 0⟩
/-- HM_RING_STATUS.BELL_AHEAD_COUNT. -/
abbrev hmRingStatus_BELL_AHEAD_COUNT : Fld := ⟨.hmRingStatus, 63, 32⟩
/-- HM_RING_STATUS.HEAD_TYPE. -/
abbrev hmRingStatus_HEAD_TYPE : Fld := ⟨.hmRingStatus, 23, 16⟩
/-- HM_RING_STATUS.HELD_CUTS. -/
abbrev hmRingStatus_HELD_CUTS : Fld := ⟨.hmRingStatus, 15, 8⟩
/-- HM_RING_STATUS.STATE. -/
abbrev hmRingStatus_STATE : Fld := ⟨.hmRingStatus, 3, 0⟩
/-- HM_RING_INDEX.CQ_PI. -/
abbrev hmRingIndex_CQ_PI : Fld := ⟨.hmRingIndex, 63, 32⟩
/-- HM_RING_INDEX.FI. -/
abbrev hmRingIndex_FI : Fld := ⟨.hmRingIndex, 31, 0⟩
/-- SEG_CTX_TABLE_BASE.BASE. -/
abbrev segCtxTableBase_BASE : Fld := ⟨.segCtxTableBase, 39, 12⟩
/-- SEG_CTX_SELECT.CONTEXT. -/
abbrev segCtxSelect_CONTEXT : Fld := ⟨.segCtxSelect, 7, 0⟩
/-- SEG_CTX_STATUS.MISPLACED. -/
abbrev segCtxStatus_MISPLACED : Fld := ⟨.segCtxStatus, 47, 32⟩
/-- SEG_CTX_STATUS.KILLS. -/
abbrev segCtxStatus_KILLS : Fld := ⟨.segCtxStatus, 31, 16⟩
/-- SEG_CTX_STATUS.STATE. -/
abbrev segCtxStatus_STATE : Fld := ⟨.segCtxStatus, 1, 0⟩
/-- SEG_CTX_FAULT_VA.VA. -/
abbrev segCtxFaultVa_VA : Fld := ⟨.segCtxFaultVa, 63, 0⟩
/-- SEG_CTX_FAULT_INFO.VALID. -/
abbrev segCtxFaultInfo_VALID : Fld := ⟨.segCtxFaultInfo, 63, 63⟩
/-- SEG_CTX_FAULT_INFO.COUNT. -/
abbrev segCtxFaultInfo_COUNT : Fld := ⟨.segCtxFaultInfo, 47, 32⟩
/-- SEG_CTX_FAULT_INFO.LOCATOR. -/
abbrev segCtxFaultInfo_LOCATOR : Fld := ⟨.segCtxFaultInfo, 31, 16⟩
/-- SEG_CTX_FAULT_INFO.KIND. -/
abbrev segCtxFaultInfo_KIND : Fld := ⟨.segCtxFaultInfo, 15, 12⟩
/-- SEG_CTX_FAULT_INFO.CAUSE. -/
abbrev segCtxFaultInfo_CAUSE : Fld := ⟨.segCtxFaultInfo, 11, 8⟩
/-- SEG_CTX_FAULT_INFO.SEGMENT. -/
abbrev segCtxFaultInfo_SEGMENT : Fld := ⟨.segCtxFaultInfo, 7, 4⟩
/-- SEG_CTX_CMD.CMD. -/
abbrev segCtxCmd_CMD : Fld := ⟨.segCtxCmd, 9, 8⟩
/-- SEG_CTX_CMD.CONTEXT. -/
abbrev segCtxCmd_CONTEXT : Fld := ⟨.segCtxCmd, 7, 0⟩
/-- SEG_WALK_STATUS.WALKS. -/
abbrev segWalkStatus_WALKS : Fld := ⟨.segWalkStatus, 63, 32⟩
/-- SEG_WALK_STATUS.INVALS. -/
abbrev segWalkStatus_INVALS : Fld := ⟨.segWalkStatus, 20, 5⟩
/-- SEG_WALK_STATUS.BUSY. -/
abbrev segWalkStatus_BUSY : Fld := ⟨.segWalkStatus, 4, 0⟩
/-- TIDE_PERIOD_NS.PERIOD. -/
abbrev tidePeriodNs_PERIOD : Fld := ⟨.tidePeriodNs, 17, 0⟩
/-- TIDE_COUNT.VALUE. -/
abbrev tideCount_VALUE : Fld := ⟨.tideCount, 63, 0⟩
/-- TIDE_MODE.COUPLE_MASK. -/
abbrev tideMode_COUPLE_MASK : Fld := ⟨.tideMode, 13, 8⟩
/-- TIDE_MODE.MODE. -/
abbrev tideMode_MODE : Fld := ⟨.tideMode, 0, 0⟩
/-- TIDE_RESERVE.RESERVE. -/
abbrev tideReserve_RESERVE : Fld := ⟨.tideReserve, 7, 0⟩
/-- TIDE_OVERRUN_LIMIT.LIMIT. -/
abbrev tideOverrunLimit_LIMIT : Fld := ⟨.tideOverrunLimit, 6, 0⟩
/-- TIDE_HELD_COUNT.VALUE. -/
abbrev tideHeldCount_VALUE : Fld := ⟨.tideHeldCount, 63, 0⟩
/-- TIDE_STATUS.PERIOD_MISMATCH. -/
abbrev tideStatus_PERIOD_MISMATCH : Fld := ⟨.tideStatus, 17, 17⟩
/-- TIDE_STATUS.HOLDING. -/
abbrev tideStatus_HOLDING : Fld := ⟨.tideStatus, 16, 16⟩
/-- TIDE_STATUS.COUPLED_SET. -/
abbrev tideStatus_COUPLED_SET : Fld := ⟨.tideStatus, 13, 8⟩
/-- TIDE_STATUS.MODE_ACTIVE. -/
abbrev tideStatus_MODE_ACTIVE : Fld := ⟨.tideStatus, 0, 0⟩
/-- TIDE_ADMIT_CFG.STARVE_LIMIT. -/
abbrev tideAdmitCfg_STARVE_LIMIT : Fld := ⟨.tideAdmitCfg, 7, 0⟩
/-- TIDE_BEACON_CFG.JOIN_LIMIT_MS. -/
abbrev tideBeaconCfg_JOIN_LIMIT_MS : Fld := ⟨.tideBeaconCfg, 31, 16⟩
/-- TIDE_BEACON_CFG.TIMEOUT. -/
abbrev tideBeaconCfg_TIMEOUT : Fld := ⟨.tideBeaconCfg, 6, 0⟩
/-- TIDE_COUPLED_COUNT.VALUE. -/
abbrev tideCoupledCount_VALUE : Fld := ⟨.tideCoupledCount, 63, 0⟩
/-- TIDE_LAST_TICK_NS.VALUE. -/
abbrev tideLastTickNs_VALUE : Fld := ⟨.tideLastTickNs, 63, 0⟩
/-- TIDE_OVERRUN_COUNT.VALUE. -/
abbrev tideOverrunCount_VALUE : Fld := ⟨.tideOverrunCount, 63, 0⟩
/-- TIDE_RING_SHARE.SHARE7. -/
abbrev tideRingShare_SHARE7 : Fld := ⟨.tideRingShare, 63, 56⟩
/-- TIDE_RING_SHARE.SHARE6. -/
abbrev tideRingShare_SHARE6 : Fld := ⟨.tideRingShare, 55, 48⟩
/-- TIDE_RING_SHARE.SHARE5. -/
abbrev tideRingShare_SHARE5 : Fld := ⟨.tideRingShare, 47, 40⟩
/-- TIDE_RING_SHARE.SHARE4. -/
abbrev tideRingShare_SHARE4 : Fld := ⟨.tideRingShare, 39, 32⟩
/-- TIDE_RING_SHARE.SHARE3. -/
abbrev tideRingShare_SHARE3 : Fld := ⟨.tideRingShare, 31, 24⟩
/-- TIDE_RING_SHARE.SHARE2. -/
abbrev tideRingShare_SHARE2 : Fld := ⟨.tideRingShare, 23, 16⟩
/-- TIDE_RING_SHARE.SHARE1. -/
abbrev tideRingShare_SHARE1 : Fld := ⟨.tideRingShare, 15, 8⟩
/-- TIDE_RING_SHARE.SHARE0. -/
abbrev tideRingShare_SHARE0 : Fld := ⟨.tideRingShare, 7, 0⟩
/-- LKP_MODE.MODE. -/
abbrev lkpMode_MODE : Fld := ⟨.lkpMode, 0, 0⟩
/-- LKP_CAP.BOARD_CAP_W. -/
abbrev lkpCap_BOARD_CAP_W : Fld := ⟨.lkpCap, 47, 32⟩
/-- LKP_CAP.EFFECTIVE_W. -/
abbrev lkpCap_EFFECTIVE_W : Fld := ⟨.lkpCap, 31, 16⟩
/-- LKP_CAP.SW_CAP_W. -/
abbrev lkpCap_SW_CAP_W : Fld := ⟨.lkpCap, 15, 0⟩
/-- LKP_STATUS.ESTIMATE_DIVERGED. -/
abbrev lkpStatus_ESTIMATE_DIVERGED : Fld := ⟨.lkpStatus, 8, 8⟩
/-- LKP_STATUS.CAP_LOWERED. -/
abbrev lkpStatus_CAP_LOWERED : Fld := ⟨.lkpStatus, 7, 7⟩
/-- LKP_STATUS.FIXED_HELD. -/
abbrev lkpStatus_FIXED_HELD : Fld := ⟨.lkpStatus, 6, 6⟩
/-- LKP_STATUS.CAP_NOW. -/
abbrev lkpStatus_CAP_NOW : Fld := ⟨.lkpStatus, 5, 5⟩
/-- LKP_STATUS.OVERSHOOT. -/
abbrev lkpStatus_OVERSHOOT : Fld := ⟨.lkpStatus, 4, 4⟩
/-- LKP_STATUS.COMPUTE_THROTTLE. -/
abbrev lkpStatus_COMPUTE_THROTTLE : Fld := ⟨.lkpStatus, 3, 3⟩
/-- LKP_STATUS.HBM_THROTTLE. -/
abbrev lkpStatus_HBM_THROTTLE : Fld := ⟨.lkpStatus, 2, 2⟩
/-- LKP_STATUS.DROOP_DEFERRED. -/
abbrev lkpStatus_DROOP_DEFERRED : Fld := ⟨.lkpStatus, 1, 1⟩
/-- LKP_STATUS.HINT_ACTIVE. -/
abbrev lkpStatus_HINT_ACTIVE : Fld := ⟨.lkpStatus, 0, 0⟩
/-- LKP_POWER.MEASURED_W. -/
abbrev lkpPower_MEASURED_W : Fld := ⟨.lkpPower, 63, 48⟩
/-- LKP_POWER.ESTIMATED_W. -/
abbrev lkpPower_ESTIMATED_W : Fld := ⟨.lkpPower, 47, 32⟩
/-- LKP_POWER.ALLOCATED_W. -/
abbrev lkpPower_ALLOCATED_W : Fld := ⟨.lkpPower, 31, 16⟩
/-- LKP_POWER.AGREE_TIDES. -/
abbrev lkpPower_AGREE_TIDES : Fld := ⟨.lkpPower, 15, 0⟩
/-- LKP_TEMP.HBM_C. -/
abbrev lkpTemp_HBM_C : Fld := ⟨.lkpTemp, 63, 56⟩
/-- LKP_TEMP.HBM_LOCATOR. -/
abbrev lkpTemp_HBM_LOCATOR : Fld := ⟨.lkpTemp, 55, 40⟩
/-- LKP_TEMP.JUNCTION_C. -/
abbrev lkpTemp_JUNCTION_C : Fld := ⟨.lkpTemp, 39, 32⟩
/-- LKP_TEMP.JUNCTION_LOCATOR. -/
abbrev lkpTemp_JUNCTION_LOCATOR : Fld := ⟨.lkpTemp, 31, 16⟩
/-- LKP_COOLANT.INLET_C. -/
abbrev lkpCoolant_INLET_C : Fld := ⟨.lkpCoolant, 7, 0⟩
/-- LKP_DROOP.STRETCHES. -/
abbrev lkpDroop_STRETCHES : Fld := ⟨.lkpDroop, 63, 32⟩
/-- LKP_DROOP.DEFERRED. -/
abbrev lkpDroop_DEFERRED : Fld := ⟨.lkpDroop, 31, 16⟩
/-- LKP_DROOP.ABANDONED. -/
abbrev lkpDroop_ABANDONED : Fld := ⟨.lkpDroop, 15, 0⟩
/-- LKP_CLASS.FLOOR_W. -/
abbrev lkpClass_FLOOR_W : Fld := ⟨.lkpClass, 63, 48⟩
/-- LKP_CLASS.DEMAND_W. -/
abbrev lkpClass_DEMAND_W : Fld := ⟨.lkpClass, 47, 32⟩
/-- LKP_CLASS.ALLOC_W. -/
abbrev lkpClass_ALLOC_W : Fld := ⟨.lkpClass, 31, 16⟩
/-- LKP_CLASS.MEASURED_W. -/
abbrev lkpClass_MEASURED_W : Fld := ⟨.lkpClass, 15, 0⟩
/-- LKP_DIE.TEMP_C. -/
abbrev lkpDie_TEMP_C : Fld := ⟨.lkpDie, 63, 56⟩
/-- LKP_DIE.VOLTAGE_MV. -/
abbrev lkpDie_VOLTAGE_MV : Fld := ⟨.lkpDie, 55, 40⟩
/-- LKP_DIE.AGEING_MV. -/
abbrev lkpDie_AGEING_MV : Fld := ⟨.lkpDie, 39, 32⟩
/-- LKP_DIE.EFF_MAX. -/
abbrev lkpDie_EFF_MAX : Fld := ⟨.lkpDie, 21, 16⟩
/-- LKP_DIE.FREQ. -/
abbrev lkpDie_FREQ : Fld := ⟨.lkpDie, 5, 0⟩
/-- LOG_STATUS.FULL. -/
abbrev logStatus_FULL : Fld := ⟨.logStatus, 63, 63⟩
/-- LOG_STATUS.DROPPED. -/
abbrev logStatus_DROPPED : Fld := ⟨.logStatus, 47, 32⟩
/-- LOG_STATUS.COUNT. -/
abbrev logStatus_COUNT : Fld := ⟨.logStatus, 12, 0⟩
/-- LOG_INDEX.INDEX. -/
abbrev logIndex_INDEX : Fld := ⟨.logIndex, 11, 0⟩
/-- LOG_RATE.LIMIT. -/
abbrev logRate_LIMIT : Fld := ⟨.logRate, 7, 0⟩
/-- LOG_VAULT_STATUS.GENERATION. -/
abbrev logVaultStatus_GENERATION : Fld := ⟨.logVaultStatus, 63, 32⟩
/-- LOG_VAULT_STATUS.ERROR. -/
abbrev logVaultStatus_ERROR : Fld := ⟨.logVaultStatus, 17, 17⟩
/-- LOG_VAULT_STATUS.SLOT. -/
abbrev logVaultStatus_SLOT : Fld := ⟨.logVaultStatus, 16, 16⟩
/-- LOG_VAULT_STATUS.MIRRORED. -/
abbrev logVaultStatus_MIRRORED : Fld := ⟨.logVaultStatus, 8, 0⟩
/-- LOG_DATA.WORD. -/
abbrev logData_WORD : Fld := ⟨.logData, 63, 0⟩
/-- BWF_LOCK.LOCK. -/
abbrev bwfLock_LOCK : Fld := ⟨.bwfLock, 0, 0⟩
/-- BWF_DENIED_COUNT.COUNT. -/
abbrev bwfDeniedCount_COUNT : Fld := ⟨.bwfDeniedCount, 63, 0⟩
/-- BWF_DENIED_ADDR.PA. -/
abbrev bwfDeniedAddr_PA : Fld := ⟨.bwfDeniedAddr, 63, 0⟩
/-- BWF_DENIED_INFO.VALID. -/
abbrev bwfDeniedInfo_VALID : Fld := ⟨.bwfDeniedInfo, 63, 63⟩
/-- BWF_DENIED_INFO.REQUESTER. -/
abbrev bwfDeniedInfo_REQUESTER : Fld := ⟨.bwfDeniedInfo, 23, 8⟩
/-- BWF_DENIED_INFO.PORT. -/
abbrev bwfDeniedInfo_PORT : Fld := ⟨.bwfDeniedInfo, 7, 6⟩
/-- BWF_DENIED_INFO.KIND. -/
abbrev bwfDeniedInfo_KIND : Fld := ⟨.bwfDeniedInfo, 3, 0⟩
/-- BWF_WIN_BASE.BASE. -/
abbrev bwfWinBase_BASE : Fld := ⟨.bwfWinBase, 39, 21⟩
/-- BWF_WIN_CFG.ENABLE. -/
abbrev bwfWinCfg_ENABLE : Fld := ⟨.bwfWinCfg, 63, 63⟩
/-- BWF_WIN_CFG.W. -/
abbrev bwfWinCfg_W : Fld := ⟨.bwfWinCfg, 37, 37⟩
/-- BWF_WIN_CFG.R. -/
abbrev bwfWinCfg_R : Fld := ⟨.bwfWinCfg, 36, 36⟩
/-- BWF_WIN_CFG.PORTS. -/
abbrev bwfWinCfg_PORTS : Fld := ⟨.bwfWinCfg, 35, 32⟩
/-- BWF_WIN_CFG.LIMIT. -/
abbrev bwfWinCfg_LIMIT : Fld := ⟨.bwfWinCfg, 19, 0⟩
/-- MNT_RESET_CMD.KIND. -/
abbrev mntResetCmd_KIND : Fld := ⟨.mntResetCmd, 1, 0⟩
/-- MNT_RESET_CAUSE.DIVERTED. -/
abbrev mntResetCause_DIVERTED : Fld := ⟨.mntResetCause, 47, 32⟩
/-- MNT_RESET_CAUSE.ACCOUNTED. -/
abbrev mntResetCause_ACCOUNTED : Fld := ⟨.mntResetCause, 12, 12⟩
/-- MNT_RESET_CAUSE.SOURCE. -/
abbrev mntResetCause_SOURCE : Fld := ⟨.mntResetCause, 11, 8⟩
/-- MNT_RESET_CAUSE.KIND. -/
abbrev mntResetCause_KIND : Fld := ⟨.mntResetCause, 7, 0⟩
/-- MNT_SETTINGS_EPOCH.EPOCH. -/
abbrev mntSettingsEpoch_EPOCH : Fld := ⟨.mntSettingsEpoch, 63, 32⟩
/-- MNT_SETTINGS_EPOCH.LAST_CAUSE. -/
abbrev mntSettingsEpoch_LAST_CAUSE : Fld := ⟨.mntSettingsEpoch, 7, 0⟩
/-- MNT_UNIT_RESET.LOCATOR. -/
abbrev mntUnitReset_LOCATOR : Fld := ⟨.mntUnitReset, 15, 0⟩
/-- MNT_PORT_RESET.SLOT. -/
abbrev mntPortReset_SLOT : Fld := ⟨.mntPortReset, 17, 16⟩
/-- MNT_PORT_RESET.LOCATOR. -/
abbrev mntPortReset_LOCATOR : Fld := ⟨.mntPortReset, 15, 0⟩
/-- MNT_POWER_CMD.PKG_IDLE. -/
abbrev mntPowerCmd_PKG_IDLE : Fld := ⟨.mntPowerCmd, 16, 16⟩
/-- MNT_POWER_CMD.DECK_RETAIN. -/
abbrev mntPowerCmd_DECK_RETAIN : Fld := ⟨.mntPowerCmd, 7, 0⟩
/-- MNT_POWER_STATUS.EXITS. -/
abbrev mntPowerStatus_EXITS : Fld := ⟨.mntPowerStatus, 63, 32⟩
/-- MNT_POWER_STATUS.IN_PKG_IDLE. -/
abbrev mntPowerStatus_IN_PKG_IDLE : Fld := ⟨.mntPowerStatus, 16, 16⟩
/-- MNT_POWER_STATUS.RETAINED. -/
abbrev mntPowerStatus_RETAINED : Fld := ⟨.mntPowerStatus, 7, 0⟩
/-- MNT_LEDGER_ARM.ARMED. -/
abbrev mntLedgerArm_ARMED : Fld := ⟨.mntLedgerArm, 0, 0⟩
/-- MNT_HUB_WDT.EXPIRIES. -/
abbrev mntHubWdt_EXPIRIES : Fld := ⟨.mntHubWdt, 63, 48⟩
/-- MNT_HUB_WDT.LAST_CHANNEL. -/
abbrev mntHubWdt_LAST_CHANNEL : Fld := ⟨.mntHubWdt, 33, 32⟩
/-- MNT_HUB_WDT.LIMIT_MS. -/
abbrev mntHubWdt_LIMIT_MS : Fld := ⟨.mntHubWdt, 9, 0⟩
/-- MNT_HOST_LINK_STATUS.DEGRADED. -/
abbrev mntHostLinkStatus_DEGRADED : Fld := ⟨.mntHostLinkStatus, 63, 48⟩
/-- MNT_HOST_LINK_STATUS.LIVE. -/
abbrev mntHostLinkStatus_LIVE : Fld := ⟨.mntHostLinkStatus, 47, 32⟩
/-- MNT_HOST_LINK_STATUS.DISPUTES. -/
abbrev mntHostLinkStatus_DISPUTES : Fld := ⟨.mntHostLinkStatus, 31, 24⟩
/-- MNT_HOST_LINK_STATUS.EXCHANGES. -/
abbrev mntHostLinkStatus_EXCHANGES : Fld := ⟨.mntHostLinkStatus, 11, 8⟩
/-- MNT_HOST_LINK_STATUS.STATE. -/
abbrev mntHostLinkStatus_STATE : Fld := ⟨.mntHostLinkStatus, 3, 0⟩
/-- MNT_POOL_LAYOUT.ZERO_AT_COLD. -/
abbrev mntPoolLayout_ZERO_AT_COLD : Fld := ⟨.mntPoolLayout, 16, 16⟩
/-- MNT_POOL_LAYOUT.I_EFFECTIVE. -/
abbrev mntPoolLayout_I_EFFECTIVE : Fld := ⟨.mntPoolLayout, 15, 8⟩
/-- MNT_POOL_LAYOUT.I. -/
abbrev mntPoolLayout_I : Fld := ⟨.mntPoolLayout, 6, 0⟩
/-- MNT_RETIRE_COUNT.ENTRIES. -/
abbrev mntRetireCount_ENTRIES : Fld := ⟨.mntRetireCount, 12, 0⟩
/-- MNT_RETIRE_INDEX.INDEX. -/
abbrev mntRetireIndex_INDEX : Fld := ⟨.mntRetireIndex, 11, 0⟩
/-- MNT_RETIRE_ENTRY.VALID. -/
abbrev mntRetireEntry_VALID : Fld := ⟨.mntRetireEntry, 63, 63⟩
/-- MNT_RETIRE_ENTRY.PENDING. -/
abbrev mntRetireEntry_PENDING : Fld := ⟨.mntRetireEntry, 62, 62⟩
/-- MNT_RETIRE_ENTRY.REASON. -/
abbrev mntRetireEntry_REASON : Fld := ⟨.mntRetireEntry, 61, 58⟩
/-- MNT_RETIRE_ENTRY.COUNT. -/
abbrev mntRetireEntry_COUNT : Fld := ⟨.mntRetireEntry, 57, 39⟩
/-- MNT_RETIRE_ENTRY.FIRST_PAGE. -/
abbrev mntRetireEntry_FIRST_PAGE : Fld := ⟨.mntRetireEntry, 18, 0⟩
/-- MNT_HOST_CMD.RESUME. -/
abbrev mntHostCmd_RESUME : Fld := ⟨.mntHostCmd, 8, 8⟩
/-- MNT_HOST_CMD.RESET. -/
abbrev mntHostCmd_RESET : Fld := ⟨.mntHostCmd, 0, 0⟩
/-- MNT_PSR.WORD. -/
abbrev mntPsr_WORD : Fld := ⟨.mntPsr, 63, 0⟩
/-- DCK_D2D_STATUS.DEGRADED. -/
abbrev dckD2dStatus_DEGRADED : Fld := ⟨.dckD2dStatus, 63, 48⟩
/-- DCK_D2D_STATUS.LIVE. -/
abbrev dckD2dStatus_LIVE : Fld := ⟨.dckD2dStatus, 47, 32⟩
/-- DCK_D2D_STATUS.DISPUTES. -/
abbrev dckD2dStatus_DISPUTES : Fld := ⟨.dckD2dStatus, 31, 24⟩
/-- DCK_D2D_STATUS.EXCHANGES. -/
abbrev dckD2dStatus_EXCHANGES : Fld := ⟨.dckD2dStatus, 11, 8⟩
/-- DCK_D2D_STATUS.STATE. -/
abbrev dckD2dStatus_STATE : Fld := ⟨.dckD2dStatus, 3, 0⟩
/-- DCK_SPARE_STATUS.RESULT. -/
abbrev dckSpareStatus_RESULT : Fld := ⟨.dckSpareStatus, 7, 6⟩
/-- DCK_SPARE_STATUS.PRESENT. -/
abbrev dckSpareStatus_PRESENT : Fld := ⟨.dckSpareStatus, 5, 5⟩
/-- DCK_SPARE_STATUS.SITE. -/
abbrev dckSpareStatus_SITE : Fld := ⟨.dckSpareStatus, 2, 0⟩
/-- DCK_WH_STATUS.CORRECTED. -/
abbrev dckWhStatus_CORRECTED : Fld := ⟨.dckWhStatus, 63, 32⟩
/-- DCK_WH_STATUS.UNCORRECTABLE. -/
abbrev dckWhStatus_UNCORRECTABLE : Fld := ⟨.dckWhStatus, 31, 16⟩
/-- DCK_WH_STATUS.ROWS_SPARED. -/
abbrev dckWhStatus_ROWS_SPARED : Fld := ⟨.dckWhStatus, 15, 8⟩
/-- DCK_WH_STATUS.ROWS_UNSPARED. -/
abbrev dckWhStatus_ROWS_UNSPARED : Fld := ⟨.dckWhStatus, 7, 0⟩
/-- DCK_WH_SCRUB_CFG.PERIOD_MIN. -/
abbrev dckWhScrubCfg_PERIOD_MIN : Fld := ⟨.dckWhScrubCfg, 15, 0⟩
/-- DCK_CRANE_STATUS.ITEMS. -/
abbrev dckCraneStatus_ITEMS : Fld := ⟨.dckCraneStatus, 63, 32⟩
/-- DCK_CRANE_STATUS.CONTEXT. -/
abbrev dckCraneStatus_CONTEXT : Fld := ⟨.dckCraneStatus, 31, 24⟩
/-- DCK_CRANE_STATUS.FAULTS. -/
abbrev dckCraneStatus_FAULTS : Fld := ⟨.dckCraneStatus, 15, 8⟩
/-- DCK_CRANE_STATUS.STATE. -/
abbrev dckCraneStatus_STATE : Fld := ⟨.dckCraneStatus, 3, 0⟩
/-- HAW_PORT_STATUS.PROGRESS. -/
abbrev hawPortStatus_PROGRESS : Fld := ⟨.hawPortStatus, 63, 48⟩
/-- HAW_PORT_STATUS.LASER_CLASS. -/
abbrev hawPortStatus_LASER_CLASS : Fld := ⟨.hawPortStatus, 35, 32⟩
/-- HAW_PORT_STATUS.PEER_NODE. -/
abbrev hawPortStatus_PEER_NODE : Fld := ⟨.hawPortStatus, 29, 15⟩
/-- HAW_PORT_STATUS.ACTIVE_LANES. -/
abbrev hawPortStatus_ACTIVE_LANES : Fld := ⟨.hawPortStatus, 12, 8⟩
/-- HAW_PORT_STATUS.SPARES_USED. -/
abbrev hawPortStatus_SPARES_USED : Fld := ⟨.hawPortStatus, 7, 6⟩
/-- HAW_PORT_STATUS.STATE. -/
abbrev hawPortStatus_STATE : Fld := ⟨.hawPortStatus, 3, 0⟩
/-- HAW_PORT_CMD.DISABLE. -/
abbrev hawPortCmd_DISABLE : Fld := ⟨.hawPortCmd, 1, 1⟩
/-- HAW_PORT_CMD.RETRAIN. -/
abbrev hawPortCmd_RETRAIN : Fld := ⟨.hawPortCmd, 0, 0⟩
/-- HAW_PORT_COUNTS.LANE_FAULTS. -/
abbrev hawPortCounts_LANE_FAULTS : Fld := ⟨.hawPortCounts, 63, 48⟩
/-- HAW_PORT_COUNTS.RETRIES. -/
abbrev hawPortCounts_RETRIES : Fld := ⟨.hawPortCounts, 47, 32⟩
/-- HAW_PORT_COUNTS.DISCARDS. -/
abbrev hawPortCounts_DISCARDS : Fld := ⟨.hawPortCounts, 31, 16⟩
/-- HAW_PORT_COUNTS.UNCORRECTED. -/
abbrev hawPortCounts_UNCORRECTED : Fld := ⟨.hawPortCounts, 15, 0⟩
/-- HAW_NODE.ZM1. -/
abbrev hawNode_ZM1 : Fld := ⟨.hawNode, 46, 42⟩
/-- HAW_NODE.YM1. -/
abbrev hawNode_YM1 : Fld := ⟨.hawNode, 41, 37⟩
/-- HAW_NODE.XM1. -/
abbrev hawNode_XM1 : Fld := ⟨.hawNode, 36, 32⟩
/-- HAW_NODE.NODE. -/
abbrev hawNode_NODE : Fld := ⟨.hawNode, 14, 0⟩
/-- HAW_CONN_TABLE_BASE.BASE. -/
abbrev hawConnTableBase_BASE : Fld := ⟨.hawConnTableBase, 39, 12⟩
/-- HAW_CONN_CMD.CMD. -/
abbrev hawConnCmd_CMD : Fld := ⟨.hawConnCmd, 13, 12⟩
/-- HAW_CONN_CMD.CONN. -/
abbrev hawConnCmd_CONN : Fld := ⟨.hawConnCmd, 11, 0⟩
/-- HAW_CONN_CFG.RETRY_LIMIT. -/
abbrev hawConnCfg_RETRY_LIMIT : Fld := ⟨.hawConnCfg, 47, 40⟩
/-- HAW_CONN_CFG.COLL_TIMEOUT_MS. -/
abbrev hawConnCfg_COLL_TIMEOUT_MS : Fld := ⟨.hawConnCfg, 31, 16⟩
/-- HAW_CONN_CFG.RTO_US. -/
abbrev hawConnCfg_RTO_US : Fld := ⟨.hawConnCfg, 15, 0⟩
/-- HAW_ROUTE_CTRL.SWAP. -/
abbrev hawRouteCtrl_SWAP : Fld := ⟨.hawRouteCtrl, 10, 8⟩
/-- HAW_ROUTE_CTRL.STAGED. -/
abbrev hawRouteCtrl_STAGED : Fld := ⟨.hawRouteCtrl, 6, 4⟩
/-- HAW_ROUTE_CTRL.EPOCH. -/
abbrev hawRouteCtrl_EPOCH : Fld := ⟨.hawRouteCtrl, 2, 0⟩
/-- HAW_ROUTE.ENTRIES. -/
abbrev hawRoute_ENTRIES : Fld := ⟨.hawRoute, 63, 0⟩
/-- HBM_STATUS.DIE_FENCED. -/
abbrev hbmStatus_DIE_FENCED : Fld := ⟨.hbmStatus, 23, 8⟩
/-- HBM_STATUS.BIN. -/
abbrev hbmStatus_BIN : Fld := ⟨.hbmStatus, 5, 4⟩
/-- HBM_STATUS.STATE. -/
abbrev hbmStatus_STATE : Fld := ⟨.hbmStatus, 1, 0⟩
/-- HBM_PC_FENCED.FENCED. -/
abbrev hbmPcFenced_FENCED : Fld := ⟨.hbmPcFenced, 63, 0⟩
/-- HBM_ERR_COUNT.CORRECTED. -/
abbrev hbmErrCount_CORRECTED : Fld := ⟨.hbmErrCount, 63, 32⟩
/-- HBM_ERR_COUNT.UNCORRECTABLE. -/
abbrev hbmErrCount_UNCORRECTABLE : Fld := ⟨.hbmErrCount, 31, 16⟩
/-- HBM_ERR_COUNT.ROWS_SPARED. -/
abbrev hbmErrCount_ROWS_SPARED : Fld := ⟨.hbmErrCount, 15, 0⟩
/-- HBM_SCRUB_CFG.PASSES. -/
abbrev hbmScrubCfg_PASSES : Fld := ⟨.hbmScrubCfg, 63, 32⟩
/-- HBM_SCRUB_CFG.PERIOD_H. -/
abbrev hbmScrubCfg_PERIOD_H : Fld := ⟨.hbmScrubCfg, 7, 0⟩
/-- WHF_STATUS.PARTS. -/
abbrev whfStatus_PARTS : Fld := ⟨.whfStatus, 63, 32⟩
/-- WHF_STATUS.CONTEXT. -/
abbrev whfStatus_CONTEXT : Fld := ⟨.whfStatus, 31, 24⟩
/-- WHF_STATUS.FALLBACK. -/
abbrev whfStatus_FALLBACK : Fld := ⟨.whfStatus, 16, 16⟩
/-- WHF_STATUS.FAULTS. -/
abbrev whfStatus_FAULTS : Fld := ⟨.whfStatus, 15, 8⟩
/-- WHF_STATUS.STATE. -/
abbrev whfStatus_STATE : Fld := ⟨.whfStatus, 3, 0⟩
/-- WHF_ATOMIC_COUNT.OPS. -/
abbrev whfAtomicCount_OPS : Fld := ⟨.whfAtomicCount, 63, 0⟩
/-- WHF_MP_LOADED.LOADED. -/
abbrev whfMpLoaded_LOADED : Fld := ⟨.whfMpLoaded, 15, 0⟩
/-- WHF_MP_VERSION.DEFERRED. -/
abbrev whfMpVersion_DEFERRED : Fld := ⟨.whfMpVersion, 32, 32⟩
/-- WHF_MP_VERSION.VERSION. -/
abbrev whfMpVersion_VERSION : Fld := ⟨.whfMpVersion, 31, 0⟩
/-- CD_LOCATION.FMAX_STEP. -/
abbrev cdLocation_FMAX_STEP : Fld := ⟨.cdLocation, 27, 24⟩
/-- CD_LOCATION.REPAIRED. -/
abbrev cdLocation_REPAIRED : Fld := ⟨.cdLocation, 20, 20⟩
/-- CD_LOCATION.STATE. -/
abbrev cdLocation_STATE : Fld := ⟨.cdLocation, 19, 16⟩
/-- CD_LOCATION.LOCATOR. -/
abbrev cdLocation_LOCATOR : Fld := ⟨.cdLocation, 15, 0⟩
/-- CD_CLUSTER_STATUS.PREV_NONE. -/
abbrev cdClusterStatus_PREV_NONE : Fld := ⟨.cdClusterStatus, 49, 49⟩
/-- CD_CLUSTER_STATUS.KIND. -/
abbrev cdClusterStatus_KIND : Fld := ⟨.cdClusterStatus, 48, 48⟩
/-- CD_CLUSTER_STATUS.CONTEXT. -/
abbrev cdClusterStatus_CONTEXT : Fld := ⟨.cdClusterStatus, 47, 40⟩
/-- CD_CLUSTER_STATUS.MASK. -/
abbrev cdClusterStatus_MASK : Fld := ⟨.cdClusterStatus, 39, 32⟩
/-- CD_CLUSTER_STATUS.TILE_STATE. -/
abbrev cdClusterStatus_TILE_STATE : Fld := ⟨.cdClusterStatus, 31, 0⟩
/-- CD_WATCHDOG_COUNT.LAST_BANK. -/
abbrev cdWatchdogCount_LAST_BANK : Fld := ⟨.cdWatchdogCount, 36, 32⟩
/-- CD_WATCHDOG_COUNT.LAST_LOCATOR. -/
abbrev cdWatchdogCount_LAST_LOCATOR : Fld := ⟨.cdWatchdogCount, 31, 16⟩
/-- CD_WATCHDOG_COUNT.COUNT. -/
abbrev cdWatchdogCount_COUNT : Fld := ⟨.cdWatchdogCount, 15, 0⟩
/-- CD_SF_LOADED.LOADED. -/
abbrev cdSfLoaded_LOADED : Fld := ⟨.cdSfLoaded, 63, 0⟩
/-- CD_SF_VERSION.DEFERRED. -/
abbrev cdSfVersion_DEFERRED : Fld := ⟨.cdSfVersion, 32, 32⟩
/-- CD_SF_VERSION.VERSION. -/
abbrev cdSfVersion_VERSION : Fld := ⟨.cdSfVersion, 31, 0⟩
/-- CD_GANG_CFG.SLICE. -/
abbrev cdGangCfg_SLICE : Fld := ⟨.cdGangCfg, 31, 16⟩
/-- CD_GANG_CFG.SWAP_HINT. -/
abbrev cdGangCfg_SWAP_HINT : Fld := ⟨.cdGangCfg, 5, 0⟩
/-- CD_GANG_STATUS.SWAPS. -/
abbrev cdGangStatus_SWAPS : Fld := ⟨.cdGangStatus, 63, 32⟩
/-- CD_GANG_STATUS.SPLIT_FAULTS. -/
abbrev cdGangStatus_SPLIT_FAULTS : Fld := ⟨.cdGangStatus, 31, 16⟩
/-- CD_GANG_STATUS.AGED_ISSUES. -/
abbrev cdGangStatus_AGED_ISSUES : Fld := ⟨.cdGangStatus, 15, 0⟩
/-- CD_TC_STATUS.PARITY_DIRTY. -/
abbrev cdTcStatus_PARITY_DIRTY : Fld := ⟨.cdTcStatus, 63, 48⟩
/-- CD_TC_STATUS.PARITY_CLEAN. -/
abbrev cdTcStatus_PARITY_CLEAN : Fld := ⟨.cdTcStatus, 47, 32⟩
/-- CD_TC_STATUS.LOCK_OVERFLOW. -/
abbrev cdTcStatus_LOCK_OVERFLOW : Fld := ⟨.cdTcStatus, 31, 16⟩
/-- CD_TC_STATUS.LOCKED. -/
abbrev cdTcStatus_LOCKED : Fld := ⟨.cdTcStatus, 11, 0⟩
/-- CD_TC_LOCK_BASE.VA. -/
abbrev cdTcLockBase_VA : Fld := ⟨.cdTcLockBase, 63, 7⟩
/-- CD_TC_LOCK_CFG.VALID. -/
abbrev cdTcLockCfg_VALID : Fld := ⟨.cdTcLockCfg, 63, 63⟩
/-- CD_TC_LOCK_CFG.CONTEXT. -/
abbrev cdTcLockCfg_CONTEXT : Fld := ⟨.cdTcLockCfg, 47, 40⟩
/-- CD_TC_LOCK_CFG.LINES. -/
abbrev cdTcLockCfg_LINES : Fld := ⟨.cdTcLockCfg, 11, 0⟩
/-- CD_GATE_CFG.GATED. -/
abbrev cdGateCfg_GATED : Fld := ⟨.cdGateCfg, 35, 32⟩
/-- CD_GATE_CFG.IDLE_TIDES. -/
abbrev cdGateCfg_IDLE_TIDES : Fld := ⟨.cdGateCfg, 15, 8⟩
/-- CD_GATE_CFG.RETAIN. -/
abbrev cdGateCfg_RETAIN : Fld := ⟨.cdGateCfg, 0, 0⟩

end F

/-- The instances of each register (18 R659, R660, R677). -/
def Reg.segs : Reg → List RegSeg
  | .devId => [⟨0, 0x0, []⟩]
  | .devSerialLo => [⟨0, 0x8, []⟩]
  | .devSerialHi => [⟨0, 0x10, []⟩]
  | .devCapCompute => [⟨0, 0x18, []⟩]
  | .devCapMemory => [⟨0, 0x20, []⟩]
  | .devCapLinks => [⟨0, 0x28, []⟩]
  | .devCapControl => [⟨0, 0x30, []⟩]
  | .devAssetTag => [⟨0, 0x38, []⟩]
  | .devScratch => [⟨0, 0x40, []⟩]
  | .devErrInfo => [⟨0, 0x48, []⟩]
  | .devErrCount => [⟨0, 0x50, []⟩]
  | .pilBootProgress => [⟨0, 0x10000, []⟩]
  | .pilStatus => [⟨0, 0x10008, []⟩]
  | .pilCmd => [⟨0, 0x10010, []⟩]
  | .pilImage => [⟨0, 0x10018, []⟩]
  | .pilKeys => [⟨0, 0x10020, []⟩]
  | .pilDebug => [⟨0, 0x10028, []⟩]
  | .pilTokenAddr => [⟨0, 0x10030, []⟩]
  | .pilTokenStatus => [⟨0, 0x10038, []⟩]
  | .pilNonce => [⟨0, 0x10040, [(4, 0x8)]⟩]
  | .hmRecordCount => [⟨0, 0x20000, []⟩]
  | .hmEventSelect => [⟨0, 0x20008, []⟩]
  | .hmEventValue => [⟨0, 0x20010, []⟩]
  | .hmBellWatch => [⟨0, 0x20018, []⟩]
  | .hmEventOwner => [⟨0, 0x20100, [(32, 0x8)]⟩]
  | .hmRingSqBase => [⟨0, 0x21000, [(960, 0x40)]⟩, ⟨960, 0xf0000, [(64, 0x40)]⟩]
  | .hmRingCqBase => [⟨0, 0x21008, [(960, 0x40)]⟩, ⟨960, 0xf0008, [(64, 0x40)]⟩]
  | .hmRingCtrl => [⟨0, 0x21010, [(960, 0x40)]⟩, ⟨960, 0xf0010, [(64, 0x40)]⟩]
  | .hmRingCfg => [⟨0, 0x21018, [(960, 0x40)]⟩, ⟨960, 0xf0018, [(64, 0x40)]⟩]
  | .hmRingMsiAddr => [⟨0, 0x21020, [(960, 0x40)]⟩, ⟨960, 0xf0020, [(64, 0x40)]⟩]
  | .hmRingMsi => [⟨0, 0x21028, [(960, 0x40)]⟩, ⟨960, 0xf0028, [(64, 0x40)]⟩]
  | .hmRingStatus => [⟨0, 0x21030, [(960, 0x40)]⟩, ⟨960, 0xf0030, [(64, 0x40)]⟩]
  | .hmRingIndex => [⟨0, 0x21038, [(960, 0x40)]⟩, ⟨960, 0xf0038, [(64, 0x40)]⟩]
  | .segCtxTableBase => [⟨0, 0x30000, []⟩]
  | .segCtxSelect => [⟨0, 0x30008, []⟩]
  | .segCtxStatus => [⟨0, 0x30010, []⟩]
  | .segCtxFaultVa => [⟨0, 0x30018, []⟩]
  | .segCtxFaultInfo => [⟨0, 0x30020, []⟩]
  | .segCtxCmd => [⟨0, 0x30028, []⟩]
  | .segWalkStatus => [⟨0, 0x30030, []⟩]
  | .tidePeriodNs => [⟨0, 0x40000, []⟩]
  | .tideCount => [⟨0, 0x40008, []⟩]
  | .tideMode => [⟨0, 0x40010, []⟩]
  | .tideReserve => [⟨0, 0x40018, []⟩]
  | .tideOverrunLimit => [⟨0, 0x40020, []⟩]
  | .tideHeldCount => [⟨0, 0x40028, []⟩]
  | .tideStatus => [⟨0, 0x40030, []⟩]
  | .tideAdmitCfg => [⟨0, 0x40038, []⟩]
  | .tideBeaconCfg => [⟨0, 0x40040, []⟩]
  | .tideCoupledCount => [⟨0, 0x40048, []⟩]
  | .tideLastTickNs => [⟨0, 0x40050, []⟩]
  | .tideOverrunCount => [⟨0, 0x40058, []⟩]
  | .tideRingShare => [⟨0, 0x40400, [(128, 0x8)]⟩]
  | .lkpMode => [⟨0, 0x50000, []⟩]
  | .lkpCap => [⟨0, 0x50008, []⟩]
  | .lkpStatus => [⟨0, 0x50010, []⟩]
  | .lkpPower => [⟨0, 0x50018, []⟩]
  | .lkpTemp => [⟨0, 0x50020, []⟩]
  | .lkpCoolant => [⟨0, 0x50028, []⟩]
  | .lkpDroop => [⟨0, 0x50030, []⟩]
  | .lkpClass => [⟨0, 0x50100, [(5, 0x8)]⟩]
  | .lkpDie => [⟨0, 0x50400, [(44, 0x8)]⟩]
  | .logStatus => [⟨0, 0x60000, []⟩]
  | .logIndex => [⟨0, 0x60008, []⟩]
  | .logRate => [⟨0, 0x60010, []⟩]
  | .logVaultStatus => [⟨0, 0x60018, []⟩]
  | .logData => [⟨0, 0x60040, [(8, 0x8)]⟩]
  | .bwfLock => [⟨0, 0x70000, []⟩]
  | .bwfDeniedCount => [⟨0, 0x70008, []⟩]
  | .bwfDeniedAddr => [⟨0, 0x70010, []⟩]
  | .bwfDeniedInfo => [⟨0, 0x70018, []⟩]
  | .bwfWinBase => [⟨0, 0x70100, [(16, 0x10)]⟩]
  | .bwfWinCfg => [⟨0, 0x70108, [(16, 0x10)]⟩]
  | .mntResetCmd => [⟨0, 0x80000, []⟩]
  | .mntResetCause => [⟨0, 0x80008, []⟩]
  | .mntSettingsEpoch => [⟨0, 0x80010, []⟩]
  | .mntUnitReset => [⟨0, 0x80018, []⟩]
  | .mntPortReset => [⟨0, 0x80020, []⟩]
  | .mntPowerCmd => [⟨0, 0x80028, []⟩]
  | .mntPowerStatus => [⟨0, 0x80030, []⟩]
  | .mntLedgerArm => [⟨0, 0x80038, []⟩]
  | .mntHubWdt => [⟨0, 0x80040, []⟩]
  | .mntHostLinkStatus => [⟨0, 0x80200, []⟩]
  | .mntPoolLayout => [⟨0, 0x80300, []⟩]
  | .mntRetireCount => [⟨0, 0x80308, []⟩]
  | .mntRetireIndex => [⟨0, 0x80310, []⟩]
  | .mntRetireEntry => [⟨0, 0x80318, []⟩]
  | .mntHostCmd => [⟨0, 0x80380, []⟩]
  | .mntPsr => [⟨0, 0x80400, [(64, 0x8)]⟩]
  | .dckD2dStatus => [⟨0, 0x100100, [(8, 0x10000), (4, 0x8)]⟩]
  | .dckSpareStatus => [⟨0, 0x100180, [(8, 0x10000)]⟩]
  | .dckWhStatus => [⟨0, 0x100200, [(8, 0x10000)]⟩]
  | .dckWhScrubCfg => [⟨0, 0x100208, [(8, 0x10000)]⟩]
  | .dckCraneStatus => [⟨0, 0x100300, [(8, 0x10000), (8, 0x8)]⟩]
  | .hawPortStatus => [⟨0, 0x200000, [(6, 0x10000)]⟩]
  | .hawPortCmd => [⟨0, 0x200008, [(6, 0x10000)]⟩]
  | .hawPortCounts => [⟨0, 0x200010, [(6, 0x10000)]⟩]
  | .hawNode => [⟨0, 0x208000, []⟩]
  | .hawConnTableBase => [⟨0, 0x208008, []⟩]
  | .hawConnCmd => [⟨0, 0x208010, []⟩]
  | .hawConnCfg => [⟨0, 0x208018, []⟩]
  | .hawRouteCtrl => [⟨0, 0x208020, []⟩]
  | .hawRoute => [⟨0, 0x208100, [(3, 0x10), (2, 0x8)]⟩]
  | .hbmStatus => [⟨0, 0x300000, [(16, 0x1000)]⟩]
  | .hbmPcFenced => [⟨0, 0x300008, [(16, 0x1000)]⟩]
  | .hbmErrCount => [⟨0, 0x300010, [(16, 0x1000)]⟩]
  | .hbmScrubCfg => [⟨0, 0x300018, [(16, 0x1000)]⟩]
  | .whfStatus => [⟨0, 0x300100, [(16, 0x1000)]⟩]
  | .whfAtomicCount => [⟨0, 0x300108, [(16, 0x1000)]⟩]
  | .whfMpLoaded => [⟨0, 0x300110, [(16, 0x1000)]⟩]
  | .whfMpVersion => [⟨0, 0x300118, [(16, 0x1000)]⟩]
  | .cdLocation => [⟨0, 0x400000, [(44, 0x1000)]⟩]
  | .cdClusterStatus => [⟨0, 0x400040, [(44, 0x1000), (4, 0x8)]⟩]
  | .cdWatchdogCount => [⟨0, 0x400060, [(44, 0x1000)]⟩]
  | .cdSfLoaded => [⟨0, 0x400080, [(44, 0x1000)]⟩]
  | .cdSfVersion => [⟨0, 0x400088, [(44, 0x1000)]⟩]
  | .cdGangCfg => [⟨0, 0x4000a0, [(44, 0x1000)]⟩]
  | .cdGangStatus => [⟨0, 0x4000a8, [(44, 0x1000)]⟩]
  | .cdTcStatus => [⟨0, 0x4000c0, [(44, 0x1000), (4, 0x8)]⟩]
  | .cdTcLockBase => [⟨0, 0x400100, [(44, 0x1000), (4, 0x20), (2, 0x10)]⟩]
  | .cdTcLockCfg => [⟨0, 0x400108, [(44, 0x1000), (4, 0x20), (2, 0x10)]⟩]
  | .cdGateCfg => [⟨0, 0x400200, [(44, 0x1000)]⟩]

/-- The fields of each register, most significant first; bits no field covers are reserved. -/
def Reg.fields : Reg → List FieldSpec
  | .devId => [⟨F.devId_VENDOR, .ro, .literal, 2654⟩,
      ⟨F.devId_PART, .ro, .literal, 18454⟩,
      ⟨F.devId_MAJOR, .ro, .fuse, 0⟩,
      ⟨F.devId_MINOR, .ro, .fuse, 0⟩,
      ⟨F.devId_MAP_VERSION, .ro, .literal, 1⟩]
  | .devSerialLo => [⟨F.devSerialLo_SERIAL, .ro, .fuse, 0⟩]
  | .devSerialHi => [⟨F.devSerialHi_SERIAL, .ro, .fuse, 0⟩]
  | .devCapCompute => [⟨F.devCapCompute_DIES_ACTIVE, .ro, .view, 0⟩,
      ⟨F.devCapCompute_DIES_ENABLED, .ro, .fuse, 0⟩,
      ⟨F.devCapCompute_DIES_FITTED, .ro, .fuse, 0⟩,
      ⟨F.devCapCompute_CLUSTERS, .ro, .fuse, 0⟩,
      ⟨F.devCapCompute_TILES, .ro, .fuse, 0⟩]
  | .devCapMemory => [⟨F.devCapMemory_STACKS_ACTIVE, .ro, .view, 0⟩,
      ⟨F.devCapMemory_STACKS, .ro, .literal, 16⟩,
      ⟨F.devCapMemory_GIB_PER_STACK, .ro, .literal, 64⟩,
      ⟨F.devCapMemory_WAREHOUSE_MIB, .ro, .literal, 384⟩,
      ⟨F.devCapMemory_SYSCACHE_MIB, .ro, .literal, 64⟩]
  | .devCapLinks => [⟨F.devCapLinks_PORTS, .ro, .literal, 6⟩,
      ⟨F.devCapLinks_LANES, .ro, .literal, 26⟩,
      ⟨F.devCapLinks_ACTIVE_LANES, .ro, .literal, 24⟩,
      ⟨F.devCapLinks_LANE_MBPS, .ro, .literal, 400000⟩]
  | .devCapControl => [⟨F.devCapControl_EVENTS, .ro, .literal, 4096⟩,
      ⟨F.devCapControl_CONNECTIONS, .ro, .literal, 4096⟩,
      ⟨F.devCapControl_RING_PAIRS, .ro, .literal, 1024⟩,
      ⟨F.devCapControl_CONTEXTS, .ro, .literal, 256⟩]
  | .devAssetTag => [⟨F.devAssetTag_TAG, .rwl, .image, 0⟩]
  | .devScratch => [⟨F.devScratch_VALUE, .rw, .literal, 0⟩]
  | .devErrInfo => [⟨F.devErrInfo_VALID, .w1c, .literal, 0⟩,
      ⟨F.devErrInfo_CAUSE, .ro, .literal, 0⟩,
      ⟨F.devErrInfo_SOURCE, .ro, .literal, 0⟩,
      ⟨F.devErrInfo_HART, .ro, .literal, 0⟩,
      ⟨F.devErrInfo_WRITE, .ro, .literal, 0⟩,
      ⟨F.devErrInfo_OFFSET, .ro, .literal, 0⟩]
  | .devErrCount => [⟨F.devErrCount_COUNT, .ro, .literal, 0⟩]
  | .pilBootProgress => [⟨F.pilBootProgress_PHASE, .ro, .literal, 0⟩,
      ⟨F.pilBootProgress_PERCENT, .ro, .literal, 0⟩]
  | .pilStatus => [⟨F.pilStatus_HALT_CAUSE, .ro, .literal, 0⟩,
      ⟨F.pilStatus_STAGING, .ro, .literal, 0⟩,
      ⟨F.pilStatus_FLASH_BUSY, .ro, .literal, 0⟩,
      ⟨F.pilStatus_FLASH_RELEASED, .ro, .literal, 0⟩]
  | .pilCmd => [⟨F.pilCmd_FLASH_ACQUIRE, .wo, .literal, 0⟩,
      ⟨F.pilCmd_FLASH_RELEASE, .wo, .literal, 0⟩,
      ⟨F.pilCmd_DEBUG_LOCK, .wo, .literal, 0⟩,
      ⟨F.pilCmd_STAGE_MP, .wo, .literal, 0⟩,
      ⟨F.pilCmd_SUBMIT_TOKEN, .wo, .literal, 0⟩,
      ⟨F.pilCmd_NEW_NONCE, .wo, .literal, 0⟩]
  | .pilImage => [⟨F.pilImage_IMAGE_VERSION, .ro, .image, 0⟩,
      ⟨F.pilImage_SVN_MIN, .ro, .fuse, 0⟩,
      ⟨F.pilImage_SVN, .ro, .image, 0⟩]
  | .pilKeys => [⟨F.pilKeys_OWNER_ONLY, .ro, .fuse, 0⟩,
      ⟨F.pilKeys_SLOT1, .ro, .fuse, 0⟩,
      ⟨F.pilKeys_SLOT0, .ro, .fuse, 0⟩,
      ⟨F.pilKeys_KEY_USED, .ro, .image, 0⟩]
  | .pilDebug => [⟨F.pilDebug_EVER, .ro, .literal, 0⟩,
      ⟨F.pilDebug_SCOPE, .ro, .literal, 0⟩]
  | .pilTokenAddr => [⟨F.pilTokenAddr_PA, .rw, .literal, 0⟩]
  | .pilTokenStatus => [⟨F.pilTokenStatus_KIND, .ro, .literal, 0⟩,
      ⟨F.pilTokenStatus_RESULT, .ro, .literal, 0⟩]
  | .pilNonce => [⟨F.pilNonce_NONCE, .ro, .literal, 0⟩]
  | .hmRecordCount => [⟨F.hmRecordCount_RECORDS, .ro, .literal, 0⟩]
  | .hmEventSelect => [⟨F.hmEventSelect_EVENT, .rw, .literal, 0⟩]
  | .hmEventValue => [⟨F.hmEventValue_VALUE, .rw, .literal, 0⟩]
  | .hmBellWatch => [⟨F.hmBellWatch_WATCHED, .ro, .literal, 0⟩]
  | .hmEventOwner => [⟨F.hmEventOwner_OWNER7, .rw, .literal, 0⟩,
      ⟨F.hmEventOwner_OWNER6, .rw, .literal, 0⟩,
      ⟨F.hmEventOwner_OWNER5, .rw, .literal, 0⟩,
      ⟨F.hmEventOwner_OWNER4, .rw, .literal, 0⟩,
      ⟨F.hmEventOwner_OWNER3, .rw, .literal, 0⟩,
      ⟨F.hmEventOwner_OWNER2, .rw, .literal, 0⟩,
      ⟨F.hmEventOwner_OWNER1, .rw, .literal, 0⟩,
      ⟨F.hmEventOwner_OWNER0, .rw, .literal, 0⟩]
  | .hmRingSqBase => [⟨F.hmRingSqBase_BASE, .rw, .literal, 0⟩]
  | .hmRingCqBase => [⟨F.hmRingCqBase_BASE, .rw, .literal, 0⟩]
  | .hmRingCtrl => [⟨F.hmRingCtrl_BASE, .rw, .literal, 0⟩]
  | .hmRingCfg => [⟨F.hmRingCfg_ENABLE, .rw, .literal, 0⟩,
      ⟨F.hmRingCfg_CONTEXT, .rw, .literal, 0⟩,
      ⟨F.hmRingCfg_CQ_LOG2, .rw, .literal, 0⟩,
      ⟨F.hmRingCfg_SQ_LOG2, .rw, .literal, 0⟩]
  | .hmRingMsiAddr => [⟨F.hmRingMsiAddr_ADDR, .rw, .literal, 0⟩]
  | .hmRingMsi => [⟨F.hmRingMsi_MOD_TIDES, .rw, .literal, 1⟩,
      ⟨F.hmRingMsi_ERR_IRQ, .rw, .literal, 0⟩,
      ⟨F.hmRingMsi_DATA, .rw, .literal, 0⟩]
  | .hmRingStatus => [⟨F.hmRingStatus_BELL_AHEAD_COUNT, .ro, .literal, 0⟩,
      ⟨F.hmRingStatus_HEAD_TYPE, .ro, .literal, 0⟩,
      ⟨F.hmRingStatus_HELD_CUTS, .ro, .literal, 0⟩,
      ⟨F.hmRingStatus_STATE, .ro, .literal, 0⟩]
  | .hmRingIndex => [⟨F.hmRingIndex_CQ_PI, .ro, .literal, 0⟩,
      ⟨F.hmRingIndex_FI, .ro, .literal, 0⟩]
  | .segCtxTableBase => [⟨F.segCtxTableBase_BASE, .rw, .literal, 0⟩]
  | .segCtxSelect => [⟨F.segCtxSelect_CONTEXT, .rw, .literal, 0⟩]
  | .segCtxStatus => [⟨F.segCtxStatus_MISPLACED, .ro, .literal, 0⟩,
      ⟨F.segCtxStatus_KILLS, .ro, .literal, 0⟩,
      ⟨F.segCtxStatus_STATE, .ro, .literal, 0⟩]
  | .segCtxFaultVa => [⟨F.segCtxFaultVa_VA, .ro, .literal, 0⟩]
  | .segCtxFaultInfo => [⟨F.segCtxFaultInfo_VALID, .w1c, .literal, 0⟩,
      ⟨F.segCtxFaultInfo_COUNT, .ro, .literal, 0⟩,
      ⟨F.segCtxFaultInfo_LOCATOR, .ro, .literal, 0⟩,
      ⟨F.segCtxFaultInfo_KIND, .ro, .literal, 0⟩,
      ⟨F.segCtxFaultInfo_CAUSE, .ro, .literal, 0⟩,
      ⟨F.segCtxFaultInfo_SEGMENT, .ro, .literal, 0⟩]
  | .segCtxCmd => [⟨F.segCtxCmd_CMD, .wo, .literal, 0⟩,
      ⟨F.segCtxCmd_CONTEXT, .wo, .literal, 0⟩]
  | .segWalkStatus => [⟨F.segWalkStatus_WALKS, .ro, .literal, 0⟩,
      ⟨F.segWalkStatus_INVALS, .ro, .literal, 0⟩,
      ⟨F.segWalkStatus_BUSY, .ro, .literal, 0⟩]
  | .tidePeriodNs => [⟨F.tidePeriodNs_PERIOD, .rw, .image, 16000⟩]
  | .tideCount => [⟨F.tideCount_VALUE, .ro, .literal, 0⟩]
  | .tideMode => [⟨F.tideMode_COUPLE_MASK, .rw, .literal, 0⟩,
      ⟨F.tideMode_MODE, .rw, .literal, 0⟩]
  | .tideReserve => [⟨F.tideReserve_RESERVE, .rw, .image, 16⟩]
  | .tideOverrunLimit => [⟨F.tideOverrunLimit_LIMIT, .rw, .image, 4⟩]
  | .tideHeldCount => [⟨F.tideHeldCount_VALUE, .ro, .literal, 0⟩]
  | .tideStatus => [⟨F.tideStatus_PERIOD_MISMATCH, .w1c, .literal, 0⟩,
      ⟨F.tideStatus_HOLDING, .ro, .literal, 0⟩,
      ⟨F.tideStatus_COUPLED_SET, .ro, .literal, 0⟩,
      ⟨F.tideStatus_MODE_ACTIVE, .ro, .literal, 0⟩]
  | .tideAdmitCfg => [⟨F.tideAdmitCfg_STARVE_LIMIT, .rw, .image, 8⟩]
  | .tideBeaconCfg => [⟨F.tideBeaconCfg_JOIN_LIMIT_MS, .rw, .image, 1000⟩,
      ⟨F.tideBeaconCfg_TIMEOUT, .rw, .image, 8⟩]
  | .tideCoupledCount => [⟨F.tideCoupledCount_VALUE, .ro, .literal, 0⟩]
  | .tideLastTickNs => [⟨F.tideLastTickNs_VALUE, .ro, .literal, 0⟩]
  | .tideOverrunCount => [⟨F.tideOverrunCount_VALUE, .ro, .literal, 0⟩]
  | .tideRingShare => [⟨F.tideRingShare_SHARE7, .rw, .literal, 0⟩,
      ⟨F.tideRingShare_SHARE6, .rw, .literal, 0⟩,
      ⟨F.tideRingShare_SHARE5, .rw, .literal, 0⟩,
      ⟨F.tideRingShare_SHARE4, .rw, .literal, 0⟩,
      ⟨F.tideRingShare_SHARE3, .rw, .literal, 0⟩,
      ⟨F.tideRingShare_SHARE2, .rw, .literal, 0⟩,
      ⟨F.tideRingShare_SHARE1, .rw, .literal, 0⟩,
      ⟨F.tideRingShare_SHARE0, .rw, .literal, 0⟩]
  | .lkpMode => [⟨F.lkpMode_MODE, .rw, .image, 0⟩]
  | .lkpCap => [⟨F.lkpCap_BOARD_CAP_W, .ro, .board, 0⟩,
      ⟨F.lkpCap_EFFECTIVE_W, .ro, .view, 0⟩,
      ⟨F.lkpCap_SW_CAP_W, .rw, .image, 7200⟩]
  | .lkpStatus => [⟨F.lkpStatus_ESTIMATE_DIVERGED, .ro, .literal, 0⟩,
      ⟨F.lkpStatus_CAP_LOWERED, .w1c, .literal, 0⟩,
      ⟨F.lkpStatus_FIXED_HELD, .ro, .literal, 0⟩,
      ⟨F.lkpStatus_CAP_NOW, .ro, .literal, 0⟩,
      ⟨F.lkpStatus_OVERSHOOT, .ro, .literal, 0⟩,
      ⟨F.lkpStatus_COMPUTE_THROTTLE, .ro, .literal, 0⟩,
      ⟨F.lkpStatus_HBM_THROTTLE, .ro, .literal, 0⟩,
      ⟨F.lkpStatus_DROOP_DEFERRED, .ro, .literal, 0⟩,
      ⟨F.lkpStatus_HINT_ACTIVE, .ro, .literal, 0⟩]
  | .lkpPower => [⟨F.lkpPower_MEASURED_W, .ro, .literal, 0⟩,
      ⟨F.lkpPower_ESTIMATED_W, .ro, .literal, 0⟩,
      ⟨F.lkpPower_ALLOCATED_W, .ro, .literal, 0⟩,
      ⟨F.lkpPower_AGREE_TIDES, .ro, .literal, 0⟩]
  | .lkpTemp => [⟨F.lkpTemp_HBM_C, .ro, .literal, 0⟩,
      ⟨F.lkpTemp_HBM_LOCATOR, .ro, .literal, 0⟩,
      ⟨F.lkpTemp_JUNCTION_C, .ro, .literal, 0⟩,
      ⟨F.lkpTemp_JUNCTION_LOCATOR, .ro, .literal, 0⟩]
  | .lkpCoolant => [⟨F.lkpCoolant_INLET_C, .ro, .board, 0⟩]
  | .lkpDroop => [⟨F.lkpDroop_STRETCHES, .ro, .literal, 0⟩,
      ⟨F.lkpDroop_DEFERRED, .ro, .literal, 0⟩,
      ⟨F.lkpDroop_ABANDONED, .ro, .literal, 0⟩]
  | .lkpClass => [⟨F.lkpClass_FLOOR_W, .ro, .image, 0⟩,
      ⟨F.lkpClass_DEMAND_W, .ro, .literal, 0⟩,
      ⟨F.lkpClass_ALLOC_W, .ro, .literal, 0⟩,
      ⟨F.lkpClass_MEASURED_W, .ro, .literal, 0⟩]
  | .lkpDie => [⟨F.lkpDie_TEMP_C, .ro, .literal, 0⟩,
      ⟨F.lkpDie_VOLTAGE_MV, .ro, .literal, 0⟩,
      ⟨F.lkpDie_AGEING_MV, .ro, .ledger, 0⟩,
      ⟨F.lkpDie_EFF_MAX, .ro, .fuse, 0⟩,
      ⟨F.lkpDie_FREQ, .ro, .literal, 35⟩]
  | .logStatus => [⟨F.logStatus_FULL, .ro, .literal, 0⟩,
      ⟨F.logStatus_DROPPED, .ro, .literal, 0⟩,
      ⟨F.logStatus_COUNT, .ro, .literal, 0⟩]
  | .logIndex => [⟨F.logIndex_INDEX, .rw, .literal, 0⟩]
  | .logRate => [⟨F.logRate_LIMIT, .rw, .image, 16⟩]
  | .logVaultStatus => [⟨F.logVaultStatus_GENERATION, .ro, .literal, 0⟩,
      ⟨F.logVaultStatus_ERROR, .w1c, .literal, 0⟩,
      ⟨F.logVaultStatus_SLOT, .ro, .literal, 0⟩,
      ⟨F.logVaultStatus_MIRRORED, .ro, .literal, 0⟩]
  | .logData => [⟨F.logData_WORD, .ro, .literal, 0⟩]
  | .bwfLock => [⟨F.bwfLock_LOCK, .w1s, .literal, 0⟩]
  | .bwfDeniedCount => [⟨F.bwfDeniedCount_COUNT, .ro, .literal, 0⟩]
  | .bwfDeniedAddr => [⟨F.bwfDeniedAddr_PA, .ro, .literal, 0⟩]
  | .bwfDeniedInfo => [⟨F.bwfDeniedInfo_VALID, .w1c, .literal, 0⟩,
      ⟨F.bwfDeniedInfo_REQUESTER, .ro, .literal, 0⟩,
      ⟨F.bwfDeniedInfo_PORT, .ro, .literal, 0⟩,
      ⟨F.bwfDeniedInfo_KIND, .ro, .literal, 0⟩]
  | .bwfWinBase => [⟨F.bwfWinBase_BASE, .rw, .literal, 0⟩]
  | .bwfWinCfg => [⟨F.bwfWinCfg_ENABLE, .rw, .literal, 0⟩,
      ⟨F.bwfWinCfg_W, .rw, .literal, 0⟩,
      ⟨F.bwfWinCfg_R, .rw, .literal, 0⟩,
      ⟨F.bwfWinCfg_PORTS, .rw, .literal, 0⟩,
      ⟨F.bwfWinCfg_LIMIT, .rw, .literal, 0⟩]
  | .mntResetCmd => [⟨F.mntResetCmd_KIND, .wo, .literal, 0⟩]
  | .mntResetCause => [⟨F.mntResetCause_DIVERTED, .ro, .literal, 0⟩,
      ⟨F.mntResetCause_ACCOUNTED, .ro, .literal, 0⟩,
      ⟨F.mntResetCause_SOURCE, .ro, .literal, 0⟩,
      ⟨F.mntResetCause_KIND, .ro, .literal, 0⟩]
  | .mntSettingsEpoch => [⟨F.mntSettingsEpoch_EPOCH, .ro, .literal, 0⟩,
      ⟨F.mntSettingsEpoch_LAST_CAUSE, .ro, .literal, 0⟩]
  | .mntUnitReset => [⟨F.mntUnitReset_LOCATOR, .wo, .literal, 0⟩]
  | .mntPortReset => [⟨F.mntPortReset_SLOT, .wo, .literal, 0⟩,
      ⟨F.mntPortReset_LOCATOR, .wo, .literal, 0⟩]
  | .mntPowerCmd => [⟨F.mntPowerCmd_PKG_IDLE, .rw, .literal, 0⟩,
      ⟨F.mntPowerCmd_DECK_RETAIN, .rw, .literal, 0⟩]
  | .mntPowerStatus => [⟨F.mntPowerStatus_EXITS, .ro, .literal, 0⟩,
      ⟨F.mntPowerStatus_IN_PKG_IDLE, .ro, .literal, 0⟩,
      ⟨F.mntPowerStatus_RETAINED, .ro, .literal, 0⟩]
  | .mntLedgerArm => [⟨F.mntLedgerArm_ARMED, .ro, .literal, 0⟩]
  | .mntHubWdt => [⟨F.mntHubWdt_EXPIRIES, .ro, .literal, 0⟩,
      ⟨F.mntHubWdt_LAST_CHANNEL, .ro, .literal, 0⟩,
      ⟨F.mntHubWdt_LIMIT_MS, .rwl, .image, 50⟩]
  | .mntHostLinkStatus => [⟨F.mntHostLinkStatus_DEGRADED, .ro, .literal, 0⟩,
      ⟨F.mntHostLinkStatus_LIVE, .ro, .literal, 0⟩,
      ⟨F.mntHostLinkStatus_DISPUTES, .ro, .literal, 0⟩,
      ⟨F.mntHostLinkStatus_EXCHANGES, .ro, .literal, 0⟩,
      ⟨F.mntHostLinkStatus_STATE, .ro, .literal, 1⟩]
  | .mntPoolLayout => [⟨F.mntPoolLayout_ZERO_AT_COLD, .ro, .image, 0⟩,
      ⟨F.mntPoolLayout_I_EFFECTIVE, .ro, .image, 0⟩,
      ⟨F.mntPoolLayout_I, .ro, .image, 0⟩]
  | .mntRetireCount => [⟨F.mntRetireCount_ENTRIES, .ro, .ledger, 0⟩]
  | .mntRetireIndex => [⟨F.mntRetireIndex_INDEX, .rw, .literal, 0⟩]
  | .mntRetireEntry => [⟨F.mntRetireEntry_VALID, .ro, .ledger, 0⟩,
      ⟨F.mntRetireEntry_PENDING, .ro, .ledger, 0⟩,
      ⟨F.mntRetireEntry_REASON, .ro, .ledger, 0⟩,
      ⟨F.mntRetireEntry_COUNT, .ro, .ledger, 0⟩,
      ⟨F.mntRetireEntry_FIRST_PAGE, .ro, .ledger, 0⟩]
  | .mntHostCmd => [⟨F.mntHostCmd_RESUME, .wo, .literal, 0⟩,
      ⟨F.mntHostCmd_RESET, .wo, .literal, 0⟩]
  | .mntPsr => [⟨F.mntPsr_WORD, .ro, .literal, 0⟩]
  | .dckD2dStatus => [⟨F.dckD2dStatus_DEGRADED, .ro, .literal, 0⟩,
      ⟨F.dckD2dStatus_LIVE, .ro, .literal, 0⟩,
      ⟨F.dckD2dStatus_DISPUTES, .ro, .literal, 0⟩,
      ⟨F.dckD2dStatus_EXCHANGES, .ro, .literal, 0⟩,
      ⟨F.dckD2dStatus_STATE, .ro, .literal, 1⟩]
  | .dckSpareStatus => [⟨F.dckSpareStatus_RESULT, .ro, .literal, 0⟩,
      ⟨F.dckSpareStatus_PRESENT, .ro, .fuse, 0⟩,
      ⟨F.dckSpareStatus_SITE, .ro, .fuse, 0⟩]
  | .dckWhStatus => [⟨F.dckWhStatus_CORRECTED, .ro, .literal, 0⟩,
      ⟨F.dckWhStatus_UNCORRECTABLE, .ro, .literal, 0⟩,
      ⟨F.dckWhStatus_ROWS_SPARED, .ro, .literal, 0⟩,
      ⟨F.dckWhStatus_ROWS_UNSPARED, .ro, .literal, 0⟩]
  | .dckWhScrubCfg => [⟨F.dckWhScrubCfg_PERIOD_MIN, .rw, .image, 60⟩]
  | .dckCraneStatus => [⟨F.dckCraneStatus_ITEMS, .ro, .literal, 0⟩,
      ⟨F.dckCraneStatus_CONTEXT, .ro, .literal, 0⟩,
      ⟨F.dckCraneStatus_FAULTS, .ro, .literal, 0⟩,
      ⟨F.dckCraneStatus_STATE, .ro, .literal, 0⟩]
  | .hawPortStatus => [⟨F.hawPortStatus_PROGRESS, .ro, .literal, 0⟩,
      ⟨F.hawPortStatus_LASER_CLASS, .ro, .literal, 0⟩,
      ⟨F.hawPortStatus_PEER_NODE, .ro, .literal, 0⟩,
      ⟨F.hawPortStatus_ACTIVE_LANES, .ro, .literal, 0⟩,
      ⟨F.hawPortStatus_SPARES_USED, .ro, .literal, 0⟩,
      ⟨F.hawPortStatus_STATE, .ro, .literal, 0⟩]
  | .hawPortCmd => [⟨F.hawPortCmd_DISABLE, .rw, .literal, 0⟩,
      ⟨F.hawPortCmd_RETRAIN, .wo, .literal, 0⟩]
  | .hawPortCounts => [⟨F.hawPortCounts_LANE_FAULTS, .ro, .literal, 0⟩,
      ⟨F.hawPortCounts_RETRIES, .ro, .literal, 0⟩,
      ⟨F.hawPortCounts_DISCARDS, .ro, .literal, 0⟩,
      ⟨F.hawPortCounts_UNCORRECTED, .ro, .literal, 0⟩]
  | .hawNode => [⟨F.hawNode_ZM1, .ro, .board, 0⟩,
      ⟨F.hawNode_YM1, .ro, .board, 0⟩,
      ⟨F.hawNode_XM1, .ro, .board, 0⟩,
      ⟨F.hawNode_NODE, .ro, .board, 0⟩]
  | .hawConnTableBase => [⟨F.hawConnTableBase_BASE, .rw, .literal, 0⟩]
  | .hawConnCmd => [⟨F.hawConnCmd_CMD, .wo, .literal, 0⟩,
      ⟨F.hawConnCmd_CONN, .wo, .literal, 0⟩]
  | .hawConnCfg => [⟨F.hawConnCfg_RETRY_LIMIT, .rw, .image, 16⟩,
      ⟨F.hawConnCfg_COLL_TIMEOUT_MS, .rw, .image, 100⟩,
      ⟨F.hawConnCfg_RTO_US, .rw, .image, 50⟩]
  | .hawRouteCtrl => [⟨F.hawRouteCtrl_SWAP, .wo, .literal, 0⟩,
      ⟨F.hawRouteCtrl_STAGED, .ro, .literal, 0⟩,
      ⟨F.hawRouteCtrl_EPOCH, .ro, .literal, 0⟩]
  | .hawRoute => [⟨F.hawRoute_ENTRIES, .rw, .literal, 0⟩]
  | .hbmStatus => [⟨F.hbmStatus_DIE_FENCED, .ro, .literal, 0⟩,
      ⟨F.hbmStatus_BIN, .ro, .literal, 0⟩,
      ⟨F.hbmStatus_STATE, .ro, .literal, 0⟩]
  | .hbmPcFenced => [⟨F.hbmPcFenced_FENCED, .ro, .literal, 0⟩]
  | .hbmErrCount => [⟨F.hbmErrCount_CORRECTED, .ro, .literal, 0⟩,
      ⟨F.hbmErrCount_UNCORRECTABLE, .ro, .literal, 0⟩,
      ⟨F.hbmErrCount_ROWS_SPARED, .ro, .literal, 0⟩]
  | .hbmScrubCfg => [⟨F.hbmScrubCfg_PASSES, .ro, .literal, 0⟩,
      ⟨F.hbmScrubCfg_PERIOD_H, .rw, .image, 24⟩]
  | .whfStatus => [⟨F.whfStatus_PARTS, .ro, .literal, 0⟩,
      ⟨F.whfStatus_CONTEXT, .ro, .literal, 0⟩,
      ⟨F.whfStatus_FALLBACK, .ro, .literal, 0⟩,
      ⟨F.whfStatus_FAULTS, .ro, .literal, 0⟩,
      ⟨F.whfStatus_STATE, .ro, .literal, 0⟩]
  | .whfAtomicCount => [⟨F.whfAtomicCount_OPS, .ro, .literal, 0⟩]
  | .whfMpLoaded => [⟨F.whfMpLoaded_LOADED, .ro, .image, 0⟩]
  | .whfMpVersion => [⟨F.whfMpVersion_DEFERRED, .ro, .literal, 0⟩,
      ⟨F.whfMpVersion_VERSION, .ro, .image, 0⟩]
  | .cdLocation => [⟨F.cdLocation_FMAX_STEP, .ro, .fuse, 0⟩,
      ⟨F.cdLocation_REPAIRED, .ro, .fuse, 0⟩,
      ⟨F.cdLocation_STATE, .ro, .fuse, 0⟩,
      ⟨F.cdLocation_LOCATOR, .ro, .fuse, 0⟩]
  | .cdClusterStatus => [⟨F.cdClusterStatus_PREV_NONE, .ro, .literal, 1⟩,
      ⟨F.cdClusterStatus_KIND, .ro, .literal, 0⟩,
      ⟨F.cdClusterStatus_CONTEXT, .ro, .literal, 0⟩,
      ⟨F.cdClusterStatus_MASK, .ro, .literal, 0⟩,
      ⟨F.cdClusterStatus_TILE_STATE, .ro, .literal, 0⟩]
  | .cdWatchdogCount => [⟨F.cdWatchdogCount_LAST_BANK, .ro, .literal, 0⟩,
      ⟨F.cdWatchdogCount_LAST_LOCATOR, .ro, .literal, 0⟩,
      ⟨F.cdWatchdogCount_COUNT, .ro, .literal, 0⟩]
  | .cdSfLoaded => [⟨F.cdSfLoaded_LOADED, .ro, .image, 0⟩]
  | .cdSfVersion => [⟨F.cdSfVersion_DEFERRED, .ro, .literal, 0⟩,
      ⟨F.cdSfVersion_VERSION, .ro, .image, 0⟩]
  | .cdGangCfg => [⟨F.cdGangCfg_SLICE, .rw, .image, 4096⟩,
      ⟨F.cdGangCfg_SWAP_HINT, .rw, .image, 16⟩]
  | .cdGangStatus => [⟨F.cdGangStatus_SWAPS, .ro, .literal, 0⟩,
      ⟨F.cdGangStatus_SPLIT_FAULTS, .ro, .literal, 0⟩,
      ⟨F.cdGangStatus_AGED_ISSUES, .ro, .literal, 0⟩]
  | .cdTcStatus => [⟨F.cdTcStatus_PARITY_DIRTY, .ro, .literal, 0⟩,
      ⟨F.cdTcStatus_PARITY_CLEAN, .ro, .literal, 0⟩,
      ⟨F.cdTcStatus_LOCK_OVERFLOW, .ro, .literal, 0⟩,
      ⟨F.cdTcStatus_LOCKED, .ro, .literal, 0⟩]
  | .cdTcLockBase => [⟨F.cdTcLockBase_VA, .rw, .literal, 0⟩]
  | .cdTcLockCfg => [⟨F.cdTcLockCfg_VALID, .rw, .literal, 0⟩,
      ⟨F.cdTcLockCfg_CONTEXT, .rw, .literal, 0⟩,
      ⟨F.cdTcLockCfg_LINES, .rw, .literal, 0⟩]
  | .cdGateCfg => [⟨F.cdGateCfg_GATED, .ro, .literal, 0⟩,
      ⟨F.cdGateCfg_IDLE_TIDES, .rw, .image, 0⟩,
      ⟨F.cdGateCfg_RETAIN, .rw, .image, 1⟩]

/-- Every register name. -/
def Reg.all : List Reg :=
  [.devId, .devSerialLo, .devSerialHi, .devCapCompute, .devCapMemory, .devCapLinks,
   .devCapControl, .devAssetTag, .devScratch, .devErrInfo, .devErrCount, .pilBootProgress,
   .pilStatus, .pilCmd, .pilImage, .pilKeys, .pilDebug, .pilTokenAddr,
   .pilTokenStatus, .pilNonce, .hmRecordCount, .hmEventSelect, .hmEventValue, .hmBellWatch,
   .hmEventOwner, .hmRingSqBase, .hmRingCqBase, .hmRingCtrl, .hmRingCfg, .hmRingMsiAddr,
   .hmRingMsi, .hmRingStatus, .hmRingIndex, .segCtxTableBase, .segCtxSelect, .segCtxStatus,
   .segCtxFaultVa, .segCtxFaultInfo, .segCtxCmd, .segWalkStatus, .tidePeriodNs, .tideCount,
   .tideMode, .tideReserve, .tideOverrunLimit, .tideHeldCount, .tideStatus, .tideAdmitCfg,
   .tideBeaconCfg, .tideCoupledCount, .tideLastTickNs, .tideOverrunCount, .tideRingShare, .lkpMode,
   .lkpCap, .lkpStatus, .lkpPower, .lkpTemp, .lkpCoolant, .lkpDroop,
   .lkpClass, .lkpDie, .logStatus, .logIndex, .logRate, .logVaultStatus,
   .logData, .bwfLock, .bwfDeniedCount, .bwfDeniedAddr, .bwfDeniedInfo, .bwfWinBase,
   .bwfWinCfg, .mntResetCmd, .mntResetCause, .mntSettingsEpoch, .mntUnitReset, .mntPortReset,
   .mntPowerCmd, .mntPowerStatus, .mntLedgerArm, .mntHubWdt, .mntHostLinkStatus, .mntPoolLayout,
   .mntRetireCount, .mntRetireIndex, .mntRetireEntry, .mntHostCmd, .mntPsr, .dckD2dStatus,
   .dckSpareStatus, .dckWhStatus, .dckWhScrubCfg, .dckCraneStatus, .hawPortStatus, .hawPortCmd,
   .hawPortCounts, .hawNode, .hawConnTableBase, .hawConnCmd, .hawConnCfg, .hawRouteCtrl,
   .hawRoute, .hbmStatus, .hbmPcFenced, .hbmErrCount, .hbmScrubCfg, .whfStatus,
   .whfAtomicCount, .whfMpLoaded, .whfMpVersion, .cdLocation, .cdClusterStatus, .cdWatchdogCount,
   .cdSfLoaded, .cdSfVersion, .cdGangCfg, .cdGangStatus, .cdTcStatus, .cdTcLockBase,
   .cdTcLockCfg, .cdGateCfg]

end Sys2Proof.Machine
end

