-- ==== Sys2Proof/Machine/State.lean ====
section
/-! DEFINITION. The state of BX-4816 as plain data: the queue of waiting commands and the device.
Every piece of state the manual names has its field here; INVENTORY.md lists each with its rule. A
sparse table (`Tbl`) lists only the entries that differ from what an unlisted key reads as, which
each field's docstring names. -/
namespace Sys2Proof.Machine

/-- The reasons a step can stop the machine. No command of BX-4816 stops it: a command whose
enabling condition does not hold leaves the device as it is (log entry 2). -/
inductive Fault where
  /-- Raised by nothing: reserved for a step that the manual stops with no state to continue from.
  Safe, since no step takes it. -/
  | stuck
  deriving DecidableEq, Repr, Inhabited

/-- The reasons a command has no meaning. -/
inductive Refusal where
  /-- A command of the table without a meaning yet, by its mnemonic. Raised only by
  Machine/Dispatch.lean. Safe. -/
  | notModelled (mnemonic : String)
  deriving DecidableEq, Repr, Inhabited

/-- What an access, a command of the BMC or a message was answered last (18 R664, 13 R491). -/
inductive Resp where
  /-- No response yet, or none due. -/
  | none
  /-- Accepted; the value read, where one was. -/
  | ok (value : W64)
  /-- Bytes returned to the requester. -/
  | data (bytes : List Byte)
  /-- An error response that its requester handles by its own rule (03 R95, 18 R664). -/
  | error
  /-- A load, store/AMO or instruction access fault of a host core (13 R491, 18 R664). -/
  | loadFault | storeFault | fetchFault
  /-- NACK of the I3C data phase (18 R664). -/
  | nack
  /-- Completer Abort of an inbound read, or a dropped inbound write (13 R493). -/
  | completerAbort | dropped
  /-- Unsupported Request of a root port (13 R487). -/
  | unsupported
  /-- The RESULT code of a token (16 R620). -/
  | token (result : Nat)
  /-- The grant decided by a bank arbiter and the turn hints it gives (05 R192, R195). -/
  | arb (grant : Option Nat) (hints : List (Nat × Nat))
  deriving DecidableEq, Repr, Inhabited

/-- The board pins (19 R687) as levels: true is asserted. -/
structure Pins where
  por : Bool := true
  capNow : Bool := false
  thermtrip : Bool := false
  alert : Bool := false
  pmbAlert : Bool := false
  deriving DecidableEq, Repr, Inhabited

/-- The memory of every unit at its physical address (03 R94): bytes, and the poison of words and
lines. -/
structure Mem where
  /-- Bytes of the pool, the warehouses and the local memories; an unlisted byte is 0. -/
  cells : List Host.Cell := []
  /-- Poisoned units by first byte: 64-byte pool lines, 8-byte SRAM words (03 R118). -/
  poison : Tbl Bool := []
  /-- The number of the cold start that left the pool undefined, if one did (03 R124). -/
  cold : Option Nat := none
  /-- Pool lines written since that cold start, by first byte. -/
  written : Tbl Bool := []
  /-- Relocated pseudo-channels whose units read as zeros until written: the I_EFFECTIVE of their
  addresses, the stack and the pseudo-channel (03 R130). -/
  fresh : List (Nat × Nat × Nat) := []
  deriving DecidableEq, Repr, Inhabited

/-- A logbook record (17 R649) before its bytes are laid out. -/
structure LogRec where
  timestamp : Nat
  tide : Nat
  code : Nat
  locator : Nat
  suppressed : Nat
  severity : Nat
  payload : List Byte
  deriving DecidableEq, Repr, Inhabited

/-- A code's rate window (17 R652). -/
structure RateWindow where
  start : Nat
  written : Nat
  counted : Nat
  deriving DecidableEq, Repr, Inhabited

/-- The logbook (17 R649 to R656). Its counts are in the LOG_ registers. -/
structure LogBook where
  /-- Records in slot order. -/
  recs : List LogRec := []
  /-- Open rate windows by code. -/
  windows : List (Nat × RateWindow) := []
  /-- Timestamp of the latest 0x7204 record, and the held ticks counted since (02 R89). -/
  heldLast : Option Nat := none
  heldCount : Nat := 0
  /-- The tick up to which the rate windows have advanced (02 R63). -/
  tickAt : Nat := 0
  /-- Event number of the latest alert cause, and of the latest record the BMC has read (19 R691). -/
  alertCause : Nat := 0
  bmcRead : Nat := 0
  deriving DecidableEq, Repr, Inhabited

/-- A component of the configuration image as loaded (16 R599, R618). -/
structure Component where
  typ : Nat
  index : Nat
  offset : Nat
  length : Nat
  load : Nat
  digest : List Byte
  deriving DecidableEq, Repr, Inhabited

/-- A micro-program store (16 R609): the number of its loading, its MP_VERSION, and the digest of each
image slot in slot order. -/
structure MpStore where
  gen : Nat := 0
  version : Nat := 0
  slots : List (Nat × List Byte) := []
  deriving DecidableEq, Repr, Inhabited

/-- A reset being carried out (17 R628): its kind (1 PKG_COLD, 2 DEV_WARM), its source, when it was
requested, and whether its steps are skipped (17 R632). -/
structure PendingReset where
  kind : Nat
  source : Nat
  since : Nat
  skip : Bool
  deriving DecidableEq, Repr, Inhabited

/-- The pilot's own state (16). -/
structure Pilot where
  /-- Flash bytes by address; an unlisted byte is the erased 0xFF. -/
  flash : Tbl Byte := []
  /-- The current nonce of each channel (16 R613). -/
  nonceHost : Option (List Byte) := none
  nonceBmc : Option (List Byte) := none
  /-- The fuse-map digest of P0, the digest of the manifest loaded, and the loaded components (16 R601, R618). -/
  fuseDigest : List Byte := []
  manifestDigest : List Byte := []
  components : List Component := []
  /-- The vector and the wharf store in force, the staged ones, and the stores loaded so far (07 R295,
  10 R403). -/
  vecStore : MpStore := {}
  wharfStore : MpStore := {}
  vecNext : Option MpStore := none
  wharfNext : Option MpStore := none
  gens : Nat := 0
  /-- The board record's default cap, the BMC's, and the bound of 16 R597. -/
  boardDefault : Nat := 0
  boardCap : Option Nat := none
  capBound : Nat := 0
  /-- The highest speed bin of each stack in the identity sweep (03 R98). -/
  bins : List Nat := []
  /-- The flash has been released since the latest sweep, so that the BMC may have rewritten its image
  (16 R605, R606). -/
  flashOut : Bool := true
  /-- Physical dies fenced in the field (01 R32). -/
  deadDies : List Nat := []
  /-- FLAGS.ADVANCE_SVN of the image in force (16 R602). -/
  advance : Bool := false
  /-- Laser power class read for each port (14 R530). -/
  lasers : Tbl Nat := []
  /-- Decks whose spare is tested at the next DEV_WARM (17 R646). -/
  spareTests : List Nat := []
  /-- Writes of the BMC made before P2 ends (18 R672). -/
  earlyTag : Option W64 := none
  /-- Kind of the latest start-up (0 POR, 1 PKG_COLD, 2 DEV_WARM), and when it began (16 R594). -/
  startKind : Nat := 0
  startedAt : Nat := 0
  /-- When the host was last released (16 R594). -/
  releasedAt : Nat := 0
  /-- The hub firmware watchdog is armed (17 R631). -/
  wdtArmed : Bool := false
  deriving DecidableEq, Repr, Inhabited

/-- The harbourmaster's item phases. -/
inductive Phase where
  /-- Fetched, not yet admitted (11 R417). -/
  | fetched
  /-- Admitted; its release, or its next slice, waits for a tick (02 R72, R75). -/
  | admitted
  /-- A slice or the item's action has been released (02 R63). -/
  | released
  /-- A slice has been carried out; its completion is due (02 R76). -/
  | sliceDone
  /-- A slice finished and the next is not yet admitted. -/
  | between
  /-- Everything the item does is done; its record is due (11 R452). -/
  | finished
  deriving DecidableEq, Repr, Inhabited

/-- A fetched descriptor until its record is written (11 R417, R428). -/
structure Item where
  ring : Nat
  index : Nat
  ctx : Nat
  words : List W64
  phase : Phase := .fetched
  /-- The admission's tide number and its order number. -/
  cut : Nat := 0
  order : Nat := 0
  /-- Ticks at which the item has been held, and whether it is promoted (02 R73). -/
  heldCuts : Nat := 0
  promoted : Bool := false
  /-- Set by a passed check at its first release. -/
  checked : Bool := false
  started : Bool := false
  relNs : Nat := 0
  relTide : Nat := 0
  /-- Position, end of the slice in hand, and last position (02 R76). -/
  pos : Nat := 0
  sliceEnd : Nat := 0
  last : Nat := 0
  /-- The engine it is assigned to at its admission, and whether one was left for it (03 R104, R112; 09 R340,
  R349). -/
  engine : Nat := 0
  assigned : Bool := false
  /-- Words of its parameter block, read at the first slice (11 R433, 09 R352). -/
  params : List W64 := []
  /-- The number of the wharf store it uses, and its version (10 R403). -/
  storeGen : Nat := 0
  storeVersion : Nat := 0
  status : Option Nat := none
  detail : W64 := 0
  sat : Nat := 0
  flushed : Nat := 0
  waiting : Bool := false
  /-- State an engine keeps between slices (09, 10): words and bytes. -/
  carry : List W64 := []
  bytes : List Byte := []
  /-- Waves of the slice in hand read and written, as (stack, wave), and the lowest faulting wave with
  its status and VA (10 R380, R383). -/
  wavesRead : List (Nat × Nat) := []
  wavesDone : List (Nat × Nat) := []
  waveFault : Option (Nat × Nat × Nat) := none
  /-- The position up to which every stack has written the waves of the slice in hand. -/
  waved : Nat := 0
  /-- Bytes a MOVE has overwritten in its earlier slices, as they stood, by physical address (11 R435). -/
  overwritten : Tbl (Option Byte) := []
  deriving DecidableEq, Repr, Inhabited

/-- What a ring holds beside its registers (11 R414, R417, R419, R450). -/
structure Ring where
  /-- The fetcher has been woken and has not yet read the bell line. -/
  awake : Bool := false
  /-- A write has invalidated the pinned bell line and the wake is due (R416). -/
  bellHit : Bool := false
  /-- The bell line as last read. -/
  bellSeq : Nat := 0
  pi : Nat := 0
  cqCi : Nat := 0
  /-- When the slot at FI first failed its check, if it is failing (R419). -/
  failing : Option Nat := none
  ahead : Nat := 0
  /-- TIDE_COUNT when the last MSI was sent, and an MSI waiting for a later window (R450). -/
  msiSent : Option Nat := none
  msiPending : Bool := false
  /-- A record was lost while the ring was HELD (R447). -/
  lostHeld : Bool := false
  deriving DecidableEq, Repr, Inhabited

/-- The Ring an unlisted key reads as. -/
abbrev Ring.new : Ring := {}

/-- A released launch (11 R432, 05 R210, 08 R310). -/
structure Launch where
  ring : Nat
  index : Nat
  ctx : Nat
  gangs : Bool
  entry : W64
  arg : W64
  g : Nat := 0
  pend : Nat := 0
  /-- Logical clusters and tiles it names, ascending. -/
  clusters : List Nat
  tiles : List Nat
  budget : Nat
  relTide : Nat
  relNs : Nat
  order : Nat
  start : Option Nat := none
  stopAt : Nat := 0
  /-- End time of its last tile so far. -/
  endNs : Nat := 0
  overran : Bool := false
  /-- The tick after its release, and the time up to which its cycles are charged (02 R79). -/
  tickAfter : Option Nat := none
  chargedTo : Nat := 0
  status : Option Nat := none
  detail : W64 := 0
  sat : Nat := 0
  flushed : Nat := 0
  deriving DecidableEq, Repr, Inhabited

/-- A context's state and fault record (12 R473, R484). -/
structure Ctx where
  state : Nat := 0
  kills : Nat := 0
  misplaced : Nat := 0
  faultVa : W64 := 0
  faultInfo : W64 := 0
  /-- Items cancelled by a teardown in progress. -/
  cancelled : Nat := 0
  deriving DecidableEq, Repr, Inhabited

/-- The Ctx an unlisted key reads as. -/
abbrev Ctx.new : Ctx := {}

/-- A held segment descriptor (12 R462, R463). -/
structure SegEntry where
  ctx : Nat
  seg : Nat
  dw : List W64
  stale : Bool := false
  deriving DecidableEq, Repr, Inhabited

/-- A held page entry (12 R467). -/
structure PageEntry where
  ctx : Nat
  seg : Nat
  page : Nat
  word : W64
  stale : Bool := false
  deriving DecidableEq, Repr, Inhabited

/-- A translation cache (12 R470). -/
structure Xlat where
  segs : List SegEntry := []
  pages : List PageEntry := []
  deriving DecidableEq, Repr, Inhabited

/-- The Xlat an unlisted key reads as. -/
abbrev Xlat.new : Xlat := {}

/-- A transit-cache line (13 R503, R509, R510): `line` is its address / 128. -/
structure TcLine where
  line : Nat
  way : Nat
  data : List Byte
  /-- Bit i: byte i is dirty. -/
  dirty : Nat := 0
  owner : Nat := 0
  /-- Filled or written through a HOST_SHARED segment (12 R464). -/
  shared : Bool := false
  locked : Bool := false
  /-- A locked way whose line has been invalidated. -/
  empty : Bool := false
  /-- Filled by a load through a STREAM segment: the next victim of its set (12 R464). -/
  next : Bool := false
  deriving DecidableEq, Repr, Inhabited

/-- A tile's streaming detector (13 R506) and the lines of its latest load misses (13 R507). -/
structure Stream where
  /-- Line being stored and the mask of its bytes stored so far. -/
  line : Nat := 0
  mask : Nat := 0
  run : Nat := 0
  engaged : Bool := false
  lastMiss : Option Nat := none
  deriving DecidableEq, Repr, Inhabited

/-- A cluster's shared units (05 R187, 13 R503, 15 R580, 17 R636). -/
structure Cluster where
  tc : List TcLine := []
  side : List TcLine := []
  /-- Arithmetic cycles, in 1/3000 of a cycle, up to `cycSince` (05 R202). -/
  cyc : Nat := 0
  cycSince : Nat := 0
  stretched : Bool := false
  /-- Over-run nanoseconds of ended launches not yet charged (02 R79). -/
  charge : Nat := 0
  /-- When its latest launch ended (02 R74). -/
  freeSince : Nat := 0
  /-- The first tide from which no launch and no access to its windows has used it (17 R636). -/
  quietFrom : Nat := 0
  /-- The cycle of its launch at which the zeroing of its tiles ends and they begin (05 R191). -/
  zeroing : Option Nat := none
  /-- Latched lock ranges at the launch start: VA, lines, context (13 R509). -/
  locks : List (Nat × Nat × Nat) := []
  deriving DecidableEq, Repr, Inhabited

/-- The Cluster an unlisted key reads as. -/
abbrev Cluster.new : Cluster := {}

/-- A RISC-V register context: the control core of a tile or one thread of a gang (05 R200, 08 R306).
Registers are sparse; an unlisted one holds 0. -/
structure Hart where
  pc : W64 := 0
  x : Tbl W64 := []
  f : Tbl W64 := []
  fcsr : Nat := 0
  instret : Nat := 0
  /-- The reservation of LR (05 R203, 08 R331): physical address and size. -/
  resv : Option (Nat × Nat) := none
  deriving DecidableEq, Repr, Inhabited

/-- The Hart an unlisted key reads as. -/
abbrev Hart.new : Hart := {}

/-- A vector instruction in the queue with the scalar operands it was issued with (05 R201). -/
structure VecOp where
  word : W32
  pc : W64
  rs1 : W64
  rs2 : W64
  fs1 : W64
  deriving DecidableEq, Repr, Inhabited

/-- A tile's vector engine (07 R255). -/
structure Vec where
  /-- v0 to v31; an unlisted register is 0. -/
  v : Tbl (BitVec 8192) := []
  m : Tbl (BitVec 512) := []
  vl : Nat := 0
  ew : Nat := 32
  round : Nat := 0
  flush : Bool := false
  seed : W64 := 0
  src : W64 := 0
  tanchor : Int := 0
  sat : Nat := 0
  flushed : Nat := 0
  /-- The 4 KiB lookup table; an unlisted byte is 0. -/
  lut : Tbl Byte := []
  queue : List VecOp := []
  deriving DecidableEq, Repr, Inhabited

/-- An operand descriptor of a matrix job (06 R230). -/
structure Operand where
  base : W64
  rstride : Nat
  cstride : Nat
  scale : W64
  sstride : Nat
  phases1 : Bool
  trans : Bool
  scaled : Bool
  bias : Nat
  fmt : Nat
  deriving DecidableEq, Repr, Inhabited

/-- A computed output block not yet written (06 R244): its bytes as (VA, (mask, byte)), ascending, its
counts, and the tally storage it leaves (06 R220, R241): sub-sums, poison flags and overflow flags. -/
structure JobBlock where
  bytes : List (Nat × Nat × Nat)
  sat : Nat
  flushed : Nat
  tally : Tbl Byte := []
  poison : Nat := 0
  overflow : Nat := 0
  deriving DecidableEq, Repr, Inhabited

/-- A matrix job (06 R223 to R252). -/
structure Job where
  seq : Nat
  /-- The fields of its job descriptor. -/
  m : Nat
  n : Nat
  k : Nat
  a : Operand
  b : Operand
  c : Operand
  anchor : Int
  serial : Bool
  flush : Bool
  round : Nat
  accum : Bool
  acc : Nat
  seed : W64
  /-- 0 QUEUED, 1 RUNNING, 2 COMPLETE (06 R227). -/
  state : Nat := 0
  blocks : Nat := 0
  sat : Nat := 0
  flushed : Nat := 0
  start : Nat := 0
  stop : Nat := 0
  /-- Blocks computed and not yet written, in order, and the fault met after them: its cause, status and
  VA (06 R253). -/
  todo : List JobBlock := []
  fault : Option (Nat × Nat × Nat) := none
  deriving DecidableEq, Repr, Inhabited

/-- A matrix instruction in the queue (06 R223). -/
structure MatOp where
  word : W32
  pc : W64
  rs1 : W64
  deriving DecidableEq, Repr, Inhabited

/-- A tile's matrix unit (05 R186). -/
structure Matrix where
  /-- Sequence number of the latest job of the launch (06 R225). -/
  seq : Nat := 0
  /-- The jobs issued in the launch, newest first, at most eight kept when complete. -/
  jobs : List Job := []
  queue : List MatOp := []
  /-- Tally storage: the sub-sums of the outputs of the block in progress, 64 bytes each (06 R220); sparse. -/
  tally : Tbl Byte := []
  /-- The poison and overflow flags of those outputs: bit 32·row + column (06 R241). -/
  tallyPoison : Nat := 0
  tallyOverflow : Nat := 0
  deriving DecidableEq, Repr, Inhabited

/-- An X.MMA that waits for a job slot, or an X.WAIT, that a group of threads has issued: it executes once,
with the uniform operand it was issued with (08 R325). -/
structure Held where
  /-- Its place among the instructions held on the tile, in the order of their issue. -/
  seq : Nat
  mma : Bool
  /-- u[rs1] at the issue: the address of a job descriptor, or a token. -/
  val : W64
  word : W32
  deriving DecidableEq, Repr, Inhabited

/-- A thread of a gang (08 R306, R311, R317). -/
structure Thread where
  hart : Hart := {}
  /-- 0 READY, 1 AT_BARRIER, 2 WAIT_JOB, 3 EXITED, 4 HALTED (08 R311). -/
  state : Nat := 0
  barrier : Nat := 0
  age : Nat := 0
  /-- The instruction a thread in WAIT_JOB waits for (08 R325). -/
  held : Option Held := none
  deriving DecidableEq, Repr, Inhabited

/-- The Thread an unlisted key reads as. -/
abbrev Thread.new : Thread := {}

/-- A gang of 32 threads (08 R306 to R316). -/
structure Gang where
  idx : Nat
  active : Bool := false
  /-- Whether it has ever run; a gang that has not has no frame. -/
  started : Bool := false
  /-- Its place in the order in which the pending gangs of the tile became pending, 0 for one that has never
  run (08 R315); and when it last became active, in the cluster's cycles. -/
  pendSince : Nat := 0
  activeSince : Nat := 0
  yielded : Bool := false
  threads : List Thread := []
  u : Tbl W64 := []
  deriving DecidableEq, Repr, Inhabited

/-- A tile (05 R186). Its local memory is in `Mem`, its state code in CD_CLUSTER_STATUS. -/
structure Tile where
  core : Hart := {}
  /-- ECALL has been executed, or every gang has ended (05 R211, 08 R332). -/
  ecall : Bool := false
  /-- Context of the previous launch (05 R191). -/
  prev : Option Nat := none
  vec : Vec := {}
  mat : Matrix := {}
  gangs : List Gang := []
  /-- The place of the gang chosen in the previous cycle (08 R312). -/
  lastGang : Nat := 0
  stream : Stream := {}
  /-- Latched gang configuration: SLICE and SWAP_HINT (08 R338). -/
  slice : Nat := 0
  swapHint : Nat := 0
  /-- Instruction cache contents: fetched words by address / 4 (05 R205). -/
  icache : Tbl W64 := []
  /-- The vector store its launch runs under: its number, version and loaded slots (07 R295). -/
  sfGen : Nat := 0
  sfVersion : Nat := 0
  sfLoaded : Nat := 0
  deriving DecidableEq, Repr, Inhabited

/-- The Tile an unlisted key reads as. -/
abbrev Tile.new : Tile := {}

/-- A fixed-priority arbiter's grant in progress (05 R192 to R196). -/
structure Arb where
  /-- The request whose grant is in progress. -/
  grantee : Option ArbRequest := none
  /-- Cycles the grant still holds after the current one; none when open. -/
  left : Option Nat := some 0
  /-- Cycles the grant has been held. -/
  held : Nat := 0
  /-- The request chosen for the next cycle. -/
  chosen : Option ArbRequest := none
  /-- Hints given in the latest cycle: input and hint (05 R195). -/
  hints : List (Nat × Nat) := []
  /-- The request whose grant the watchdog has ended: its requester's reset is due (05 R196). -/
  due : Option ArbRequest := none
  deriving DecidableEq, Repr, Inhabited

/-- The Arb an unlisted key reads as. -/
abbrev Arb.new : Arb := {}

/-- A crane (09 R339 to R349). Its state and counts are in DCK_CRANE_STATUS. -/
structure Crane where
  fenced : Bool := false
  /-- When the reset in progress ends (17 R634). -/
  resetUntil : Option Nat := none
  /-- TIDE_COUNT when it was last given a slice (15 R586). -/
  slicedAt : Option Nat := none
  deriving DecidableEq, Repr, Inhabited

/-- The Crane an unlisted key reads as. -/
abbrev Crane.new : Crane := {}

/-- A wave of a wharf item on one stack (10 R380, R381): the lines it locks and its staged bytes. -/
structure Wave where
  ring : Nat
  index : Nat
  wave : Nat
  lines : List Nat
  /-- Results staged by the read phase, to be written by the write phase: physical address and bytes
  of a line, the lines that are HOST_SHARED, and the counts they carry. -/
  staged : List (Nat × List Byte)
  shared : List Nat := []
  /-- Writes of other requesters to its locked lines, which wait until it has written them: physical address,
  bytes, and whether they go through the hub (10 R382). -/
  held : List (Nat × List Byte × Bool) := []
  /-- The position after the wave's last. -/
  upTo : Nat := 0
  sat : Nat := 0
  flushed : Nat := 0
  deriving DecidableEq, Repr, Inhabited

/-- An HBM stack with its wharf complex (03 R97, 10 R377). -/
structure Stack where
  waves : List Wave := []
  /-- Wharf complex fenced (10 R408). -/
  fenced : Bool := false
  /-- Core dies fenced are in HBM_STATUS; pseudo-channels that are relocated (03 R130). -/
  relocated : List Nat := []
  /-- Corrected errors of the last 24 hours: unit and time (03 R125). -/
  corrected : List (Nat × Nat) := []
  /-- Units found uncorrectable whose row is not yet spared (03 R118, R125). -/
  marks : List Nat := []
  /-- Uncorrectable errors of the scrub pass in progress, as (pseudo-channel, core die). -/
  passErrors : List (Nat × Nat) := []
  throttled : Bool := false
  deriving DecidableEq, Repr, Inhabited

/-- The Stack an unlisted key reads as. -/
abbrev Stack.new : Stack := {}

/-- A deck (01 R25, 03 R105, 17 R637). -/
structure Deck where
  /-- Corrected errors of the last 24 hours: unit and time (03 R125). -/
  corrected : List (Nat × Nat) := []
  /-- Units found uncorrectable whose row is not yet spared (03 R118, R125). -/
  marks : List Nat := []
  throttled : Bool := false
  isolated : Bool := false
  deriving DecidableEq, Repr, Inhabited

/-- The Deck an unlisted key reads as. -/
abbrev Deck.new : Deck := {}

/-- The patrol pass in progress in a stack, a warehouse or a local memory (03 R122, R123). -/
structure Scrub where
  /-- When the pass began; none when it is the first since release. -/
  start : Option Nat := none
  /-- Next unit the pass reads. -/
  next : Nat := 0
  /-- The pass has been logged as late. -/
  late : Bool := false
  deriving DecidableEq, Repr, Inhabited

/-- The Scrub an unlisted key reads as. -/
abbrev Scrub.new : Scrub := {}

/-- A die-to-die link (01 R48 to R57). -/
structure Link where
  /-- Width code of each module at the near end (the lower deck, the deck of a deck–hub link, the hub) and
  at the far end: 0 failed, 1 degraded, 2 full. -/
  near : Tbl Nat := []
  far : Tbl Nat := []
  /-- Modules whose training has finished at each end. -/
  nearDone : List Nat := []
  farDone : List Nat := []
  /-- Consecutive disputes (01 R51). -/
  disputes : Nat := 0
  downSince : Option Nat := none
  deriving DecidableEq, Repr, Inhabited

/-- The Link an unlisted key reads as. -/
abbrev Link.new : Link := {}

/-- REROUTE tables of the package (01 R55): the links that are detoured, by key, and for every source and
destination among the decks and the hub (8) the nodes that the route visits. -/
structure Reroute where
  links : List Nat := []
  routes : List (Nat × Nat × List Nat) := []
  deriving DecidableEq, Repr, Inhabited

/-- A message in a connection's retransmission set (14 R548). -/
structure Unacked where
  seq : Nat
  msg : LinkMsg
  item : Option (Nat × Nat)
  deriving DecidableEq, Repr, Inhabited

/-- The device's own state of a connection; its table entry is in the pool (14 R545 to R550). A group's
traffic with each neighbour has a sequence of its own (14 R558). -/
structure Conn where
  /-- 0 CLOSED, 1 OPENING, 2 ESTABLISHED, 3 LOST. -/
  state : Nat := 0
  cause : Nat := 0
  txSeq : Nat := 0
  rxSeq : Nat := 0
  acked : Nat := 0
  credit : Int := 0
  unacked : List Unacked := []
  /-- Collective messages that wait for credit or for acknowledgements. -/
  sendq : List LinkMsg := []
  /-- Responses of the last 64 messages received, by sequence. -/
  responses : List (Nat × LinkMsg) := []
  timeouts : Nat := 0
  notReady : Nat := 0
  lastProgress : Nat := 0
  /-- LOST and to be CLOSED once its items have records (14 R550). -/
  closing : Bool := false
  deriving DecidableEq, Repr, Inhabited

/-- The Conn an unlisted key reads as. -/
abbrev Conn.new : Conn := {}

/-- A collective in progress on a group (14 R555 to R560). -/
structure Coll where
  ring : Nat
  index : Nat
  /-- Neighbours whose matching sync has arrived. -/
  synced : List Nat := []
  /-- When it last made progress. -/
  since : Nat := 0
  /-- End of the slice whose data is moving; 0 when none is. -/
  upTo : Nat := 0
  /-- Stage and step reached, elements received of the step's chunk, and values held in the pier by
  element number. -/
  stage : Nat := 0
  step : Nat := 0
  got : List (List Byte) := []
  vals : List (Nat × List Byte) := []
  deriving DecidableEq, Repr, Inhabited

/-- A Hawser port (14 R519 to R534). Its state and counts are in the HAW_PORT registers. -/
structure Port where
  /-- Good lanes, spares included. -/
  good : Nat := 26
  /-- Messages sent and kept for link retry, by the link sequence of their first flit (14 R523). -/
  retry : List (Nat × LinkMsg) := []
  linkSeq : Nat := 0
  rxLinkSeq : Nat := 0
  /-- Messages waiting at the output for credits, in order (14 R534). -/
  out : List LinkMsg := []
  /-- Credits by 2·class + virtual channel; an unlisted one holds 32. -/
  credits : Tbl Nat := []
  /-- When it entered the coupled set, the beacons received since and whether one has (02 R88, R90). -/
  coupledSince : Nat := 0
  beacons : List Nat := []
  joined : Bool := false
  deriving DecidableEq, Repr, Inhabited

/-- The Port an unlisted key reads as. -/
abbrev Port.new : Port := {}

/-- A hint in force (15 R582). -/
structure Hint where
  ctx : Nat
  kind : Nat
  first : Nat
  /-- Last covered tide; none until replaced. -/
  last : Option Nat
  deriving DecidableEq, Repr, Inhabited

/-- A compute die's operating point (15 R568, R581, R584). Its point in force is in LKP_DIE. -/
structure Die where
  /-- Step decided for the next tick, and when its voltage has settled. -/
  target : Option (Nat × Nat) := none
  /-- Thermal ceiling as a step F. -/
  ceiling : Nat := 47
  hot : Bool := false
  /-- A stretch has occurred since the latest tick. -/
  stretchedTide : Bool := false
  /-- Its step has been deferred by a droop (15 R581). -/
  deferred : Bool := false
  /-- The ageing offset of the V/F table in force; AGEING_MV holds the staged one (02 R63, 15 R579). -/
  vfOffset : Nat := 0
  deriving DecidableEq, Repr, Inhabited

/-- The Die an unlisted key reads as. -/
abbrev Die.new : Die := {}

/-- The lockkeeper (15). -/
structure Power where
  hints : List Hint := []
  /-- Consecutive tides in which estimate and measurement differ (15 R566). -/
  disagree : Nat := 0
  /-- The telemetry the latest tick latched. -/
  latched : Telemetry := default
  /-- The host core clusters' frequency limit (15 R573, R586). -/
  hostMhz : Nat := 3000
  hostHot : Bool := false
  hubHot : Bool := false
  /-- The decision of the tide in progress has been made (15 R567). -/
  decided : Bool := false
  /-- Dies whose 0x5303 record has been written since POR (15 R579). -/
  ageingLogged : List Nat := []
  /-- Scale of the estimator's model, measured over estimated (15 R566). -/
  scaleNum : Nat := 1
  scaleDen : Nat := 1
  /-- The effective cap that the latest decision took (15 R570). -/
  cap : Option Nat := none
  /-- Decided allocation of each class, in W. -/
  alloc : List Nat := []
  /-- Physical dies whose VDD_CD rail the device has enabled, ascending (19 R680). -/
  cdRails : List Nat := []
  deriving DecidableEq, Repr, Inhabited

/-- Why the unit behind a physical address cannot answer (03 R95, R110, R119, R135; 01 R56). -/
inductive AccErr where
  | unmapped | dieWindow | isolated | retired | poison
  deriving DecidableEq, Repr, Inhabited

/-- A cached line of one L2 (13 R488, R498). -/
structure L2Line where
  line : Nat
  /-- 1 S, 2 E, 3 O, 4 M. -/
  st : Nat
  data : List Byte
  poisoned : Bool := false
  deriving DecidableEq, Repr, Inhabited

/-- A system-cache line at its home (13 R488, R496). -/
structure SysLine where
  line : Nat
  data : List Byte
  dirty : Bool := false
  poisoned : Bool := false
  deriving DecidableEq, Repr, Inhabited

/-- The requests of the snoop ring (13 R497). -/
inductive ReqKind where
  | getS | getM | claim | look | putFull | atomicHome | clean | purge | discard
  deriving DecidableEq, Repr, Inhabited

/-- A transaction at a home (13 R496 to R498). The first of a line is current; its probes have been
sent. -/
structure Txn where
  kind : ReqKind
  agent : Nat
  line : Nat
  /-- The data of a PutFull; the operation, byte within the line, size and operands of an AtomicHome. -/
  data : List Byte := []
  op : AtomicOp := .add
  off : Nat := 0
  size : Nat := 0
  operand : Nat := 0
  compare : Nat := 0
  /-- Agents whose answer to the probe is outstanding, and those that have not yet handled it. -/
  waiting : List Nat := []
  probes : List Nat := []
  /-- Data a probe brought, whether it is dirty, and whether it is poisoned. -/
  got : Option (List Byte × Bool × Bool) := none
  /-- A probed agent keeps a copy. -/
  shared : Bool := false
  /-- Why the line could not be accessed when the request was issued (03 R135, R136). -/
  refused : Option AccErr := none
  deriving DecidableEq, Repr, Inhabited

/-- The coherent side of the host (13). Agents 0 to 11 are the L2s, 12 the I/O agent, 13 the bell
monitor, 14 the hub side. -/
structure Coherence where
  l2 : Tbl (List L2Line) := []
  sys : List SysLine := []
  /-- Transactions at the homes: the first of a line is current, the rest queue in arrival order. -/
  txns : List Txn := []
  /-- Bell lines pinned by the monitor, by line number: ring. -/
  pins : List (Nat × Nat) := []
  /-- LR reservations of harts on cacheable lines: hart, address, size. -/
  resv : List (Nat × Nat × Nat) := []
  deriving DecidableEq, Repr, Inhabited

/-- The host die and its reset (13 R512 to R516). -/
structure HostDie where
  running : Bool := false
  /-- Step reached of a HOST_ONLY reset in progress. -/
  resetStep : Nat := 0
  /-- Message-signalled interrupts delivered to the host spaces, oldest first: address and data
  (11 R449). -/
  msis : List (Nat × Nat) := []
  /-- Where every hart starts, in M mode, when the host die leaves reset (16 R599). -/
  entry : Nat := 0
  /-- Identities pending in the interrupt files: file and identity (13 R486). -/
  irqs : List (Nat × Nat) := []
  /-- Words that the APLIC's domains keep, by 0x1000·domain + offset / 4 (13 R486, R489). -/
  aplic : Tbl (BitVec 32) := []
  /-- Words of the IOMMU's register window, by offset / 4 (13 R487, R489). -/
  iommu : Tbl (BitVec 32) := []
  deriving DecidableEq, Repr, Inhabited

/-- States of the test access port (19 R696; IEEE 1149.1). -/
inductive TapState where
  | reset | idle
  | selectDr | captureDr | shiftDr | exit1Dr | pauseDr | exit2Dr | updateDr
  | selectIr | captureIr | shiftIr | exit1Ir | pauseIr | exit2Ir | updateIr
  deriving DecidableEq, Repr, Inhabited

/-- JTAG instructions; every one but two gives test access to the dies (19 R696). -/
inductive JtagInstr where
  | bypass | idcode | other
  deriving DecidableEq, Repr, Inhabited

/-- An edge the board drives: TRST_N, or TCK with TMS and TDI. -/
inductive JtagEdge where
  | trst
  | tck (tms tdi : Bool)
  deriving DecidableEq, Repr, Inhabited

/-- The JTAG port (19 R696). -/
structure Jtag where
  tap : TapState := .reset
  ir : JtagInstr := .idcode
  /-- The register being shifted, the bit that leaves next first. -/
  shift : List Bool := []
  /-- TDO, when it is driven. -/
  tdo : Option Bool := none
  /-- Edges driven and not yet taken. -/
  edges : List JtagEdge := []
  deriving DecidableEq, Repr, Inhabited

/-- An entry of the page retirement list (03 R134, R140). -/
structure Retire where
  pending : Bool
  reason : Nat
  count : Nat
  first : Nat
  deriving DecidableEq, Repr, Inhabited

/-- The contents of the repair ledger (17 R642). -/
structure LedgerData where
  retired : List Retire := []
  /-- The warehouse row-spare map: 64·deck + bank, and row, of each row spared. -/
  whRows : List (Nat × Nat) := []
  pcFenced : List (Nat × Nat) := []
  coreFenced : List (Nat × Nat) := []
  /-- Ageing offset in mV and effective maximum by physical die (15 R579). -/
  ageing : Tbl Nat := []
  effMax : Tbl Nat := []
  /-- Entries to remove at the next DEV_WARM, by their index, or all of them (03 R138). -/
  removals : List Nat := []
  removeAll : Bool := false
  deriving DecidableEq, Repr, Inhabited

/-- The repair ledger, its flash copies and its arm (17 R642, R643). -/
structure Ledger where
  data : LedgerData := {}
  seq : Nat := 0
  dirty : Bool := false
  /-- The copies in the log vault: sequence number and contents when valid. -/
  copy0 : Option (Nat × LedgerData) := none
  copy1 : Option (Nat × LedgerData) := none
  armedAt : Nat := 0
  deriving DecidableEq, Repr, Inhabited

/-- Everything of BX-4816 but the queue of commands. -/
structure Dev where
  /-- Choices taken so far: the argument of the next free value. -/
  fresh : Nat := 0
  resp : Resp := .none
  /-- The CKD01 count in ns (15 R589). -/
  now : Nat := 0
  pins : Pins := {}
  /-- Every clock except CKD03 is stopped (15 R572, R587). -/
  stopped : Bool := false
  mem : Mem := {}
  /-- Register values by offset in the window; an unlisted register holds its reset value. -/
  regs : Tbl W64 := []
  fuses : Fuses := default
  /-- Physical die (6·deck + site) serving each logical die; 48 when none (01 R30, R36). -/
  dieMap : Tbl Nat := []
  log : LogBook := {}
  pilot : Pilot := {}
  reset : Option PendingReset := none
  -- the tide (02)
  period : Nat := 16000
  nextPeriod : Nat := 16000
  cutDone : Bool := false
  reserve : Nat := 16
  orders : Nat := 0
  /-- The ring that starts the next cut's pass 2 (02 R72). -/
  passStart : Nat := 0
  coupledPending : Bool := false
  sentBeacon : Bool := false
  heldCounted : Bool := false
  closing : List (Nat × Nat) := []
  -- rings, items, contexts (11, 12)
  rings : Tbl Ring := []
  items : List Item := []
  launches : List Launch := []
  events : Tbl W64 := []
  ctxs : Tbl Ctx := []
  xlat : Tbl Xlat := []
  /-- SEG_INVAL items draining (12 R477). -/
  draining : List (Nat × Nat) := []
  -- compute (05 to 08)
  clusters : Tbl Cluster := []
  tiles : Tbl Tile := []
  dies : Tbl Die := []
  arbs : Tbl Arb := []
  -- decks, stacks, cranes (03, 09, 10)
  cranes : Tbl Crane := []
  hbmStacks : Tbl Stack := []
  decks : Tbl Deck := []
  /-- Patrol passes by stack, 16 + deck, or 32 + tile (03 R122). -/
  scrubs : Tbl Scrub := []
  -- links (01, 14)
  links : Tbl Link := []
  /-- Package routes: REROUTE tables active, and staged for the next tick (01 R47, R55). -/
  rerouted : Reroute := {}
  rerouteStaged : Option Reroute := none
  ports : Tbl Port := []
  conns : Tbl Conn := []
  colls : List Coll := []
  /-- Collective messages received and not yet used, absorbed in pier buffers. -/
  collIn : List LinkMsg := []
  /-- Swaps of each dimension's routing tables so far (14 R538). -/
  routeSwaps : Tbl Nat := []
  /-- Known broken links: node and port (14 R541). -/
  broken : List (Nat × Nat) := []
  /-- Routing tables of the previous epoch by dimension (14 R538). -/
  prevRoute : Tbl W64 := []
  -- power, host, ledger (13, 15, 17)
  power : Power := {}
  coh : Coherence := {}
  host : HostDie := {}
  ledger : Ledger := {}
  jtag : Jtag := {}
  deriving DecidableEq, Repr, Inhabited

/-- The machine: the commands waiting, first in first out, and the device. -/
structure State where
  pending : List Instr := []
  dev : Dev := {}
  deriving DecidableEq, Repr, Inhabited

/-- The machine with PKG_POR_N asserted (17 R627, 19 R688): every register at its reset value, all
memory unwritten, the part's fuses not yet loaded (log entries 1 and 6). -/
def State.reset : State := { dev := { fuses := Config.partFuses } }

end Sys2Proof.Machine
end

