-- ==== Sys2Proof/Machine/Regs.lean ====
section
/-! DEFINITION. Where a set-up register lies, what it holds after a reset, and reading and writing
its fields from inside the device (18 R659, R660, R669, R677; 00 R22, R23). -/
namespace Sys2Proof.Machine

/-- The offset of an index vector flattened to `i`, outermost index first. -/
def dimsOffset : List (Nat × Nat) → Nat → Nat
  | [], _ => 0
  | (_, stride) :: rest, i =>
    let inner := rest.foldl (fun n d => n * d.1) 1
    i / inner * stride + dimsOffset rest (i % inner)

/-- The number of instances of a run. -/
def dimsCount (ds : List (Nat × Nat)) : Nat := ds.foldl (fun n d => n * d.1) 1

/-- The flattened index at distance `o` from a run's base, if an instance lies there. -/
def dimsIndex : List (Nat × Nat) → Nat → Option Nat
  | [], o => if o = 0 then some 0 else none
  | (n, stride) :: rest, o =>
    if o / stride < n then
      (dimsIndex rest (o % stride)).map (fun i => o / stride * dimsCount rest + i)
    else none

/-- The offset of instance `i` of a register from HUB_REG_BASE (18 R659, R660). -/
def Reg.offset (r : Reg) (i : Nat) : Nat :=
  match (r.segs.filter (fun s => s.first ≤ i)).getLast? with
  | some s => s.base + dimsOffset s.dims (i - s.first)
  | none => 0

/-- The instance of a register that lies at an offset. -/
def Reg.indexAt (r : Reg) (off : Nat) : Option Nat :=
  r.segs.findSome? (fun s =>
    if s.base ≤ off then (dimsIndex s.dims (off - s.base)).map (s.first + ·) else none)

/-- The register and instance at an offset (18 R662). -/
def Reg.at? (off : Nat) : Option (Reg × Nat) :=
  Reg.all.findSome? (fun r => (r.indexAt off).map (fun i => (r, i)))

/-- The floors of the allocation classes (15 R573), which LKP_CLASS_k.FLOOR_W holds. -/
def classFloors : List Nat := [250, 550, 250, 1320, 20]

/-- The value of instance `i` of a register after a reset that defaults it: literals and default
image values; fuse, board and ledger fields are loaded later and hold 0 before (log entry 6). -/
def Reg.resetVal (r : Reg) (i : Nat) : W64 :=
  let base := r.fields.foldl (fun v f => setBits v f.fld.hi f.fld.lo f.dflt) 0
  BitVec.ofNat 64 (match r with
    | .lkpClass => setBits base 63 48 (classFloors.getD i 0)
    | .mntPoolLayout => setBits (setBits base 6 0 16) 15 8 16
    | _ => base)

/-- The stored value of a register. -/
def Dev.reg (d : Dev) (r : Reg) (i : Nat := 0) : W64 :=
  tget (r.resetVal i) d.regs (r.offset i)

/-- Store a register's value. -/
def Dev.setReg (d : Dev) (r : Reg) (i : Nat) (v : W64) : Dev :=
  { d with regs := tset (r.resetVal i) d.regs (r.offset i) v }

/-- The value of a field. -/
def Dev.get (d : Dev) (f : Fld) (i : Nat := 0) : Nat := bits (d.reg f.reg i).toNat f.hi f.lo

/-- Set a field, keeping the register's other fields. -/
def Dev.put (d : Dev) (f : Fld) (v : Nat) (i : Nat := 0) : Dev :=
  d.setReg f.reg i (BitVec.ofNat 64 (setBits (d.reg f.reg i).toNat f.hi f.lo v))

/-- The greatest value of a field. -/
def Fld.max (f : Fld) : Nat := 2 ^ (f.hi + 1 - f.lo) - 1

/-- Add to a counter that saturates. -/
def Dev.addSat (d : Dev) (f : Fld) (n : Nat) (i : Nat := 0) : Dev :=
  d.put f (min f.max (d.get f i + n)) i

/-- Add to a counter that wraps. -/
def Dev.addWrap (d : Dev) (f : Fld) (n : Nat) (i : Nat := 0) : Dev :=
  d.put f (d.get f i + n) i

/-- Set or clear a one-bit field. -/
def Dev.flag (d : Dev) (f : Fld) (b : Bool) (i : Nat := 0) : Dev := d.put f (b2n b) i

/-- Set or clear bit `k` of a field. -/
def Dev.putBit (d : Dev) (f : Fld) (k : Nat) (b : Bool) (i : Nat := 0) : Dev :=
  d.put f (setBits (d.get f i) k k (b2n b)) i

/-- MNT_RETIRE_ENTRY of an entry (03 R140). -/
def Retire.word (r : Retire) : Nat :=
  2 ^ 63 + b2n r.pending * 2 ^ 62 + r.reason % 16 * 2 ^ 58 + r.count % 2 ^ 19 * 2 ^ 39 + r.first % 2 ^ 19

/-- Return every instance of a register to its reset value. -/
def Dev.defaultReg (d : Dev) (r : Reg) : Dev :=
  { d with regs := d.regs.filter (fun e => (r.indexAt e.1).isNone) }

end Sys2Proof.Machine
end

