-- ==== Sys2Proof/Machine/Log.lean ====
section
/-! DEFINITION. Locators (01 R38 to R41), and the logbook: severities, payloads, rate windows,
records and the alert pin (17 R649 to R656, R699, R700; 19 R691). -/
namespace Sys2Proof.Machine

/-- The physical die (6·deck + site) serving a logical die; 48 when none does. -/
def Dev.physDie (d : Dev) (ld : Nat) : Nat := tget 48 d.dieMap ld

/-- The deck of a logical die's physical die. -/
def Dev.deckOfDie (d : Dev) (ld : Nat) : Nat := d.physDie ld / 6

/-- Deck and site bits [11:6] of a compute-die, cluster or tile locator. -/
def locSite (phys : Nat) : Nat := phys / 6 * 512 + phys % 6 * 64

/-- Locator of logical tile T (01 R38, R41). -/
def Dev.locTile (d : Dev) (t : Nat) : Nat :=
  locSite (d.physDie (t / 32)) + t % 32 / 8 * 16 + t % 8 * 2

/-- Locator of logical cluster LC. -/
def Dev.locCluster (d : Dev) (lc : Nat) : Nat :=
  0x1000 + locSite (d.physDie (lc / 4)) + lc % 4 * 16

/-- Locator of a physical compute die. -/
def locPhys (phys : Nat) : Nat := 0x2000 + locSite phys

/-- Locator of a logical compute die. -/
def Dev.locDie (d : Dev) (ld : Nat) : Nat := locPhys (d.physDie ld)

/-- Locator of a deck. -/
def locDeck (k : Nat) : Nat := 0x3000 + k * 512 + 7 * 64

/-- Locator of a stack. -/
def locStack (s : Nat) : Nat := 0x4000 + s / 2 * 512 + s % 2 * 256

/-- The deck that carries a Hawser port (01 R25). -/
def portDeck (p : Nat) : Nat := [0, 3, 4, 7, 1, 6].getD p 0

/-- Locator of a Hawser port. -/
def locPort (p : Nat) : Nat := 0x5000 + portDeck p * 512 + 7 * 64 + p

/-- Locator of the optical engine that serves a port (01 R38). -/
def locOe (p : Nat) : Nat := 0x8000 + portDeck p * 512 + 7 * 64 + p

/-- Locator of the hub. -/
def locHub : Nat := 0x6000

/-- Locator of a hart. -/
def locHart (h : Nat) : Nat := 0x7000 + h / 8 * 16 + h % 8 * 2

/-- Locator of the host die. -/
def locHost : Nat := 0x70F0

/-- Locator of a crane. -/
def locCrane (deck kind : Nat) : Nat := 0x9000 + deck * 512 + 7 * 64 + kind

/-- Locator of an external module (01 R40). -/
def locModule (cls inst : Nat) : Nat := 0xA000 + cls * 256 + inst

/-- Locator of a requester. -/
def Dev.locReq (d : Dev) : Requester → Nat
  | .hart h => locHart h
  | .tile t => d.locTile t
  | .lighter lc => d.locCluster lc
  | .crane k c => locCrane k c
  | .wharf s => locStack s
  | .pier p => locPort p
  | .hub => locHub
  | .pcie _ _ => locHost

/-- Locator of a translation-cache holder. -/
def Dev.locHolder (d : Dev) : Holder → Nat
  | .cluster lc => d.locCluster lc
  | .crane k c => locCrane k c
  | .wharf s => locStack s
  | .pier p => locPort p
  | .harbourmaster => locHub

/-- The severity of each code: 17 R699 where it names the code, the class of R650 otherwise
(DEDUCED, log entry 9). -/
def severity (code : Nat) : Nat :=
  if [0x1003, 0x5206, 0x5510].contains code then 4
  else if [0x1201, 0x2002, 0x2003, 0x2006, 0x2007, 0x2008, 0x2020, 0x2021, 0x2022, 0x2040, 0x2041,
      0x2042, 0x4020, 0x4021, 0x4030, 0x4031, 0x5205, 0x6101, 0x6102, 0x6103, 0x6104, 0x6105,
      0x6201, 0x6203, 0x6210, 0x7103, 0x7104, 0x7105, 0x7202, 0x9301, 0x9310, 0x9320, 0x9321,
      0x9404].contains code then 3
  else if [0x1012, 0x1102, 0x2001, 0x2005, 0x2010, 0x2011, 0x2012, 0x2031, 0x2050, 0x3001, 0x3002,
      0x4002, 0x4003, 0x4004, 0x4005, 0x4006, 0x4007, 0x4008, 0x4012, 0x5101, 0x5201, 0x5202,
      0x5203, 0x5204, 0x5301, 0x5302, 0x5303, 0x5401, 0x5501, 0x5502, 0x5503, 0x6202, 0x6204,
      0x6301, 0x6302, 0x7101, 0x7102, 0x7201, 0x7204, 0x7205, 0x7206, 0x8002, 0x8011, 0x8201,
      0x9403, 0xF002, 0xF003].contains code then 2
  else if [0x1001, 0x1002, 0x1010, 0x1011, 0x1210, 0x1401, 0x1402, 0x1403, 0x4001, 0x4010, 0x4011,
      0x5102, 0x5601, 0x5602, 0x6211, 0x7203, 0x8003, 0x8010, 0x8020, 0x8021, 0x8030, 0x8031,
      0x9003, 0x9101, 0x9102, 0x9311, 0x9402, 0xF001].contains code then 1
  else 0

/-- Payload bytes for values given as (width in bytes, value): each starts at the lowest multiple of
its width not below the end of the previous one; 32 bytes in all (17 R700). -/
def payload (vs : List (Nat × Nat)) : List Byte :=
  let bs := vs.foldl (fun acc v =>
    acc ++ List.replicate ((v.1 - acc.length % v.1) % v.1) 0 ++ leBytes v.1 v.2) ([] : List Byte)
  (bs ++ List.replicate 32 0).take 32

/-- A temperature as a payload value: two's complement, two bytes (17 R700). -/
def payTemp (t : Int) : Nat × Nat := (2, ofInt 16 t)

/-- The number of logbook events so far, in the order of their events (17 R651). -/
def Dev.logEvents (d : Dev) : Nat :=
  d.get F.logStatus_COUNT + d.get F.logStatus_DROPPED

/-- Assert DEV_ALERT_N for the latest event (19 R691). -/
def Dev.raiseAlert (d : Dev) : Dev :=
  { d with pins := { d.pins with alert := true }, log := { d.log with alertCause := d.logEvents } }

/-- Write a record in the next slot, or the 0xF002 record in slot 4095 (17 R651). -/
def Dev.logWrite (d : Dev) (code loc supp : Nat) (pay : List Byte) : Dev :=
  let n := d.get F.logStatus_COUNT
  let rec0 (c l s : Nat) (p : List Byte) : LogRec :=
    { timestamp := d.now, tide := d.get F.tideCount_VALUE % 2 ^ 32, code := c, locator := l,
      suppressed := min s 0xFFFF, severity := severity c, payload := p }
  if n < 4095 then
    let d1 : Dev := { d with log := { d.log with recs := d.log.recs ++ [rec0 code loc supp pay] } }
    let d2 := d1.put F.logStatus_COUNT (n + 1)
    if 3 ≤ severity code then d2.raiseAlert else d2
  else
    let d1 : Dev := { d with log := { d.log with recs := d.log.recs ++ [rec0 0xF002 0 0 (payload [])], windows := [] } }
    ((d1.put F.logStatus_COUNT 4096).put F.logStatus_DROPPED 1).flag F.logStatus_FULL true

/-- Ticks run: the host has been released and no reset is taking the device down (17 R652). -/
def Dev.ticking (d : Dev) : Bool := decide (d.get F.pilBootProgress_PHASE = 5)

/-- The window of a code is over: the windows advance in action 4 of a tick (17 R652, 02 R63). -/
def Dev.windowOver (d : Dev) (w : RateWindow) : Bool :=
  if d.ticking then decide (w.start + 10 ^ 9 ≤ d.log.tickAt)
  else decide (w.start + 10 ^ 9 ≤ d.now)

/-- End the window of a code: when events were counted, a summary record carries their count
(17 R652). -/
def Dev.endWindow (d : Dev) (code : Nat) : Dev :=
  match d.log.windows.find? (fun w => w.1 == code) with
  | none => d
  | some (_, w) =>
    if d.windowOver w then
      let d1 : Dev := { d with log := { d.log with windows := d.log.windows.filter (fun w => w.1 != code) } }
      if 0 < w.counted then d1.logWrite code 0 w.counted (payload []) else d1
    else d

/-- Codes whose records the rate windows never limit (17 R652). -/
def unlimited (code : Nat) : Bool := severity code == 4 || 0xF000 ≤ code || code == 0x7204

/-- Record an event (17 R651, R652). -/
def Dev.logRaw (d : Dev) (code loc : Nat) (pay : List Byte) : Dev :=
  if d.get F.logStatus_FULL = 1 then d.addSat F.logStatus_DROPPED 1
  else if unlimited code then d.logWrite code loc 0 pay
  else
    let d := d.endWindow code
    if d.get F.logStatus_FULL = 1 then d.addSat F.logStatus_DROPPED 1
    else
    match d.log.windows.find? (fun w => w.1 == code) with
    | none =>
      let d1 : Dev := { d with log := { d.log with windows := d.log.windows ++ [(code, ⟨d.now, 1, 0⟩)] } }
      d1.logWrite code loc 0 pay
    | some (_, w) =>
      let put (w' : RateWindow) : Dev :=
        { d with log := { d.log with windows := d.log.windows.map (fun e => if e.1 == code then (code, w') else e) } }
      if w.written < d.get F.logRate_LIMIT then
        (put { w with written := w.written + 1 }).logWrite code loc 0 pay
      else put { w with counted := w.counted + 1 }

/-- Record an event with the payload values its code's table names. -/
def Dev.note (d : Dev) (code loc : Nat) (vs : List (Nat × Nat) := []) : Dev :=
  d.logRaw code loc (payload vs)

/-- The 64 bytes of the record in slot `i` (17 R649); zeros for a slot not yet written (R653). -/
def Dev.logBytes (d : Dev) (i : Nat) : List Byte :=
  match d.log.recs[i]? with
  | none => List.replicate 64 0
  | some r =>
    let body := leBytes 8 r.timestamp ++ leBytes 4 r.tide ++ leBytes 2 r.code ++ leBytes 2 r.locator ++
      leBytes 2 r.suppressed ++ leBytes 1 r.severity ++ [0] ++ leBytes 4 i ++ r.payload ++ leBytes 4 0
    body ++ leBytes 4 (crc32c body).toNat

end Sys2Proof.Machine
end

