-- ==== Sys2Proof/Machine/Mem.lean ====
section
/-! DEFINITION. The bytes of memory and their poison (03 R94, R96, R118, R120, R121, R124), in one
canonical form: addresses strictly rising, no byte listed that equals what an unlisted one reads as. -/
namespace Sys2Proof.Machine

/-- An unlisted byte: local memories and warehouses are zeroed before release (03 R111), and so is
the pool when ZERO_AT_COLD is 1; otherwise `Mem.cold` says so. -/
def Mem.absent : Byte := 0

/-- The canonical form of memory holds. -/
def Mem.wf (m : Mem) : Bool := twf Mem.absent m.cells

/-- The first byte of the protection unit of an address: a 64-byte line of the pool, an 8-byte word
of an SRAM (03 R118). -/
def unitOf (a : Nat) : Nat := if a < 2 ^ 40 then a / 64 * 64 else a / 8 * 8

/-- The size of the protection unit of an address. -/
def unitSize (a : Nat) : Nat := if a < 2 ^ 40 then 64 else 8

/-- One GiB. -/
def gib : Nat := 2 ^ 30

/-- Stack and stack local address of a pool address (03 R101, R102). -/
def stackOf (iEff pa : Nat) : Nat × Nat :=
  if pa < 16 * iEff * gib then
    let g := pa / 4096
    let nib := fun k => g / 16 ^ k % 16
    let s := nib 0 ^^^ nib 1 ^^^ nib 2 ^^^ nib 3 ^^^ nib 4 ^^^ nib 5 ^^^ nib 6
    (s, g / 16 * 4096 + pa % 4096)
  else
    let o := pa - 16 * iEff * gib
    let per := (64 - iEff) * gib
    (o / per, iEff * gib + o % per)

/-- Pseudo-channel of a stack local address (03 R99). -/
def pcOf (l : Nat) : Nat := (l / 256 % 64) ^^^ (l / 2 ^ 14 % 64)

/-- A pool address lies in a relocated unit below its stack's top 1 GiB (03 R130). -/
def Mem.freshAt (m : Mem) (a : Nat) : Bool :=
  m.fresh.any (fun e => let (s, l) := stackOf e.1 a; s == e.2.1 && pcOf l == e.2.2 && decide (l < 63 * gib))

/-- A pool line is undefined: a cold start left the pool unwritten and the line has not been written
since (03 R124). -/
def Mem.undefinedAt (m : Mem) (a : Nat) : Bool :=
  match m.cold with
  | none => false
  | some _ => decide (a < 2 ^ 40) && !tget false m.written (a / 64 * 64) && !m.freshAt a

/-- One byte of memory. -/
def Mem.byte (m : Mem) (a : Nat) : Byte :=
  match m.cold with
  | none => tget Mem.absent m.cells a
  | some n => if m.undefinedAt a then Config.coldByte n a else tget Mem.absent m.cells a

/-- A protection unit is an undefined line that reports uncorrectable, and has not been found so yet
(03 R118, R124). -/
def Mem.coldAt (m : Mem) (a : Nat) : Bool :=
  m.undefinedAt a && !tget false m.poison (unitOf a) &&
    (match m.cold with | some n => Config.coldUncorrectable n (unitOf a) | none => false)

/-- A protection unit is poisoned, or is an undefined line that reports uncorrectable. -/
def Mem.poisonedAt (m : Mem) (a : Nat) : Bool := tget false m.poison (unitOf a) || m.coldAt a

/-- The bytes from `a`. -/
def Mem.read (m : Mem) (a : Nat) : Nat → List Byte
  | 0 => []
  | n + 1 => m.byte a :: m.read (a + 1) n

/-- Put bytes from `a`, without regard to poison. -/
def Mem.poke (m : Mem) (a : Nat) : List Byte → Mem
  | [] => m
  | b :: bs => Mem.poke { m with cells := tset Mem.absent m.cells a b } (a + 1) bs

/-- The protection units that a range touches, by first byte. -/
def unitsOf (a len : Nat) : List Nat :=
  if len = 0 then [] else
    let u := unitSize a
    rangeFrom 0 ((a + len - 1) / u - a / u + 1) |>.map (fun i => (a / u + i) * u)

/-- Some unit that a range touches is poisoned. -/
def Mem.anyPoison (m : Mem) (a len : Nat) : Bool := (unitsOf a len).any m.poisonedAt

/-- The first unit of a range that is poisoned. -/
def Mem.firstPoison (m : Mem) (a len : Nat) : Option Nat := (unitsOf a len).find? m.poisonedAt

/-- A write covers a whole protection unit. -/
def coversUnit (a len u : Nat) : Bool := decide (a ≤ u ∧ u + unitSize u ≤ a + len)

/-- Some unit that a write covers only in part is poisoned: the write is refused (03 R121). -/
def Mem.writeRefused (m : Mem) (a len : Nat) : Bool :=
  (unitsOf a len).any (fun u => m.poisonedAt u && !coversUnit a len u)

/-- The bytes of an undefined line, fixed at a first partial write: what it then holds beside the
bytes written stays as the line's free value (03 R124). -/
def Mem.settleLine (m : Mem) (l : Nat) : Mem :=
  if m.undefinedAt l then
    let m' := m.poke l (m.read l 64)
    { m' with written := tset false m'.written l true }
  else m

/-- Write bytes at `a`: whole units lose their poison (03 R120). -/
def Mem.write (m : Mem) (a : Nat) (bs : List Byte) : Mem :=
  let us := unitsOf a bs.length
  let m1 := if a < 2 ^ 40 then us.foldl Mem.settleLine m else m
  let m2 := m1.poke a bs
  let clear := fun p u => if coversUnit a bs.length u then tset false p u false else p
  { m2 with poison := us.foldl clear m2.poison }

/-- Poison a unit (03 R118). -/
def Mem.poisonUnit (m : Mem) (u : Nat) : Mem := { m with poison := tset false m.poison u true }

/-- Zero a range, with valid check bits and no poison (03 R111, R130, 05 R191). -/
def Mem.zero (m : Mem) (a len : Nat) : Mem :=
  { m with
    cells := m.cells.filter (fun c => decide (c.1 < a ∨ a + len ≤ c.1))
    poison := m.poison.filter (fun p => decide (p.1 < a ∨ a + len ≤ p.1)) }

/-- Write zeros over a range of pool lines (10 R407). -/
def Mem.erase (m : Mem) (a len : Nat) : Mem :=
  let z := m.zero a len
  match z.cold with
  | none => z
  | some _ => { z with written := (unitsOf a len).foldl (fun t u => tset false t u true) z.written }

/-- Memory in its canonical form. -/
def Mem.canon (m : Mem) : Mem := { m with cells := tcanon Mem.absent m.cells }

/-- A little-endian value in memory. -/
def Mem.nat (m : Mem) (a n : Nat) : Nat := leNat (m.read a n)

end Sys2Proof.Machine
end

