-- ==== Sys2Proof/Machine/Phys.lean ====
section
/-! DEFINITION. How a command acts on the machine, the physical address map (03), and physical reads
and writes with their errors (03 R95, R110, R119, R129, R135). -/
namespace Sys2Proof.Machine

/-- The outcome of a command. -/
abbrev Out := Host.Outcome State Fault Refusal

/-- Memory is left in its canonical form. -/
def Dev.settle (d : Dev) : Dev := { d with mem := d.mem.canon }

/-- A command acts on the device and leaves the queue as it is. -/
def act (s : State) (f : Dev → Dev) : Out := .next { s with dev := (f s.dev).settle }

/-- The clocks run: PKG_POR_N is released and no trip or supply stop has stopped them (15 R572, R587;
19 R688). -/
def Dev.clocked (d : Dev) : Bool := !d.pins.por && !d.stopped

/-- A command of a unit that needs its clock: nothing happens while the clocks are stopped. -/
def actOn (s : State) (f : Dev → Dev) : Out := act s (fun d => if d.clocked then f d else d)

/-- A command of the running device: nothing happens before release (16 R593) or while the clocks
are stopped. -/
def actUp (s : State) (f : Dev → Dev) : Out :=
  act s (fun d => if d.clocked && d.ticking then f d else d)


/-- The next free value's number is used up. -/
def Dev.draw (d : Dev) : Dev := { d with fresh := d.fresh + 1 }

/-- Answer an access. -/
def Dev.answer (d : Dev) (r : Resp) : Dev := { d with resp := r }

/-! ### The physical address map -/

/-- The parts of the physical address space (03 R94, 13 R489). -/
inductive Space where
  | pool
  | warehouse (deck off : Nat)
  | localMem (t off : Nat)
  | regs (off : Nat)
  | host
  | unmapped
  deriving DecidableEq, Repr

/-- The part an address lies in; the unbacked upper 128 MiB of a warehouse window count as unmapped
(03 R95). -/
def space (pa : Nat) : Space :=
  if pa < 0x10000000000 then .pool
  else if pa < 0x10100000000 then
    let off := pa % 0x20000000
    if off < 0x18000000 then .warehouse ((pa - 0x10000000000) / 0x20000000) off else .unmapped
  else if pa < 0x10158000000 then
    .localMem ((pa - 0x10100000000) / 0x100000) (pa % 0x100000)
  else if pa < 0x1F000000000 then .unmapped
  else if pa < 0x1F001000000 then .regs (pa - 0x1F000000000)
  else if pa < 0x20000000000 then .unmapped
  else .host

/-- The base of a tile's local-memory window. -/
def localBase (t : Nat) : Nat := 0x10100000000 + t * 0x100000

/-- The base of a deck's warehouse window. -/
def warehouseBase (k : Nat) : Nat := 0x10000000000 + k * 0x20000000

/-- I_EFFECTIVE (03 R100). -/
def Dev.interleave (d : Dev) : Nat := d.get F.mntPoolLayout_I_EFFECTIVE

/-- The stack of a pool address. -/
def Dev.stackOfPa (d : Dev) (pa : Nat) : Nat := (stackOf d.interleave pa).1

/-- Core die of a stack local address (03 R99). -/
def coreDieOf (l : Nat) : Nat := l / 2 ^ 32 % 16

/-- The pool address of a stack local address. -/
def poolAddr (iEff s l : Nat) : Nat :=
  if l < iEff * gib then
    let hi := l / 4096
    let nib := fun k => hi / 16 ^ k % 16
    let low := s ^^^ nib 0 ^^^ nib 1 ^^^ nib 2 ^^^ nib 3 ^^^ nib 4 ^^^ nib 5
    (hi * 16 + low) * 4096 + l % 4096
  else 16 * iEff * gib + s * ((64 - iEff) * gib) + (l - iEff * gib)

/-- The pool page of an address is retired (03 R134, R135). -/
def Dev.pageRetired (d : Dev) (pa : Nat) : Bool :=
  d.ledger.data.retired.any (fun r => !r.pending && r.first ≤ pa / 2 ^ 21 && pa / 2 ^ 21 < r.first + r.count)

/-- A pool line answers as poisoned because its stack or pseudo-channel is fenced (03 R129, R133). -/
def Dev.fencedAt (d : Dev) (pa : Nat) : Bool :=
  let (s, l) := stackOf d.interleave pa
  d.get F.hbmStatus_STATE s == 3 ||
    (bit (d.get F.hbmPcFenced_FENCED s) (pcOf l) && !(tget .new d.hbmStacks s).relocated.contains (pcOf l))

/-- The window of a logical die answers (03 R110). -/
def Dev.dieActive (d : Dev) (ld : Nat) : Bool := d.get F.cdLocation_STATE ld == 0

/-- A range of a device access is mapped, backed, not retired and on a deck that can be reached: check 4
of 12 R471, and 01 R56. -/
def Dev.paErr (d : Dev) (pa len : Nat) : Option AccErr :=
  let one := fun a => match space a with
    | .pool => if d.pageRetired a then some AccErr.retired
               else if (tget .new d.decks (d.stackOfPa a / 2)).isolated then some .isolated else none
    | .warehouse k _ => if (tget .new d.decks k).isolated then some AccErr.isolated else none
    | .localMem t _ => if !d.dieActive (t / 32) then some .dieWindow
                       else if (tget .new d.decks (d.deckOfDie (t / 32))).isolated then some .isolated else none
    | _ => some .unmapped
  match one pa with
  | some e => some e
  | none => if len ≤ 1 then none else one (pa + len - 1)

/-- Some unit of a range is poisoned or fenced. -/
def Dev.poisonAt (d : Dev) (pa len : Nat) : Bool :=
  d.mem.anyPoison pa len || (decide (pa < 2 ^ 40) && (unitsOf pa len).any d.fencedAt)

/-- Read physical memory (03 R95, R110, R119, R135). -/
def Dev.readPa (d : Dev) (pa len : Nat) : Except AccErr (List Byte) :=
  match d.paErr pa len with
  | some e => .error e
  | none => if d.poisonAt pa len then .error .poison else .ok (d.mem.read pa len)

/-- Change a stack. -/
def Dev.modStack (d : Dev) (s : Nat) (f : Stack → Stack) : Dev :=
  { d with hbmStacks := tset .new d.hbmStacks s (f (tget .new d.hbmStacks s)) }
/-- Change a deck. -/
def Dev.modDeck (d : Dev) (k : Nat) (f : Deck → Deck) : Dev :=
  { d with decks := tset .new d.decks k (f (tget .new d.decks k)) }

/-- Locator of the unit that holds an address. -/
def Dev.locOfPa (d : Dev) (pa : Nat) : Nat :=
  match space pa with
  | .pool => locStack (d.stackOfPa pa)
  | .warehouse k _ => locDeck k
  | .localMem t _ => d.locTile t
  | _ => 0

/-- A word or line is uncorrectable (03 R118): poisoned, counted, logged, its row marked. -/
def Dev.notePoison (d : Dev) (pa : Nat) : Dev :=
  let u := unitOf pa
  let d : Dev := { d with mem := d.mem.poisonUnit u }
  match space pa with
  | .pool =>
    let s := d.stackOfPa pa
    let d := (d.note 0x2002 (locStack s) [(8, u)]).addSat F.hbmErrCount_UNCORRECTABLE 1 s
    d.modStack s (fun x => { x with marks := x.marks ++ [u] })
  | .warehouse k _ =>
    let d := (d.note 0x2003 (locDeck k) [(8, u)]).addSat F.dckWhStatus_UNCORRECTABLE 1 k
    d.modDeck k (fun x => { x with marks := x.marks ++ [u] })
  | _ => d.note 0x2003 (d.locOfPa pa) [(8, u)]

/-- Reads of pool lines find those uncorrectable that a cold start left so (03 R118, R124). -/
def Dev.findCold (d : Dev) (us : List Nat) : Dev :=
  match d.mem.cold with
  | none => d
  | some _ => us.foldl (fun d u => if d.mem.coldAt u && !d.fencedAt u then d.notePoison u else d) d

/-- A read of a range meets its memory: what it finds uncorrectable is poisoned and logged (03 R118). -/
def Dev.meet (d : Dev) (pa len : Nat) : Dev :=
  if (d.paErr pa len).isSome then d else d.findCold (unitsOf pa len)

/-- A write meets the units that it covers only in part (03 R121). -/
def Dev.meetWrite (d : Dev) (pa len : Nat) : Dev :=
  if (d.paErr pa len).isSome then d else d.findCold ((unitsOf pa len).filter (fun u => !coversUnit pa len u))

/-- A write to a watched bell line invalidates the system cache's copy, whose dirty data goes to memory
first; a line that an L2 owns is the L2's (11 R416; 13 R488). -/
def Dev.bellDrop (d : Dev) (pa len : Nat) : Dev :=
  let hit := fun (l : SysLine) => decide (pa < 64 * l.line + 64 ∧ 64 * l.line < pa + len) &&
    d.coh.pins.any (fun p => p.1 == l.line) && !d.coh.l2.any (fun e => e.2.any (fun x => x.line == l.line && decide (2 ≤ x.st)))
  let m := (d.coh.sys.filter (fun l => hit l && l.dirty)).foldl (fun m l =>
    let m := m.write (64 * l.line) l.data
    if l.poisoned then m.poisonUnit (64 * l.line) else m) d.mem
  { d with mem := m, coh := { d.coh with sys := d.coh.sys.filter (fun l => !hit l) } }

/-- The rings whose watched bell line a write touches have their pinned copies invalidated
(11 R416). -/
def Dev.bellWrite (d : Dev) (pa len : Nat) : Dev :=
  if len = 0 then d else
  let hit := d.coh.pins.filter (fun p => pa / 64 ≤ p.1 && p.1 ≤ (pa + len - 1) / 64)
  { d with rings := hit.foldl (fun rs p => tset .new rs p.2 { tget .new rs p.2 with bellHit := true }) d.rings }

/-- Staged results without the bytes of a range. -/
def stripStaged (a len : Nat) (st : List (Nat × List Byte)) : List (Nat × List Byte) :=
  st.flatMap (fun c =>
    if c.1 + c.2.length ≤ a || a + len ≤ c.1 then [c]
    else (List.range c.2.length).filterMap (fun i =>
      if a ≤ c.1 + i && c.1 + i < a + len then none else some (c.1 + i, [c.2.getD i 0])))

/-- A cache's write-back of a line that a wave holds locked follows the wave's own write, so its bytes leave the
wave's staged results; it is not held, for the cache has no other copy left to answer from (10 R382; log
entry 226). -/
def Dev.stripWaves (d : Dev) (a len : Nat) : Dev :=
  { d with hbmStacks := d.hbmStacks.map (fun e => (e.1, { e.2 with
      waves := e.2.waves.map (fun w => { w with staged := stripStaged a len w.staged }) })) }

/-- A wave holds the line of an address locked (10 R380, R382). -/
def Dev.lockedLine (d : Dev) (pa : Nat) : Bool :=
  d.hbmStacks.any (fun e => e.2.waves.any (fun w => w.lines.contains (pa / 64)))

/-- A write to the reserved bytes ends a reservation (05 R203, 08 R331). -/
def Hart.strip (h : Hart) (a len : Nat) : Hart :=
  match h.resv with
  | some (r, n) => if a < r + n && r < a + len then { h with resv := none } else h
  | none => h

/-- Reservations of a tile's core and threads that a write ends. -/
def Tile.strip (x : Tile) (a len : Nat) : Tile :=
  { x with
    core := x.core.strip a len
    gangs := x.gangs.map (fun g => { g with threads := g.threads.map (fun th => { th with hart := th.hart.strip a len }) }) }

/-- Reservations that a write to local memory ends. -/
def Dev.stripResv (d : Dev) (a len : Nat) : Dev :=
  match space a with
  | .localMem t _ => { d with tiles := tset .new d.tiles t ((tget .new d.tiles t).strip a len) }
  | _ => d

/-- Zero a tile's local memory, vector and tally state; its previous context becomes none
(17 R634, R636). -/
def Dev.zeroTile (d : Dev) (t : Nat) : Dev :=
  { d with mem := d.mem.zero (localBase t) 0x100000, tiles := tset .new d.tiles t .new }

/-- A cluster is in CLUSTER_GATED (17 R636). -/
def Dev.gated (d : Dev) (lc : Nat) : Bool := bit (d.get F.cdGateCfg_GATED (lc / 4)) (lc % 4)

/-- A cluster leaves CLUSTER_GATED; without RETAIN its tiles are zeroed (17 R636). -/
def Dev.wakeCluster (d : Dev) (lc : Nat) : Dev :=
  if !d.gated lc then d else
  let d := d.putBit F.cdGateCfg_GATED (lc % 4) false (lc / 4)
  if d.get F.cdGateCfg_RETAIN (lc / 4) = 0 then (rangeFrom (8 * lc) 8).foldl Dev.zeroTile d else d

/-- A cluster is used in the tide in progress. -/
def Dev.useCluster (d : Dev) (lc : Nat) : Dev :=
  let n := d.get F.tideCount_VALUE + 1
  { d with clusters := tset .new d.clusters lc { tget .new d.clusters lc with quietFrom := n } }

/-- An access reaches a unit: a local-memory window of a cluster without a launch wakes it (17 R636). -/
def Dev.touch (d : Dev) (pa : Nat) : Dev :=
  match space pa with
  | .localMem t _ =>
    if d.launches.any (fun l => l.clusters.contains (t / 8)) then d
    else (d.wakeCluster (t / 8)).useCluster (t / 8)
  | _ => d

/-- A read reaches its unit and meets the memory there. -/
def Dev.reach (d : Dev) (pa len : Nat) : Dev := (d.touch pa).meet pa len

/-- A write to a line that a wave holds locked waits until the wave has written it (10 R382). -/
def Dev.holdWrite (d : Dev) (pa : Nat) (bs : List Byte) (hub : Bool) : Dev :=
  { d with hbmStacks := d.hbmStacks.map (fun e => (e.1, { e.2 with
      waves := e.2.waves.map (fun w => if w.lines.contains (pa / 64) then { w with held := w.held ++ [(pa, bs, hub)] } else w) })) }

/-- Write physical memory at once; a refused write changes nothing (03 R120, R121). -/
def Dev.writeNow (d : Dev) (pa : Nat) (bs : List Byte) : Except AccErr Dev :=
  match d.paErr pa bs.length with
  | some e => .error e
  | none =>
    let d := d.bellDrop pa bs.length
    let fenced := decide (pa < 2 ^ 40) && (unitsOf pa bs.length).any d.fencedAt
    if fenced || d.mem.writeRefused pa bs.length then .error .poison
    else
      let d := d.touch pa
      .ok (((({ d with mem := d.mem.write pa bs } : Dev).stripWaves pa bs.length).stripResv pa bs.length).bellWrite pa bs.length)

/-- Write physical memory, after the wave that holds the line locked (10 R382). -/
def Dev.writePa (d : Dev) (pa : Nat) (bs : List Byte) : Except AccErr Dev :=
  match d.writeNow pa bs with
  | .ok x => .ok (if d.lockedLine pa then d.holdWrite pa bs false else x)
  | .error e => .error e

/-- An access that was issued before its page was retired completes (03 R136): the retirement list is as
if empty to it. -/
def Dev.issuedBefore (d : Dev) (f : Dev → Except AccErr Dev) : Except AccErr Dev :=
  match f { d with ledger := { d.ledger with data := { d.ledger.data with retired := [] } } } with
  | .ok x => .ok { x with ledger := d.ledger }
  | .error e => .error e

/-- The memory code of a failed access (03 R95, R110, R135); a poisoned one was logged when it was
found. -/
def Dev.logAcc (d : Dev) (e : AccErr) (loc : Nat) : Dev :=
  match e with
  | .unmapped => d.note 0x2040 loc
  | .dieWindow => d.note 0x2041 loc
  | .isolated => d
  | .retired => d.note 0x2042 loc
  | .poison => d

/-- The status a DMA-class item takes from an access error (03 R95, R110, R119). -/
def accStatus : AccErr → Nat
  | .unmapped => 0x10
  | .retired => 0x10
  | .dieWindow => 0x13
  | .isolated => 0x13
  | .poison => 0x18

end Sys2Proof.Machine
end

