-- ==== Sys2Proof/Machine/Snoop.lean ====
section
/-! DEFINITION. The snoop ring (13 R488, R496 to R502): the copies that the L2s and the system cache
hold, the transactions of a line at its home, the probes and what their holders answer, and the grants
that end a transaction. -/
namespace Sys2Proof.Machine

/-- The home slice of a pool line (13 R496). -/
def homeSlice (pa : Nat) : Nat :=
  (List.range 12).foldl (fun s k => s ^^^ bits (pa % 2 ^ 40) (3 * k + 8) (3 * k + 6)) 0

/-! ### Copies -/

/-- An L2's copy of a line. -/
def Coherence.held (c : Coherence) (k line : Nat) : Option L2Line := (tget [] c.l2 k).find? (fun l => l.line == line)

/-- The state code of an L2's copy; 0 when it has none. -/
def Coherence.st (c : Coherence) (k line : Nat) : Nat := ((c.held k line).map (·.st)).getD 0

/-- The harts of L2 `k` lose the reservations on a line (13 R502). -/
def Coherence.stripLine (c : Coherence) (k line : Nat) : Coherence :=
  { c with resv := c.resv.filter (fun r => !(r.1 / 8 == k && r.2.1 / 64 == line)) }

/-- An L2 holds a line from now on. -/
def Coherence.setHeld (c : Coherence) (k : Nat) (l : L2Line) : Coherence :=
  { c with l2 := tset [] c.l2 k ((tget [] c.l2 k).filter (fun x => x.line != l.line) ++ [l]) }

/-- An L2 holds a line no longer. -/
def Coherence.dropHeld (c : Coherence) (k line : Nat) : Coherence :=
  ({ c with l2 := tset [] c.l2 k ((tget [] c.l2 k).filter (fun x => x.line != line)) } : Coherence).stripLine k line

/-- The L2 copy that owns a line, if any (E, O or M). -/
def Coherence.owner (c : Coherence) (line : Nat) : Option L2Line :=
  (List.range 12).findSome? (fun k => (tget [] c.l2 k).find? (fun l => l.line == line && 2 ≤ l.st))

/-- The system-cache copy of a line. -/
def Coherence.sysLine (c : Coherence) (line : Nat) : Option SysLine := c.sys.find? (fun l => l.line == line)

/-- The system cache holds a line from now on. -/
def Coherence.setSys (c : Coherence) (l : SysLine) : Coherence :=
  { c with sys := c.sys.filter (fun x => x.line != l.line) ++ [l] }

/-- The system cache holds a line no longer. -/
def Coherence.dropSys (c : Coherence) (line : Nat) : Coherence :=
  { c with sys := c.sys.filter (fun x => x.line != line) }

/-- A line's current value is a cache's: an L2 owns it, or the system cache has a copy. -/
def Coherence.cached (c : Coherence) (line : Nat) : Bool := (c.owner line).isSome || (c.sysLine line).isSome

/-- Change the coherent side. -/
def Dev.modCoh (d : Dev) (f : Coherence → Coherence) : Dev := { d with coh := f d.coh }

/-- The hub–host link carries traffic (01 R52). -/
def Dev.hostLinkUp (d : Dev) : Bool := d.get F.mntHostLinkStatus_STATE == 4

/-- The host die runs and its requests reach the hub (01 R52; 13 R513). -/
def Dev.hostUp (d : Dev) : Bool := d.host.running && d.hostLinkUp

/-- A hart of the running host die can reach the hub. -/
def Dev.hartUp (d : Dev) (h : Nat) : Bool := decide (h < 96) && d.hostUp

/-- A line's bytes with its poison written back to its home; one that a retired page or an isolated deck
refuses is logged and lost, and so is one to a fenced unit (03 R129, R135; 13 R491). -/
def Dev.homeStore (d : Dev) (line : Nat) (bs : List Byte) (poisoned : Bool) : Dev :=
  match d.paErr (line * 64) 64 with
  | some e => d.logAcc e locHost
  | none =>
  if d.fencedAt (line * 64) then d else
  let m := d.mem.write (line * 64) bs
  ({ d with mem := if poisoned then m.poisonUnit (line * 64) else m } : Dev).stripWaves (line * 64) 64

/-- What memory answers for a line: its bytes and whether they are poisoned. -/
def Dev.homeLoad (d : Dev) (line : Nat) : List Byte × Bool :=
  (d.mem.read (line * 64) 64, d.poisonAt (line * 64) 64)

/-! ### Probes -/

/-- The probes a home sends (13 R497). -/
inductive Probe where
  | share | take | clean | drop
  deriving DecidableEq, Repr

/-- The probe that a request makes its home send (13 R497). -/
def ReqKind.probe : ReqKind → Probe
  | .getS => .share
  | .look => .share
  | .getM => .take
  | .clean => .clean
  | _ => .drop

/-- What one L2 does with a probe: its copy afterwards, and the data it answers with (13 R497). -/
def L2Line.probed (l : L2Line) (p : Probe) : Option L2Line × Option (List Byte × Bool × Bool) :=
  let data := some (l.data, decide (3 ≤ l.st), l.poisoned)
  match p with
  | .share => (some { l with st := if l.st = 2 then 1 else if l.st = 4 then 3 else l.st }, if 2 ≤ l.st then data else none)
  | .take => (none, if 2 ≤ l.st then data else none)
  | .clean => (some { l with st := if l.st = 4 then 2 else if l.st = 3 then 1 else l.st }, if 3 ≤ l.st then data else none)
  | .drop => (none, if 3 ≤ l.st then data else none)

/-- The current transaction of a line. -/
def Coherence.txn (c : Coherence) (line : Nat) : Option Txn := c.txns.find? (fun t => t.line == line)

/-- Change the first transaction that a test names. -/
def modFirst (p : Txn → Bool) (f : Txn → Txn) : List Txn → List Txn
  | [] => []
  | t :: rest => if p t then f t :: rest else t :: modFirst p f rest

/-- Change the current transaction of a line. -/
def Dev.modTxn (d : Dev) (line : Nat) (f : Txn → Txn) : Dev :=
  d.modCoh (fun c => { c with txns := modFirst (fun t => t.line == line) f c.txns })

/-- The bell monitor's answer to a probe: a share leaves its pinned copy, and every other removal
invalidates it and wakes the ring (11 R416; 13 R501). -/
def Dev.probeMonitor (d : Dev) (line : Nat) (p : Probe) : Dev :=
  let hit := d.coh.pins.filter (fun x => x.1 == line)
  match p with
  | .share =>
    let valid := hit.any (fun x => let r := tget .new d.rings x.2; !r.bellHit && !r.awake)
    d.modTxn line (fun t => { t with shared := t.shared || valid })
  | .clean => d
  | _ => { d with rings := hit.foldl (fun rs x => tset .new rs x.2 { tget .new rs x.2 with bellHit := true }) d.rings }

/-- An agent handles the current transaction's probe of a line (13 R497, R498). -/
def Dev.probe (d : Dev) (k line : Nat) (p : Probe) : Dev :=
  let d := d.modTxn line (fun t => { t with probes := t.probes.filter (· != k) })
  if k = 13 then d.probeMonitor line p else
  match d.coh.held k line with
  | none => d
  | some l =>
    let (keep, data) := l.probed p
    let d := match keep with
      | some l' => d.modCoh (fun c => c.setHeld k l')
      | none => d.modCoh (fun c => c.dropHeld k line)
    d.modTxn line (fun t => { t with
      shared := t.shared || keep.isSome
      got := match data with | some x => some x | none => t.got })

/-! ### Transactions -/

/-- The agents that a transaction snoops: every L2 but the requester's, and the bell monitor
(13 R498); no L2 while the host die is in reset (13 R514). -/
def Dev.snooped (d : Dev) (agent : Nat) : List Nat :=
  (if d.host.running then (List.range 12).filter (· != agent) else []) ++ [13]

/-- The home sends the probes of the line's current transaction, if none have been sent. -/
def Dev.sendProbes (d : Dev) (line : Nat) : Dev :=
  d.modTxn line (fun t => { t with waiting := d.snooped t.agent, probes := d.snooped t.agent })

/-- A request is issued and arrives at its home: it is admitted when no transaction of its line is, and
queues behind them otherwise (13 R496); a line that cannot be accessed when it is issued refuses it
(03 R135, R136). -/
def Dev.request (d : Dev) (t : Txn) : Dev :=
  let t := { t with refused := d.paErr (t.line * 64) 64 }
  let idle := (d.coh.txn t.line).isNone
  let d := d.modCoh (fun c => { c with txns := c.txns ++ [t] })
  if idle then d.sendProbes t.line else d

/-- The result of an atomic operation on values of `size` bytes (03 R107, 10 R404, 13 R502). -/
def amoNew (op : AtomicOp) (size old x cmp : Nat) : Nat :=
  let n := 8 * size
  let m := 2 ^ n
  let o := old % m
  let v := x % m
  let p := if size = 8 then fpF64 else fpF32
  match op with
  | .add => (o + v) % m
  | .fadd => p.rne ((p.decode o).add (p.decode v))
  | .min => if toInt n v < toInt n o then v else o
  | .max => if toInt n o < toInt n v then v else o
  | .minu => min o v
  | .maxu => max o v
  | .and => o &&& v
  | .or => o ||| v
  | .xor => o ^^^ v
  | .swap => v
  | .cas => if o = cmp % m then v else o

/-- `bs` with `n` bytes from `i` replaced by a little-endian value. -/
def patch (bs : List Byte) (i n v : Nat) : List Byte := bs.take i ++ leBytes n v ++ bs.drop (i + n)

/-- A transaction's dirty data: what a probe brought, or the requester's own copy. -/
def Dev.dirtyOf (d : Dev) (t : Txn) : Option (List Byte × Bool) :=
  match t.got with
  | some (bs, true, p) => some (bs, p)
  | _ => match d.coh.held t.agent t.line with
    | some l => if 3 ≤ l.st then some (l.data, l.poisoned) else none
    | none => none

/-- The current value of a transaction's line at its home once every snoop is answered, and its poison:
probe data, the system cache's, or memory's (13 R498). -/
def Dev.homeValue (d : Dev) (t : Txn) : List Byte × Bool :=
  match t.got, d.dirtyOf t, d.coh.sysLine t.line with
  | _, some v, _ => v
  | some (bs, _, p), none, _ => (bs, p)
  | none, none, some l => (l.data, l.poisoned)
  | none, none, none => d.homeLoad t.line

/-- Memory answers for a transaction's line when no cache does, and may find it uncorrectable (03 R118). -/
def Dev.meetHome (d : Dev) (t : Txn) : Dev :=
  if t.got.isSome || (d.dirtyOf t).isSome || (d.coh.sysLine t.line).isSome then d
  else d.findCold [t.line * 64]

/-- Locator of an agent of the snoop ring: an L2's core cluster, the I/O agent or the hub side (01 R38). -/
def locAgent (k : Nat) : Nat := if k < 12 then 0x7000 + 16 * k else if k = 14 then locHub else locHost

/-- The system cache includes every line that an L2 holds in E, M or O (13 R488). -/
def Dev.include (d : Dev) (line : Nat) (v : List Byte × Bool) : Dev :=
  if (d.coh.sysLine line).isSome then d
  else d.modCoh (fun c => c.setSys { line := line, data := v.1, poisoned := v.2 })

/-- Returned dirty data is kept in the system cache. -/
def Dev.keepDirty (d : Dev) (t : Txn) : Dev :=
  match d.dirtyOf t with
  | some (bs, p) => d.modCoh (fun c => c.setSys { line := t.line, data := bs, dirty := true, poisoned := p })
  | none => d

/-- The dirty data of a line goes to memory: the holders' if there is some, or the system cache's. -/
def Dev.cleanHome (d : Dev) (t : Txn) : Dev :=
  let v := match d.dirtyOf t with
    | some v => some v
    | none => (d.coh.sysLine t.line).bind (fun l => if l.dirty then some (l.data, l.poisoned) else none)
  match v with
  | none => d
  | some (bs, p) =>
    (d.homeStore t.line bs p).modCoh (fun c => if (c.sysLine t.line).isSome then
      c.setSys { line := t.line, data := bs, poisoned := p } else c)

/-- What the requester is answered with a line's value. -/
def valueResp (v : List Byte × Bool) : Resp := if v.2 then .error else .data v.1

/-- The error that a request to a line that could not be accessed when it was issued ends with: it is
logged, and the requester is answered an error, or a fault of its atomic (03 R95, R110, R135; 13 R502). -/
def Dev.refuseTxn (d : Dev) (t : Txn) (e : AccErr) : Dev × Resp :=
  let d := d.logAcc e (locAgent t.agent)
  match t.kind with
  | .atomicHome => ((d.keepDirty t).modCoh (fun c => c.dropHeld t.agent t.line), .storeFault)
  | _ => (d, .error)

/-- Requests that need the line's home to be accessed; the others move or drop copies. -/
def ReqKind.accesses : ReqKind → Bool
  | .look => true
  | .getS => true
  | .getM => true
  | .putFull => true
  | .atomicHome => true
  | _ => false

/-- The grant that ends a transaction whose snoops have all been answered, and what the requester
receives (13 R497, R498, R502). -/
def Dev.grantTxn (d : Dev) (t : Txn) : Dev × Resp :=
  match (if t.kind.accesses then t.refused else none) with
  | some e => d.refuseTxn t e
  | none =>
  let d := if t.kind.accesses then d.meetHome t else d
  let v := d.homeValue t
  match t.kind with
  | .look => (d, valueResp v)
  | .getS =>
    if (d.coh.held t.agent t.line).isSome then (d, valueResp v) else
    let st := if t.shared then 1 else 2
    let d := if t.shared then d else d.include t.line v
    (d.modCoh (fun c => c.setHeld t.agent { line := t.line, st := st, data := v.1, poisoned := v.2 }), valueResp v)
  | .getM =>
    let st := if (d.dirtyOf t).isSome then 4 else 2
    ((d.include t.line v).modCoh (fun c => c.setHeld t.agent { line := t.line, st := st, data := v.1, poisoned := v.2 }),
      valueResp v)
  | .claim =>
    let d := if (t.got.map (·.2.1)).getD false then d.keepDirty t else d
    match d.coh.held t.agent t.line with
    | none => (d, .ok 0)
    | some l =>
      let l' := { l with st := if l.st = 1 then 2 else if l.st = 3 then 4 else l.st }
      ((d.include t.line (l.data, l.poisoned)).modCoh (fun c => c.setHeld t.agent l'), .ok 0)
  | .putFull =>
    let d := d.modCoh (fun c => (c.dropHeld t.agent t.line).dropSys t.line)
    match d.issuedBefore (fun d => d.writePa (t.line * 64) t.data) with
    | .ok d => (d, .ok 0)
    | .error _ => (d, .error)
  | .atomicHome =>
    if v.2 then ((d.keepDirty t).modCoh (fun c => c.dropHeld t.agent t.line), .storeFault)
    else
      let old := leNat ((v.1.drop t.off).take t.size)
      let new := patch v.1 t.off t.size (amoNew t.op t.size old t.operand t.compare)
      (d.modCoh (fun c => (c.dropHeld t.agent t.line).setSys { line := t.line, data := new, dirty := true }),
        .data (leBytes t.size old))
  | .clean =>
    ((d.cleanHome t).modCoh (fun c => match c.held t.agent t.line with
      | some l => c.setHeld t.agent { l with st := if l.st = 4 then 2 else if l.st = 3 then 1 else l.st }
      | none => c), .ok 0)
  | .purge => ((d.cleanHome t).modCoh (fun c => (c.dropHeld t.agent t.line).dropSys t.line), .ok 0)
  | .discard => (d.modCoh (fun c => (c.dropHeld t.agent t.line).dropSys t.line), .ok 0)

/-- The line's current transaction ends with its grant, and the next one is admitted (13 R496). -/
def Dev.finishTxn (d : Dev) (t : Txn) : Dev × Resp :=
  let (d, r) := d.grantTxn t
  let d := d.modCoh (fun c => { c with txns := c.txns.eraseP (fun x => x.line == t.line) })
  (if (d.coh.txn t.line).isSome then d.sendProbes t.line else d, r)

/-- Carry the current transaction of a line to its end: every probe handled and answered, and the
grant. -/
def Dev.runTxn (d : Dev) (line : Nat) : Dev × Resp :=
  match d.coh.txn line with
  | none => (d, .none)
  | some t =>
    let d := t.probes.foldl (fun d k => d.probe k line t.kind.probe) d
    match d.coh.txn line with
    | none => (d, .none)
    | some t => d.finishTxn t

/-- Carry every transaction of a line that has arrived to its end. -/
def Dev.drainLine (d : Dev) (line : Nat) : Dev :=
  (d.coh.txns.filter (fun t => t.line == line)).foldl (fun d _ => (d.runTxn line).1) d

/-- A request whose messages meet no other's on the way: the line's earlier transactions end, and then
its own. -/
def Dev.serve (d : Dev) (t : Txn) : Dev × Resp := ((d.drainLine t.line).request t).runTxn t.line

/-! ### Device accesses at the home -/

/-- The coherent read of a line by a device engine (13 R497, R501): no L2 keeps it in E or M. -/
def Dev.cohLook (d : Dev) (line : Nat) : Dev :=
  let d := d.drainLine line
  if (d.coh.owner line).isNone then d
  else d.modCoh (fun c => { c with l2 := c.l2.map (fun e =>
    (e.1, e.2.map (fun l => if l.line == line then { l with st := if l.st = 2 then 1 else if l.st = 4 then 3 else l.st } else l))) })

/-- The current coherent value of a 64-byte pool line: the owning L2's, else the system cache's, else
memory's. -/
def Dev.cohLine (d : Dev) (line : Nat) : Except AccErr (List Byte) :=
  let d := d.drainLine line
  match d.coh.owner line with
  | some l => if l.poisoned then .error .poison else .ok l.data
  | none =>
    match d.coh.sysLine line with
    | some l => if l.poisoned then .error .poison else .ok l.data
    | none => d.readPa (line * 64) 64

/-- Drop every host copy of a line, writing the newest value to memory first. -/
def Dev.cohDrop (d : Dev) (line : Nat) : Dev :=
  let d := d.drainLine line
  let back := match d.coh.owner line with
    | some l => if 3 ≤ l.st then some (l.data, l.poisoned) else none
    | none => none
  let back := match back with
    | some v => some v
    | none => (d.coh.sysLine line).bind (fun l => if l.dirty then some (l.data, l.poisoned) else none)
  let d := match back with
    | some (bs, p) => d.homeStore line bs p
    | none => d
  d.modCoh (fun c => ((List.range 12).foldl (fun c k => c.dropHeld k line) c).dropSys line)

end Sys2Proof.Machine
end

