-- ==== Sys2Proof/Machine/Ops.lean ====
section
/-! DEFINITION. Operations that every family shares: reads and writes through the hub (11 R411,
12 R464), arithmetic cycles, and the life of items, launches and contexts (11, 12). -/
namespace Sys2Proof.Machine

/-! ### Access through the hub -/

/-- The lines of a pool range that the hub can reach. -/
def Dev.hubLines (d : Dev) (pa len : Nat) : List Nat :=
  match space pa with
  | .pool => if (d.paErr pa len).isSome then [] else (unitsOf pa len).map (· / 64)
  | _ => []

/-- A coherent read by a device engine is a Look at the home of each line: the line's earlier
transactions finish first, an owning L2 keeps no unique copy (13 R496, R497, R501), and what memory then
answers may be found uncorrectable (03 R118). -/
def Dev.look (d : Dev) (pa len : Nat) : Dev :=
  let d := if d.coh.txns.isEmpty && d.coh.l2.isEmpty then d else (d.hubLines pa len).foldl Dev.cohLook d
  if d.coh.sys.isEmpty && d.coh.l2.isEmpty then d.meet pa len
  else (d.hubLines pa len).foldl (fun d l => if d.coh.cached l then d else d.meet (64 * l) 64) d

/-- Read through the hub, coherently with host caches (11 R411, 12 R464). -/
def Dev.hubRead (d : Dev) (pa len : Nat) : Except AccErr (List Byte) :=
  match space pa with
  | .pool =>
    match d.paErr pa len with
    | some e => .error e
    | none =>
      (unitsOf pa len).foldl (fun acc u =>
        match acc with
        | .error e => .error e
        | .ok bs => match d.cohLine (u / 64) with
          | .error e => .error e
          | .ok l =>
            let lo := if u < pa then pa - u else 0
            let hi := min 64 (pa + len - u)
            .ok (bs ++ (l.drop lo).take (hi - lo))) (.ok [])
  | _ => d.readPa pa len

/-- Write through the hub: host copies of the lines are invalidated first (12 R464, 11 R438); a write to a line
that a wave holds locked waits (10 R382). -/
def Dev.hubWrite (d : Dev) (pa : Nat) (bs : List Byte) : Except AccErr Dev :=
  match space pa with
  | .pool =>
    match d.paErr pa bs.length with
    | some e => .error e
    | none =>
      if d.lockedLine pa then
        (match d.writeNow pa bs with
          | .ok _ => .ok (d.holdWrite pa bs true)
          | .error e => .error e)
      else ((unitsOf pa bs.length).foldl (fun d u => d.cohDrop (u / 64)) d).writePa pa bs
  | _ => d.writePa pa bs

/-! ### Arithmetic cycles -/

/-- Frequency of a logical die's arithmetic clock in MHz (15 R569). -/
def Dev.mhz (d : Dev) (ld : Nat) : Nat := 350 + 10 * d.get F.lkpDie_FREQ ld

/-- Arithmetic cycles of a cluster, in 1/3000, up to now: a stretched cycle lasts 1.5 nominal ones
(15 R580). -/
def Dev.rawCycles (d : Dev) (lc : Nat) : Nat :=
  let c := tget .new d.clusters lc
  c.cyc + (d.now - c.cycSince) * d.mhz (lc / 4) * (if c.stretched then 2 else 3)

/-- Arithmetic cycles of a cluster up to now. -/
def Dev.cycles (d : Dev) (lc : Nat) : Nat := d.rawCycles lc / 3000

/-- Change a cluster. -/
def Dev.modCluster (d : Dev) (lc : Nat) (f : Cluster → Cluster) : Dev :=
  { d with clusters := tset .new d.clusters lc (f (tget .new d.clusters lc)) }

/-- Count a cluster's cycles up to now, before its clock changes. -/
def Dev.syncCycles (d : Dev) (lc : Nat) : Dev :=
  let n := d.rawCycles lc
  d.modCluster lc (fun c => { c with cyc := n, cycSince := d.now })

/-- Set a die's step in force (15 R569). -/
def Dev.setFreq (d : Dev) (ld f : Nat) : Dev :=
  ((List.range 4).foldl (fun d c => d.syncCycles (4 * ld + c)) d).put F.lkpDie_FREQ f ld

/-- Reference cycles of a span of ns (02 R65): the fraction of a cycle is dropped (DESIGN CHOICE: 02 R80 and
05 R212 give no rounding; log entry 36). -/
def refCycles (ns : Nat) : Nat := ns * 7 / 10

/-! ### Units by number -/

/-- A tile. -/
def Dev.tile (d : Dev) (t : Nat) : Tile := tget .new d.tiles t
/-- Change a tile. -/
def Dev.modTile (d : Dev) (t : Nat) (f : Tile → Tile) : Dev :=
  { d with tiles := tset .new d.tiles t (f (tget .new d.tiles t)) }
/-- A ring. -/
def Dev.ring (d : Dev) (n : Nat) : Ring := tget .new d.rings n
/-- Change a ring. -/
def Dev.modRing (d : Dev) (n : Nat) (f : Ring → Ring) : Dev :=
  { d with rings := tset .new d.rings n (f (tget .new d.rings n)) }
/-- A context. -/
def Dev.ctx (d : Dev) (c : Nat) : Ctx := tget .new d.ctxs c
/-- Change a context. -/
def Dev.modCtx (d : Dev) (c : Nat) (f : Ctx → Ctx) : Dev :=
  { d with ctxs := tset .new d.ctxs c (f (tget .new d.ctxs c)) }
/-- Change a crane; crane kinds of deck k are 8·k + kind. -/
def Dev.modCrane (d : Dev) (k : Nat) (f : Crane → Crane) : Dev :=
  { d with cranes := tset .new d.cranes k (f (tget .new d.cranes k)) }
/-- Change a port. -/
def Dev.modPort (d : Dev) (p : Nat) (f : Port → Port) : Dev :=
  { d with ports := tset .new d.ports p (f (tget .new d.ports p)) }
/-- Change a connection. -/
def Dev.modConn (d : Dev) (c : Nat) (f : Conn → Conn) : Dev :=
  { d with conns := tset .new d.conns c (f (tget .new d.conns c)) }
/-- Change a link. -/
def Dev.modLink (d : Dev) (l : Nat) (f : Link → Link) : Dev :=
  { d with links := tset .new d.links l (f (tget .new d.links l)) }
/-- Change a die. -/
def Dev.modDie (d : Dev) (ld : Nat) (f : Die → Die) : Dev :=
  { d with dies := tset .new d.dies ld (f (tget .new d.dies ld)) }
/-- Change the lockkeeper. -/
def Dev.modPower (d : Dev) (f : Power → Power) : Dev := { d with power := f d.power }
/-- Change the pilot. -/
def Dev.modPilot (d : Dev) (f : Pilot → Pilot) : Dev := { d with pilot := f d.pilot }

/-- A ring's state (11 R423). -/
def Dev.ringState (d : Dev) (n : Nat) : Nat := d.get F.hmRingStatus_STATE n
/-- Set a ring's state. -/
def Dev.setRing (d : Dev) (n st : Nat) : Dev := d.put F.hmRingStatus_STATE st n
/-- The context a ring belongs to. -/
def Dev.ringCtx (d : Dev) (n : Nat) : Nat := d.get F.hmRingCfg_CONTEXT n
/-- Physical base of a ring's submission ring, completion ring and control block (11 R411, R459). -/
def Dev.sqBase (d : Dev) (n : Nat) : Nat := d.get F.hmRingSqBase_BASE n * 4096
def Dev.cqBase (d : Dev) (n : Nat) : Nat := d.get F.hmRingCqBase_BASE n * 4096
def Dev.ctrlBase (d : Dev) (n : Nat) : Nat := d.get F.hmRingCtrl_BASE n * 256
/-- S and C (11 R410). -/
def Dev.sqLog (d : Dev) (n : Nat) : Nat := d.get F.hmRingCfg_SQ_LOG2 n
def Dev.cqLog (d : Dev) (n : Nat) : Nat := d.get F.hmRingCfg_CQ_LOG2 n
/-- FI and CQ_PI (11 R414, R459). -/
def Dev.fi (d : Dev) (n : Nat) : Nat := d.get F.hmRingIndex_FI n
def Dev.cqPi (d : Dev) (n : Nat) : Nat := d.get F.hmRingIndex_CQ_PI n

/-- The three structures of a ring: base and length (11 R411). -/
def Dev.ringParts (d : Dev) (n : Nat) : List (Nat × Nat) :=
  [(d.sqBase n, 64 * 2 ^ d.sqLog n), (d.cqBase n, 32 * 2 ^ d.cqLog n), (d.ctrlBase n, 256)]

/-- The rings whose state is not DISABLED, in ascending order. -/
def Dev.liveRings (d : Dev) : List Nat :=
  (d.regs.filterMap (fun e => (Reg.hmRingStatus.indexAt e.1))).filter (fun n => d.ringState n ≠ 0)

/-- A 128-byte line holds part of a ring that is not DISABLED: no transit cache holds it (11 R411). -/
def Dev.ringLine (d : Dev) (line : Nat) : Bool :=
  d.liveRings.any (fun n => (d.ringParts n).any (fun r => decide (r.1 < 128 * line + 128 ∧ 128 * line < r.1 + r.2)))

/-- The state code of a tile (05 R217). -/
def Dev.tileState (d : Dev) (t : Nat) : Nat :=
  bits (d.get F.cdClusterStatus_TILE_STATE (t / 8)) (4 * (t % 8) + 3) (4 * (t % 8))
/-- Set a tile's state code. -/
def Dev.setTileState (d : Dev) (t st : Nat) : Dev :=
  d.put F.cdClusterStatus_TILE_STATE
    (setBits (d.get F.cdClusterStatus_TILE_STATE (t / 8)) (4 * (t % 8) + 3) (4 * (t % 8)) st) (t / 8)

/-- The zeroing of a cluster's tiles is over: its named tiles begin (05 R191). -/
def Dev.beginTiles (d : Dev) (lc : Nat) : Dev :=
  let d := (rangeFrom (8 * lc) 8).foldl (fun d t => if d.tileState t = 1 then d.setTileState t 2 else d) d
  d.modCluster lc (fun c => { c with zeroing := none })

/-- Time has passed: the tiles of clusters whose zeroing is over begin. -/
def Dev.endZeroing (d : Dev) : Dev :=
  d.clusters.foldl (fun d e => match e.2.zeroing with
    | some n => if n ≤ d.cycles e.1 then d.beginTiles e.1 else d
    | none => d) d

/-! ### Items, launches, contexts -/

/-- An item by ring and index. -/
def Dev.item? (d : Dev) (ring index : Nat) : Option Item :=
  d.items.find? (fun it => it.ring == ring && it.index == index)

/-- Change an item. -/
def Dev.modItem (d : Dev) (ring index : Nat) (f : Item → Item) : Dev :=
  { d with items := d.items.map (fun it => if it.ring == ring && it.index == index then f it else it) }

/-- A launch by its item. -/
def Dev.launch? (d : Dev) (ring index : Nat) : Option Launch :=
  d.launches.find? (fun l => l.ring == ring && l.index == index)

/-- Change a launch. -/
def Dev.modLaunch (d : Dev) (ring index : Nat) (f : Launch → Launch) : Dev :=
  { d with launches := d.launches.map (fun l => if l.ring == ring && l.index == index then f l else l) }

/-- A crane's reset is over: it is IDLE, or takes up the slices it holds (17 R634, 09 R376). -/
def Dev.endCraneResets (d : Dev) : Dev :=
  d.cranes.foldl (fun d e => match e.2.resetUntil with
    | some t =>
      if d.now < t then d
      else
        let held := d.items.any (fun it => it.assigned && it.phase == .released && bits (it.words.headD 0).toNat 7 0 == 6 && it.engine == e.1)
        (d.modCrane e.1 (fun c => { c with resetUntil := none })).put F.dckCraneStatus_STATE (if held then 1 else 0) e.1
    | none => d) d

/-- Word `k` of a descriptor. -/
def Item.w (it : Item) (k : Nat) : Nat := (it.words.getD k 0).toNat

/-- TYPE of an item (11 R425). -/
def Item.typ (it : Item) : Nat := bits (it.w 0) 7 0

/-- End an item: its first status stands (11 R445), its record is due. -/
def Item.finish (it : Item) (status : Nat) (detail : Nat := 0) : Item :=
  match it.status with
  | some _ => { it with phase := .finished }
  | none => { it with phase := .finished, status := some status, detail := BitVec.ofNat 64 detail }

/-- End an item of the device. -/
def Dev.finish (d : Dev) (ring index status : Nat) (detail : Nat := 0) : Dev :=
  d.modItem ring index (fun it => it.finish status detail)

/-- End an item at a position. -/
def Dev.finishAt (d : Dev) (ring index status pos : Nat) (detail : Nat := 0) : Dev :=
  d.modItem ring index (fun it => { it.finish status detail with pos := pos })

/-- The launch running on a tile. -/
def Dev.launchOn (d : Dev) (t : Nat) : Option Launch :=
  d.launches.find? (fun l => l.start.isSome && l.tiles.contains t)

/-- The launch running on a cluster. -/
def Dev.launchOnCluster (d : Dev) (lc : Nat) : Option Launch :=
  d.launches.find? (fun l => l.start.isSome && l.clusters.contains lc)

/-- The context whose launch runs on a tile. -/
def Dev.tileCtx (d : Dev) (t : Nat) : Nat := ((d.launchOn t).map (·.ctx)).getD 0

/-- Every job of a tile ends; a block in hand may be left written in part (06 R254). -/
def Dev.stopJobs (d : Dev) (t : Nat) : Dev :=
  d.modTile t (fun x => { x with mat := { x.mat with
    jobs := x.mat.jobs.map (fun j => if j.state = 2 then j else { j with state := 2 }), queue := [] } })

/-- Stop the tiles of a launch that have not ended, at an instruction boundary (02 R80, 05 R213,
08 R333): their queues are discarded and their jobs end. -/
def Dev.stopTiles (d : Dev) (l : Launch) : Dev :=
  l.tiles.foldl (fun d t =>
    if d.tileState t = 3 || d.tileState t = 4 then d
    else
      let sat := (d.tile t).mat.jobs.filter (fun j => j.state = 1)
      let d := d.modLaunch l.ring l.index (fun l => { l with
        sat := min 0xFFFFFFFF (l.sat + (sat.map (·.sat)).sum)
        flushed := min 0xFFFFFFFF (l.flushed + (sat.map (·.flushed)).sum) })
      ((d.stopJobs t).modTile t (fun x => { x with vec := { x.vec with queue := [] }, gangs := [] })).setTileState t 4) d

/-- Give a launch its failure, unless it has one, and stop its tiles. -/
def Dev.failLaunch (d : Dev) (ring index status : Nat) (detail : Nat := 0) : Dev :=
  let d := d.modLaunch ring index (fun l =>
    if l.status.isSome then l else { l with status := some status, detail := BitVec.ofNat 64 detail })
  match d.launch? ring index with
  | none => d
  | some l => if l.start.isSome then d.stopTiles l else d

/-- The position an item has reached: a slice carried out counts in full. -/
def Item.reached (it : Item) : Nat :=
  match it.phase with
  | .sliceDone => it.sliceEnd
  | _ => max it.pos it.waved

/-- Write a wave's results through the hub where the segment is HOST_SHARED (10 R380, R386): the wave is in
flight from its read phase (12 R477), so a page retired since is still written (03 R136); a line that can
no longer be written gives its error. -/
def Dev.writeWave (d : Dev) (w : Wave) : Dev × Option AccErr :=
  w.staged.foldl (fun acc p =>
    let d := acc.1.meetWrite p.1 p.2.length
    match d.issuedBefore (fun d => if w.shared.contains (p.1 / 64) then d.hubWrite p.1 p.2 else d.writePa p.1 p.2) with
    | .ok d => (d, acc.2)
    | .error e => (d, match acc.2 with | some x => some x | none => some e)) (d, none)

/-- Write waves one after another; the error of the first line that can no longer be written. -/
def Dev.writeWaves (d : Dev) (ws : List Wave) : Dev × Option AccErr :=
  ws.foldl (fun acc w =>
    let r := acc.1.writeWave w
    (r.1, match acc.2 with | some x => some x | none => r.2)) (d, none)

/-- Waves leave their stacks with their locks, and the writes that waited for them are performed in their order
(10 R382). -/
def Dev.unlock (d : Dev) (ws : List Wave) : Dev :=
  ws.foldl (fun d w => w.held.foldl (fun d h =>
    match d.issuedBefore (fun d => if h.2.2 then d.hubWrite h.1 h.2.1 else d.writePa h.1 h.2.1) with
    | .ok d => d
    | .error _ => d) d) d

/-- A BUSY complex is IDLE once no released slice has a wave begun on it (10 R409). -/
def Dev.wharfIdle (d : Dev) : Dev :=
  (List.range 16).foldl (fun d s =>
    if d.get F.whfStatus_STATE s = 1 && !d.items.any (fun o => o.phase == .released && o.wavesRead.any (fun r => r.1 == s)) then
      d.put F.whfStatus_STATE 0 s
    else d) d

/-- The waves of items in hand, and the device without them. -/
def Dev.takeWaves (d : Dev) (mine : Wave → Bool) : List Wave × Dev :=
  (d.hbmStacks.flatMap (fun e => e.2.waves.filter mine),
    { d with hbmStacks := d.hbmStacks.map (fun e => (e.1, { e.2 with waves := e.2.waves.filter (fun w => !mine w) })) })

/-- An item that stops leaves its waves at a wave boundary: a wave that one stack has written is written
on the others, and the rest are dropped with their locks (10 R380, R408; 12 R480). -/
def Dev.endWaves (d : Dev) (it : Item) : Dev :=
  let (all, d) := d.takeWaves (fun w => w.ring == it.ring && w.index == it.index)
  let begun := it.wavesDone.map (·.2)
  let ws := all.filter (fun w => begun.contains w.wave)
  let d := (d.writeWaves ws).1.unlock all
  ws.foldl (fun d w => d.modItem it.ring it.index (fun i => { i with
    waved := max i.waved w.upTo
    sat := min 0xFFFFFFFF (i.sat + w.sat)
    flushed := min 0xFFFFFFFF (i.flushed + w.flushed) })) d

/-- End every item of a context that has no status yet, running items with `running` at the position
reached and others with `waiting`: at position 0 under a kill (12 R480), and cancelled items where a
resubmission begins (12 R481, 11 R442). -/
def Dev.endItems (d : Dev) (ctx running waiting : Nat) : Dev :=
  let d := (d.items.filter (fun it => it.ctx == ctx && it.phase == .released)).foldl Dev.endWaves d
  let d : Dev := { d with items := d.items.map (fun it =>
    if it.ctx ≠ ctx || it.phase == .finished then it
    else if (d.launch? it.ring it.index).isSome && ((d.launch? it.ring it.index).bind (·.start)).isSome then it
    else if it.started then { it.finish running with pos := it.reached }
    else { it.finish waiting with pos := if waiting = 0x14 then it.pos else 0 }) }
  let d := d.wharfIdle
  let ls := d.launches.filter (fun l => l.ctx = ctx)
  let d := ls.foldl (fun d l => if l.start.isSome then d.failLaunch l.ring l.index running else d) d
  { d with launches := d.launches.filter (fun l => !(l.ctx = ctx && l.start.isNone)) }

/-- A context is killed (12 R480): its rings stop, its work ends. A context that is not LIVE is
already ended. -/
def Dev.killCtx (d : Dev) (ctx code : Nat) : Dev :=
  if (d.ctx ctx).state ≠ 0 then d else
  let d := d.modCtx ctx (fun c => { c with state := 1, kills := min 0xFFFF (c.kills + 1) })
  let d := d.note 0x6210 0 [(1, ctx), (2, code)]
  let d := d.liveRings.foldl (fun d n => if d.ringCtx n = ctx then d.setRing n 4 else d) d
  d.endItems ctx 0x12 0x12

/-- A tile program's fault: the launch takes its status and the context is killed (05 R213, 07 R304,
08 R333, 06 R253). -/
def Dev.tileFault (d : Dev) (t code status detail : Nat) (pay : List (Nat × Nat)) : Dev :=
  match d.launchOn t with
  | none => d
  | some l =>
    let d := d.note code (d.locTile t) pay
    let d := d.failLaunch l.ring l.index status detail
    d.killCtx l.ctx code

/-- A DMA-class item fails at a position (12 R472, 03 R119). -/
def Dev.itemFault (d : Dev) (ring index pos status va : Nat) : Dev :=
  d.finishAt ring index status pos va

end Sys2Proof.Machine
end

