-- ==== Sys2Proof/Machine/Memory.lean ====
section
/-! DEFINITION. Memory as its units answer for it (03): error detection and poison, patrol scrub, row
sparing, fencing and retirement, the fixed-priority arbiters of banks and their watchdog (05 R192 to
R198), and single physical accesses. -/
namespace Sys2Proof.Machine

/-- A unit number drawn for a value the manual leaves open. -/
def Dev.free (d : Dev) : Nat := (Config.freeValue d.fresh).toNat

/-- 24 hours in ns. -/
def dayNs : Nat := 86400 * 10 ^ 9

/-- Add a corrected error to a history, forgetting those older than 24 hours (03 R125). -/
def addCorrected (now unit : Nat) (l : List (Nat × Nat)) : List (Nat × Nat) :=
  l.filter (fun e => decide (now < e.2 + dayNs)) ++ [(unit, now)]

/-- A read corrected an error (03 R116, R125): counted, logged with a syndrome. -/
def Dev.noteCorrected (d : Dev) (pa : Nat) : Dev :=
  let d := (d.note 0x2001 (d.locOfPa pa) [(8, pa), (2, d.locOfPa pa), (8, d.free)]).draw
  match space pa with
  | .pool =>
    let s := d.stackOfPa pa
    (d.addSat F.hbmErrCount_CORRECTED 1 s).modStack s (fun x => { x with corrected := addCorrected d.now (unitOf pa) x.corrected })
  | .warehouse k _ =>
    (d.addSat F.dckWhStatus_CORRECTED 1 k).modDeck k (fun x => { x with corrected := addCorrected d.now (unitOf pa) x.corrected })
  | _ => d

/-! ### The repair ledger and the retirement list -/

/-- A change of the repair ledger takes effect at once and is due for its flash copy (17 R642). -/
def Dev.ledgerChange (d : Dev) (f : LedgerData → LedgerData) : Dev :=
  { d with ledger := { d.ledger with data := f d.ledger.data, dirty := true } }

/-- Add an entry to the retirement list (03 R134, R137). -/
def Dev.retire (d : Dev) (r : Retire) : Dev :=
  if 4096 ≤ d.ledger.data.retired.length then d.note 0x2012 0
  else (d.ledgerChange (fun l => { l with retired := l.retired ++ [r] })).note 0x2011 0 [(8, r.word)]

/-- The entry for the top 1 GiB of a stack's local addresses (03 R129, R131). -/
def Dev.topEntry (d : Dev) (s : Nat) : Retire :=
  let i := d.interleave
  if i < 64 then
    { pending := true, reason := 3, count := 512, first := (16 * i * gib + (s + 1) * ((64 - i) * gib) - gib) / 2 ^ 21 }
  else { pending := true, reason := 3, count := 8192, first := (1008 * gib) / 2 ^ 21 }

/-- The entries for core die k of a stack: one, or two where its range straddles the boundary of the
interleaved region (03 R132). -/
def Dev.dieEntries (d : Dev) (s k : Nat) : List Retire :=
  let i := d.interleave
  let lo := 4 * k
  let hi := 4 * k + 4
  let a : List Retire := if lo < i then
    [{ pending := false, reason := 4, count := 16 * (min hi i - lo) * 512, first := 16 * lo * 512 }] else []
  let b : List Retire := if i < hi then
    let l := max lo i
    [{ pending := false, reason := 4, count := (hi - l) * 512,
       first := (16 * i + s * (64 - i) + (l - i)) * 512 }] else []
  a ++ b

/-- The stack is fenced as a whole (03 R133). -/
def Dev.fenceStack (d : Dev) (s : Nat) : Dev :=
  if d.get F.hbmStatus_STATE s = 3 then d
  else (d.put F.hbmStatus_STATE 3 s).note 0x2022 (locStack s)

/-- The number of unit fences of a stack. -/
def Dev.unitFences (d : Dev) (s : Nat) : Nat :=
  ((List.range 64).filter (fun i => bit (d.get F.hbmPcFenced_FENCED s) i)).length +
    ((List.range 16).filter (fun i => bit (d.get F.hbmStatus_DIE_FENCED s) i)).length

/-- After a unit fence: DEGRADED, or the whole stack at the second one (03 R133). -/
def Dev.unitFenced (d : Dev) (s : Nat) : Dev :=
  if 2 ≤ d.unitFences s then d.fenceStack s
  else if d.get F.hbmStatus_STATE s = 3 then d else d.put F.hbmStatus_STATE 2 s

/-- A pseudo-channel is fenced (03 R128, R129). -/
def Dev.fencePc (d : Dev) (s pc : Nat) : Dev :=
  if bit (d.get F.hbmPcFenced_FENCED s) pc then d
  else
    let d := (d.putBit F.hbmPcFenced_FENCED pc true s).note 0x2020 (locStack s)
    let d := d.ledgerChange (fun l => { l with pcFenced := l.pcFenced ++ [(s, pc)] })
    (d.retire (d.topEntry s)).unitFenced s

/-- An HBM core die is fenced (03 R132). -/
def Dev.fenceCoreDie (d : Dev) (s k : Nat) : Dev :=
  if bit (d.get F.hbmStatus_DIE_FENCED s) k then d
  else
    let d := (d.putBit F.hbmStatus_DIE_FENCED k true s).note 0x2021 (locStack s)
    let d := d.ledgerChange (fun l => { l with coreFenced := l.coreFenced ++ [(s, k)] })
    ((d.dieEntries s k).foldl (fun d r => d.retire r) d).unitFenced s

/-! ### Arbiters (05 R192 to R196, 03 R106) -/

/-- The key of an arbiter. -/
def bankKey : BankId → Nat
  | .localMem t b => 32 * t + b
  | .warehouse k b => 100000 + 64 * k + b
  | .pool s pc => 200000 + 64 * s + pc
  | .cranes k b => 300000 + 64 * k + b

/-- An arbiter. -/
def Dev.arb (d : Dev) (b : BankId) : Arb := tget .new d.arbs (bankKey b)

/-- The highest-numbered request (05 R192). -/
def topRequest : List ArbRequest → Option ArbRequest
  | [] => none
  | r :: rest => match topRequest rest with
    | none => some r
    | some q => if q.input < r.input then some r else some q

/-- The cycles that a granted request holds after its first; none for an open burst (05 R194). -/
def burstAfter : Burst → Option Nat
  | .single => some 0
  | .length n => some (n - 1)
  | .openEnded => none

/-- The grant of this cycle, and the cycles it still holds after it. A burst in progress goes on; an open
one is in its last cycle when its requester no longer `keeps` it (log entry 222). A chosen request takes
its slot if its requester still keeps it, and leaves the slot empty otherwise (05 R193, R194). -/
def Arb.granted (a : Arb) (keeps : Bool) : Option ArbRequest × Option Nat :=
  match a.grantee, a.left with
  | some r, none => (some r, if keeps then none else some 0)
  | some r, some (n + 1) => (some r, some n)
  | _, _ => match a.chosen with
    | some r => if keeps then (some r, burstAfter r.burst) else (none, some 0)
    | none => (none, some 0)

/-- The turn hints of a cycle, to every requesting input that is not the grantee (05 R195). -/
def hintsOf (g : Option ArbRequest) (left : Option Nat) (reqs : List ArbRequest) : List (Nat × Nat) :=
  let opened := match g with | some r => decide (r.burst = Burst.openEnded) | none => false
  (reqs.filter (fun r => (g.map (·.input)) != some r.input)).map (fun r =>
    (r.input, if opened then 63 else min 63 (left.getD 0 + 1 + (reqs.filter (fun (q : ArbRequest) => r.input < q.input)).length)))

/-- One cycle of an arbiter, with the requests for a new grant present in it: its grant, its hints and,
when no burst goes on, the decision for the next cycle. A grant of more than 65,536 cycles ends and its
requester is due for reset (05 R192 to R196). -/
def Arb.cycle (a : Arb) (reqs : List ArbRequest) (keeps : Bool) : Arb :=
  let (g, left) := a.granted keeps
  let held := match g with
    | none => 0
    | some _ => if a.grantee.isSome && a.left ≠ some 0 then a.held + 1 else 1
  let beyond := decide (65536 < held)
  let left := if beyond then some 0 else left
  { grantee := g, left := left, held := held, chosen := if left = some 0 then topRequest reqs else none,
    hints := hintsOf g left reqs, due := if beyond then g else a.due }

/-- The arbiter input of a requester at a warehouse bank (03 R106). -/
def Dev.warehouseInput (d : Dev) (deck : Nat) : Requester → Nat
  | .tile t => let p := d.physDie (t / 32); if p / 6 = deck then p % 6 + 2 else 0
  | .crane k _ => if k = deck then 1 else 0
  | _ => 0

/-- Whether an input of a local-memory bank is one of the requester's (05 R197): 4 to 1 are the matrix
unit, the vector engine, the gangs and the control core of the tile itself. -/
def localInput (t : Nat) (r : Requester) (input : Nat) : Bool :=
  match r with
  | .tile u => if u = t then decide (1 ≤ input ∧ input ≤ 4) else input == 0
  | _ => input == 0

/-- Whether an input of a pseudo-channel is one of the requester's (10 R378): 3 is the stack's far-atomic
unit, 1 and 0 its own complex's waves and scrub, 2 everything that arrives from the deck. -/
def poolInput (s : Nat) (r : Requester) (input : Nat) : Bool :=
  input == 3 || (if r = .wharf s then decide (input ≤ 1) else input == 2)

/-- A crane's kind is its input in front of its deck's warehouse banks (09 R343). -/
def craneInput (deck : Nat) (r : ArbRequest) : Bool :=
  match r.req with
  | .crane k kind => k == deck && r.input == kind && decide (kind < 8)
  | _ => false

/-- An arbiter runs one cycle. -/
def Dev.arbCycle (d : Dev) (b : BankId) (reqs : List ArbRequest) (keeps : Bool) : Dev :=
  { d with arbs := tset .new d.arbs (bankKey b) ((d.arb b).cycle reqs keeps) }

/-! ### Requesters of failed accesses (03 R95, R110, R119; 11 R445; 13 R491) -/

/-- What a requester whose access at `va` failed meets: its item or its launch ends and a host core takes an
access fault. W3 of an item's FAIL_HW is 0, of a launch's the VA (03 R110; 11 R444). -/
def Dev.failReq (d : Dev) (r : Requester) (item : Option (Nat × Nat)) (va : W64) (e : AccErr) (code : Nat) (write : Bool) : Dev :=
  let st := accStatus e
  let d := match item with
    | some (ring, i) => match d.item? ring i with
      | some it => d.itemFault ring i it.reached st (if st = 0x13 then 0 else va.toNat)
      | none => d
    | none => match r with
      | .tile t => match d.launchOn t with
        | some l => (d.failLaunch l.ring l.index st va.toNat).killCtx l.ctx code
        | none => d
      | _ => d
  match r with
  | .hart _ => d.answer (if write then .storeFault else .loadFault)
  | _ => d.answer .error

/-- The memory code of an access error. -/
def accCode (pa : Nat) : AccErr → Nat
  | .unmapped => 0x2040
  | .dieWindow => 0x2041
  | .isolated => 0x3001
  | .retired => 0x2042
  | .poison => if pa < 2 ^ 40 then 0x2002 else 0x2003

/-- Perform one access at the unit that holds its address (03 R95, R110, R116 to R121): `ecc` is what
the level-2 check of a read finds. -/
def Dev.access (d : Dev) (a : PhysAccess) : Dev :=
  match a.write with
  | some bs =>
    let d := (d.touch a.pa).meetWrite a.pa bs.length
    match d.writePa a.pa bs with
    | .ok d => d.answer (.ok 0)
    | .error e => (d.logAcc e (d.locReq a.req)).failReq a.req a.item a.va e (accCode a.pa e) true
  | none =>
    let d := d.reach a.pa a.len
    let d := match d.paErr a.pa a.len with
      | some _ => d
      | none => match a.ecc with
        | .clean => d
        | .corrected => d.noteCorrected a.pa
        | .uncorrectable => d.notePoison a.pa
    match d.readPa a.pa a.len with
    | .ok bs => d.answer (.data bs)
    | .error e => (d.logAcc e (d.locReq a.req)).failReq a.req a.item a.va e (accCode a.pa e) false

/-- A requester makes register accesses and accesses to the host spaces elsewhere (03 R95). -/
def ownSpace (r : Requester) (pa : Nat) : Bool :=
  match r with
  | .hart _ => match space pa with | .regs _ => true | .host => true | _ => false
  | _ => false

/-- An access at an arbitrated unit: one that no unit answers fails at once (03 R95, R110, R135); at its
bank, the arbiter runs one cycle, and the access is performed when the grant is its own (`mine`) and waits
otherwise. -/
def Dev.atBank (d : Dev) (b : BankId) (here : Bool) (reqs : List ArbRequest)
    (mine : ArbRequest → Bool) (a : PhysAccess) : Dev :=
  if ownSpace a.req a.pa then d
  else if (d.paErr a.pa a.len).isSome then d.access a
  else if !here then d
  else
    let d := d.arbCycle b reqs a.keeps
    match (d.arb b).grantee with
    | some r => if mine r && r.req == a.req && r.item == a.item then d.access a
      else d.answer (.arb (some r.input) (d.arb b).hints)
    | none => d.answer (.arb none (d.arb b).hints)

/-- The requests that a pseudo-channel's arbiter considers in a cycle: on a throttled stack the deck interface's
do not count in a cycle of its own grant, so it is granted in at most every second one (10 R378, 15 R585). -/
def Dev.poolRequests (d : Dev) (st pc : Nat) (keeps : Bool) (reqs : List ArbRequest) : List ArbRequest :=
  let rest := (tget .new d.hbmStacks st).throttled && (((d.arb (.pool st pc)).granted keeps).1.map (·.input)) == some 2
  reqs.filter (fun r => poolInput st r.req r.input && !(rest && r.input == 2))

/-- POOL_ACCESS (03 R99; 10 R378): one cycle of a pseudo-channel's arbiter, and the access when it is
granted. -/
def execPoolAccess (a : PhysAccess) (s : State) : Out :=
  actUp s fun d =>
    let (st, l) := stackOf d.interleave a.pa
    d.atBank (.pool st (pcOf l)) (decide (a.pa < 2 ^ 40)) (d.poolRequests st (pcOf l) a.keeps a.reqs)
      (fun r => r.input != 3) a

/-- The address of an access lies in a warehouse bank (03 R105). -/
def inWarehouseBank (deck bank pa : Nat) : Bool :=
  match space pa with
  | .warehouse k off => k == deck && off / 256 % 64 == bank
  | _ => false

/-- The address of an access lies in a local-memory bank (05 R189). -/
def inLocalBank (t bank pa : Nat) : Bool :=
  match space pa with
  | .localMem u off => u == t && off / 64 % 32 == bank
  | _ => false

/-- WAREHOUSE_ACCESS (03 R105, R106; 09 R343): one cycle of the arbiter of the deck's crane kinds, whose
grantee requests at input 1, and one of the bank's; the access is performed when its requester holds the
bank, and waits otherwise. -/
def execWarehouseAccess (deck bank : Nat) (cranes : List ArbRequest) (a : PhysAccess) (s : State) : Out :=
  actUp s fun d => if deck < 8 && bank < 64 then
    let here := inWarehouseBank deck bank a.pa
    let cs := cranes.filter (craneInput deck)
    let still := match (d.arb (.cranes deck bank)).chosen with | some r => cs.any (fun q => q.input == r.input) | none => false
    let d := if here then d.arbCycle (.cranes deck bank) cs still else d
    let first := match (d.arb (.cranes deck bank)).grantee with | some r => [{ r with input := 1 }] | none => []
    let rest := a.reqs.filter (fun r => r.input != 1 && decide (d.warehouseInput deck r.req = r.input))
    d.atBank (.warehouse deck bank) here (first ++ rest) (fun _ => true) a
  else d

/-- LOCAL_MEMORY_ACCESS (05 R197, R198): one cycle of a bank's arbiter; the access of an input is performed
when its requester holds the grant there, and waits otherwise. -/
def execLocalMemoryAccess (t bank input : Nat) (a : PhysAccess) (s : State) : Out :=
  actUp s fun d => if t < 1408 && bank < 32 && localInput t a.req input then
    d.atBank (.localMem t bank) (inLocalBank t bank a.pa) (a.reqs.filter (fun r => localInput t r.req r.input))
      (fun r => r.input == input) a
  else d

/-- The context whose work a requester carries (05 R196). -/
def Dev.ctxOfWork (d : Dev) (r : Requester) (item : Option (Nat × Nat)) : Option Nat :=
  match item with
  | some (ring, i) => (d.item? ring i).map (·.ctx)
  | none => match r with
    | .tile t => (d.launchOn t).map (·.ctx)
    | _ => none

/-! ### Sparing and scrub -/

/-- A row needs sparing: an uncorrectable error marked in it, or three
corrected errors within 24 hours (03 R125). -/
def needsSparing (now : Nat) (mine : Nat → Bool) (marks : List Nat) (corrected : List (Nat × Nat)) : Bool :=
  marks.any mine || decide (3 ≤ (corrected.filter (fun e => mine e.1 && decide (now < e.2 + dayNs))).length)

/-- The 2 MiB pages that hold a line of an HBM row, ascending (03 R127). -/
def rowPages (s row firstPa : Nat) : List Nat :=
  let ps := firstPa / 2 ^ 21 :: (Config.rowLines s row firstPa).map (· / 2 ^ 21)
  ((ps.map (fun p => (p, 1))).foldl (fun t e => tset 0 t e.1 e.2) []).map (·.1)

/-- ROW_SPARE (03 R125 to R127): a row is copied into a spare row of its bank; with none left its pages
are retired, or a warehouse row is recorded and left in place. -/
def execRowSpare (row : RowId) (s : State) : Out :=
  actUp s fun d =>
    match row with
    | .warehouse k b r =>
      let mine := fun u => inWarehouseBank k b u && Config.rowOf u == r
      if k < 8 && b < 64 && needsSparing d.now mine (tget .new d.decks k).marks (tget .new d.decks k).corrected then
        let used := (d.ledger.data.whRows.filter (fun x => x.1 == 64 * k + b)).length
        let d := d.modDeck k (fun x => { x with marks := x.marks.filter (fun u => !mine u), corrected := x.corrected.filter (fun e => !mine e.1) })
        if used < 8 then
          let d := d.ledgerChange (fun l => { l with whRows := l.whRows ++ [(64 * k + b, r)] })
          (d.addSat F.dckWhStatus_ROWS_SPARED 1 k).note 0x2010 (locDeck k) [(4, 7 - used)]
        else d.addSat F.dckWhStatus_ROWS_UNSPARED 1 k
      else d
    | .hbm st r left first =>
      if st < 16 && first < 2 ^ 40 && needsSparing d.now (fun u => Config.rowOf u == r) (tget .new d.hbmStacks st).marks (tget .new d.hbmStacks st).corrected then
        let d := d.modStack st (fun x => { x with
        marks := x.marks.filter (fun u => Config.rowOf u != r), corrected := x.corrected.filter (fun e => Config.rowOf e.1 != r) })
        if 0 < left then (d.addSat F.hbmErrCount_ROWS_SPARED 1 st).note 0x2010 (locStack st) [(4, left - 1)]
        else (rowPages st r first).foldl (fun d p => d.retire { pending := false, reason := 1, count := 1, first := p }) d
      else d

/-- The scrub period of a unit in ns; 0 disables it (03 R122). -/
def Dev.scrubNs (d : Dev) : ScrubUnit → Nat
  | .stack s => d.get F.hbmScrubCfg_PERIOD_H s * 3600 * 10 ^ 9
  | .warehouse k => d.get F.dckWhScrubCfg_PERIOD_MIN k * 60 * 10 ^ 9
  | .localMem t => d.get F.dckWhScrubCfg_PERIOD_MIN (d.deckOfDie (t / 32)) * 60 * 10 ^ 9

/-- An address a unit's scrub reads. -/
def Dev.inScrub (d : Dev) (u : ScrubUnit) (pa : Nat) : Bool :=
  match u, space pa with
  | .stack s, .pool => d.stackOfPa pa == s
  | .warehouse k, .warehouse j _ => j == k
  | .localMem t, .localMem j _ => j == t
  | _, _ => false

/-- What an uncorrectable line found by patrol scrub adds to the pass: a pseudo-channel with eight is
fenced, and so is a core die when three pseudo-channels have errors and all lie on it
(03 R128, R132). -/
def Dev.passError (d : Dev) (s pa : Nat) : Dev :=
  let l := (stackOf d.interleave pa).2
  let d := d.modStack s (fun x => { x with passErrors := x.passErrors ++ [(pcOf l, coreDieOf l)] })
  let es := (tget .new d.hbmStacks s).passErrors
  let d := if 8 ≤ (es.filter (fun e => e.1 == pcOf l)).length then d.fencePc s (pcOf l) else d
  let pcs := (es.foldl (fun t e => tset 0 t e.1 1) ([] : List (Nat × Nat))).length
  if 3 ≤ pcs && es.all (fun e => e.2 == coreDieOf l) then d.fenceCoreDie s (coreDieOf l) else d

end Sys2Proof.Machine
end

