-- ==== Sys2Proof/Machine/Tally.lean ====
section
/-! DEFINITION. Tally accumulation (04 R166 to R185, R704): phase sub-sums, products, evaluation,
T128 elements, anchor records and tally addition. -/
namespace Sys2Proof.Machine

/-- One tally output: four phase sub-sums and its two flags (04 R167). -/
structure Tal where
  s0 : Int := 0
  s1 : Int := 0
  s2 : Int := 0
  s3 : Int := 0
  poison : Bool := false
  overflow : Bool := false
  deriving DecidableEq, Repr, Inhabited

/-- Add into a sub-sum, saturating at 128 bits (04 R173). -/
def sat128 (a b : Int) : Int × Bool :=
  let s := a + b
  if (2 ^ 127 : Int) ≤ s then (2 ^ 127 - 1, true)
  else if s < -(2 ^ 127 : Int) then (-(2 ^ 127), true)
  else (s, false)

/-- Add an integer into sub-sum `p`. -/
def Tal.addAt (t : Tal) (p : Nat) (n : Int) : Tal :=
  match p with
  | 0 => let r := sat128 t.s0 n; { t with s0 := r.1, overflow := t.overflow || r.2 }
  | 1 => let r := sat128 t.s1 n; { t with s1 := r.1, overflow := t.overflow || r.2 }
  | 2 => let r := sat128 t.s2 n; { t with s2 := r.1, overflow := t.overflow || r.2 }
  | _ => let r := sat128 t.s3 n; { t with s3 := r.1, overflow := t.overflow || r.2 }

/-- The integer a value P adds at anchor A: ⌊P · 2^(100−A)⌋ (04 R168). -/
def tallyInt (p : QR) (a : Int) : Int := (p.shift (100 - a)).floorInt

/-- Add a product n · 2^(q/4) at anchor A (04 R166 to R169). -/
def Tal.product (t : Tal) (a n q : Int) : Tal :=
  if n = 0 then t
  else
    let p := (q % 4).toNat
    t.addAt p (tallyInt ((QR.ofInt n).shift (q / 4)) a)

/-- Add an exact dyadic value at phase 0 (04 R171). -/
def Tal.dyadic (t : Tal) (a : Int) (v : FV) : Tal :=
  match v with
  | .fin x _ => if x.sign = 0 then t else t.addAt 0 (tallyInt x a)
  | _ => { t with poison := true }

/-- A binary64 value by nearest even. -/
def b64 (v : FV) : FV := fpF64.decode (fpF64.rne v)

/-- The constants C[0] to C[3] of 04 R177. -/
def tallyC (p : Nat) : FV :=
  fpF64.decode ([0x3FF0000000000000, 0x3FF306FE0A31B715, 0x3FF6A09E667F3BCD, 0x3FFAE89F995AD3AD].getD p 0)

/-- The value v of a tally at anchor A (04 R177). -/
def Tal.value (t : Tal) (a : Int) : FV :=
  let y (p : Nat) (s : Int) : FV := b64 ((b64 (.of (QR.ofInt s))).mul (tallyC p))
  let r := b64 ((y 3 t.s3).add (y 2 t.s2))
  let r := b64 (r.add (y 1 t.s1))
  let r := b64 (r.add (y 0 t.s0))
  match r with
  | .fin x nz => .fin (x.shift (a - 100)) nz
  | v => v

/-- Evaluate a tally to an output format under an output scale (04 R177 to R179). -/
def Tal.evaluate (t : Tal) (a : Int) (f bias s : Nat) (m : Mode) (flush : Bool) : Enc :=
  if t.poison then encodeScaled f bias s m flush true .nan
  else
    let e := encodeScaled f bias s m flush false (t.value a)
    { e with sat := e.sat || t.overflow }

/-- Bytes of a sub-sum. -/
def sub128 (s : Int) : List Byte := leBytes 16 (ofInt 128 s)

/-- The 64 bytes of a T128 element, or the 16 of a single-phase one (04 R181). -/
def Tal.bytes (t : Tal) (phases1 : Bool) : List Byte :=
  if phases1 then sub128 t.s0 else sub128 t.s0 ++ sub128 t.s1 ++ sub128 t.s2 ++ sub128 t.s3

/-- A sub-sum from bytes. -/
def int128 (bs : List Byte) : Int := toInt 128 (leNat (bs.take 16))

/-- A T128 element from its bytes, with its flags from the anchor record. -/
def Tal.ofBytes (bs : List Byte) (phases1 poison overflow : Bool) : Tal :=
  if phases1 then { s0 := int128 bs, poison := poison, overflow := overflow }
  else { s0 := int128 bs, s1 := int128 (bs.drop 16), s2 := int128 (bs.drop 32), s3 := int128 (bs.drop 48),
         poison := poison, overflow := overflow }

/-- Export: a single-phase export of an element with higher sub-sums sets its overflow bit
(04 R183). -/
def Tal.exported (t : Tal) (phases1 : Bool) : Tal :=
  if phases1 && (t.s1 ≠ 0 || t.s2 ≠ 0 || t.s3 ≠ 0) then { t with overflow := true } else t

/-- An anchor record (04 R182): anchor, poison bits, overflow bits. -/
structure Anchor where
  a : Int
  poison : Nat
  overflow : Nat
  deriving DecidableEq, Repr, Inhabited

/-- The 16 bytes of an anchor record for a run of `n` elements (04 R182, R704). -/
def Anchor.bytes (r : Anchor) (n : Nat) : List Byte :=
  leBytes 2 (ofInt 16 r.a) ++ [0, 0] ++ leBytes 4 (r.poison % 2 ^ n) ++ leBytes 4 (r.overflow % 2 ^ n) ++ [0, 0, 0, 0]

/-- An anchor record from its bytes for a run of `n` elements (04 R182, R704). -/
def Anchor.ofBytes (bs : List Byte) (n : Nat) : Anchor :=
  { a := toInt 16 (leNat (bs.take 2)), poison := leNat ((bs.drop 4).take 4) % 2 ^ n,
    overflow := leNat ((bs.drop 8).take 4) % 2 ^ n }

/-- An anchor in range (04 R176). -/
def anchorOk (a : Int) : Bool := decide (-160 ≤ a ∧ a ≤ 160)

/-- Tally addition of equal anchors (04 R184). -/
def Tal.plus (x y : Tal) : Tal :=
  let r := ((((x.addAt 0 y.s0).addAt 1 y.s1).addAt 2 y.s2).addAt 3 y.s3)
  { r with poison := x.poison || y.poison, overflow := r.overflow || y.overflow }

/-- Tally addition of `y` into the accumulating `x` (04 R184, R185). -/
def Tal.join (x : Tal) (ax : Int) (y : Tal) (ay : Int) : Tal :=
  if ax = ay then x.plus y else { x with poison := true }

/-- Whether an output counts as saturated when it is written as T128 (04 R165). -/
def Tal.counts (t : Tal) : Bool := t.poison || t.overflow

end Sys2Proof.Machine
end

