-- ==== Sys2Proof/Machine/Atomics.lean ====
section
/-! DEFINITION. Atomic and reduce operations at memory: the warehouse bank units (03 R107 to R109) and
the far-atomic units of the stacks (10 R404, R405, R408). -/
namespace Sys2Proof.Machine

/-- The floating format of an atomic's width. -/
def atFmt (wide : Bool) : FpFmt := if wide then fpF64 else fpF32

/-- The result of an atomic on values of 32 or 64 bits (10 R404, 03 R107). -/
def atomicNew (op : AtomicOp) (wide : Bool) (old x cmp : Nat) : Nat := amoNew op (if wide then 8 else 4) old x cmp

/-- Float minimum or maximum with NaN ignored (03 R107); NaN when both are. -/
def atomicFloat (isMax wide : Bool) (old x : Nat) : Nat :=
  let p := atFmt wide
  p.rne (fvMinMax isMax (p.decode old) (p.decode x))

/-- Read `size` bytes, compute and write back as one indivisible operation (03 R109, 10 R405); a
poisoned unit is answered and nothing is performed (03 R119). `again` marks a turn of a combined operation that
has reached the unit already (08 R329). -/
def Dev.atomicAt (d : Dev) (pa size : Nat) (shared : Bool) (f : Nat → Nat) (again : Bool := false) : Except AccErr (Dev × Nat) :=
  let d := if shared && pa < 2 ^ 40 then d.cohDrop (pa / 64) else d
  match d.readPa pa size with
  | .error e => .error e
  | .ok bs =>
    match d.writePa pa (leBytes size (f (leNat bs))) with
    | .error e => .error e
    | .ok d =>
      let d := if pa < 2 ^ 40 && !again then d.addWrap F.whfAtomicCount_OPS 1 (d.stackOfPa pa) else d
      .ok (d, leNat bs)

/-- An atomic command at its unit: alignment, what the check of the read finds, then the operation; the
old value is answered when `returns` holds (03 R107, R108; 10 R404, R405). -/
def Dev.atomicCmd (d : Dev) (a : AtomicReq) (size : Nat) (returns : Bool) (f : Nat → Nat) : Dev :=
  if a.pa % size ≠ 0 then d.answer .error
  else
    let d := (d.touch a.pa).meet a.pa size
    let d := match d.paErr a.pa size with
      | some _ => d
      | none => match a.ecc with
        | .clean => d
        | .corrected => d.noteCorrected a.pa
        | .uncorrectable => d.notePoison a.pa
    match d.atomicAt a.pa size a.shared f with
    | .ok (d, old) => d.answer (.ok (BitVec.ofNat 64 (if returns then old else 0)))
    | .error e => (d.logAcc e (d.locReq a.req)).failReq a.req a.item a.va e (accCode a.pa e) true

/-- Bytes of an atomic's operand. -/
def atSize (a : AtomicReq) : Nat := if a.wide then 8 else 4

/-- An operation of the far-atomic unit: it waits, with no effect, while a wave holds the line locked
(10 R382, R404, R405). -/
def Dev.farOp (d : Dev) (a : AtomicReq) (op : AtomicOp) : Dev :=
  if 2 ^ 40 ≤ a.pa || d.lockedLine a.pa then d
  else d.atomicCmd a (atSize a) true (fun old => atomicNew op a.wide old a.operand.toNat a.compare.toNat)

/-- The address lies in a warehouse window (03 R107); in its unbacked part the operation fails
(03 R95). -/
def inWarehouse (pa : Nat) : Bool := decide (0x10000000000 ≤ pa ∧ pa < 0x10100000000)

/-- An operation of a warehouse bank unit (03 R107). -/
def Dev.whOp (d : Dev) (a : AtomicReq) (op : AtomicOp) : Dev :=
  if inWarehouse a.pa then
    d.atomicCmd a (atSize a) true (fun old => atomicNew op a.wide old a.operand.toNat a.compare.toNat)
  else d

/-- FAR_ADD (10 R404). -/
def execFarAdd (a : AtomicReq) (s : State) : Out := actUp s fun d => d.farOp a .add
/-- FAR_FADD (10 R404). -/
def execFarFadd (a : AtomicReq) (s : State) : Out := actUp s fun d => d.farOp a .fadd
/-- FAR_MIN (10 R404). -/
def execFarMin (a : AtomicReq) (s : State) : Out := actUp s fun d => d.farOp a .min
/-- FAR_MAX (10 R404). -/
def execFarMax (a : AtomicReq) (s : State) : Out := actUp s fun d => d.farOp a .max
/-- FAR_MINU (10 R404). -/
def execFarMinu (a : AtomicReq) (s : State) : Out := actUp s fun d => d.farOp a .minu
/-- FAR_MAXU (10 R404). -/
def execFarMaxu (a : AtomicReq) (s : State) : Out := actUp s fun d => d.farOp a .maxu
/-- FAR_AND (10 R404). -/
def execFarAnd (a : AtomicReq) (s : State) : Out := actUp s fun d => d.farOp a .and
/-- FAR_OR (10 R404). -/
def execFarOr (a : AtomicReq) (s : State) : Out := actUp s fun d => d.farOp a .or
/-- FAR_XOR (10 R404). -/
def execFarXor (a : AtomicReq) (s : State) : Out := actUp s fun d => d.farOp a .xor
/-- FAR_SWAP (10 R404). -/
def execFarSwap (a : AtomicReq) (s : State) : Out := actUp s fun d => d.farOp a .swap
/-- FAR_CAS (10 R404). -/
def execFarCas (a : AtomicReq) (s : State) : Out := actUp s fun d => d.farOp a .cas

/-- WAREHOUSE_ADD (03 R107). -/
def execWarehouseAdd (a : AtomicReq) (s : State) : Out := actUp s fun d => d.whOp a .add
/-- WAREHOUSE_FADD (03 R107). -/
def execWarehouseFadd (a : AtomicReq) (s : State) : Out := actUp s fun d => d.whOp a .fadd

/-- WAREHOUSE_MIN_MAX (03 R107): signed or unsigned integers, or floats with NaN ignored. -/
def execWarehouseMinMax (op : MinMaxOp) (a : AtomicReq) (s : State) : Out :=
  actUp s fun d => match op with
    | .min => d.whOp a .min
    | .max => d.whOp a .max
    | .minu => d.whOp a .minu
    | .maxu => d.whOp a .maxu
    | .fmin => if inWarehouse a.pa then
        d.atomicCmd a (atSize a) true (fun old => atomicFloat false a.wide old (a.operand.toNat % 2 ^ (8 * (atSize a)))) else d
    | .fmax => if inWarehouse a.pa then
        d.atomicCmd a (atSize a) true (fun old => atomicFloat true a.wide old (a.operand.toNat % 2 ^ (8 * (atSize a)))) else d

/-- WAREHOUSE_AND_OR_XOR (03 R107). -/
def execWarehouseAndOrXor (op : BitOp) (a : AtomicReq) (s : State) : Out :=
  actUp s fun d => match op with
    | .and => d.whOp a .and
    | .or => d.whOp a .or
    | .xor => d.whOp a .xor

/-- WAREHOUSE_SWAP (03 R107). -/
def execWarehouseSwap (a : AtomicReq) (s : State) : Out := actUp s fun d => d.whOp a .swap
/-- WAREHOUSE_CAS (03 R107). -/
def execWarehouseCas (a : AtomicReq) (s : State) : Out := actUp s fun d => d.whOp a .cas

/-- The reduce-add of an H16 or F32 element into a resident one, RNE (03 R107). -/
def raddNew (h16 : Bool) (old x : Nat) : Nat :=
  let p := if h16 then fpH16 else fpF32
  p.rne ((p.decode (old % 2 ^ (if h16 then 16 else 32))).add (p.decode (x % 2 ^ (if h16 then 16 else 32))))

/-- RADD_H16_F32 (03 R107): no value returns. -/
def execRaddH16F32 (a : AtomicReq) (s : State) : Out :=
  actUp s fun d => if inWarehouse a.pa then
    d.atomicCmd a (if a.h16 then 2 else 4) false (fun old => raddNew a.h16 old a.operand.toNat) else d

/-- The saturating 128-bit addition of a sub-sum (03 R107, 04 R173). -/
def radd128 (old x : Nat) : Nat := ofInt 128 (sat128 (toInt 128 old) (toInt 128 x)).1

/-- RADD_T128 (03 R107): no value returns; the sub-sum added comes as two words. -/
def execRaddT128 (a : AtomicReq) (hi lo : W64) (s : State) : Out :=
  actUp s fun d => if inWarehouse a.pa then
    d.atomicCmd a 16 false (fun old => radd128 old (hi ++ lo).toNat) else d

end Sys2Proof.Machine
end

