-- ==== Sys2Proof/Machine/Operands.lean ====
section
/-! DEFINITION. The operand forms of ring descriptors (11 R425 to R440, R475): fields of W0 to W7,
flags, reserved fields, and the verdict a descriptor gets at its release. -/
namespace Sys2Proof.Machine

/-- A field of a descriptor word. -/
def Item.f (it : Item) (k hi lo : Nat) : Nat := bits (it.w k) hi lo

/-- A bit of a descriptor word. -/
def Item.b (it : Item) (k i : Nat) : Bool := bit (it.w k) i

/-- TAG. -/
def Item.tag (it : Item) : Nat := it.f 0 63 32
/-- FENCE_BEFORE. -/
def Item.fenceBefore (it : Item) : Bool := it.b 0 8
/-- WB_BEFORE. -/
def Item.wbBefore (it : Item) : Bool := it.b 0 9
/-- TIDE_CLOSING. -/
def Item.closingFlag (it : Item) : Bool := it.b 0 10
/-- IRQ. -/
def Item.irq (it : Item) : Bool := it.b 0 11
/-- ORDERED. -/
def Item.ordered (it : Item) : Bool := it.b 0 12

/-- Descriptor type codes (11 R426). -/
def tFence : Nat := 1
def tLaunchTiles : Nat := 2
def tLaunchGangs : Nat := 3
def tMove : Nat := 4
def tInline : Nat := 5
def tCrane : Nat := 6
def tWharf : Nat := 7
def tCollective : Nat := 8
def tSignal : Nat := 9
def tWait : Nat := 10
def tHint : Nat := 11
def tMaint : Nat := 12
def tSegInval : Nat := 13
def tRemote : Nat := 14

/-- START, W1 [63:32] of the types that have one (11 R433, R436; 09 R339, 10 R389). -/
def Item.startPos (it : Item) : Nat :=
  if [tMove, tCrane, tWharf, tMaint, tRemote].contains it.typ then it.f 1 63 32 else 0

/-- The types that run on engines, in slices (02 R75). -/
def Item.sliced (it : Item) : Bool := [tMove, tCrane, tWharf, tCollective, tRemote, tMaint].contains it.typ

/-- A launch. -/
def Item.isLaunch (it : Item) : Bool := it.typ == tLaunchTiles || it.typ == tLaunchGangs

/-- What the checks at an item's first release decide (11 R421, R439, R440, R457, R475). -/
inductive Verdict where
  | denied
  | invalid
  | empty
  | fail (status detail : Nat)
  /-- It runs; its last position. -/
  | run (last : Nat)
  deriving DecidableEq, Repr

/-- Every listed field (word, high bit, low bit) is zero. -/
def Item.zeros (it : Item) (fs : List (Nat × Nat × Nat)) : Bool := fs.all (fun f => it.f f.1 f.2.1 f.2.2 == 0)

/-- Words `k` and later are zero. -/
def Item.zeroFrom (it : Item) (k : Nat) : Bool := (rangeFrom k (8 - k)).all (fun i => it.w i == 0)

/-- The reserved fields of W0 are zero (11 R425, R427). -/
def Item.w0ok (it : Item) : Bool := it.zeros [(0, 31, 25), (0, 15, 13)]

/-- The logical clusters a launch names, ascending (11 R432). -/
def Item.launchClusters (it : Item) : List Nat :=
  (List.range 176).filter (fun lc => bit (it.w (4 + lc / 64)) (lc % 64))

/-- The logical tiles a launch names, ascending (11 R432). -/
def Item.launchTiles (it : Item) : List Nat :=
  it.launchClusters.flatMap (fun lc => ((List.range 8).filter (fun i => bit (it.f 3 39 32) i)).map (8 * lc + ·))

/-- BUDGET. -/
def Item.budget (it : Item) : Nat := it.f 3 31 0

/-- The event a SIGNAL or WAIT names. -/
def Item.event (it : Item) : Nat := it.f 1 11 0

/-- The owner of an event's block (11 R429, R459). -/
def Dev.eventOwner (d : Dev) (e : Nat) : Nat :=
  bits (d.reg .hmEventOwner (e / 128)).toNat (8 * (e / 16 % 8) + 7) (8 * (e / 16 % 8))

/-- The value of an event. -/
def Dev.event (d : Dev) (e : Nat) : W64 := tget 0 d.events e

/-- Set an event. -/
def Dev.setEvent (d : Dev) (e : Nat) (v : W64) : Dev := { d with events := tset 0 d.events e v }

/-- The small types' own checks (11 R436 to R440, R457, R476). -/
def Dev.smallVerdict (d : Dev) (it : Item) : Verdict :=
  let evDenied := it.ctx ≠ 0 && it.ctx ≠ d.eventOwner it.event
  match it.typ with
  | 1 => if it.w0ok && it.zeros [(1, 63, 1)] && it.zeroFrom 2 then .run 0 else .invalid
  | 5 =>
    if !(it.w0ok && it.zeros [(2, 63, 6)]) || 40 < it.f 2 5 0 then .invalid
    else if it.f 2 5 0 = 0 then .empty
    else if it.w 1 / 64 ≠ (it.w 1 + it.f 2 5 0 - 1) / 64 then .invalid else .run 0
  | 9 =>
    if evDenied then .denied
    else if it.w0ok && it.zeros [(1, 63, 17), (1, 15, 12)] && it.zeroFrom 3 then .run 0 else .invalid
  | 10 =>
    if evDenied then .denied
    else if it.w0ok && it.zeros [(1, 63, 12)] && it.zeroFrom 3 then .run 0 else .invalid
  | 11 => if it.w0ok && it.zeros [(1, 63, 32), (1, 7, 4)] && it.f 1 3 0 ≤ 3 && it.zeroFrom 2 then .run 0 else .invalid
  | 13 =>
    if it.ctx ≠ 0 then .denied
    else if !(it.w0ok && it.zeros [(1, 63, 23)] && it.zeroFrom 4) then .invalid
    else if it.b 1 22 then (if it.f 1 21 8 = 0 then .empty else .run 0)
    else if it.w 2 % 2 ^ 21 ≠ 0 || it.w 3 % 2 ^ 21 ≠ 0 then .invalid
    else if it.f 1 21 8 = 0 || it.w 3 = 0 then .empty else .run 0
  | _ => .invalid

/-- A launch's own checks at the cut and the release (02 R70, 08 R309, 11 R432, R440, R457): its
reserved fields, G, PEND, budget and the empty cases. -/
def Item.launchVerdict (it : Item) (cap : Nat) : Verdict :=
  let g := it.f 3 45 40
  let k := it.f 6 57 48
  if !(it.w0ok && it.zeros [(3, 63, 46), (6, 63, 58)] && it.w 7 == 0) then .invalid
  else if it.budget = 0 || cap < it.budget then .invalid
  else if it.typ == tLaunchTiles && (g ≠ 0 || k ≠ 0) then .invalid
  else if it.typ == tLaunchGangs && (32 < g || (4 < g && 0x100000 < k * 0x400 + g * 0x4400)) then .invalid
  else if it.launchTiles.isEmpty then .empty
  else if it.typ == tLaunchGangs && g = 0 then .empty
  else .run 0

end Sys2Proof.Machine
end

