-- ==== Sys2Proof/Machine/Xlat.lean ====
section
/-! DEFINITION. Translation through a context's segments (12 R461 to R473, R701): descriptors, pages,
the translation caches, the checks in their order, and what a failed check leaves. -/
namespace Sys2Proof.Machine

/-- The number of a translation cache. -/
def holderKey : Holder → Nat
  | .cluster lc => lc
  | .crane k c => 1000 + 8 * k + c
  | .wharf s => 2000 + s
  | .pier p => 3000 + p
  | .harbourmaster => 4000

/-- Descriptors and page entries a translation cache holds (12 R470). -/
def holderSize : Holder → Nat × Nat
  | .cluster _ => (16, 512)
  | .crane _ _ => (8, 64)
  | .wharf _ => (8, 64)
  | .pier _ => (16, 128)
  | .harbourmaster => (32, 256)

/-- A translation cache. -/
def Dev.xl (d : Dev) (h : Holder) : Xlat := tget .new d.xlat (holderKey h)

/-- Change a translation cache. -/
def Dev.modXl (d : Dev) (h : Holder) (f : Xlat → Xlat) : Dev :=
  { d with xlat := tset .new d.xlat (holderKey h) (f (d.xl h)) }

/-- Word `k` of a descriptor. -/
def SegEntry.w (e : SegEntry) (k : Nat) : Nat := (e.dw.getD k 0).toNat

/-- PAGED. -/
def SegEntry.paged (e : SegEntry) : Bool := bit (e.w 1) 40
/-- LIMIT in granules. -/
def SegEntry.limit (e : SegEntry) : Nat := bits (e.w 1) 19 0
/-- BASE as a physical address. -/
def SegEntry.base (e : SegEntry) : Nat := bits (e.w 0) 40 21 * 2 ^ 21
/-- PT_BASE as a physical address. -/
def SegEntry.ptBase (e : SegEntry) : Nat := bits (e.w 2) 51 12 * 2 ^ 12

/-- A range lies entirely within one of the regions a segment may name (12 R465). -/
def segRange (base len : Nat) : Bool :=
  decide (base + len ≤ 2 ^ 40) ||
  (List.range 8).any (fun k => decide (warehouseBase k ≤ base ∧ base + len ≤ warehouseBase k + 0x18000000)) ||
  decide (0x10100000000 ≤ base ∧ base + len ≤ 0x10158000000)

/-- A descriptor is valid (12 R465). -/
def SegEntry.valid (e : SegEntry) : Bool :=
  let w0 := e.w 0
  let w1 := e.w 1
  let w2 := e.w 2
  decide (bits w0 63 41 = 0 ∧ bits w0 20 0 = 0 ∧ bits w1 63 56 = 0 ∧ bits w1 51 50 = 0 ∧
    bits w1 47 44 = 0 ∧ bits w1 39 36 = 0 ∧ bits w1 31 20 = 0 ∧ bits w2 63 52 = 0 ∧
    bits w2 11 0 = 0 ∧ e.w 3 = 0) &&
  (match bits w1 49 48 with
    | 0 => decide (bits w1 55 52 = 0)
    | 1 => decide (bits w1 55 52 < 8)
    | 2 => true
    | _ => false) &&
  (if e.paged then decide (e.ptBase + 8 * e.limit ≤ 2 ^ 40)
   else decide (bits w2 51 12 = 0) && segRange e.base (e.limit * 2 ^ 21))

/-- A range lies in the parts a PLACEMENT covers (12 R465). -/
def Dev.placed (d : Dev) (placement index base len : Nat) : Bool :=
  if len = 0 then true else
  let i := d.interleave
  let per := (64 - i) * gib
  let lin := 16 * i * gib
  let within := fun lo hi => decide (lo ≤ base ∧ base + len ≤ hi)
  let deck := if placement = 1 then index else index / 2
  let onDeck := within (warehouseBase deck) (warehouseBase deck + 0x18000000) ||
    (within 0x10100000000 0x10158000000 &&
      (rangeFrom ((base - 0x10100000000) / 0x2000000)
        ((base + len - 1 - 0x10100000000) / 0x2000000 - (base - 0x10100000000) / 0x2000000 + 1)).all
        (fun ld => d.deckOfDie ld == deck))
  match placement with
  | 0 => true
  | 1 => within (lin + 2 * index * per) (lin + (2 * index + 2) * per) || onDeck
  | _ => within (lin + index * per) (lin + (index + 1) * per) || onDeck

/-- Data is found outside its PLACEMENT deck group (12 R465). -/
def Dev.misplaced (d : Dev) (e : SegEntry) (page base len : Nat) : Dev :=
  let p := bits (e.w 1) 49 48
  if e.valid && !d.placed p (bits (e.w 1) 55 52) base len then
    (d.modCtx e.ctx (fun c => { c with misplaced := min 0xFFFF (c.misplaced + 1) })).note 0x6204 0
      [(1, e.ctx), (1, e.seg), (8, page)]
  else d

/-- Put an entry in a list of at most `n`; a full list gives one up (12 R470). -/
def putEntry {α : Type} (n victim : Nat) (l : List α) (e : α) : List α :=
  if l.length < n then l ++ [e] else (l.eraseIdx (victim % n)) ++ [e]

/-- Why a translation yields no address: the fault-record CAUSE (12 R484), the status an item takes,
and the memory error behind it. A poisoned table (12 R701) is no failed check. -/
structure XFail where
  cause : Nat
  status : Nat
  acc : Option AccErr
  deriving DecidableEq, Repr

/-- The failure of reading a translation table (12 R701). -/
def tableFail (e : AccErr) : XFail :=
  match e with
  | .poison => ⟨0, 0x18, some .poison⟩
  | .dieWindow => ⟨5, 0x13, some e⟩
  | .isolated => ⟨5, 0x13, some e⟩
  | _ => ⟨5, 0x10, some e⟩

/-- Load a segment descriptor into a translation cache (12 R461, R462, R465, R701). -/
def Dev.loadSeg (d : Dev) (h : Holder) (ctx seg : Nat) : Dev × Except XFail SegEntry :=
  let a := d.get F.segCtxTableBase_BASE * 4096 + 512 * ctx + 32 * seg
  let d := d.look a 32
  match d.hubRead a 32 with
  | .error e => (d, .error (tableFail e))
  | .ok bs =>
    let e : SegEntry := { ctx := ctx, seg := seg,
                          dw := (List.range 4).map (fun i => BitVec.ofNat 64 (leNat ((bs.drop (8 * i)).take 8))) }
    let d1 := (d.modXl h (fun x => { x with
      segs := putEntry (holderSize h).1 (Config.xlatVictim d.fresh)
        (x.segs.filter (fun s => !(s.ctx == ctx && s.seg == seg && !s.stale))) e })).draw
    let d2 := if e.valid then d1 else d1.note 0x6202 0 [(1, ctx), (1, seg)]
    let d3 := if e.valid && !e.paged then d2.misplaced e e.base e.base (e.limit * 2 ^ 21) else d2
    (d3, .ok e)

/-- The descriptor an access uses: the one held, or else loaded. -/
def Dev.segOf (d : Dev) (h : Holder) (ctx seg : Nat) : Dev × Except XFail SegEntry :=
  match (d.xl h).segs.find? (fun s => s.ctx == ctx && s.seg == seg && !s.stale) with
  | some e => (d, .ok e)
  | none => d.loadSeg h ctx seg

/-- Walk one page entry and hold it when it is present and valid (12 R467 to R469, R701). -/
def Dev.walk (d : Dev) (h : Holder) (e : SegEntry) (page : Nat) : Dev × Except XFail W64 :=
  let d := (d.addWrap F.segWalkStatus_WALKS 1).look (e.ptBase + 8 * page) 8
  match d.hubRead (e.ptBase + 8 * page) 8 with
  | .error x => (d, .error (tableFail x))
  | .ok bs =>
    let w := leNat bs
    let word := BitVec.ofNat 64 w
    if !bit w 0 then (d, .error ⟨3, 0x11, none⟩)
    else if bits w 63 52 ≠ 0 || bits w 20 5 ≠ 0 then (d, .error ⟨2, 0x10, none⟩)
    else
      let d1 := (d.modXl h (fun x => { x with
        pages := putEntry (holderSize h).2 (Config.xlatVictim d.fresh)
          (x.pages.filter (fun p => !(p.ctx == e.ctx && p.seg == e.seg && p.page == page && !p.stale)))
          { ctx := e.ctx, seg := e.seg, page := page, word := word } })).draw
      let pa := bits w 51 21 * 2 ^ 21
      (d1.misplaced e pa pa (2 ^ 21), .ok word)

/-- The page entry an access uses: the one held, or else walked. -/
def Dev.pageOf (d : Dev) (h : Holder) (e : SegEntry) (page : Nat) : Dev × Except XFail W64 :=
  match (d.xl h).pages.find? (fun p => p.ctx == e.ctx && p.seg == e.seg && p.page == page && !p.stale) with
  | some p => (d, .ok p.word)
  | none => d.walk h e page

/-- Permission bits R, W, X, A at positions of a word; kinds: 1 read, 2 write, 3 fetch, 4 atomic
(12 R471). -/
def permitted (kind w r wr x a : Nat) : Bool :=
  match kind with
  | 1 => bit w r
  | 2 => bit w wr
  | 3 => bit w x
  | _ => bit w r && bit w wr && bit w a

/-- A translated address and the attributes that act on it (12 R464). -/
structure XOk where
  pa : Nat
  hostShared : Bool
  nocache : Bool
  stream : Bool
  deriving DecidableEq, Repr

/-- Translate an access of `len` bytes within one page through segments 0x0 to 0xD: the four checks
in order (12 R471). -/
def Dev.translate (d : Dev) (h : Holder) (ctx : Nat) (va : W64) (len kind : Nat) :
    Dev × Except XFail XOk :=
  let v := va.toNat
  let seg := v / 2 ^ 60
  let off := v % 2 ^ 60
  let g := off / 2 ^ 21
  match d.segOf h ctx seg with
  | (d, .error e) => (d, .error e)
  | (d, .ok e) =>
    if !e.valid then (d, .error ⟨2, 0x10, none⟩)
    else if e.limit ≤ g then (d, .error ⟨1, 0x10, none⟩)
    else
      let fin := fun (d : Dev) (pa : Nat) (ok : Bool) =>
        if !ok then (d, .error ⟨4, 0x10, none⟩)
        else match d.paErr pa len with
          | some x => (d, .error ⟨5, accStatus x, some x⟩)
          | none =>
            let pool := decide (pa < 2 ^ 40)
            (d, .ok ⟨pa, pool && bit (e.w 1) 41, pool && bit (e.w 1) 42, pool && bit (e.w 1) 43⟩)
      let p1 := permitted kind (e.w 1) 32 33 34 35
      if e.paged then
        match d.pageOf h e g with
        | (d, .error x) => (d, .error x)
        | (d, .ok w) =>
          fin d (bits w.toNat 51 21 * 2 ^ 21 + off % 2 ^ 21) (p1 && permitted kind w.toNat 1 2 3 4)
      else fin d (e.base + off) p1

/-- Log a failed check and update the context's fault record (12 R473). -/
def Dev.checkFailed (d : Dev) (ctx : Nat) (va : W64) (loc kind : Nat) (x : XFail) : Dev :=
  if x.cause = 0 then d else
  let d := if x.cause = 3 then d.note 0x6203 loc [(8, va.toNat), (2, loc), (1, ctx)]
    else d.note 0x6201 loc [(8, va.toNat), (2, loc), (1, ctx), (1, x.cause)]
  let d := match x.acc with
    | some e => d.logAcc e loc
    | none => d
  d.modCtx ctx (fun c =>
    let i := c.faultInfo.toNat
    if bit i 63 then { c with faultInfo := BitVec.ofNat 64 (setBits i 47 32 (min 0xFFFF (bits i 47 32 + 1))) }
    else { c with
      faultVa := va
      faultInfo := BitVec.ofNat 64 (2 ^ 63 + 2 ^ 32 + loc % 2 ^ 16 * 2 ^ 16 + kind % 16 * 2 ^ 12 + x.cause % 16 * 2 ^ 8
        + va.toNat / 2 ^ 60 * 16) })

/-- Translate for a DMA-class engine or the harbourmaster: segments 0xE and 0xF give FAIL_SEGMENT
(11 R412), and a failed check is logged (12 R472, R473). -/
def Dev.xlate (d : Dev) (h : Holder) (ctx : Nat) (va : W64) (len kind : Nat) :
    Dev × Except XFail XOk :=
  if 14 ≤ va.toNat / 2 ^ 60 then (d, .error ⟨0, 0x10, none⟩)
  else match d.translate h ctx va len kind with
    | (d, .ok r) => (d, .ok r)
    | (d, .error x) => (d.checkFailed ctx va (d.locHolder h) kind x, .error x)

/-- An access error met after translation, as a failure (03 R95, R119). -/
def accFail (e : AccErr) : XFail := ⟨0, accStatus e, some e⟩

/-- Read up to a 64-byte line for a DMA-class engine: coherently through the hub for a HOST_SHARED
segment or the harbourmaster, directly otherwise (03 R113, R114; 11 R411; 12 R464). -/
def Dev.dmaRead (d : Dev) (h : Holder) (ctx : Nat) (va : W64) (len : Nat) : Dev × Except XFail (List Byte) :=
  match d.xlate h ctx va len 1 with
  | (d, .error x) => (d, .error x)
  | (d, .ok r) =>
    let d := d.touch r.pa
    let d := if r.hostShared || holderKey h = 4000 then d.look r.pa len else d.meet r.pa len
    match (if r.hostShared || holderKey h = 4000 then d.hubRead r.pa len else d.readPa r.pa len) with
    | .ok bs => (d, .ok bs)
    | .error e => (d, .error (accFail e))

/-- Write up to a 64-byte line for a DMA-class engine (12 R464, 03 R114, R121). -/
def Dev.dmaWrite (d : Dev) (h : Holder) (ctx : Nat) (va : W64) (bs : List Byte) : Dev × Except XFail Unit :=
  match d.xlate h ctx va bs.length 2 with
  | (d, .error x) => (d, .error x)
  | (d, .ok r) =>
    let d := d.meetWrite r.pa bs.length
    match (if r.hostShared || holderKey h = 4000 then d.hubWrite r.pa bs else d.writePa r.pa bs) with
    | .ok d => (d, .ok ())
    | .error e => (d, .error (accFail e))

/-- The pieces of a byte range at 64-byte lines: address and length. -/
def pieces (va len : Nat) : List (Nat × Nat) :=
  if len = 0 then [] else
  (rangeFrom (va / 64) ((va + len - 1) / 64 - va / 64 + 1)).map (fun l =>
    let lo := max va (64 * l)
    (lo, min (va + len) (64 * l + 64) - lo))

/-- Read a byte range for a DMA-class engine; a failure names the address it met. -/
def Dev.dmaReadN (d : Dev) (h : Holder) (ctx : Nat) (va len : Nat) : Dev × Except (XFail × Nat) (List Byte) :=
  (pieces va len).foldl (fun acc p =>
    match acc with
    | (d, .error e) => (d, .error e)
    | (d, .ok bs) => match d.dmaRead h ctx (BitVec.ofNat 64 p.1) p.2 with
      | (d, .ok b) => (d, .ok (bs ++ b))
      | (d, .error x) => (d, .error (x, p.1))) (d, .ok [])

/-- Write a byte range for a DMA-class engine. -/
def Dev.dmaWriteN (d : Dev) (h : Holder) (ctx : Nat) (va : Nat) (bs : List Byte) : Dev × Except (XFail × Nat) Unit :=
  (pieces va bs.length).foldl (fun acc p =>
    match acc with
    | (d, .error e) => (d, .error e)
    | (d, .ok ()) => match d.dmaWrite h ctx (BitVec.ofNat 64 p.1) ((bs.drop (p.1 - va)).take p.2) with
      | (d, .ok ()) => (d, .ok ())
      | (d, .error x) => (d, .error (x, p.1))) (d, .ok ())

/-- Check that a range can be written before any of it is (12 R474, 03 R121): translation, and poison
under a partial write. -/
def Dev.probeWrite (d : Dev) (h : Holder) (ctx va len : Nat) : Dev × Except (XFail × Nat) Unit :=
  (pieces va len).foldl (fun acc p =>
    match acc with
    | (d, .error e) => (d, .error e)
    | (d, .ok ()) => match d.xlate h ctx (BitVec.ofNat 64 p.1) p.2 2 with
      | (d, .error x) => (d, .error (x, p.1))
      | (d, .ok r) =>
        let d := d.meetWrite r.pa p.2
        if d.mem.writeRefused r.pa p.2 || (decide (r.pa < 2 ^ 40) && d.fencedAt r.pa) then (d, .error (accFail .poison, p.1))
        else (d, .ok ())) (d, .ok ())

/-- Write a byte range all or none for a DMA-class engine (11 R442, 12 R474): a unit that cannot be written whole
is not written in part. -/
def Dev.dmaPut (d : Dev) (h : Holder) (ctx : Nat) (va : Nat) (bs : List Byte) : Dev × Except (XFail × Nat) Unit :=
  match d.probeWrite h ctx va bs.length with
  | (d, .ok ()) => d.dmaWriteN h ctx va bs
  | (d, .error x) => (d, .error x)

/-- SEGMENT_DESCRIPTOR_LOAD (12 R462): a translation cache that does not hold a descriptor reads it
through the hub. -/
def execSegmentDescriptorLoad (holder : Holder) (ctx seg : Nat) (s : State) : Out :=
  actUp s fun d => if ctx < 256 && seg < 14 then
      match (d.xl holder).segs.find? (fun e => e.ctx == ctx && e.seg == seg && !e.stale) with
      | some _ => d
      | none => match d.loadSeg holder ctx seg with
        | (d, .ok _) => d
        | (d, .error x) => d.checkFailed ctx (BitVec.ofNat 64 (seg * 2 ^ 60)) (d.locHolder holder) 1 x
    else d

/-- PAGE_WALK (12 R469): a walker reads the page entry a translation cache missed on. -/
def execPageWalk (holder : Holder) (ctx seg page : Nat) (s : State) : Out :=
  actUp s fun d => if ctx < 256 && seg < 14 then
      let va := BitVec.ofNat 64 (seg * 2 ^ 60 + page * 2 ^ 21)
      match d.segOf holder ctx seg with
      | (d, .error x) => d.checkFailed ctx va (d.locHolder holder) 1 x
      | (d, .ok e) =>
        if !e.valid || e.limit ≤ page || !e.paged then d
        else match d.pageOf holder e page with
          | (d, .ok _) => d
          | (d, .error x) => d.checkFailed ctx va (d.locHolder holder) 1 x
    else d

end Sys2Proof.Machine
end

