-- ==== Sys2Proof/Machine/Tc.lean ====
section
/-! DEFINITION. The transit cache of a cluster (13 R503 to R511, R702): write-backs, fills, loads and
stores of tiles through it, the streaming detector and the side buffer, way locking, and range
invalidation. -/
namespace Sys2Proof.Machine

/-- A cluster. -/
def Dev.cluster (d : Dev) (lc : Nat) : Cluster := tget .new d.clusters lc

/-- The resident line of a cluster's cache. -/
def Cluster.line? (c : Cluster) (line : Nat) : Option TcLine :=
  c.tc.find? (fun l => l.line == line && !l.empty)

/-- Replace the entry of a line. -/
def Cluster.setLine (c : Cluster) (line : Nat) (f : TcLine → TcLine) : Cluster :=
  { c with tc := c.tc.map (fun l => if l.line == line then f l else l) }

/-- The runs of ones in the low `n` bits of a mask: first bit and length. -/
def maskRuns (mask : Nat) (n : Nat) : List (Nat × Nat) :=
  (List.range n).foldl (fun acc i =>
    if !bit mask i then acc
    else match acc.getLast? with
      | some r => if r.1 + r.2 = i then acc.dropLast ++ [(r.1, r.2 + 1)] else acc ++ [(i, 1)]
      | none => [(i, 1)]) []

/-- Write the bytes of a 64-byte line that a mask names (13 R504). A partial write onto a poisoned
line is refused (03 R121). -/
def Dev.writeMasked (d : Dev) (base : Nat) (bs : List Byte) (mask : Nat) (shared : Bool) : Except AccErr Dev :=
  if mask % 2 ^ 64 = 0 then .ok d
  else
    let d := if shared then d.cohDrop (base / 64) else d
    if mask % 2 ^ 64 = 2 ^ 64 - 1 then d.writeNow base bs
    else match d.paErr base 64 with
      | some e => .error e
      | none =>
        if d.poisonAt base 64 then .error .poison
        else (maskRuns mask 64).foldl (fun acc r =>
          match acc with
          | .ok d => d.writeNow (base + r.1) ((bs.drop r.1).take r.2)
          | .error e => .error e) (.ok d)

/-- A running launch of a context ends FAIL_UNCORRECTABLE; the VA behind the physical line is a free value
(11 R444, log entry 10). -/
def Dev.failOwner (d : Dev) (owner : Nat) : Dev :=
  let va := (Config.freeValue d.fresh).toNat
  (d.launches.filter (fun l => l.ctx = owner && l.start.isSome)).foldl
    (fun d l => d.failLaunch l.ring l.index 0x18 va) d.draw

/-- What a refused write-back leaves: the owner context is killed and a running launch of it fails
(13 R702). -/
def Dev.wbRefused (d : Dev) (lc pa owner : Nat) : Dev :=
  let d := d.note 0x2008 (d.locCluster lc) [(8, pa), (2, d.locCluster lc), (1, owner)]
  (d.failOwner owner).killCtx owner 0x2008

/-- Write back the dirty bytes of a line, half by half (13 R504, R702); the answer says whether a half
was refused. -/
def Dev.wbLine (d : Dev) (lc : Nat) (l : TcLine) : Dev × Bool :=
  (List.range 2).foldl (fun (acc : Dev × Bool) h =>
    let mask := l.dirty / 2 ^ (64 * h) % 2 ^ 64
    let base := l.line * 128 + 64 * h
    let acc := (if mask = 0 || mask = 2 ^ 64 - 1 then acc.1 else acc.1.meet base 64, acc.2)
    match acc.1.writeMasked base ((l.data.drop (64 * h)).take 64) mask l.shared with
    | .ok d => (d, acc.2)
    | .error .poison => (acc.1.wbRefused lc base l.owner, true)
    | .error e => (acc.1.logAcc e (acc.1.locCluster lc), acc.2)) (d, false)

/-- Write back every dirty line of a cluster and keep the lines clean (11 R453). -/
def Dev.wbCluster (d : Dev) (lc : Nat) : Dev × Bool :=
  (((d.cluster lc).tc.filter (fun l => l.dirty ≠ 0)).foldl (fun (acc : Dev × Bool) l =>
    let (d, r) := acc.1.wbLine lc l
    (d.modCluster lc (fun c => c.setLine l.line (fun x => { x with dirty := 0 })), acc.2 || r)) (d, false))

/-- Write back and invalidate the lines of a cluster that a test names; the way of a locked line stays
locked and empty (13 R508, R510). -/
def Dev.invalLines (d : Dev) (lc : Nat) (p : Nat → Bool) : Dev :=
  let hit := fun (l : TcLine) => p l.line && !l.empty
  let d := ((d.cluster lc).tc.filter (fun l => hit l && decide (l.dirty ≠ 0))).foldl (fun d l => (d.wbLine lc l).1) d
  d.modCluster lc (fun c => { c with
    tc := (c.tc.filter (fun l => !hit l || l.locked)).map (fun l =>
      if hit l then { l with empty := true, dirty := 0, data := [] } else l)
    side := c.side.filter (fun l => !p l.line) })

/-- Clear a cluster's cache whole: WB_BEFORE on a launch, unit resets and gating (11 R427). -/
def Dev.clearTc (d : Dev) (lc : Nat) : Dev := d.invalLines lc (fun _ => true)

/-- The number of logical clusters. -/
def clusterCount : Nat := 176

/-- The clusters that hold lines. -/
def Dev.tcClusters (d : Dev) : List Nat :=
  (d.clusters.filter (fun e => !e.2.tc.isEmpty || !e.2.side.isEmpty)).map (·.1)

/-- Every transit cache writes back and invalidates the lines of physical ranges (13 R508). -/
def Dev.invalRanges (d : Dev) (rs : List (Nat × Nat)) : Dev :=
  d.tcClusters.foldl (fun d lc => d.invalLines lc (fun line =>
    rs.any (fun r => decide (0 < r.2 ∧ r.1 / 128 ≤ line ∧ line ≤ (r.1 + r.2 - 1) / 128)))) d

/-- The physical ranges of a VA range of a context, page by page, as far as it translates; nothing is
logged for a part that does not (13 R508). -/
def Dev.vaRanges (d : Dev) (ctx va len : Nat) : List (Nat × Nat) :=
  if len = 0 then [] else
  (rangeFrom (va / 2 ^ 21) ((va + len - 1) / 2 ^ 21 - va / 2 ^ 21 + 1)).filterMap (fun g =>
    let lo := max va (g * 2 ^ 21)
    let hi := min (va + len) (g * 2 ^ 21 + 2 ^ 21)
    let seg := va / 2 ^ 60
    if 14 ≤ seg then none else
    let off := lo % 2 ^ 60
    match (d.segOf .harbourmaster ctx seg).2 with
    | .error _ => none
    | .ok e =>
      if !e.valid || e.limit ≤ off / 2 ^ 21 then none
      else if e.paged then
        match (d.pageOf .harbourmaster e (off / 2 ^ 21)).2 with
        | .ok w => some (bits w.toNat 51 21 * 2 ^ 21 + off % 2 ^ 21, hi - lo)
        | .error _ => none
      else some (e.base + off, hi - lo))

/-- A range invalidation of VA ranges of a context (13 R508). -/
def Dev.rangeInval (d : Dev) (ctx : Nat) (rs : List (Nat × Nat)) : Dev :=
  d.invalRanges (rs.flatMap (fun r => d.vaRanges ctx r.1 r.2))

/-- The physical ranges of a context's whole address space, as far as it translates (12 R481, 13 R508). -/
def Dev.ctxRanges (d : Dev) (ctx : Nat) : List (Nat × Nat) :=
  (List.range 14).flatMap (fun seg => match (d.segOf .harbourmaster ctx seg).2 with
    | .error _ => []
    | .ok e =>
      if !e.valid then []
      else if e.paged then (List.range e.limit).filterMap (fun g => match (d.pageOf .harbourmaster e g).2 with
        | .ok w => some (bits w.toNat 51 21 * 2 ^ 21, 2 ^ 21)
        | .error _ => none)
      else [(e.base, e.limit * 2 ^ 21)])

/-- A context's lines leave every transit cache: the lines of its address space, whoever owns them, and those
it owns (13 R508, 12 R481). -/
def Dev.invalOwner (d : Dev) (ctx : Nat) : Dev :=
  let d := d.invalRanges (d.ctxRanges ctx)
  d.tcClusters.foldl (fun d lc =>
    let mine := ((d.cluster lc).tc ++ (d.cluster lc).side).filterMap (fun l => if l.owner = ctx then some l.line else none)
    d.invalLines lc (fun line => mine.contains line)) d

/-! ### Fills -/

/-- Read 64 bytes for a fill: coherently through the hub when the segment is HOST_SHARED (13 R505). -/
def Dev.fillHalf (d : Dev) (shared : Bool) (pa : Nat) : Except AccErr (List Byte) :=
  if shared then d.hubRead pa 64 else d.readPa pa 64

/-- The lockable way a line of a latched lock range may take (13 R509). -/
def Cluster.inLock (c : Cluster) (ctx va : Nat) : Bool :=
  c.locks.any (fun r => r.2.2 == ctx && r.1 / 128 ≤ va / 128 && va / 128 < r.1 / 128 + r.2.1)

/-- Put a line into the cache, giving up a victim when its set is full (13 R503, R509, R510). -/
def Dev.allocate (d : Dev) (lc ctx va : Nat) (l : TcLine) : Dev :=
  let c := d.cluster lc
  let set := l.line % 256
  let inSet := c.tc.filter (fun x => x.line % 256 == set)
  match inSet.find? (fun x => x.line == l.line && x.empty) with
  | some e => d.modCluster lc (fun c => c.setLine l.line (fun _ => { l with way := e.way, locked := true }))
  | none =>
    let want := c.inLock ctx va
    let lockable := (List.range 8).filter (fun w => !(inSet.any (fun x => x.way == w && x.locked)))
    let lock := want && !lockable.isEmpty
    let d := if want && lockable.isEmpty then d.addSat F.cdTcStatus_LOCK_OVERFLOW 1 lc else d
    let ways := if lock then lockable else
      (List.range 16).filter (fun w => !(inSet.any (fun x => x.way == w && x.locked)))
    let free := ways.find? (fun w => !(inSet.any (fun x => x.way == w)))
    match free with
    | some w => d.modCluster lc (fun c => { c with tc := c.tc ++ [{ l with way := w, locked := lock }] })
    | none =>
      let w := match inSet.find? (fun x => x.next && ways.contains x.way) with
        | some x => x.way
        | none => ways.getD (Config.tcVictim d.fresh % ways.length) 0
      let d := d.draw
      match inSet.find? (fun x => x.way == w) with
      | none => d
      | some v =>
        let d := if v.dirty ≠ 0 then (d.wbLine lc v).1 else d
        d.modCluster lc (fun c => { c with
          tc := c.tc.filter (fun x => !(x.line == v.line)) ++ [{ l with way := w, locked := lock }] })

/-- The result of a miss fill (13 R505): the line is allocated, or its requested half failed, or the
other half did and the access goes to the home. -/
inductive FillRes where
  | done
  | home
  | failed (e : AccErr)
  deriving DecidableEq, Repr

/-- A miss fill of a line for an access at `pa` (13 R505); `next` makes it the next victim of its set
(12 R464). A line of a ring is never held (11 R411). -/
def Dev.fill (d : Dev) (lc ctx va pa : Nat) (shared next : Bool) : Dev × FillRes :=
  let line := pa / 128
  if d.ringLine line then (d, .home) else
  let d := if shared then d.look (line * 128) 128 else d.meet (line * 128) 128
  match d.fillHalf shared (line * 128), d.fillHalf shared (line * 128 + 64) with
  | .ok a, .ok b => (d.allocate lc ctx va { line := line, way := 0, data := a ++ b, owner := ctx, shared := shared, next := next }, .done)
  | .error e, .ok _ => (d, if pa % 128 < 64 then .failed e else .home)
  | .ok _, .error e => (d, if pa % 128 < 64 then .home else .failed e)
  | .error e, .error _ => (d, .failed e)

/-- A side-buffer line moves into the cache on its first demand access (13 R507). -/
def Dev.fromSide (d : Dev) (lc ctx va : Nat) (l : TcLine) (next : Bool) : Dev :=
  (d.modCluster lc (fun c => { c with side := c.side.filter (fun x => !(x.line == l.line)) })).allocate lc ctx va
    { l with owner := ctx, next := next }

/-- The prefetch of the next four lines into the side buffer after two ascending adjacent load misses,
within the 2 MiB page (13 R507). -/
def Dev.prefetch (d : Dev) (lc ctx t line : Nat) (shared : Bool) : Dev :=
  let last := (d.tile t).stream.lastMiss
  let d := d.modTile t (fun x => { x with stream := { x.stream with lastMiss := some line } })
  if last.map (· + 1) = some line then
    (rangeFrom (line + 1) 4).foldl (fun d l =>
      if l / 16384 ≠ line / 16384 || d.ringLine l || ((d.cluster lc).line? l).isSome || (d.cluster lc).side.any (fun x => x.line == l) then d
      else
      let d := if shared then d.look (l * 128) 128 else d.meet (l * 128) 128
      match d.fillHalf shared (l * 128), d.fillHalf shared (l * 128 + 64) with
        | .ok a, .ok b =>
          d.modCluster lc (fun c => { c with
            side := (if c.side.length < 32 then c.side else c.side.drop 1) ++
              [{ line := l, way := 0, data := a ++ b, owner := ctx, shared := shared }] })
        | _, _ => d) d
  else d

/-! ### Tile accesses to translated addresses -/

/-- A coherent or plain read at the home (12 R464). -/
def Dev.homeRead (d : Dev) (r : XOk) (len : Nat) : Except AccErr (List Byte) :=
  if r.hostShared then d.hubRead r.pa len else d.readPa r.pa len

/-- A coherent or plain write at the home (12 R464). -/
def Dev.homeWrite (d : Dev) (r : XOk) (bs : List Byte) : Except AccErr Dev :=
  if r.hostShared then d.hubWrite r.pa bs else d.writePa r.pa bs

/-- Bytes of a resident line. -/
def Dev.lineBytes (d : Dev) (lc pa len : Nat) : List Byte :=
  match (d.cluster lc).line? (pa / 128) with
  | some l => (l.data.drop (pa % 128)).take len
  | none => []

/-- A load of a tile within one 64-byte line (13 R503 to R507). -/
def Dev.tileRead (d : Dev) (t ctx va : Nat) (r : XOk) (len : Nat) : Dev × Except AccErr (List Byte) :=
  let lc := t / 8
  let line := r.pa / 128
  let seen := fun (d : Dev) => if r.hostShared then d.look r.pa len else d.meet r.pa len
  if 2 ^ 40 ≤ r.pa || r.nocache then (seen d, (seen d).homeRead r len)
  else match (d.cluster lc).line? line with
    | some _ => (d, .ok (d.lineBytes lc r.pa len))
    | none =>
      match (d.cluster lc).side.find? (fun x => x.line == line) with
      | some l =>
        let d := (d.fromSide lc ctx va l r.stream).prefetch lc ctx t line r.hostShared
        (d, .ok ((l.data.drop (r.pa % 128)).take len))
      | none =>
        match d.fill lc ctx va r.pa r.hostShared r.stream with
        | (d, .done) =>
          let bs := d.lineBytes lc r.pa len
          (d.prefetch lc ctx t line r.hostShared, .ok bs)
        | (d, .home) => (seen d, (seen d).homeRead r len)
        | (d, .failed e) => (d, .error e)

/-- Bytes `bs` placed at position `i` of a line's data. -/
def splice (data : List Byte) (i : Nat) (bs : List Byte) : List Byte :=
  data.take i ++ bs ++ data.drop (i + bs.length)

/-- The dirty mask of `n` bytes from byte `i`. -/
def byteMask (i n : Nat) : Nat := (2 ^ n - 1) * 2 ^ i

/-- Update a resident line with stored bytes; a store through a HOST_SHARED segment makes its write-back
coherent (12 R464). -/
def Dev.storeLine (d : Dev) (lc ctx pa : Nat) (shared : Bool) (bs : List Byte) : Dev :=
  d.modCluster lc (fun c => c.setLine (pa / 128) (fun l => { l with
    data := splice l.data (pa % 128) bs, dirty := l.dirty ||| byteMask (pa % 128) bs.length, owner := ctx,
    shared := l.shared || shared }))

/-- The streaming detector sees the line of a store before it is performed (13 R506). -/
def Stream.before (s : Stream) (line : Nat) : Stream :=
  if line = s.line then s
  else if line = s.line + 1 then
    { s with line := line, mask := 0, run := if s.mask = 2 ^ 128 - 1 then s.run else 0 }
  else { s with line := line, mask := 0, run := 0, engaged := false }

/-- The streaming detector counts a line written in full (13 R506). -/
def Stream.after (s : Stream) (m : Nat) : Stream :=
  let mask := s.mask ||| m
  if mask = 2 ^ 128 - 1 && s.mask ≠ 2 ^ 128 - 1 then
    { s with mask := mask, run := s.run + 1, engaged := s.engaged || decide (4 ≤ s.run + 1) }
  else { s with mask := mask }

/-- A store performed at its home. -/
def Dev.storeHome (d : Dev) (r : XOk) (bs : List Byte) : Dev × Except AccErr Unit :=
  let d := d.meetWrite r.pa bs.length
  match d.homeWrite r bs with
  | .ok d => (d, .ok ())
  | .error e => (d, .error e)

/-- A store to a cacheable line: it hits, moves a side-buffer line in, allocates, or is written around
while `around` holds (13 R503, R505 to R507). -/
def Dev.storeVia (d : Dev) (lc ctx va : Nat) (r : XOk) (bs : List Byte) (around : Bool) : Dev × Except AccErr Unit :=
  let line := r.pa / 128
  match (d.cluster lc).line? line with
  | some _ => (d.storeLine lc ctx r.pa r.hostShared bs, .ok ())
  | none =>
    match (d.cluster lc).side.find? (fun x => x.line == line) with
    | some l => ((d.fromSide lc ctx va l false).storeLine lc ctx r.pa r.hostShared bs, .ok ())
    | none =>
      if around then d.storeHome r bs
      else match d.fill lc ctx va r.pa r.hostShared false with
        | (d, .done) => (d.storeLine lc ctx r.pa r.hostShared bs, .ok ())
        | (d, _) => d.storeHome r bs

/-- A store of a tile within one 64-byte line (13 R503 to R507). -/
def Dev.tileWrite (d : Dev) (t ctx va : Nat) (r : XOk) (bs : List Byte) : Dev × Except AccErr Unit :=
  if 2 ^ 40 ≤ r.pa || r.nocache then d.storeHome r bs
  else
    let d := d.modTile t (fun x => { x with stream := x.stream.before (r.pa / 128) })
    match d.storeVia (t / 8) ctx va r bs ((d.tile t).stream.engaged || r.stream) with
    | (d, res) =>
      (d.modTile t (fun x => { x with stream := x.stream.after (byteMask (r.pa % 128) bs.length) }), res)

/-- A clean line, or one in the side buffer, has bad parity: it is dropped and counted (13 R511). -/
def Dev.parityClean (d : Dev) (lc line : Nat) : Dev :=
  let d := d.modCluster lc (fun c => { c with
    tc := c.tc.filter (fun (x : TcLine) => x.line != line), side := c.side.filter (fun (x : TcLine) => x.line != line) })
  (d.note 0x2005 (d.locCluster lc) [(8, line * 128), (2, d.locCluster lc)]).addSat F.cdTcStatus_PARITY_CLEAN 1 lc

/-- The bytes of the 16-byte chunks that a mask names. -/
def chunkBytes (chunks : Nat) : Nat :=
  ((List.range 8).filter (bit chunks)).foldl (fun m i => m ||| byteMask (16 * i) 16) 0

/-- A dirty line has bad parity, or a line an uncorrectable tag: dirty bytes with good parity are written
back, each home line under a bad dirty chunk is poisoned, and the owner is killed; with a bad tag so is
every context with a launch running on the cluster (13 R511). -/
def Dev.parityDirty (d : Dev) (lc : Nat) (l : TcLine) (e : TcErr) : Dev :=
  let bad := l.dirty &&& chunkBytes e.chunks
  let d := (d.wbLine lc { l with dirty := l.dirty ^^^ bad }).1
  let d := ((List.range 2).filter (fun h => bad / 2 ^ (64 * h) % 2 ^ 64 ≠ 0)).foldl
    (fun d h => d.notePoison (l.line * 128 + 64 * h)) d
  let d := d.modCluster lc (fun c => { c with tc := c.tc.filter (fun (x : TcLine) => x.line != l.line) })
  let d := d.note 0x2006 (d.locCluster lc) [(8, l.line * 128), (2, d.locCluster lc), (1, l.owner)]
  let d := d.addSat F.cdTcStatus_PARITY_DIRTY 1 lc
  let running := if e.tag then (d.launches.filter (fun x => x.start.isSome && x.clusters.contains lc)).map (·.ctx) else []
  (l.owner :: running).foldl (fun d c => (d.failOwner c).killCtx c 0x2006) d

/-- TRANSIT_FILL (13 R505, R511): a miss fill arrives and the line is allocated unless a half is poisoned;
STREAM makes it the next victim of its set. With an error found in a line that is held, it is the fill
that follows the error: a clean line is fetched again, a dirty one is lost. -/
def execTransitFill (lc line : Nat) (f : TcFill) (s : State) : Out :=
  actUp s fun d => if lc < clusterCount && line < 2 ^ 33 && f.ctx < 256 then
    match f.err, (d.cluster lc).line? line with
    | none, some _ => d
    | none, none => (d.fill lc f.ctx 0 (line * 128) f.shared f.stream).1
    | some e, some l =>
      if l.dirty = 0 && !e.tag then ((d.parityClean lc line).fill lc f.ctx 0 (line * 128) l.shared l.next).1
      else d.parityDirty lc l e
    | some _, none =>
      if (d.cluster lc).side.any (fun x => x.line == line) then
        ((d.parityClean lc line).fill lc f.ctx 0 (line * 128) f.shared f.stream).1
      else d
  else d

end Sys2Proof.Machine
end

