-- ==== Sys2Proof/Machine/Items.lean ====
section
/-! DEFINITION. Ring items in hand (11 R428 to R440, 02 R75 to R77): the released item a command acts
on, failures at a position, slices, and the small types that complete at their release. -/
namespace Sys2Proof.Machine

/-- Act on the released item of a ring and index, when there is one that a test accepts. -/
def Dev.onItem (d : Dev) (ring index : Nat) (p : Item → Bool) (f : Item → Dev) : Dev :=
  match d.item? ring index with
  | some it => if it.phase == .released && p it then f it else d
  | none => d

/-- W3 of a failed item: the fault VA for FAIL_SEGMENT, FAIL_PAGE and FAIL_UNCORRECTABLE, 0 otherwise
(11 R444). -/
def failDetail (status va : Nat) : Nat := if status = 0x10 || status = 0x11 || status = 0x18 then va else 0

/-- An item fails at a position with the failure an access met at a VA (12 R472, 03 R119, R110). -/
def Dev.xfail (d : Dev) (ring index pos : Nat) (x : XFail) (va : Nat) : Dev :=
  d.finishAt ring index x.status pos (failDetail x.status va)

/-- A slice has been carried out to its end (02 R76). -/
def Dev.sliceDone (d : Dev) (ring index : Nat) : Dev :=
  d.modItem ring index (fun it => { it with phase := .sliceDone })

/-- An item's counts of saturated and flushed outputs grow (04 R165). -/
def Dev.countItem (d : Dev) (ring index sat flushed : Nat) : Dev :=
  d.modItem ring index (fun it => { it with
    sat := min 0xFFFFFFFF (it.sat + sat), flushed := min 0xFFFFFFFF (it.flushed + flushed) })

/-- A VA lies in segment 0xE or 0xF (11 R412). -/
def vaLocal (va : Nat) : Bool := decide (14 ≤ va / 2 ^ 60)

/-- The first of an item's VAs that lies in segment 0xE or 0xF: FAIL_SEGMENT at position 0
(11 R412). -/
def segVerdict (vas : List Nat) : Option Verdict :=
  (vas.find? vaLocal).map (fun va => .fail 0x10 va)

/-- Translate without loading, logging or failing: where a VA lies, if its translation succeeds
(03 R104). -/
def Dev.peek (d : Dev) (ctx va : Nat) : Option (SegEntry × Nat) :=
  if vaLocal va then none else
  match (d.segOf .harbourmaster ctx (va / 2 ^ 60)).2 with
  | .error _ => none
  | .ok e =>
    let off := va % 2 ^ 60
    if !e.valid || e.limit ≤ off / 2 ^ 21 then none
    else if e.paged then
      match (d.pageOf .harbourmaster e (off / 2 ^ 21)).2 with
      | .ok w => some (e, bits w.toNat 51 21 * 2 ^ 21 + off % 2 ^ 21)
      | .error _ => none
    else some (e, e.base + off)

/-- The deck of a warehouse or stack-linear address; none for interleaved and other addresses
(03 R112, 09 R340). -/
def Dev.deckOfPa (d : Dev) (pa : Nat) : Option Nat :=
  match space pa with
  | .warehouse k _ => some k
  | .pool => if 16 * d.interleave * gib ≤ pa then some (d.stackOfPa pa / 2) else none
  | _ => none

/-- The deck a segment's PLACEMENT names (12 R464). -/
def SegEntry.placeDeck (e : SegEntry) : Option Nat :=
  match bits (e.w 1) 49 48 with
  | 1 => some (bits (e.w 1) 55 52)
  | 2 => some (bits (e.w 1) 55 52 / 2)
  | _ => none

/-- Work units, times 256, that an engine of a rate does in its part of the tide (02 R75, 09 R345). -/
def Dev.quantum (d : Dev) (rate : Nat) : Nat := rate * d.period * (256 - d.reserve)

/-- Bytes that an item's slice still has to do on its engine, of `k` bytes a position: of an item whose next
slice is not yet released, what one quantum of the rate allows, less where its last position is known
(03 R112; log entry 224). -/
def Dev.sliceBytes (d : Dev) (it : Item) (rate k : Nat) : Nat :=
  match it.phase with
  | .released => (it.sliceEnd - it.pos) * k
  | .between => min (d.quantum rate / 256) ((it.last - it.pos) * k)
  | .admitted => d.quantum rate / 256
  | _ => 0

/-- Words `k` of a parameter block. -/
def Item.p (it : Item) (k : Nat) : Nat := (it.params.getD k 0).toNat

/-- Read a parameter block of `n` bytes for an item, through the harbourmaster (11 R433, 09 R353,
10 R399). -/
def Dev.readParams (d : Dev) (it : Item) (va n : Nat) : Dev × Except (XFail × Nat) (List W64) :=
  match d.dmaReadN .harbourmaster it.ctx va n with
  | (d, .ok bs) => (d, .ok ((List.range (n / 8)).map (fun i => BitVec.ofNat 64 (leNat ((bs.drop (8 * i)).take 8)))))
  | (d, .error e) => (d, .error e)

/-- A BUSY crane is IDLE once it holds no slice (09 R376). -/
def Dev.craneIdle (d : Dev) (it : Item) : Dev :=
  if it.typ = tCrane && d.get F.dckCraneStatus_STATE it.engine = 1 &&
      !d.items.any (fun o => o.typ == tCrane && o.phase == .released && o.engine == it.engine) then
    d.put F.dckCraneStatus_STATE 0 it.engine
  else d

/-- SLICE_COMPLETE (02 R76): an engine finishes a slice and the progress position advances; the last
slice ends the item OK. -/
def execSliceComplete (ring index : Nat) (s : State) : Out :=
  actUp s fun d => match d.item? ring index with
    | some it =>
      if it.phase == .sliceDone then
        let d := if it.last ≤ it.sliceEnd then d.finishAt ring index 0 it.last
          else d.modItem ring index (fun it => { it with pos := it.sliceEnd, phase := .between })
        d.craneIdle it
      else d
    | none => d

/-- FENCE_RING (11 R437): a released FENCE with SCOPE 0 completes OK. -/
def execFenceRing (ring index : Nat) (s : State) : Out :=
  actUp s fun d => d.onItem ring index (fun it => it.typ == tFence && it.f 1 0 0 == 0) fun _ => d.finish ring index 0

/-- FENCE_CONTEXT (11 R437): a released FENCE with SCOPE 1 completes OK. -/
def execFenceContext (ring index : Nat) (s : State) : Out :=
  actUp s fun d => d.onItem ring index (fun it => it.typ == tFence && it.f 1 0 0 == 1) fun _ => d.finish ring index 0

/-- SIGNAL_ADD (11 R430): VALUE is added to the event modulo 2^64. -/
def execSignalAdd (ring index : Nat) (s : State) : Out :=
  actUp s fun d => d.onItem ring index (fun it => it.typ == tSignal && it.f 1 16 16 == 0) fun it =>
    (d.setEvent it.event (d.event it.event + BitVec.ofNat 64 (it.w 2))).finish ring index 0

/-- SIGNAL_SET (11 R430): VALUE is written to the event. -/
def execSignalSet (ring index : Nat) (s : State) : Out :=
  actUp s fun d => d.onItem ring index (fun it => it.typ == tSignal && it.f 1 16 16 == 1) fun it =>
    (d.setEvent it.event (BitVec.ofNat 64 (it.w 2))).finish ring index 0

/-- WAIT (11 R431): a released WAIT completes OK. -/
def execWait (ring index : Nat) (s : State) : Out :=
  actUp s fun d => d.onItem ring index (fun it => it.typ == tWait) fun _ => d.finish ring index 0

/-- The bytes an INLINE_WRITE carries (11 R436). -/
def Item.inlineData (it : Item) : List Byte :=
  ((rangeFrom 3 5).flatMap (fun k => leBytes 8 (it.w k))).take (it.f 2 5 0)

/-- INLINE_WRITE (11 R438): one indivisible write within a 64-byte line. -/
def execInlineWrite (ring index : Nat) (s : State) : Out :=
  actUp s fun d => d.onItem ring index (fun it => it.typ == tInline) fun it =>
    match d.dmaWrite .harbourmaster it.ctx (BitVec.ofNat 64 (it.w 1)) it.inlineData with
    | (d, .ok ()) => d.finish ring index 0
    | (d, .error x) => d.xfail ring index 0 x (it.w 1)

end Sys2Proof.Machine
end

