-- ==== Sys2Proof/Machine/Engine.lean ====
section
/-! DEFINITION. How cranes, wharf complexes and piers work through the units of an item: reads and
writes of an engine with the failure they meet, the loop over units, element access, and binary32
arithmetic by nearest even. -/
namespace Sys2Proof.Machine

/-- Why an engine's unit of work stops: an access failed at a VA, or its data is malformed. -/
inductive UErr where
  | acc (x : XFail) (va : Nat)
  | invalid
  deriving DecidableEq, Repr

/-- A computation of an engine on the device. -/
abbrev EM := ExceptT UErr (StateM Dev)

/-- Run a computation: the device it leaves and its result. -/
def EM.go {α : Type} (m : EM α) (d : Dev) : Dev × Except UErr α :=
  let r := m.run.run d
  (r.2, r.1)

/-- Lift an access of the device. -/
def EM.lift {α : Type} (f : Dev → Dev × Except (XFail × Nat) α) : EM α :=
  ExceptT.mk (fun d => match f d with
    | (d, .ok a) => (.ok a, d)
    | (d, .error (x, va)) => (.error (.acc x va), d))

/-- The device as it stands. -/
def EM.dev : EM Dev := ExceptT.mk (fun d => (.ok d, d))

/-- Change the device. -/
def EM.upd (f : Dev → Dev) : EM Unit := ExceptT.mk (fun d => (.ok (), f d))

/-- The engine of an item: its translation cache and context. -/
structure Eng where
  h : Holder
  ctx : Nat
  deriving DecidableEq, Repr

/-- Read bytes. -/
def Eng.rd (e : Eng) (va n : Nat) : EM (List Byte) := EM.lift (fun d => d.dmaReadN e.h e.ctx va n)

/-- Write bytes. -/
def Eng.wr (e : Eng) (va : Nat) (bs : List Byte) : EM Unit := EM.lift (fun d => d.dmaWriteN e.h e.ctx va bs)

/-- Check that a range can be written. -/
def Eng.probe (e : Eng) (va len : Nat) : EM Unit := EM.lift (fun d => d.probeWrite e.h e.ctx va len)

/-- A little-endian value of `n` bytes. -/
def Eng.nat (e : Eng) (va n : Nat) : EM Nat := do return leNat (← e.rd va n)

/-- The byte place of element `i` of a run with `bits` per element, from base `va` (04 R150); `i` may
be negative under a negative stride. -/
def elemPlace (va bits : Nat) (i : Int) : Nat × Nat × Nat :=
  if bits = 4 then (ofInt 64 (va + i / 2), 1, 4 * (i % 2).toNat)
  else if bits = 6 then (ofInt 64 (va + 3 * (i / 4)), 3, 6 * (i % 4).toNat)
  else (ofInt 64 (va + i * ((bits / 8 : Nat) : Int)), bits / 8, 0)

/-- Read the code of an element (04 R150). -/
def Eng.code (e : Eng) (va bits : Nat) (i : Int) : EM Nat := do
  let (a, n, s) := elemPlace va bits i
  return leNat (← e.rd a n) / 2 ^ s % 2 ^ bits

/-- The write that puts an element's code; a packed element keeps its neighbours (04 R150). -/
def Eng.putCode (e : Eng) (va bits : Nat) (i : Int) (c : Nat) : EM (Nat × List Byte) := do
  let (a, n, s) := elemPlace va bits i
  if bits = 4 || bits = 6 then
    let old := leNat (← e.rd a n)
    return (a, leBytes n (setBits old (s + bits - 1) s c))
  else return (a, leBytes n c)

/-- What a unit of work gives: its writes in order, and its counts (04 R165). -/
structure URes where
  writes : List (Nat × List Byte) := []
  sat : Nat := 0
  flushed : Nat := 0
  deriving DecidableEq, Repr, Inhabited

/-- The result of one encoded output. -/
def URes.of (w : Nat × List Byte) (e : Enc) : URes := ⟨[w], b2n e.sat, b2n e.flush⟩

/-- Two results in order. -/
def URes.and (a b : URes) : URes := ⟨a.writes ++ b.writes, a.sat + b.sat, a.flushed + b.flushed⟩

/-- Writes that continue one another are one write. -/
def mergeWrites : List (Nat × List Byte) → List (Nat × List Byte)
  | [] => []
  | w :: rest =>
    match mergeWrites rest with
    | [] => [w]
    | v :: vs => if w.1 + w.2.length = v.1 then (w.1, w.2 ++ v.2) :: vs else w :: v :: vs

/-- Perform a unit's writes, all or none. -/
def Eng.commit (e : Eng) (r : URes) : EM Unit := do
  let ws := mergeWrites r.writes
  ws.forM (fun w => e.probe w.1 w.2.length)
  ws.forM (fun w => e.wr w.1 w.2)

/-- An item ends with what its engine met at a position (12 R472, 09 R342, 03 R119). -/
def Dev.engFail (d : Dev) (it : Item) (pos : Nat) (e : UErr) : Dev :=
  match e with
  | .acc x va => d.xfail it.ring it.index pos x va
  | .invalid => d.finishAt it.ring it.index 0x16 pos

/-- One unit of work: it is computed and then written. -/
def Eng.unit (e : Eng) (f : Nat → EM URes) (u : Nat) : EM URes := do
  let r ← f u
  e.commit r
  return r

/-- Work through `n` units of `k` positions each from unit `u`; the first failure ends the item at its
position, and after the last comes `fin` (02 R77, 09 R348). -/
def Dev.engLoop (d : Dev) (it : Item) (e : Eng) (k : Nat) (f : Nat → EM URes) (fin : Dev → Dev) : Nat → Nat → Dev
  | 0, _ => fin d
  | n + 1, u =>
    match (e.unit f u).go d with
    | (d, .ok r) => (d.countItem it.ring it.index r.sat r.flushed).engLoop it e k f fin n (u + 1)
    | (d, .error x) => d.engFail it (k * u) x

/-- An item has reached a position within its slice (09 R348). -/
def Item.reach (it : Item) (p : Nat) : EM Unit :=
  EM.upd (fun d => d.modItem it.ring it.index (fun i => { i with pos := max i.pos p }))

/-- Try a computation: the failure it meets is its answer. -/
def EM.attempt {α : Type} (m : EM α) : EM (Except UErr α) :=
  tryCatch (do return .ok (← m)) (fun x => pure (.error x))

/-- Run the whole of an item's released slice at once; a failure ends the item at the position it has
reached. -/
def Dev.engRun (d : Dev) (it : Item) (m : EM URes) : Dev :=
  match m.go d with
  | (d, .ok r) => (d.countItem it.ring it.index r.sat r.flushed).sliceDone it.ring it.index
  | (d, .error x) => d.engFail it (((d.item? it.ring it.index).map (·.pos)).getD it.pos) x

/-- The context's data a set of bytes of undetermined content overwrites: an engine's scratch, whose
content the manual does not state. -/
def Eng.scribble (e : Eng) (va len : Nat) : EM Unit := do
  let d ← EM.dev
  let bs := (List.range len).map (fun i => BitVec.ofNat 8 (Config.freeValue (d.fresh + i)).toNat)
  EM.upd (fun d => { d with fresh := d.fresh + len })
  e.wr va bs

/-! ### Binary32 operations by nearest even (10 R400, 04 R148) -/

/-- A value of an F32 code. -/
def f32 (c : Nat) : FV := fpF32.decode c
def f32add (a b : Nat) : Nat := fpF32.rne ((f32 a).add (f32 b))
def f32sub (a b : Nat) : Nat := fpF32.rne ((f32 a).add (f32 b).negate)
def f32mul (a b : Nat) : Nat := fpF32.rne ((f32 a).mul (f32 b))
def f32div (a b : Nat) : Nat := fpF32.rne ((f32 a).div (f32 b))

/-- A value that rounds as √x does in any format of at most 60 bits of precision: ⌊√x · 2^k⌋ with a
sticky half. -/
def sqrtQR (x : QR) : QR :=
  let num := x.c0.toNat
  let k := 70 + x.den.log2
  let y := num * 2 ^ (2 * k) / x.den
  let n := isqrt (y.log2 / 2 + 1) y
  let sticky := b2n (n * n * x.den != num * 2 ^ (2 * k))
  ⟨Int.ofNat (2 * n + sticky), 0, 0, 0, 2 ^ (k + 1)⟩

/-- Square root of a rational value: −0 of −0, NaN below zero. -/
def FV.sqrt : FV → FV
  | .nan => .nan
  | .inf neg => if neg then .nan else .inf false
  | .fin x nz =>
    if x.sign = 0 then .fin x nz
    else if x.sign < 0 then .nan
    else .fin (sqrtQR x) false

def f32sqrt (a : Nat) : Nat := fpF32.rne (f32 a).sqrt

/-- An F32 code that is infinite. -/
def f32inf (c : Nat) : Bool := c % 2 ^ 31 == 0x7F800000
/-- An F32 code that is infinite or NaN. -/
def f32special (c : Nat) : Bool := decide (0x7F800000 ≤ c % 2 ^ 31)

end Sys2Proof.Machine
end

