-- ==== Sys2Proof/Machine/Ports.lean ====
section
/-! DEFINITION. Hawser ports (14 R519 to R542, R561): coordinates, message classes, the output of a port
with its credits and retry buffer, routing, port states, link failure and routing tables. -/
namespace Sys2Proof.Machine

/-! ### Coordinates (14 R519, R520) -/

/-- This node's id. -/
def Dev.node (d : Dev) : Nat := d.get F.hawNode_NODE
/-- Coordinate of a node in a dimension. -/
def coord (n k : Nat) : Nat := n / 32 ^ k % 32
/-- Size of a dimension. -/
def Dev.dimSize (d : Dev) (k : Nat) : Nat :=
  1 + (match k with | 0 => d.get F.hawNode_XM1 | 1 => d.get F.hawNode_YM1 | _ => d.get F.hawNode_ZM1)
/-- A node with another coordinate in a dimension. -/
def setCoord (n k c : Nat) : Nat := n - coord n k * 32 ^ k + c % 32 * 32 ^ k
/-- The neighbour of a node in a dimension, one higher or one lower. -/
def Dev.neighbour (d : Dev) (n k : Nat) (plus : Bool) : Nat :=
  let s := d.dimSize k
  setCoord n k (if plus then (coord n k + 1) % s else (coord n k + s - 1) % s)
/-- A node id lies in the torus. -/
def Dev.inTorus (d : Dev) (n : Nat) : Bool := (List.range 3).all (fun k => decide (coord n k < d.dimSize k))
/-- The port of a direction in a dimension (14 R520). -/
def portOf (k : Nat) (plus : Bool) : Nat := 2 * k + b2n plus

/-! ### Messages (14 R532, R533) -/

/-- Class of a message: 3 BEACON, 2 RESPONSE, 1 REQUEST, 0 BULK. -/
def msgClass : MsgBody → Nat
  | .put _ _ => 0
  | .getReq _ _ => 1
  | .getData _ _ _ => 2
  | .atomicReq _ _ _ _ _ => 1
  | .atomicResp _ _ _ => 2
  | .ack _ _ _ => 2
  | .openReq _ _ _ => 1
  | .openAck _ => 2
  | .close => 1
  | .collData _ _ _ _ _ _ _ => 0
  | .collSync _ _ _ _ _ _ _ _ => 1
  | .beacon _ _ _ => 3
  | .linkNotice _ _ => 3

/-- Data bytes a message carries: what a grant counts (14 R547, log entry 16). -/
def msgBytes : MsgBody → Nat
  | .put _ data => data.length
  | .getData data _ _ => data.length
  | .collData _ _ _ _ _ data anchors => data.length + anchors.length
  | _ => 0

/-- Flits of a message: at least one, 240 payload bytes each. -/
def msgFlits (b : MsgBody) : Nat := max 1 (cdiv (msgBytes b) 240)

/-! ### Port states (14 R531) -/

/-- State of a port. -/
def Dev.portState (d : Dev) (p : Nat) : Nat := d.get F.hawPortStatus_STATE p
/-- A port carries traffic. -/
def Dev.portUp (d : Dev) (p : Nat) : Bool := d.portState p == 4 || d.portState p == 5

/-- Messages discarded at a port are counted (14 R538, R540). -/
def Dev.discards (d : Dev) (p n : Nat) : Dev := d.addSat F.hawPortCounts_DISCARDS n p

/-! ### The output of a port (14 R523, R534) -/

/-- The credit place of a message. -/
def creditKey (m : LinkMsg) : Nat := 2 * msgClass m.body + m.vc

/-- Keep the newest flits sent, 4,096 at most (14 R523). -/
def keepRetry (room : Nat) : List (Nat × LinkMsg) → List (Nat × LinkMsg)
  | [] => []
  | m :: rest => if msgFlits m.2.body ≤ room then m :: keepRetry (room - msgFlits m.2.body) rest else []

/-- The message sent next: of the highest class that can send, the oldest that is first on its virtual channel
and has credits for all its flits (14 R534). -/
def Port.next (x : Port) : Option LinkMsg :=
  [3, 2, 1, 0].findSome? (fun c =>
    let ms := x.out.filter (fun m => msgClass m.body == c)
    ms.find? (fun m => decide (msgFlits m.body ≤ tget 32 x.credits (creditKey m)) &&
      ms.find? (fun o => o.vc == m.vc) == some m))

/-- Put a message on the link. -/
def Port.launch (x : Port) (m : LinkMsg) : Port :=
  let n := msgFlits m.body
  { x with
    out := x.out.erase m
    credits := tset 32 x.credits (creditKey m) (tget 32 x.credits (creditKey m) - n)
    retry := (keepRetry 4096 ((x.linkSeq, m) :: x.retry.reverse)).reverse
    linkSeq := (x.linkSeq + n) % 4096 }

/-- Put every waiting message on the link for which there are credits. -/
def Port.drain : Nat → Port → Port
  | 0, x => x
  | n + 1, x => match x.next with
    | some m => Port.drain n (x.launch m)
    | none => x

/-- Send what a port can. -/
def Dev.drainPort (d : Dev) (p : Nat) : Dev :=
  if d.portUp p then d.modPort p (fun x => x.drain x.out.length) else d

/-- Credits return as the neighbour's buffers empty (14 R534): they are whole again whenever time passes
(log entry 17). -/
def Dev.returnCredits (d : Dev) : Dev :=
  { d with ports := d.ports.map (fun e =>
      (e.1, if d.portUp e.1 then Port.drain e.2.out.length { e.2 with credits := [] } else { e.2 with credits := [] })) }

/-- Hand a message to a port's output. -/
def Dev.portSend (d : Dev) (p : Nat) (m : LinkMsg) : Dev :=
  (d.modPort p (fun x => { x with out := x.out ++ [m] })).drainPort p

/-- A flit sequence has been received on a port (14 R523). -/
def Dev.linkReceived (d : Dev) (p : Nat) (m : LinkMsg) : Dev :=
  d.modPort p (fun x => { x with rxLinkSeq := (x.rxLinkSeq + msgFlits m.body) % 4096 })

/-! ### Routing (14 R535 to R541) -/

/-- Active epoch of a dimension. -/
def Dev.epoch (d : Dev) (k : Nat) : Nat := bits (d.get F.hawRouteCtrl_EPOCH) k k
/-- The routing table of a dimension in an epoch: the active one's register, or the previous epoch's,
which is kept until the next swap. -/
def Dev.routeTable (d : Dev) (k e : Nat) : Nat :=
  if e = d.epoch k then (d.reg .hawRoute (2 * k + e)).toNat else (tget 0 d.prevRoute k).toNat
/-- Entry for a coordinate: 0 LOCAL, 1 PLUS, 2 MINUS, 3 UNREACHABLE. -/
def routeEntry (t j : Nat) : Nat := bits t (2 * j + 1) (2 * j)

/-- The minimal route table of a dimension (14 R535). -/
def Dev.minimalRoutes (d : Dev) (k : Nat) : Nat :=
  let s := d.dimSize k
  let own := coord d.node k
  (List.range 32).foldl (fun acc j =>
    let e := if s ≤ j then 3 else if j = own then 0 else if (j + s - own) % s ≤ s / 2 then 1 else 2
    acc + e * 4 ^ j) 0

/-- Both epochs of every dimension hold minimal routes (14 R535). -/
def Dev.fillRoutes (d : Dev) : Dev :=
  (List.range 3).foldl (fun d k =>
    let t := BitVec.ofNat 64 (d.minimalRoutes k)
    let d : Dev := { d with prevRoute := tset 0 d.prevRoute k t }
    (d.setReg .hawRoute (2 * k) t).setReg .hawRoute (2 * k + 1) t) d

/-- What routing decides. -/
inductive Hop where
  | here
  | out (port : Nat) (m : LinkMsg)
  | unreachable
  /-- The table of its epoch has been replaced since it was sent (14 R538). -/
  | stale
  /-- Committed toward a port that is down (14 R541). -/
  | broken (port : Nat)
  deriving DecidableEq, Repr

/-- Leave by a direction of a dimension: the dateline moves a message to VC 1 (14 R537). -/
def Dev.leave (d : Dev) (m : LinkMsg) (k : Nat) (plus : Bool) (vc : Nat) : Hop :=
  let own := coord d.node k
  let cross := if plus then own + 1 == d.dimSize k else own == 0
  .out (portOf k plus) { m with
    vc := if cross then 1 else vc
    dirs := setBits m.dirs k k (b2n !plus)
    hops := min 127 (m.hops + 1) }

/-- Route a message that arrived on a port, or that this node sends (14 R536 to R540). Whether a table was
replaced while the message was under way is not the node's to know from the message: a free choice once
the dimension has swapped twice (log entry 18). -/
def Dev.route (d : Dev) (arrive : Option Nat) (m : LinkMsg) : Hop :=
  match (List.range 3).find? (fun k => coord m.dest k != coord d.node k) with
  | none => .here
  | some k =>
    if arrive.any (fun p => p / 2 == k) then
      let plus := !bit m.dirs k
      if d.portState (portOf k plus) = 7 then .broken (portOf k plus) else d.leave m k plus m.vc
    else if arrive.isSome && decide (2 ≤ tget 0 d.routeSwaps k) && Config.choice d.fresh then .stale
    else
      match routeEntry (d.routeTable k m.epoch) (coord m.dest k) with
      | 3 => .unreachable
      | 0 => .unreachable
      | e =>
        let plus := e == 1
        -- an entering message avoids a port that is DOWN (R540)
        let plus := if d.portState (portOf k plus) = 7 then !plus else plus
        if d.portState (portOf k plus) = 7 then .unreachable else d.leave m k plus 0

/-- Send a message of this node: its epoch is that of the X table; false when its destination is
unreachable (14 R536, R538). -/
def Dev.inject (d : Dev) (m : LinkMsg) : Dev × Bool :=
  let m : LinkMsg := { m with src := d.node, epoch := d.epoch 0, vc := 0, hops := 0, dirs := 0 }
  match d.route none m with
  | .out p m => (d.portSend p m, true)
  | .here => (d, true)
  | _ => (d, false)

/-- A message without connection data. -/
def plainMsg (dest conn seq : Nat) (b : MsgBody) : LinkMsg :=
  { dest := dest, src := 0, conn := conn, seq := seq, epoch := 0, dirs := 0, vc := 0, hops := 0, body := b }

/-- MESSAGE_FORWARD (14 R536 to R539): a message for another node goes on by the routed port. -/
def execMessageForward (port : Nat) (msg : LinkMsg) (s : State) : Out :=
  actUp s fun d => if port < 6 && d.portUp port && msg.dest != d.node then
    let d := d.linkReceived port msg
    match d.route (some port) msg with
    | .out p m => (d.draw).portSend p m
    | .here => d
    | .unreachable => (d.draw).discards port 1
    | .stale => ((d.draw).discards port 1).note 0x4012 (locPort port)
    | .broken p => (d.draw).discards p 1
  else d

/-! ### Link failure (14 R540, R541) -/

/-- The settings epoch advances with a cause (17 R641). -/
def Dev.newEpoch (d : Dev) (cause : Nat) : Dev :=
  (d.addWrap F.mntSettingsEpoch_EPOCH 1).put F.mntSettingsEpoch_LAST_CAUSE cause

/-- The links of this node's ring in a dimension that are known broken, each by its lower coordinate. -/
def Dev.brokenLinks (d : Dev) (k : Nat) : List Nat :=
  let s := d.dimSize k
  (d.broken.filter (fun b => b.2 / 2 == k)).map (fun b =>
    let c := coord b.1 k
    if b.2 % 2 = 1 then c else (c + s - 1) % s)

/-- The links a message crosses from this node to a coordinate in a direction. -/
def Dev.crossed (d : Dev) (k j : Nat) (plus : Bool) : List Nat :=
  let s := d.dimSize k
  let own := coord d.node k
  if plus then (List.range ((j + s - own) % s)).map (fun i => (own + i) % s)
  else (List.range ((own + s - j) % s)).map (fun i => (own + 2 * s - 1 - i) % s)

/-- Stage a table that avoids the known broken links of a dimension (14 R541). -/
def Dev.stageDetour (d : Dev) (k : Nat) : Dev :=
  let e := d.epoch k
  let staged := bit (d.get F.hawRouteCtrl_STAGED) k
  let t := (d.reg .hawRoute (2 * k + (if staged then 1 - e else e))).toNat
  let bad := d.brokenLinks k
  let hit := fun j plus => (d.crossed k j plus).any bad.contains
  let t' := (List.range (d.dimSize k)).foldl (fun t j =>
    let x := routeEntry t j
    if x = 0 || x = 3 then t
    else
      let y := if !hit j (x == 1) then x else if !hit j (x != 1) then 3 - x else 3
      setBits t (2 * j + 1) (2 * j) y) t
  ((d.setReg .hawRoute (2 * k + (1 - e)) (BitVec.ofNat 64 t')).putBit F.hawRouteCtrl_STAGED k true).newEpoch 4

/-- Swap the staged tables at a tick (14 R538, R541, R542). -/
def Dev.swapRoutes (d : Dev) : Dev :=
  (List.range 3).foldl (fun d k =>
    if bit (d.get F.hawRouteCtrl_STAGED) k then
      let e := d.epoch k
      let d : Dev := { d with
        prevRoute := tset 0 d.prevRoute k (d.reg .hawRoute (2 * k + e))
        routeSwaps := tset 0 d.routeSwaps k (tget 0 d.routeSwaps k + 1) }
      let d := (d.putBit F.hawRouteCtrl_EPOCH k (e == 0)).putBit F.hawRouteCtrl_STAGED k false
      d.note 0x4011 0 [(1, k), (1, 1 - e)]
    else d) d

/-- A port leaves the coupled set (02 R90). -/
def Dev.uncouple (d : Dev) (p : Nat) : Dev :=
  if bit (d.get F.tideStatus_COUPLED_SET) p then
    (d.putBit F.tideStatus_COUPLED_SET p false).note 0x7205 (locPort p) [(1, p)]
  else d

/-- Take a port out of service into a state: no lanes are active and the node's beacons no longer wait for
it. -/
def Dev.portOut (d : Dev) (p st : Nat) : Dev :=
  ((d.put F.hawPortStatus_STATE st p).put F.hawPortStatus_ACTIVE_LANES 0 p).uncouple p

/-- A port goes DOWN from ACTIVE or DEGRADED (14 R531, R540). -/
def Dev.portDown (d : Dev) (p cause : Nat) : Dev :=
  if !d.portUp p then d else
  let d := (d.portOut p 7).note 0x4002 (locPort p) [(1, p), (1, cause)]
  let x := tget .new d.ports p
  let d := d.discards p (x.out.length + x.retry.length)
  let d := d.modPort p (fun x => { x with out := [], retry := [] })
  let d : Dev := { d with broken := (d.node, p) :: d.broken.filter (fun b => b != (d.node, p)) }
  let other := p / 2 * 2 + (1 - p % 2)
  if !d.portUp other then d else d.portSend other { plainMsg (d.neighbour d.node (p / 2) (p % 2 == 0)) 0 0 (.linkNotice d.node p) with
    src := d.node, epoch := d.epoch 0 }

/-- PORT_DOWN (14 R540). -/
def execPortDown (port cause : Nat) (s : State) : Out :=
  actUp s fun d => if port < 6 then d.portDown port cause else d

/-- LINK_NOTICE (14 R540, R541): the notice goes on along its ring, and a table that avoids the broken
link is staged. -/
def execLinkNotice (port : Nat) (msg : LinkMsg) (s : State) : Out :=
  actUp s fun d => match msg.body with
    | .linkNotice node bp =>
      if port < 6 && d.portUp port then
        let d := d.linkReceived port msg
        let d := d.note 0x4010 (locPort port) [(2, node), (1, bp)]
        let d : Dev := { d with broken := if d.broken.contains (node, bp) then d.broken else (node, bp) :: d.broken }
        let other := port / 2 * 2 + (1 - port % 2)
        let d := if d.portUp other then d.portSend other { msg with hops := min 127 (msg.hops + 1) } else d
        d.stageDetour (bp / 2)
      else d
    | _ => d

/-! ### Ports coming up, lanes and lasers (14 R521 to R531) -/

/-- The optical engine's capability set is the required one (14 R528). -/
def capable (r : PortTraining) : Bool :=
  r.lanes == 26 && r.gbd == 200 && r.pam4 && r.rs544 && r.dataChannel && r.mgmtChannel

/-- The neighbour named in training is the expected one (14 R521). -/
def Dev.wiredRight (d : Dev) (p peer : Nat) : Bool :=
  decide (d.dimSize (p / 2) ≠ 1) && peer == d.neighbour d.node (p / 2) (p % 2 == 1)

/-- The optical attachment of a port is ACTIVE (14 R528 step 1). -/
def Dev.oeActive (d : Dev) (p : Nat) : Bool := d.get F.dckD2dStatus_STATE (4 * portDeck p + 3) == 4

/-- An optical attachment held in reset begins to train its modules (01 R48, 14 R528 step 1). -/
def Dev.trainOe (d : Dev) (p : Nat) : Dev :=
  let i := 4 * portDeck p + 3
  if d.get F.dckD2dStatus_STATE i = 1 then d.put F.dckD2dStatus_STATE 2 i else d

/-- PORT_TRAINING_DONE (14 R521, R526, R528): a TRAINING port reaches the state its training found. -/
def execPortTrainingDone (port : Nat) (r : PortTraining) (s : State) : Out :=
  actUp s fun d => if port < 6 && d.portState port = 3 then
    let loc := locPort port
    if !(d.oeActive port && r.flitMode) then d
    else
    if !capable r then (d.portOut port 2).note 0x4006 (locOe port) [(16, r.capability)]
    else
      let d := (d.put F.hawPortStatus_PEER_NODE r.peerNode port).put F.hawPortStatus_PROGRESS 10000 port
      if !d.wiredRight port r.peerNode then (d.portOut port 6).note 0x4005 loc [(1, port), (2, r.peerNode)]
      else
        let good := min 26 r.goodLanes
        let d := d.modPort port (fun x => { x with good := good, linkSeq := 0, rxLinkSeq := 0, credits := [], retry := [] })
        let d := d.put F.hawPortStatus_SPARES_USED (26 - max 24 good) port
        let d : Dev := { d with broken := d.broken.filter (fun b => b != (d.node, port)) }
        if 24 ≤ good then
          ((((d.put F.hawPortStatus_STATE 4 port).put F.hawPortStatus_ACTIVE_LANES 24 port).note 0x4001 loc
            [(1, port), (2, r.peerNode)]).drainPort port)
        else if 12 ≤ good then
          ((((d.put F.hawPortStatus_STATE 5 port).put F.hawPortStatus_ACTIVE_LANES 12 port).note 0x4004 loc).drainPort port)
        else d.portOut port 7
  else d

/-- LANE_SPARE (14 R525, R526): a faulty lane is replaced by a spare; without one the port degrades, and
with fewer than 12 good lanes it goes DOWN. -/
def execLaneSpare (port lane : Nat) (s : State) : Out :=
  actUp s fun d => if port < 6 && d.portUp port then
    let d := d.addSat F.hawPortCounts_LANE_FAULTS 1 port
    let d := d.modPort port (fun x => { x with good := x.good - 1 })
    let good := (tget .new d.ports port).good
    if 24 ≤ good then
      (d.put F.hawPortStatus_SPARES_USED (26 - good) port).note 0x4003 (locPort port) [(1, port), (1, lane), (1, 49 - good)]
    else if good < 12 then d.portDown port (Config.causeCode 0x4002 1)
    else if d.portState port = 4 then
      ((d.put F.hawPortStatus_STATE 5 port).put F.hawPortStatus_ACTIVE_LANES 12 port).note 0x4004 (locPort port)
    else d
  else d

/-- LASER_MODULE_FAULT (14 R530): a port loses its light. -/
def execLaserModuleFault (port status : Nat) (s : State) : Out :=
  actUp s fun d => if port < 6 then
    let d := (d.put F.hawPortStatus_LASER_CLASS 0 port).note 0x4008 (locPort port) [(1, port), (2, status)]
    let d := d.modPilot (fun x => { x with lasers := tset 0 x.lasers port 0 })
    if d.portUp port then d.portDown port (Config.causeCode 0x4002 2)
    else if d.portState port = 3 then d.portOut port 1 else d
  else d

/-- LINK_RETRY (14 R523): the flit asked for and all after it are sent again; the receiver takes each once,
so only the count changes. -/
def execLinkRetry (port seq : Nat) (s : State) : Out :=
  actUp s fun d => if port < 6 && d.portUp port && (tget .new d.ports port).retry.any (fun m => m.1 ≤ seq && seq < m.1 + msgFlits m.2.body) then
    d.addSat F.hawPortCounts_RETRIES 1 port
  else d

/-- OE_FILTERED (14 R529): the stage of a port drops a message of its optical engine. -/
def execOeFiltered (port kind : Nat) (s : State) : Out :=
  actUp s fun d => if port < 6 then d.note 0x4007 (locOe port) [(1, port), (1, kind)] else d

/-- Begin training a port from scratch, if it has light (14 R530, R531). -/
def Dev.trainPort (d : Dev) (p laser : Nat) : Dev :=
  let d := ((d.put F.hawPortStatus_LASER_CLASS laser p).put F.hawPortStatus_PROGRESS 0 p).put F.hawPortStatus_SPARES_USED 0 p
  let d := (d.modPort p (fun x => { x with good := 26 })).trainOe p
  if laser = 0 then (d.portOut p 1).note 0x4008 (locPort p) [(1, p), (2, 0)] else d.portOut p 3

/-- Retrain a port with the laser class its module answers; a port held DISABLED stays so (14 R530). -/
def Dev.retrain (d : Dev) (port laser : Nat) : Dev :=
  if d.get F.hawPortCmd_DISABLE port = 1 then d
  else
    let x := tget .new d.ports port
    let d := if d.portUp port then d.discards port x.out.length else d
    (d.modPort port (fun x => { x with out := [], retry := [] })).trainPort port (min 4 laser)

/-- RETRAIN (14 R530): HAW_PORT_CMD.RETRAIN is written, and the laser module is read again. -/
def execRetrain (hart port laser : Nat) (s : State) : Out :=
  actUp s fun d => if port < 6 && d.hartUp hart then
    ((d.modPilot (fun x => { x with lasers := tset 0 x.lasers port (min 4 laser) })).retrain port laser).answer (.ok 0)
  else d

/-- Hold a port in DISABLED (14 R531). -/
def Dev.disablePort (d : Dev) (port : Nat) : Dev :=
  let x := tget .new d.ports port
  let d := d.discards port x.out.length
  let d := d.modPort port (fun x => { x with out := [], retry := [] })
  (d.flag F.hawPortCmd_DISABLE true port).portOut port 8

/-- DISABLE (14 R531): HAW_PORT_CMD.DISABLE is written 1. -/
def execDisable (hart port : Nat) (s : State) : Out :=
  actUp s fun d => if port < 6 && d.hartUp hart then (d.disablePort port).answer (.ok 0) else d

/-- Stage the tables of dimensions for the next tick (14 R542). -/
def Dev.routeSwap (d : Dev) (dims : Nat) : Dev :=
  d.put F.hawRouteCtrl_STAGED (d.get F.hawRouteCtrl_STAGED ||| dims % 8)

/-- ROUTE_SWAP (14 R542): HAW_ROUTE_CTRL.SWAP is written; the tables named swap at the next tick. -/
def execRouteSwap (hart dims : Nat) (s : State) : Out :=
  actUp s fun d => if d.hartUp hart then (d.routeSwap dims).answer (.ok 0) else d

end Sys2Proof.Machine
end

