-- ==== Sys2Proof/Machine/RegErr.lean ====
section
/-! DEFINITION. The error response of the register window (18 R661 to R664, R675, R676). -/
namespace Sys2Proof.Machine

/-- Who accesses a register: a host hart or the BMC (18 R673). -/
inductive RegSrc where
  | host (h : Nat)
  | bmc
  deriving DecidableEq, Repr

/-- The DEV_ERR_INFO word of an error response (18 R675). -/
def errWord (src : RegSrc) (write : Bool) (off cause : Nat) : Nat :=
  2 ^ 63 + cause % 16 * 2 ^ 56 + b2n write * 2 ^ 32 + off % 2 ^ 24 +
    (match src with | .host h => h % 256 * 2 ^ 40 | .bmc => 2 ^ 52)

/-- What the requester of a refused access is answered (18 R664). -/
def errResp (src : RegSrc) (write : Bool) : Resp :=
  match src with
  | .bmc => .nack
  | .host _ => if write then .storeFault else .loadFault

/-- An error response: it is counted, recorded when the record is free, and logged (18 R664, R676). -/
def Dev.regError (d : Dev) (src : RegSrc) (write : Bool) (off cause : Nat) : Dev :=
  let w := errWord src write off cause
  let d := d.addSat F.devErrCount_COUNT 1
  let d := if d.get F.devErrInfo_VALID = 0 then d.setReg .devErrInfo 0 (BitVec.ofNat 64 w) else d
  let loc := match src with | .host h => locHart h | .bmc => 0
  (d.note (if cause = 3 then 0x6302 else 0x6301) loc
    [(8, w % 2 ^ 63)]).answer (errResp src write)

/-- A refused value written by a hart (18 R663). -/
def Dev.refuse (d : Dev) (h off : Nat) : Dev := d.regError (.host h) true off 3

/-- An accepted write answers with no value (18 R666). -/
def Dev.accepted (d : Dev) : Dev := d.answer (.ok 0)

end Sys2Proof.Machine
end

