-- ==== Sys2Proof/Machine/Conns.lean ====
section
/-! DEFINITION. Connections and REMOTE items (14 R543, R545 to R554): the connection table, opening and
closing, sequences and retransmission, and remote puts, gets and atomics at both ends. -/
namespace Sys2Proof.Machine

/-! ### The connection table (14 R545) -/

/-- A connection's own state. -/
def Dev.conn (d : Dev) (c : Nat) : Conn := tget .new d.conns c

/-- The address of an entry. -/
def Dev.connPa (d : Dev) (c : Nat) : Nat := d.get F.hawConnTableBase_BASE * 4096 + 64 * c

/-- Words CW0 and CW1 of an entry, when they can be read. -/
def Dev.connEntry (d : Dev) (c : Nat) : Option (Nat × Nat) :=
  match d.hubRead (d.connPa c) 16 with
  | .ok bs => some (leNat (bs.take 8), leNat (bs.drop 8))
  | .error _ => none

/-- Fields of CW0. -/
def cwValid (w : Nat) : Bool := bit w 63
def cwGroup (w : Nat) : Bool := bit w 62
def cwRemoteCtx (w : Nat) : Nat := bits w 47 40
def cwCtx (w : Nat) : Nat := bits w 39 32
def cwRemoteConn (w : Nat) : Nat := bits w 26 15
def cwNode (w : Nat) : Nat := bits w 14 0

/-- CW0 of an entry; 0 where it cannot be read. -/
def Dev.cw0 (d : Dev) (c : Nat) : Nat := ((d.connEntry c).map (·.1)).getD 0
/-- GRANT. -/
def Dev.grant (d : Dev) (c : Nat) : Nat := ((d.connEntry c).map (fun e => e.2 % 2 ^ 32)).getD 0

/-- Write CW3 and CW4 of an entry (14 R545). -/
def Dev.writeConn (d : Dev) (c : Nat) : Dev :=
  let x := d.conn c
  let w3 := x.txSeq % 2 ^ 32 * 2 ^ 32 + x.cause % 16 * 16 + x.state % 16
  let w4 := x.rxSeq % 2 ^ 32 * 2 ^ 32 + x.acked % 2 ^ 32
  let d := d.meetWrite (d.connPa c + 24) 16
  match d.hubWrite (d.connPa c + 24) (leBytes 8 w3 ++ leBytes 8 w4) with
  | .ok d => d
  | .error e => d.logAcc e locHub

/-- Change the state of a connection. -/
def Dev.setConn (d : Dev) (c st : Nat) : Dev := (d.modConn c (fun x => { x with state := st })).writeConn c

/-- A connection becomes ESTABLISHED with sequences 0 and a full grant (14 R546, R547). -/
def Dev.establish (d : Dev) (c : Nat) : Dev :=
  let d := d.modConn c (fun _ => { state := 2, credit := d.grant c, lastProgress := d.now })
  d.writeConn c

/-- The connection a REMOTE or COLLECTIVE item names. -/
def Item.connOf (it : Item) : Nat := if it.typ = tRemote then it.f 1 27 16 else it.f 1 63 52

/-- An item that uses a connection. -/
def Item.usesConn (it : Item) (c : Nat) : Bool := (it.typ == tRemote || it.typ == tCollective) && it.connOf == c

/-- Every item using a connection that has started ends FAIL_LINK at the position reached (14 R549). -/
def Dev.failConnItems (d : Dev) (c : Nat) : Dev :=
  { d with
    items := d.items.map (fun it => if it.usesConn c && it.started && it.status.isNone then { it.finish 0x17 with pos := it.reached } else it)
    colls := d.colls.filter (fun g => !(d.items.any (fun it => it.usesConn c && it.ring == g.ring && it.index == g.index))) }

/-- A connection becomes LOST with a cause (14 R546, R549, R550). -/
def Dev.connLost (d : Dev) (c cause : Nat) : Dev :=
  let d := d.modConn c (fun x => { x with state := 3, cause := cause, unacked := [], sendq := [] })
  let d := d.writeConn c
  let d := match cause with
    | 5 => d.note 0x4021 0
    | 6 => d
    | _ => d.note 0x4020 0 [(2, c), (1, cause)]
  d.failConnItems c

/-- A closing connection whose items have their records is CLOSED (14 R550). -/
def Dev.connSettled (d : Dev) (c : Nat) : Dev :=
  if (d.conn c).closing && !(d.items.any (fun it => it.usesConn c && it.started)) then
    let d := (d.modConn c (fun x => { x with closing := false, cause := 0 })).setConn c 0
    { d with conns := (List.range 6).foldl (fun t i => tset .new t (4096 + 8 * c + i) {}) d.conns }
  else d

/-- Send a message outside the connection's sequence. -/
def Dev.sendPlain (d : Dev) (c : Nat) (b : MsgBody) : Dev :=
  let w := d.cw0 c
  (d.inject (plainMsg (cwNode w) (cwRemoteConn w) 0 b)).1

/-- Send a message of a connection; an unreachable destination loses it (14 R536, R549). -/
def Dev.sendOr (d : Dev) (c : Nat) (m : LinkMsg) : Dev :=
  match d.inject m with
  | (d, true) => d
  | (d, false) => d.connLost c 2

/-- The OPEN a POINT entry sends. -/
def Dev.sendOpen (d : Dev) (c : Nat) : Dev :=
  let w := d.cw0 c
  d.sendOr c (plainMsg (cwNode w) (cwRemoteConn w) 0 (.openReq (cwCtx w) (cwRemoteCtx w) c))

/-- OPEN of an entry that is valid and CLOSED (14 R546). -/
def Dev.connOpen (d : Dev) (conn : Nat) : Dev :=
  let w := d.cw0 conn
  if (d.conn conn).state ≠ 0 || !cwValid w then d.accepted
  else if cwGroup w then (d.establish conn).accepted
  else if !d.inTorus (cwNode w) then (d.connLost conn 5).accepted
  else
    let d := d.modConn conn (fun _ => { state := 1, lastProgress := d.now })
    ((d.writeConn conn).sendOpen conn).accepted

/-- CONN_OPEN (14 R546). -/
def execConnOpen (hart conn : Nat) (s : State) : Out :=
  actUp s fun d => if d.hartUp hart && conn < 4096 then d.connOpen conn else d

/-- Close an entry from this end (14 R550). -/
def Dev.connClose (d : Dev) (c : Nat) : Dev :=
  let st := (d.conn c).state
  if st = 0 then d else
  let d := if cwGroup (d.cw0 c) then d else d.sendPlain c .close
  let d := d.connLost c 6
  (d.modConn c (fun x => { x with closing := true })).connSettled c

/-- CONN_CLOSE (14 R550). -/
def execConnClose (hart conn : Nat) (s : State) : Out :=
  actUp s fun d => if d.hartUp hart && conn < 4096 then (d.connClose conn).accepted else d

/-! ### Sending in sequence (14 R547, R548) -/

/-- A message of some bytes may be sent on a connection now. `g` is the entry whose grant applies. -/
def Dev.maySend (d : Dev) (key g bytes : Nat) : Bool :=
  let x := d.conn key
  let grant := d.grant g
  let credit := (d.conn g).credit
  decide (x.unacked.length < 64) &&
    (grant == 0 || decide ((bytes : Int) ≤ credit) || (decide (grant < bytes) && credit == (grant : Int)))

/-- Send a message with the next sequence; an unreachable destination loses the connection (14 R536,
R549). -/
def Dev.sendSeq (d : Dev) (key g : Nat) (m : LinkMsg) (item : Option (Nat × Nat)) : Dev :=
  let seq := (d.conn key).txSeq
  let m : LinkMsg := { m with seq := seq }
  let n := msgBytes m.body
  let d := d.modConn g (fun x => { x with credit := x.credit - n })
  let d := d.modConn key (fun x => { x with
    txSeq := (x.txSeq + 1) % 2 ^ 32
    lastProgress := if x.unacked.isEmpty then d.now else x.lastProgress
    unacked := x.unacked ++ [⟨seq, m, item⟩] })
  d.sendOr g m

/-! ### REMOTE items (14 R551 to R554) -/

def Item.rop (it : Item) : Nat := it.f 1 3 0
def Item.aop (it : Item) : Nat := it.f 1 7 4
def Item.wide (it : Item) : Bool := it.b 1 8
def Item.asize (it : Item) : Nat := if it.wide then 8 else 4
/-- Last position of a REMOTE item (14 R554). -/
def Item.remoteLast (it : Item) : Nat := if it.rop = 2 then 1 else it.f 4 31 0

/-- The checks of a REMOTE item at its release (11 R436, R439, R440, R475; 14 R549, R553). -/
def Dev.remoteVerdict (d : Dev) (it : Item) : Verdict :=
  let c := it.connOf
  let w := d.cw0 c
  if cwValid w && cwCtx w ≠ it.ctx then .denied
  else if !(it.w0ok && it.zeros [(1, 15, 9), (1, 31, 28), (4, 63, 32)] && it.w 7 == 0) || 2 < it.rop then .invalid
  else if cwValid w && cwGroup w then .invalid
  else if it.rop = 2 && (10 < it.aop || it.w 2 % it.asize ≠ 0 || it.w 3 % it.asize ≠ 0) then .invalid
  else match segVerdict [it.w 2] with
    | some v => v
    | none =>
      if it.remoteLast = 0 then (if it.startPos = 0 then .empty else .invalid)
      else if it.remoteLast ≤ it.startPos then .invalid
      else if (d.conn c).state ≠ 2 then .fail 0x17 0
      else .run it.remoteLast

/-- The operand range of a REMOTE item at this node. -/
def Item.remoteRanges (it : Item) : List (Nat × Nat) := [(it.w 2, if it.rop = 2 then it.asize else it.f 4 31 0)]

/-- What an item keeps while its slice is sent: the next position to send, a local failure met there with
its VA, and the end of the slice that has been begun. -/
def Item.sendAt (it : Item) : Nat := (it.carry.getD 0 0).toNat
def Item.sendFail (it : Item) : Nat := (it.carry.getD 1 0).toNat
def Item.sendVa (it : Item) : Nat := (it.carry.getD 2 0).toNat
def Item.begunTo (it : Item) : Nat := (it.carry.getD 3 0).toNat
def sendState (p st va hi : Nat) : List W64 := [p, st, va, hi].map (BitVec.ofNat 64)

/-- The pier that serves a connection: the port its messages leave by. -/
def Dev.pierOf (d : Dev) (c : Nat) : Nat :=
  match d.route none (plainMsg (cwNode (d.cw0 c)) 0 0 .close) with
  | .out p _ => p
  | _ => 0

/-- The AOP codes as operations (08 R328). -/
def aopOf (n : Nat) : AtomicOp :=
  [AtomicOp.add, .fadd, .min, .max, .minu, .maxu, .and, .or, .xor, .swap, .cas].getD n .add

/-- The next message of an item, or the local failure met in reading it. -/
def Dev.nextRemote (d : Dev) (it : Item) : Dev × Except (XFail × Nat) (MsgBody × Nat) :=
  let p := it.sendAt
  let n := min 4096 (it.begunTo - p)
  let local' := vaAddN (it.w 2) p
  let remote := vaAddN (it.w 3) p
  match it.rop with
  | 0 => match d.dmaReadN (.pier (d.pierOf it.connOf)) it.ctx local' n with
    | (d, .ok bs) => (d, .ok (.put remote bs, p + n))
    | (d, .error e) => (d, .error e)
  | 1 => (d, .ok (.getReq remote n, p + n))
  | _ => (d, .ok (.atomicReq (aopOf it.aop) it.wide (it.w 3) (BitVec.ofNat 64 (it.w 5)) (BitVec.ofNat 64 (it.w 6)), 1))
where vaAddN (va n : Nat) : Nat := (va + n) % 2 ^ 64

/-- A begun item has reached the end of its slice, or the failure that waits there (14 R554). -/
def Dev.remoteSettle (d : Dev) (ring index : Nat) : Dev :=
  match d.item? ring index with
  | none => d
  | some it =>
    if it.phase == .released && it.begunTo == it.sliceEnd then
      if it.sendFail ≠ 0 && it.pos = it.sendAt then d.finishAt ring index it.sendFail it.pos (failDetail it.sendFail it.sendVa)
      else if it.sliceEnd ≤ it.pos then d.sliceDone ring index
      else d
    else d

/-- Send what the begun items of a connection may send, oldest first. -/
def Dev.pump (d : Dev) (c : Nat) : Nat → Dev
  | 0 => d
  | fuel + 1 =>
    match d.items.find? (fun it => it.typ == tRemote && it.connOf == c && it.phase == .released &&
        it.begunTo == it.sliceEnd && it.sendFail == 0 && decide (it.sendAt < it.sliceEnd)) with
    | none => d
    | some it =>
      let bytes := if it.rop = 0 then min 4096 (it.begunTo - it.sendAt) else 0
      if (d.conn c).state ≠ 2 || !d.maySend c c bytes then d
      else
        let w := d.cw0 c
        match d.nextRemote it with
        | (d, .ok (b, p)) =>
          let d := d.modItem it.ring it.index (fun it => { it with carry := sendState p 0 0 it.begunTo })
          (d.sendSeq c c (plainMsg (cwNode w) (cwRemoteConn w) 0 b) (some (it.ring, it.index))).pump c fuel
        | (d, .error (x, va)) =>
          ((d.modItem it.ring it.index (fun it => { it with carry := sendState it.sendAt x.status va it.begunTo })).remoteSettle
            it.ring it.index).pump c fuel

/-- Begin a released REMOTE slice of an operation. -/
def Dev.remoteSlice (d : Dev) (ring index op : Nat) : Dev :=
  d.onItem ring index (fun it => it.typ == tRemote && it.rop == op && it.begunTo != it.sliceEnd) fun it =>
    if (d.conn it.connOf).state ≠ 2 then d.finishAt ring index 0x17 it.pos
    else
      (d.modItem ring index (fun it => { it with carry := sendState it.pos 0 0 it.sliceEnd })).pump it.connOf 64

/-- REMOTE_PUT (14 R551). -/
def execRemotePut (ring index : Nat) (s : State) : Out := actUp s fun d => d.remoteSlice ring index 0
/-- REMOTE_GET (14 R551). -/
def execRemoteGet (ring index : Nat) (s : State) : Out := actUp s fun d => d.remoteSlice ring index 1
/-- REMOTE_ATOMIC (14 R551). -/
def execRemoteAtomic (ring index : Nat) (s : State) : Out := actUp s fun d => d.remoteSlice ring index 2

/-! ### The receiving end (14 R543, R548, R552) -/

/-- A message for this node arrives on a port in service. -/
def Dev.onMessage (d : Dev) (port : Nat) (m : LinkMsg) (f : Dev → Dev) : Dev :=
  if port < 6 && d.portUp port && m.dest == d.node then f (d.linkReceived port m) else d

/-- Answer a message on an entry and keep the answer for a duplicate. -/
def Dev.respond (d : Dev) (c seq : Nat) (b : MsgBody) : Dev :=
  let w := d.cw0 c
  let m : LinkMsg := plainMsg (cwNode w) (cwRemoteConn w) seq b
  let d := d.modConn c (fun x => { x with responses := ((x.responses ++ [(seq, m)]).reverse.take 64).reverse })
  d.sendOr c m

/-- Perform the message carrying RX_SEQ on a POINT entry; a duplicate gets its answer again, any other is
discarded (14 R548). A message for a dead context is answered so (14 R549). -/
def Dev.performSeq (d : Dev) (m : LinkMsg) (f : Dev → Nat → Dev) : Dev :=
  let c := m.conn
  let w := d.cw0 c
  let x := d.conn c
  if x.state ≠ 2 || cwGroup w || cwNode w ≠ m.src then d
  else if m.seq ≠ x.rxSeq then
    match x.responses.find? (fun r => r.1 == m.seq) with
    | some r => d.sendOr c r.2
    | none => d
  else
    let d := d.modConn c (fun x => { x with rxSeq := (x.rxSeq + 1) % 2 ^ 32 })
    if (d.ctx (cwCtx w)).state ≠ 0 then d.respond c m.seq (.ack ((m.seq + 1) % 2 ^ 32) 0x12 0)
    else f d (cwCtx w)

/-- PUT (14 R551, R552, R554): the data is written at the remote VA and acknowledged. -/
def execPut (port : Nat) (msg : LinkMsg) (s : State) : Out :=
  actUp s fun d => match msg.body with
    | .put va data => d.onMessage port msg fun d => d.performSeq msg fun d ctx =>
      let upTo := (msg.seq + 1) % 2 ^ 32
      match d.dmaPut (.pier port) ctx va data with
      | (d, .ok ()) => d.respond msg.conn msg.seq (.ack upTo 0 0)
      | (d, .error (x, a)) => d.respond msg.conn msg.seq (.ack upTo x.status a)
    | _ => d

/-- GET_REQ (14 R551, R552): the data is read and returned. -/
def execGetReq (port : Nat) (msg : LinkMsg) (s : State) : Out :=
  actUp s fun d => match msg.body with
    | .getReq va len => d.onMessage port msg fun d => d.performSeq msg fun d ctx =>
      match d.dmaReadN (.pier port) ctx va (min len 4096) with
      | (d, .ok bs) => d.respond msg.conn msg.seq (.getData bs 0 0)
      | (d, .error (x, a)) => d.respond msg.conn msg.seq (.getData [] x.status a)
    | _ => d

/-- Perform an atomic for a pier at its home: the old value, or the failure (05 R204, 10 R404). -/
def Dev.pierAtomic (d : Dev) (port ctx : Nat) (op : AtomicOp) (wide : Bool) (va : Nat) (x cmp : W64) :
    Dev × Except XFail Nat :=
  let size := if wide then 8 else 4
  match d.xlate (.pier port) ctx (BitVec.ofNat 64 va) size 4 with
  | (d, .error e) => (d, .error e)
  | (d, .ok r) =>
    let d := d.reach r.pa size
    match d.atomicAt r.pa size r.hostShared (fun old => atomicNew op wide old (x.toNat % 2 ^ (8 * size)) (cmp.toNat % 2 ^ (8 * size))) with
    | .ok (d, old) => (d, .ok old)
    | .error e => (d, .error (accFail e))

/-- ATOMIC_REQ (14 R551, R552): the atomic is performed at its home and the old value returned. -/
def execAtomicReq (port : Nat) (msg : LinkMsg) (s : State) : Out :=
  actUp s fun d => match msg.body with
    | .atomicReq op wide va x cmp =>
      -- it waits, with no effect, while a wave holds the line locked (10 R405)
      if (match d.peek (cwCtx (d.cw0 msg.conn)) va with | some p => decide (p.2 < 2 ^ 40) && d.lockedLine p.2 | none => false) then d
      else d.onMessage port msg fun d => d.performSeq msg fun d ctx =>
      match d.pierAtomic port ctx op wide va x cmp with
      | (d, .ok old) => d.respond msg.conn msg.seq (.atomicResp (BitVec.ofNat 64 old) 0 0)
      | (d, .error e) => d.respond msg.conn msg.seq (.atomicResp 0 e.status va)
    | _ => d

/-! ### Answers at the sending end -/

/-- Sequence `a` comes before `b`, modulo 2^32. -/
def seqBefore (a b : Nat) : Bool := decide ((b + 2 ^ 32 - a) % 2 ^ 32 < 2 ^ 31 ∧ a ≠ b)

/-- Messages up to a sequence are acknowledged: they leave the retransmission set and the timer starts
again (14 R548). -/
def Dev.acknowledge (d : Dev) (key upTo : Nat) : Dev × List Unacked :=
  let done := (d.conn key).unacked.filter (fun u => seqBefore u.seq upTo)
  if done.isEmpty then (d, []) else
  (d.modConn key (fun x => { x with
    unacked := x.unacked.filter (fun u => !seqBefore u.seq upTo)
    acked := upTo, timeouts := 0, lastProgress := d.now }), done)

/-- An acknowledged PUT advances its item by its bytes. -/
def Dev.putAcked (d : Dev) (u : Unacked) : Dev :=
  match u.item, u.msg.body with
  | some (r, i), .put _ data => (d.modItem r i (fun it =>
      if it.phase == .released then { it with pos := it.pos + data.length } else it)).remoteSettle r i
  | _, _ => d

/-- A failed check at the remote end: the item fails at the position reached, with the remote VA
(14 R552); a dead context there loses the connection (14 R549). -/
def Dev.remoteFailed (d : Dev) (c : Nat) (item : Option (Nat × Nat)) (code va : Nat) : Dev :=
  if code = 0x12 then d.connLost c 4
  else match item with
    | some (r, i) => match d.item? r i with
      | some it => if it.phase == .released then d.finishAt r i code it.pos (failDetail code va) else d
      | none => d
    | none => d

/-- ACK on a POINT entry (14 R548, R552). -/
def Dev.pointAck (d : Dev) (c upTo code va : Nat) : Dev :=
  match d.acknowledge c upTo with
  | (d, done) =>
    let ok := if code = 0 then done else done.dropLast
    let d := ok.foldl Dev.putAcked d
    let d := if code = 0 then d else d.remoteFailed c ((done.getLast?).bind (·.item)) code va
    d.pump c 64

/-- An answer to the request with a sequence arrives at its item. -/
def Dev.answered (d : Dev) (m : LinkMsg) (code va : Nat) (f : Dev → Item → Dev) : Dev :=
  let c := m.conn
  if (d.conn c).state ≠ 2 || cwNode (d.cw0 c) ≠ m.src then d
  else match (d.conn c).unacked.find? (fun u => u.seq == m.seq) with
    | none => d
    | some u =>
      let (d, done) := d.acknowledge c ((m.seq + 1) % 2 ^ 32)
      let d := (done.filter (fun v => v.seq != m.seq)).foldl Dev.putAcked d
      let d := if code ≠ 0 then d.remoteFailed c u.item code va
        else match u.item with
          | none => d
          | some (r, i) => match d.item? r i with
            | none => d
            | some it => if it.phase == .released then (f d it).remoteSettle r i else d
      d.pump c 64

/-- GET_DATA (14 R551): the data is written at the local VA and the position advances. -/
def execGetData (port : Nat) (msg : LinkMsg) (s : State) : Out :=
  actUp s fun d => match msg.body with
    | .getData data code va => d.onMessage port msg fun d => d.answered msg code va fun d it =>
      match d.dmaPut (.pier port) it.ctx ((it.w 2 + it.pos) % 2 ^ 64) data with
      | (d, .ok ()) => d.modItem it.ring it.index (fun it => { it with pos := it.pos + data.length })
      | (d, .error (x, a)) => d.xfail it.ring it.index it.pos x a
    | _ => d

/-- ATOMIC_RESP (14 R551, 11 R439): the old value is written at the local VA. -/
def execAtomicResp (port : Nat) (msg : LinkMsg) (s : State) : Out :=
  actUp s fun d => match msg.body with
    | .atomicResp old code va => d.onMessage port msg fun d => d.answered msg code va fun d it =>
      match d.dmaPut (.pier port) it.ctx (it.w 2) (leBytes it.asize old.toNat) with
      | (d, .ok ()) => d.modItem it.ring it.index (fun it => { it with pos := 1 })
      | (d, .error (x, a)) => d.xfail it.ring it.index it.pos x a
    | _ => d

/-- OPEN (14 R546): accepted when the entry mirrors the sender's and is OPENING. -/
def execOpenMsg (port : Nat) (msg : LinkMsg) (s : State) : Out :=
  actUp s fun d => match msg.body with
    | .openReq ctx rctx rconn => d.onMessage port msg fun d =>
      let c := msg.conn
      let w := d.cw0 c
      let mirror := cwValid w && !cwGroup w && cwNode w == msg.src && cwRemoteConn w == rconn &&
        cwCtx w == rctx && cwRemoteCtx w == ctx && (d.conn c).state == 1
      let d := if mirror then d.establish c else d
      (d.inject (plainMsg msg.src rconn 0 (.openAck mirror))).1
    | _ => d

/-- OPEN_ACK (14 R546): the connection is established, or NOT_READY is counted; after RETRY_LIMIT periods
the entry is LOST with cause 5. -/
def execOpenAck (port : Nat) (msg : LinkMsg) (s : State) : Out :=
  actUp s fun d => match msg.body with
    | .openAck ok => d.onMessage port msg fun d =>
      let c := msg.conn
      if (d.conn c).state ≠ 1 || cwNode (d.cw0 c) ≠ msg.src then d
      else if ok then d.establish c
      else
        let d := d.modConn c (fun x => { x with notReady := x.notReady + 1, timeouts := 0 })
        if d.get F.hawConnCfg_RETRY_LIMIT ≤ (d.conn c).notReady then d.connLost c 5 else d
    | _ => d

/-- CLOSE (14 R549): the remote end has closed. -/
def execClose (port : Nat) (msg : LinkMsg) (s : State) : Out :=
  actUp s fun d => match msg.body with
    | .close => d.onMessage port msg fun d =>
      let c := msg.conn
      if (d.conn c).state = 2 && cwNode (d.cw0 c) == msg.src then d.connLost c 3 else d
    | _ => d

/-- Send every unacknowledged message of a connection's sequence again (14 R548). -/
def Dev.resend (d : Dev) (key c : Nat) : Dev :=
  let d := d.modConn key (fun x => { x with lastProgress := d.now })
  (d.conn key).unacked.foldl (fun d u => if (d.conn c).state = 2 then d.sendOr c u.msg else d) d

/-- The sequences of an entry: its own, and a group's with each neighbour. -/
def Dev.connKeys (d : Dev) (c : Nat) : List Nat :=
  c :: ((List.range 6).map (fun i => 4096 + 8 * c + i)).filter (fun k => !(d.conn k).unacked.isEmpty)

/-- A sequence has had no progress for RTO_US. -/
def Dev.rtoOver (d : Dev) (key : Nat) : Bool :=
  decide ((d.conn key).lastProgress + d.get F.hawConnCfg_RTO_US * 1000 ≤ d.now)

/-- A sequence of a connection is looked at: without progress for RTO_US, OPEN or every unacknowledged message
is sent again, and after RETRY_LIMIT timeouts the connection is LOST (14 R546, R548, R549). -/
def Dev.retransmit (d : Dev) (conn key : Nat) : Dev :=
  let x := d.conn key
  let st := (d.conn conn).state
  if !d.rtoOver key || !(st == 1 && key == conn || st == 2 && !x.unacked.isEmpty) then d
  else
    let d := d.modConn key (fun x => { x with timeouts := x.timeouts + 1 })
    if d.get F.hawConnCfg_RETRY_LIMIT ≤ (d.conn key).timeouts then d.connLost conn 1
    else if st = 1 then (d.modConn key (fun x => { x with lastProgress := d.now })).sendOpen conn
    else d.resend key conn

/-- RETRANSMIT_TIMEOUT (14 R546, R548, R549): the sequences of an entry, each with its own timer. -/
def execRetransmitTimeout (conn : Nat) (s : State) : Out :=
  actUp s fun d => if conn < 4096 then (d.connKeys conn).foldl (fun d key => d.retransmit conn key) d else d

/-- What a tick does for connections: credits grow by GRANT, waiting messages go, and the entries of
ESTABLISHED connections are written (14 R545, R547). -/
def Dev.connTick (d : Dev) : Dev :=
  ((d.conns.map (·.1)).filter (fun c => c < 4096 && (d.conn c).state == 2)).foldl (fun d c =>
    let g : Int := d.grant c
    let d := d.modConn c (fun x => { x with credit := min g (x.credit + g) })
    (d.pump c 64).writeConn c) d

end Sys2Proof.Machine
end

