-- ==== Sys2Proof/Machine/Contexts.lean ====
section
/-! DEFINITION. Withdrawing translations (12 R476 to R478) and tearing a context down (12 R481, R482). -/
namespace Sys2Proof.Machine

/-! ### SEG_INVAL -/

/-- CONTEXT and SEG_MASK of a SEG_INVAL. -/
def Item.invCtx (it : Item) : Nat := it.f 1 7 0
def Item.invMask (it : Item) : Nat := it.f 1 21 8

/-- A page entry is covered: any of a covered segment under WHOLE, else one in the range (12 R476). -/
def Item.coversPage (it : Item) (p : PageEntry) : Bool :=
  p.ctx == it.invCtx && bit it.invMask p.seg &&
  (it.b 1 22 || decide (it.w 2 / 2 ^ 21 ≤ p.page ∧ p.page < (it.w 2 + it.w 3) / 2 ^ 21))

/-- A descriptor is covered: only under WHOLE (12 R476). -/
def Item.coversSeg (it : Item) (e : SegEntry) : Bool := it.b 1 22 && e.ctx == it.invCtx && bit it.invMask e.seg

/-- Mark every covered entry stale and begin to drain (12 R477). -/
def Dev.segInval (d : Dev) (it : Item) : Dev :=
  { d with
    xlat := d.xlat.map (fun e => (e.1, { e.2 with
      segs := e.2.segs.map (fun s => if it.coversSeg s then { s with stale := true } else s)
      pages := e.2.pages.map (fun p => if it.coversPage p then { p with stale := true } else p) }))
    draining := d.draining ++ [(it.ring, it.index)] }

/-- A released SEG_INVAL that has not yet been taken up. -/
def Dev.onInval (d : Dev) (ring index : Nat) (whole : Bool) : Dev :=
  d.onItem ring index (fun it => it.typ == tSegInval && it.b 1 22 == whole && !d.draining.contains (ring, index)) d.segInval

/-- SEG_INVAL_WHOLE (12 R476, R477). -/
def execSegInvalWhole (ring index : Nat) (s : State) : Out := actUp s fun d => d.onInval ring index true
/-- SEG_INVAL_RANGE (12 R476, R477). -/
def execSegInvalRange (ring index : Nat) (s : State) : Out := actUp s fun d => d.onInval ring index false

/-- SEG_INVAL_DRAINED (12 R477): once no wave of the context is in flight, stale entries are removed and
the item completes. Every other access is complete at the command that makes it. -/
def execSegInvalDrained (ring index : Nat) (s : State) : Out :=
  actUp s fun d => d.onItem ring index (fun it => it.typ == tSegInval && d.draining.contains (ring, index)) fun it =>
    let busy := d.hbmStacks.any (fun e => e.2.waves.any (fun w =>
      match d.item? w.ring w.index with | some o => o.ctx == it.invCtx | none => false))
    if busy then d
    else
      let d : Dev := { d with
        xlat := (d.xlat.map (fun e => (e.1, ({
          segs := e.2.segs.filter (fun s => !(s.stale && it.coversSeg s))
          pages := e.2.pages.filter (fun p => !(p.stale && it.coversPage p)) } : Xlat)))).filter (fun e => e.2 != .new)
        draining := d.draining.filter (fun r => r != (ring, index)) }
      (d.addSat F.segWalkStatus_INVALS 1).finish ring index 0

/-! ### Teardown -/

/-- A teardown of a context is asked for by a hart (12 R481, R482). -/
def Dev.teardown (d : Dev) (hart ctx : Nat) : Dev :=
  if ctx = 0 || (d.ctx ctx).state = 2 then d.refuse hart (Reg.offset .segCtxCmd 0)
  else
    let d := d.modCtx ctx (fun c => { c with state := 2 })
    let d := d.liveRings.foldl (fun d n => if d.ringCtx n = ctx then d.setRing n 4 else d) d
    let n := (d.items.filter (fun it => it.ctx = ctx && it.status = some 0x14)).length
    let d := d.endItems ctx 0x12 0x14
    let m := (d.items.filter (fun it => it.ctx = ctx && it.status = some 0x14)).length
    (d.modCtx ctx (fun c => { c with cancelled := m - n })).accepted

/-- TEARDOWN (12 R481, R482): a hart writes SEG_CTX_CMD with TEARDOWN. -/
def execTeardown (hart ctx : Nat) (s : State) : Out :=
  actUp s fun d => if d.hartUp hart && ctx < 256 then d.teardown hart ctx else d

/-- A context's translation entries are removed (12 R481). -/
def Dev.dropXlat (d : Dev) (p : Nat → Bool) (ctx : Nat) : Dev :=
  { d with xlat := (d.xlat.map (fun e => if p e.1 then (e.1, ({
      segs := e.2.segs.filter (fun s => s.ctx ≠ ctx)
      pages := e.2.pages.filter (fun q => q.ctx ≠ ctx) } : Xlat)) else e)).filter (fun e => e.2 != .new) }

/-- The open connections of a context. -/
def Dev.ctxConns (d : Dev) (ctx : Nat) : List Nat :=
  (d.conns.map (·.1)).filter (fun c => c < 4096 && (d.conn c).state ≠ 0 && cwValid (d.cw0 c) && cwCtx (d.cw0 c) == ctx)

/-- CTX_TEARDOWN_DONE (12 R481 steps 3 to 5): its caches are written back and cleared, its connections
close, and the context is LIVE again. -/
def execCtxTeardownDone (ctx : Nat) (s : State) : Out :=
  actUp s fun d => if ctx < 256 && (d.ctx ctx).state = 2 && !(d.launches.any (fun l => l.ctx = ctx)) then
    let d := d.invalOwner ctx
    let d := d.dropXlat (fun _ => true) ctx
    let d := (d.ctxConns ctx).foldl Dev.connClose d
    let n := (d.ctx ctx).cancelled
    let d := d.modCtx ctx (fun c => { c with state := 0, faultVa := 0, faultInfo := 0, cancelled := 0 })
    d.note 0x6211 0 [(1, ctx), (4, n)]
  else d

end Sys2Proof.Machine
end

