-- ==== Sys2Proof/Machine/Coherence.lean ====
section
/-! DEFINITION. The commands of the snoop ring (13 R496 to R501), the cache-block operations and the
atomics of host cores (13 R500, R502). -/
namespace Sys2Proof.Machine

/-- The number of pool lines. -/
def poolLines : Nat := 2 ^ 34

/-- A request of an L2, whose copy of the line has the state code `st`. -/
def Dev.l2Request (d : Dev) (agent line : Nat) (ok : Nat → Bool) (kind : ReqKind) : Dev :=
  if agent < 12 && line < poolLines && d.hostUp && ok (d.coh.st agent line) then
    d.request { kind := kind, agent := agent, line := line }
  else d

/-- GETS (13 R497): an L2 without a copy. -/
def execGets (agent line : Nat) (s : State) : Out := actUp s fun d => d.l2Request agent line (· == 0) .getS
/-- GETM (13 R497): an L2 without a copy. -/
def execGetm (agent line : Nat) (s : State) : Out := actUp s fun d => d.l2Request agent line (· == 0) .getM
/-- CLAIM (13 R497): an L2 that holds the line in S or O. -/
def execClaim (agent line : Nat) (s : State) : Out :=
  actUp s fun d => d.l2Request agent line (fun st => st == 1 || st == 3) .claim
/-- CLEAN (13 R497). -/
def execClean (agent line : Nat) (s : State) : Out := actUp s fun d => d.l2Request agent line (fun _ => true) .clean
/-- PURGE (13 R497). -/
def execPurge (agent line : Nat) (s : State) : Out := actUp s fun d => d.l2Request agent line (fun _ => true) .purge
/-- DISCARD (13 R497). -/
def execDiscard (agent line : Nat) (s : State) : Out := actUp s fun d => d.l2Request agent line (fun _ => true) .discard

/-- LOOK (13 R497): from an L2, the I/O agent (12) or the hub side (14). -/
def execLook (agent line : Nat) (s : State) : Out :=
  actUp s fun d => if line < poolLines && (agent = 14 || (agent < 13 && d.hostUp)) then
    d.request { kind := .look, agent := agent, line := line } else d

/-- PUTFULL (13 R497): from the I/O agent (12) or the hub side (14), a whole line. -/
def execPutfull (agent line : Nat) (data : List Byte) (s : State) : Out :=
  actUp s fun d => if line < poolLines && data.length = 64 && (agent = 14 || (agent = 12 && d.hostUp)) then
    d.request { kind := .putFull, agent := agent, line := line, data := data } else d

/-- An operation and size that an atomic may have: FADD only on 4 and 8 bytes. -/
def amoOk (op : AtomicOp) (size pa : Nat) : Bool :=
  [1, 2, 4, 8, 16].contains size && pa % size == 0 && (op != .fadd || size == 4 || size == 8)

/-- ATOMICHOME (13 R497, R502). -/
def execAtomichome (agent pa size : Nat) (op : AtomicOp) (operand compare : Nat) (s : State) : Out :=
  actUp s fun d => if pa < 2 ^ 40 && amoOk op size pa && (agent = 14 || (agent < 13 && d.hostUp)) then
    d.request { kind := .atomicHome, agent := agent, line := pa / 64, op := op, off := pa % 64, size := size,
                operand := operand, compare := compare }
  else d

/-! ### Probes and answers -/

/-- An agent handles a probe that the current transaction of a line has sent to it. -/
def Dev.probed (d : Dev) (agent line : Nat) (p : Probe) : Dev :=
  match d.coh.txn line with
  | some t => if t.probes.contains agent && decide (t.kind.probe = p) then d.probe agent line p else d
  | none => d

/-- PROBESHARE (13 R497). -/
def execProbeshare (agent line : Nat) (s : State) : Out := actUp s fun d => d.probed agent line .share
/-- PROBETAKE (13 R497). -/
def execProbetake (agent line : Nat) (s : State) : Out := actUp s fun d => d.probed agent line .take
/-- PROBECLEAN (13 R497). -/
def execProbeclean (agent line : Nat) (s : State) : Out := actUp s fun d => d.probed agent line .clean

/-- The home evicts a system-cache line that an L2 holds in E, M or O: the L2 gives its copy up with any
dirty data, and the newest data goes to memory (13 R499). -/
def Dev.evict (d : Dev) (agent line : Nat) : Dev :=
  match d.coh.held agent line with
  | none => d
  | some l => if l.st < 2 then d else
    let v := if 3 ≤ l.st then some (l.data, l.poisoned)
      else (d.coh.sysLine line).bind (fun x => if x.dirty then some (x.data, x.poisoned) else none)
    let d := match v with
      | some (bs, p) => d.homeStore line bs p
      | none => d
    d.modCoh (fun c => (c.dropHeld agent line).dropSys line)

/-- PROBEDROP (13 R497, R499, R501): of the line's transaction, or of the home's eviction of the line. -/
def execProbedrop (agent line : Nat) (s : State) : Out :=
  actUp s fun d => if (d.coh.txn line).isSome then d.probed agent line .drop else d.evict agent line

/-- RETIRE (13 R497): an L2 evicts an M or O line; its data is kept in the system cache. -/
def execRetire (agent line : Nat) (s : State) : Out :=
  actUp s fun d => match d.coh.held agent line with
    | some l => if l.st < 3 then d else
      d.modCoh (fun c => (c.dropHeld agent line).setSys { line := line, data := l.data, dirty := true, poisoned := l.poisoned })
    | none => d

/-- YIELD (13 R497): an L2 evicts an E line. -/
def execYield (agent line : Nat) (s : State) : Out :=
  actUp s fun d => if d.coh.st agent line = 2 then d.modCoh (fun c => c.dropHeld agent line) else d

/-- The kinds whose grant carries data. -/
def ReqKind.answersData : ReqKind → Bool
  | .getS => true
  | .getM => true
  | .look => true
  | .atomicHome => true
  | _ => false

/-- The current transaction of a line, if all its snoops are answered, its requester is `agent` and its
answer is of the class asked for, ends. -/
def Dev.conclude (d : Dev) (agent line : Nat) (data : Bool) : Dev :=
  match d.coh.txn line with
  | none => d
  | some t =>
    if t.waiting.isEmpty && t.agent == agent && t.kind.answersData == data then
      let (d, r) := d.finishTxn t
      d.answer r
    else d

/-- SNOOP_RESPONSE (13 R497, R498): the home receives an agent's acknowledgement, or the requester
receives its completion. -/
def execSnoopResponse (agent line : Nat) (s : State) : Out :=
  actUp s fun d => match d.coh.txn line with
    | none => d
    | some t =>
      if t.waiting.contains agent then
        if t.probes.contains agent then d
        else d.modTxn line (fun t => { t with waiting := t.waiting.filter (· != agent) })
      else d.conclude agent line false

/-- SNOOP_DATA (13 R497, R498): the requester receives line data, and with it the grant. -/
def execSnoopData (agent line : Nat) (s : State) : Out := actUp s fun d => d.conclude agent line true

/-! ### Cache-block operations (13 R500) -/

/-- A cache-block operation of a hart on a line: the register window answers with an error, and what is
not pool memory with a fault (13 R490, 18 R661). -/
def Dev.cacheBlock (d : Dev) (hart pa : Nat) (kind : ReqKind) : Dev :=
  if !d.hartUp hart then d else
  match space pa with
  | .pool => match d.paErr pa 1 with
    | some e => (d.logAcc e (locHart hart)).answer .storeFault
    | none =>
      let (d, r) := d.serve { kind := kind, agent := hart / 8, line := pa / 64 }
      d.answer r
  | .regs off => d.regError (.host hart) true off 1
  | .unmapped => (d.note 0x2040 (locHart hart)).answer .storeFault
  | _ => d.answer .storeFault

/-- CBO_CLEAN (13 R500). -/
def execCboClean (hart pa : Nat) (s : State) : Out := actUp s fun d => d.cacheBlock hart pa .clean
/-- CBO_FLUSH (13 R500). -/
def execCboFlush (hart pa : Nat) (s : State) : Out := actUp s fun d => d.cacheBlock hart pa .purge
/-- CBO_INVAL (13 R500): `permitted` when menvcfg.CBIE and senvcfg.CBIE permit invalidation. -/
def execCboInval (hart pa : Nat) (permitted : Bool) (s : State) : Out :=
  actUp s fun d => d.cacheBlock hart pa (if permitted then .discard else .purge)

/-! ### Host atomics (13 R502) -/

/-- Other harts of the same L2 lose reservations on the bytes a store writes. -/
def Coherence.stripResv (c : Coherence) (hart pa size : Nat) : Coherence :=
  { c with resv := c.resv.filter (fun r =>
      r.1 == hart || r.1 / 8 != hart / 8 || decide (r.2.1 + r.2.2 ≤ pa ∨ pa + size ≤ r.2.1)) }

/-- Store into a line that a hart's L2 holds in E or M: the line is then in M. -/
def Dev.storeHeld (d : Dev) (hart pa size v : Nat) (l : L2Line) : Dev :=
  d.modCoh (fun c => (c.setHeld (hart / 8) { l with st := 4, data := patch l.data (pa % 64) size v }).stripResv hart pa size)

/-- An atomic on a cacheable pool line: in the L1 of a core whose L2 holds the line in E or M, at the home
otherwise. -/
def Dev.atomicCacheable (d : Dev) (hart pa size : Nat) (op : AtomicOp) (x cmp : Nat) : Dev :=
  match d.paErr pa size with
  | some e => (d.logAcc e (locHart hart)).answer .storeFault
  | none =>
    let home := fun (d : Dev) =>
      let (d, r) := d.serve { kind := .atomicHome, agent := hart / 8, line := pa / 64, op := op, off := pa % 64,
                              size := size, operand := x, compare := cmp }
      d.answer r
    match d.coh.held (hart / 8) (pa / 64) with
    | none => home d
    | some l =>
      if l.st = 2 || l.st = 4 then
        if l.poisoned then d.answer .storeFault else
        let old := leNat ((l.data.drop (pa % 64)).take size)
        (d.storeHeld hart pa size (amoNew op size old x cmp) l).answer (.data (leBytes size old))
      else home d

/-- A unit's atomic as a hart's request; only 32 and 64 bits have a counterpart there. -/
def hostReq (hart pa size x cmp : Nat) : AtomicReq :=
  { req := .hart hart, pa := pa, wide := decide (size = 8), h16 := false, shared := false,
    operand := BitVec.ofNat 64 x, compare := BitVec.ofNat 64 cmp, ecc := .clean, item := none, va := 0 }

/-- An atomic at a local-memory bank (13 R502). -/
def Dev.atomicLocal (d : Dev) (hart pa size : Nat) (op : AtomicOp) (x cmp : Nat) : Dev :=
  let d := d.reach pa size
  match d.atomicAt pa size false (fun old => amoNew op size old x cmp) with
  | .ok (d, old) => d.answer (.data (leBytes size old))
  | .error e => (d.logAcc e (locHart hart)).answer .storeFault

/-- Where an atomic of a host core is performed (13 R502). -/
def Dev.hostAtomic (d : Dev) (hart : Nat) (op : AtomicOp) (size : Nat) (cacheable : Bool) (pa x cmp : Nat) : Dev :=
  let unit := size = 4 || size = 8
  if op = .fadd then d
  else if !amoOk op size pa then
    match space pa with
    | .regs off => d.regError (.host hart) true off 1
    | _ => d.answer .storeFault
  else match space pa with
    | .pool =>
      if cacheable then d.atomicCacheable hart pa size op x cmp
      else if unit then d.farOp (hostReq hart pa size x cmp) op
      else d.answer .storeFault
    | .warehouse _ _ => if unit then d.whOp (hostReq hart pa size x cmp) op else d.answer .storeFault
    | .localMem _ _ => if size = 16 then d.answer .storeFault else d.atomicLocal hart pa size op x cmp
    | .regs off => d.regError (.host hart) true off 1
    | .unmapped => (d.note 0x2040 (locHart hart)).answer .storeFault
    | .host => d.answer .storeFault

/-- HOST_ATOMIC (13 R502). -/
def execHostAtomic (hart : Nat) (op : AtomicOp) (size : Nat) (cacheable : Bool) (pa operand compare : Nat)
    (s : State) : Out :=
  actUp s fun d => if d.hartUp hart then d.hostAtomic hart op size cacheable pa operand compare else d

end Sys2Proof.Machine
end

