-- ==== Sys2Proof/Machine/Links.lean ====
section
/-! DEFINITION. The links between the dies of the package (01 R25 to R28, R48 to R57): module training,
width exchange, disputes, links leaving ACTIVE, detours and isolated decks. -/
namespace Sys2Proof.Machine

/-- A deck has a link at a slot (01 R25). -/
def hasSlot (k slot : Nat) : Bool :=
  decide (k < 8) && (slot == 0 || slot == 1 || (slot == 2 && [1, 2, 5, 6].contains k) ||
    (slot == 3 && [0, 1, 3, 4, 6, 7].contains k))

/-- The deck at the other end of a deck–deck link. -/
def otherDeck (k slot : Nat) : Nat := if slot = 0 then k ^^^ 1 else k ^^^ 4

/-- A link by its near end, as 4·deck + slot; the near end of a deck–deck link is its lower deck, and
32 is the hub–host link. -/
def linkKey : LinkId → Nat
  | .deck k slot => if slot < 2 then 4 * min k (otherDeck k slot) + slot else 4 * k + slot
  | .hubHost => 32

/-- A link that the package has. -/
def linkOk : LinkId → Bool
  | .deck k slot => hasSlot k slot
  | .hubHost => true

/-- A link by its key. -/
def linkOf (key : Nat) : LinkId := if key = 32 then .hubHost else .deck (key / 4) (key % 4)

/-- The number of modules of a link (01 R26). -/
def modulesOf (key : Nat) : Nat := if key = 32 || key % 4 = 3 then 4 else 16

/-- A link. -/
def Dev.link (d : Dev) (key : Nat) : Link := tget .new d.links key

/-- The status registers that report a link, by index in DCK_D2D_STATUS (01 R57). -/
def linkRegs (key : Nat) : List Nat :=
  if key % 4 < 2 then [key, 4 * otherDeck (key / 4) (key % 4) + key % 4] else [key]

/-- A field of a link's status. -/
def Dev.linkGet (d : Dev) (deck host : Fld) (key : Nat) : Nat := if key = 32 then d.get host 0 else d.get deck key

/-- Set a field of a link's status at both ends. -/
def Dev.linkPut (d : Dev) (deck host : Fld) (v key : Nat) : Dev :=
  if key = 32 then d.put host v 0 else (linkRegs key).foldl (fun d i => d.put deck v i) d

/-- The state of a link. -/
def Dev.linkState (d : Dev) (key : Nat) : Nat := d.linkGet F.dckD2dStatus_STATE F.mntHostLinkStatus_STATE key
/-- Set the state of a link. -/
def Dev.setLinkState (d : Dev) (key st : Nat) : Dev := d.linkPut F.dckD2dStatus_STATE F.mntHostLinkStatus_STATE st key
/-- Set the number of width exchanges of the training in progress. -/
def Dev.setExchanges (d : Dev) (key n : Nat) : Dev :=
  d.linkPut F.dckD2dStatus_EXCHANGES F.mntHostLinkStatus_EXCHANGES n key

/-- The bits of the modules whose width passes a test. -/
def widthMask (n : Nat) (t : Tbl Nat) (p : Nat → Bool) : Nat :=
  ((List.range n).map (fun i => if p (tget 0 t i) then 2 ^ i else 0)).sum

/-- Show the widths a link has adopted. -/
def Dev.showWidths (d : Dev) (key : Nat) : Dev :=
  let t := (d.link key).near
  let n := modulesOf key
  (d.linkPut F.dckD2dStatus_LIVE F.mntHostLinkStatus_LIVE (widthMask n t (fun w => w != 0)) key).linkPut
    F.dckD2dStatus_DEGRADED F.mntHostLinkStatus_DEGRADED (widthMask n t (fun w => w == 1)) key

/-! ### Detours and isolation (01 R53 to R56) -/

/-- The decks that links in ACTIVE join to the hub. -/
def Dev.reached (d : Dev) : Nat → List Nat → List Nat
  | 0, seen => seen
  | n + 1, seen =>
    let more := (List.range 8).filter (fun k => !seen.contains k &&
      ((List.range 2).any (fun s => seen.contains (otherDeck k s) && d.linkState (linkKey (.deck k s)) == 4) ||
        (hasSlot k 2 && d.linkState (4 * k + 2) == 4)))
    if more.isEmpty then seen else d.reached n (seen ++ more)

/-- The decks that can be reached from the hub. -/
def Dev.reachable (d : Dev) : List Nat := d.reached 8 []

/-- The two nodes a deck–deck or deck–hub link joins; the hub is node 8. -/
def linkEnds (key : Nat) : Nat × Nat := if key % 4 = 2 then (key / 4, 8) else (key / 4, otherDeck (key / 4) (key % 4))

/-- The links between decks and hub, each once. -/
def meshLinks : List Nat :=
  (List.range 32).filter (fun key => key % 4 != 3 && hasSlot (key / 4) (key % 4) && linkKey (linkOf key) == key)

/-- The neighbours of a node over some links, ascending. -/
def meshNext (links : List Nat) (a : Nat) : List Nat :=
  (List.range 9).filter (fun b => links.any (fun k => linkEnds k == (a, b) || linkEnds k == (b, a)))

/-- Distances from the hub over some links, in a breadth-first spanning tree rooted there (01 R55). -/
def hubLevels (links : List Nat) : Nat → List Nat → List Nat
  | 0, lv => lv
  | n + 1, lv => hubLevels links n ((List.range 9).map (fun v =>
      (meshNext links v).foldl (fun m u => min m (lv.getD u 99 + 1)) (lv.getD v 99)))

/-- A step from `a` to `b` goes up: toward the root, between equals toward the lower number. -/
def goesUp (lv : List Nat) (a b : Nat) : Bool :=
  decide (lv.getD b 99 < lv.getD a 99 ∨ (lv.getD b 99 = lv.getD a 99 ∧ b < a))

/-- Paths that go up and then down, shortest first and lower nodes first: each with whether it has gone
down. A node is entered once before and once after the turn. -/
def upDownPaths (links lv : List Nat) : Nat → List (List Nat × Bool) → List (Nat × Bool) → List (List Nat)
  | 0, _, _ => []
  | n + 1, front, seen =>
    let step := fun (acc : List (List Nat × Bool) × List (Nat × Bool)) (p : List Nat × Bool) =>
      (meshNext links (p.1.getLastD 8)).foldl (fun acc b =>
        let up := goesUp lv (p.1.getLastD 8) b
        if (p.2 && up) || acc.2.contains (b, !up) then acc else (acc.1 ++ [(p.1 ++ [b], !up)], acc.2 ++ [(b, !up)])) acc
    let nxt := front.foldl step ([], seen)
    nxt.1.map (·.1) ++ upDownPaths links lv n nxt.1 nxt.2

/-- The REROUTE tables over some links: up*/down* routes, the shortest of each pair (01 R55). -/
def upDownRoutes (links : List Nat) : List (Nat × Nat × List Nat) :=
  let lv := hubLevels links 9 ((List.range 9).map (fun v => if v = 8 then 0 else 99))
  (List.range 9).flatMap (fun a =>
    let ps := upDownPaths links lv 16 [([a], false)] [(a, false)]
    (List.range 9).filterMap (fun b => if a = b then none else (ps.find? (fun p => p.getLastD 8 == b)).map (fun p => (a, b, p))))

/-- The links between decks and hub that carry traffic. -/
def Dev.meshUp (d : Dev) : List Nat := meshLinks.filter (fun k => d.linkState k == 4)

/-- REROUTE tables for the links that are down; none are needed while every link carries traffic. -/
def Dev.rerouteFor (d : Dev) (down : List Nat) : Reroute :=
  { links := down, routes := if down.isEmpty then [] else upDownRoutes d.meshUp }

/-- The NORMAL route between two nodes: horizontal steps and then a vertical one, with the hub between
decks 1 and 2 and between decks 5 and 6 (01 R25, R45). -/
def normalRoute (a b : Nat) : List Nat :=
  if a = 8 then
    let entry := 4 * (b / 4) + (if b % 4 < 2 then 1 else 2)
    8 :: entry :: (if entry = b then [] else [b])
  else if b = 8 then
    let door := 4 * (a / 4) + (if a % 4 < 2 then 1 else 2)
    (if door = a then [a] else [a, door]) ++ [8]
  else
    let row := 4 * (a / 4)
    let cols := if a % 4 ≤ b % 4 then (rangeFrom (a % 4) (b % 4 + 1 - a % 4))
      else (rangeFrom (b % 4) (a % 4 + 1 - b % 4)).reverse
    let line := cols.flatMap (fun c =>
      if (a % 4 < 2 && c = 2) || (2 ≤ a % 4 && c = 1) then [8, row + c] else [row + c])
    line ++ (if a / 4 = b / 4 then [] else [b])

/-- The route in force between two nodes: the detour where the NORMAL route would cross a detoured link. -/
def Dev.packageRoute (d : Dev) (a b : Nat) : List Nat :=
  let r := normalRoute a b
  let uses := fun (k : Nat) => (List.zip r r.tail).any (fun s => s == linkEnds k || (s.2, s.1) == linkEnds k)
  if d.rerouted.links.any uses then
    ((d.rerouted.routes.find? (fun e => e.1 == a && e.2.1 == b)).map (·.2.2)).getD r
  else r

/-- A launch touches a deck. -/
def Dev.launchOnDeck (d : Dev) (l : Launch) (k : Nat) : Bool := l.clusters.any (fun lc => d.deckOfDie (lc / 4) == k)

/-- Decks that cannot be reached are isolated: launches, and items of their cranes and lighters, fail
(01 R56). -/
def Dev.isolate (d : Dev) : Dev :=
  let up := d.reachable
  (List.range 8).foldl (fun d k =>
    let was := (tget .new d.decks k).isolated
    let d := d.modDeck k (fun x => { x with isolated := !up.contains k })
    if was || up.contains k then d
    else
      let d := (d.launches.filter (fun l => l.start.isSome && d.launchOnDeck l k)).foldl
        (fun d l => d.failLaunch l.ring l.index 0x13) d
      { d with items := d.items.map (fun it =>
          if it.assigned && it.phase != .finished && (it.typ == tCrane && it.engine / 8 == k ||
              it.typ == tMove && d.deckOfDie (it.engine / 4) == k) then
            { it.finish 0x13 with pos := if it.started then it.reached else it.startPos }
          else it) }) d

/-- Stage the REROUTE tables for a set of detoured links (01 R55). -/
def Dev.stageRoutes (d : Dev) (down : List Nat) : Dev := { d with rerouteStaged := some (d.rerouteFor down) }

/-- The detoured links that the next tick will know. -/
def Dev.detours (d : Dev) : List Nat := (d.rerouteStaged.getD d.rerouted).links

/-- A link that left ACTIVE: its packets take detours from the next tick; an optical attachment has none,
and the hub–host link starts the wait of 01 R57. -/
def Dev.linkLost (d : Dev) (key : Nat) : Dev :=
  let d := d.modLink key (fun l => { l with downSince := some d.now })
  if key = 32 then d
  else if key % 4 = 3 then
    match (List.range 6).find? (fun p => portDeck p == key / 4) with
    | some p => d.portDown p (Config.causeCode 0x4002 6)
    | none => d
  else
    (d.stageRoutes (if d.detours.contains key then d.detours else d.detours ++ [key])).isolate

/-- A link is trained from scratch: no width is known (01 R50). -/
def Dev.scratch (d : Dev) (key st : Nat) : Dev :=
  ((d.setLinkState key st).modLink key (fun l => { l with near := [], far := [], nearDone := [], farDone := [] })).setExchanges key 0

/-- A link has come back: its normal routes return at the next tick (01 R57). -/
def Dev.linkBack (d : Dev) (key : Nat) : Dev :=
  let d := d.modLink key (fun l => { l with downSince := none, disputes := 0 })
  let d := if d.detours.contains key then d.stageRoutes (d.detours.filter (· != key)) else d
  if key = 32 || key % 4 = 3 then d else d.isolate

/-- TICK: the staged package routes swap (01 R47, R55). -/
def Dev.swapReroutes (d : Dev) : Dev :=
  match d.rerouteStaged with
  | some l => { d with rerouted := l, rerouteStaged := none }
  | none => d

/-- D2D_LINK_DOWN (01 R53 to R57): a link leaves ACTIVE and its modules train again. -/
def execD2dLinkDown (link : LinkId) (s : State) : Out :=
  actUp s fun d =>
    let key := linkKey link
    if linkOk link && d.linkState key = 4 then
      let loc := match link with | .deck k _ => locDeck k | .hubHost => locHub
      let slot := match link with | .deck _ sl => sl | .hubHost => 0
      ((d.note 0x3001 loc [(1, slot)]).scratch key 2).linkLost key
    else d

/-! ### Training (01 R48 to R52) -/

/-- Both ends have trained every module: the widths are exchanged. -/
def Dev.trainedAll (d : Dev) (key : Nat) : Dev :=
  let l := d.link key
  let n := modulesOf key
  if n ≤ l.nearDone.length && n ≤ l.farDone.length && d.linkState key ≠ 3 then d.setLinkState key 3 else d

/-- MODULE_TRAINING_DONE (01 R48): one end finishes one module at full (2), degraded (1) or failed (0)
width. -/
def execModuleTrainingDone (link : LinkId) (far : Bool) (module width : Nat) (s : State) : Out :=
  actOn s fun d =>
    let key := linkKey link
    let st := d.linkState key
    if linkOk link && decide (module < modulesOf key) && (st == 2 || st == 3 || st == 5) then
      let w := min 2 width
      let flip := match link with
        | .deck k sl => decide (sl < 2 ∧ k ≠ key / 4)
        | .hubHost => false
      let add := fun (l : List Nat) => if l.contains module then l else l ++ [module]
      (d.modLink key (fun l =>
        if far != flip then { l with far := tset 0 l.far module w, farDone := add l.farDone }
        else { l with near := tset 0 l.near module w, nearDone := add l.nearDone })).trainedAll key
    else d

/-- Equal widths: ACTIVE with at least half the modules, DOWN otherwise (01 R52). -/
def Dev.settleLink (d : Dev) (key : Nat) : Dev :=
  let n := modulesOf key
  let live := ((List.range n).filter (fun i => tget 0 (d.link key).near i != 0)).length
  let d := d.showWidths key
  if n ≤ 2 * live then (d.setLinkState key 4).linkBack key else d.setLinkState key 6

/-- Widths still differ after the third exchange: WIDTH_DISPUTE, and DOWN at the third in a row (01 R50,
R51). -/
def Dev.dispute (d : Dev) (key : Nat) : Dev :=
  let n := (d.link key).disputes + 1
  let d := d.linkPut F.dckD2dStatus_DISPUTES F.mntHostLinkStatus_DISPUTES
    (min 255 (d.linkGet F.dckD2dStatus_DISPUTES F.mntHostLinkStatus_DISPUTES key + 1)) key
  let loc := if key = 32 then locHub else locDeck (key / 4)
  let d := (d.note 0x3002 loc [(1, if key = 32 then 0 else key % 4)]).modLink key (fun l => { l with disputes := n })
  d.scratch key (if 3 ≤ n then 6 else 5)

/-- The narrower of two width vectors. -/
def narrower (n : Nat) (a b : Tbl Nat) : Tbl Nat :=
  (List.range n).foldl (fun t i => tset 0 t i (min (tget 0 a i) (tget 0 b i))) []

/-- WIDTH_EXCHANGE (01 R49 to R52): the ends send their vectors; equal ones settle the link, others are
narrowed, and a third that differs is a dispute (log entry 22). -/
def execWidthExchange (link : LinkId) (s : State) : Out :=
  actOn s fun d =>
    let key := linkKey link
    if linkOk link && d.linkState key == 3 then
      let l := d.link key
      let e := d.linkGet F.dckD2dStatus_EXCHANGES F.mntHostLinkStatus_EXCHANGES key + 1
      let d := d.setExchanges key (min 3 e)
      if l.near = l.far then d.settleLink key
      else if 3 ≤ e then d.dispute key
      else
        let v := narrower (modulesOf key) l.near l.far
        d.modLink key (fun l => { l with near := v, far := v })
    else d

/-- A link trained at start-up, by its two ends' width codes (16 R594 step 4). -/
def Dev.trainedLink (d : Dev) (r : LinkTraining) : Dev :=
  if !linkOk r.link then d else
  let key := linkKey r.link
  let n := modulesOf key
  let v := (List.range n).foldl (fun t i => tset 0 t i (min 2 (min (r.near.getD i 0) (r.far.getD i 0)))) []
  let code := fun (w : List Nat) => (List.range n).map (fun i => min 2 (w.getD i 0))
  let e := if code r.near = code r.far then 1 else 2
  let all := List.range n
  ((d.modLink key (fun l => { l with near := v, far := v, nearDone := all, farDone := all })).setExchanges key e).settleLink key

end Sys2Proof.Machine
end

