-- ==== Sys2Proof/Machine/Approx.lean ====
section
/-! DEFINITION. Transcendental values in fixed point, and what the manual's error bounds allow: a result
within 1 ulp of an exact value (07 R290, R301) and a transform within its norm (09 R369). The exact value
is approximated far below any ulp; the bound of 1 ulp is widened by the approximation's own error only, so
that a result the manual allows is never refused. -/
namespace Sys2Proof.Machine

/-- A fixed-point number: an integer times 2^(−512). -/
abbrev Fx := Int

/-- One. -/
def fxOne : Fx := (2 ^ 512 : Nat)
/-- Product. -/
def fxMul (a b : Fx) : Fx := a * b / fxOne
/-- Quotient. -/
def fxDiv (a b : Fx) : Fx := a * fxOne / b
/-- Square root. -/
def fxSqrt (a : Fx) : Fx := Int.ofNat (isqrt 600 (a * fxOne).toNat)
/-- A value as a fixed-point number. -/
def fxOf (x : QR) : Fx := (x.shift 512).floorInt
/-- A fixed-point number as a value. -/
def fxVal (a : Fx) : QR := QR.ofRat a (2 ^ 512)

/-- The odd power series Σ s^i·z^(2i+1)/(2i+1) of `n` terms: arctangent for s = −1, its hyperbolic
counterpart for s = 1. -/
def fxOdd (s z : Int) (n : Nat) : Fx :=
  let z2 := fxMul z z
  ((List.range n).foldl (fun (acc : Fx × Fx) (i : Nat) => (acc.1 + acc.2 / (2 * (i : Int) + 1), s * fxMul acc.2 z2)) (0, z)).1

/-- ln 2. -/
def fxLn2 : Fx := 2 * fxOdd 1 (fxOne / 3) 170
/-- π. -/
def fxPi : Fx := 16 * fxOdd (-1) (fxOne / 5) 120 - 4 * fxOdd (-1) (fxOne / 239) 40

/-- e^x; beyond e^200 and below e^(−270) it stands for every greater and lesser value, which no element
format tells apart. -/
def fxExp (x : Fx) : Fx :=
  if 200 * fxOne < x then 2 ^ 200 * fxOne
  else if x < -270 * fxOne then 2 ^ 122
  else
    let k := x / fxLn2
    let r := x - k * fxLn2
    let e := ((List.range 110).foldl (fun (acc : Fx × Fx) (i : Nat) =>
      (acc.1 + acc.2, fxMul acc.2 r / ((i : Int) + 1))) (0, fxOne)).1
    if 0 ≤ k then e * (2 ^ k.toNat : Nat) else e / (2 ^ (-k).toNat : Nat)

/-- ln x for x > 0. -/
def fxLn (x : Fx) : Fx :=
  let k : Int := (x.toNat.log2 : Int) - 512
  let m := if 0 ≤ k then x / (2 ^ k.toNat : Nat) else x * (2 ^ (-k).toNat : Nat)
  2 * fxOdd 1 (fxDiv (m - fxOne) (m + fxOne)) 170 + k * fxLn2

/-- sin x. -/
def fxSin (x : Fx) : Fx :=
  let r := x % (2 * fxPi)
  let r2 := fxMul r r
  ((List.range 80).foldl (fun (acc : Fx × Fx) (i : Nat) =>
    (acc.1 + acc.2, -(fxMul acc.2 r2) / ((2 * (i : Int) + 2) * (2 * (i : Int) + 3)))) (0, r)).1

/-- sin πx, the argument reduced exactly. -/
def fxSinPi (x : Fx) : Fx := fxSin (fxMul (x % (2 * fxOne)) fxPi)

/-- erf x; beyond 12 it is ±1 but for less than 2^(−200). -/
def fxErf (x : Fx) : Fx :=
  if 12 * fxOne < x then fxOne - 2 ^ 312
  else if x < -12 * fxOne then 2 ^ 312 - fxOne
  else
    let x2 := fxMul x x
    let s := ((List.range 720).foldl (fun (acc : Fx × Fx) (i : Nat) =>
      (acc.1 + acc.2 / (2 * (i : Int) + 1), -(fxMul acc.2 x2) / ((i : Int) + 1))) (0, x)).1
    fxDiv (2 * s) (fxSqrt fxPi)

/-- 1/(1 + e^(−x)). -/
def fxSigmoid (x : Fx) : Fx :=
  if x < 0 then let e := fxExp x; fxDiv e (fxOne + e) else fxDiv fxOne (fxOne + fxExp (-x))

/-- The shipped functions at a finite argument within their domain (07 R289). -/
def sfExact (slot : Nat) (x : Fx) : Fx :=
  match slot with
  | 0 => fxExp (fxMul x fxLn2)
  | 1 => fxDiv (fxLn x) fxLn2
  | 2 => fxDiv fxOne x
  | 3 => fxDiv fxOne (fxSqrt x)
  | 4 => fxSqrt x
  | 5 => fxSin x
  | 6 => fxSin (x + fxPi / 2)
  | 7 => let t := fxExp (2 * x); fxDiv (t - fxOne) (t + fxOne)
  | 8 => fxSigmoid x
  | 9 => fxErf x
  | 10 => fxExp x
  | 11 => fxLn x
  | 12 => fxMul x (fxOne + fxErf (fxDiv x (fxSqrt (2 * fxOne)))) / 2
  | 13 => fxMul x (fxSigmoid x)
  | 14 => fxSinPi x
  | _ => fxSinPi (x + fxOne / 2)

/-- The exponent of a format's greatest finite value. -/
def FpFmt.topExpo (p : FpFmt) : Int := (p.maxE : Int) - p.bias

/-- The ulp of a value in a format; below the smallest normal magnitude the subnormal spacing
(07 R290). -/
def FpFmt.ulp (p : FpFmt) (y : Fx) : QR :=
  let e : Int := ((y.natAbs + 2 ^ 100).log2 : Int) - 512
  (QR.ofInt 1).shift (max e (1 - p.bias) - (p.mb : Int))

/-- How far the approximation of a value may lie from it. -/
def fxSlack (y : Fx) : QR := ((fxVal y).abs.shift (-200)).add ((QR.ofInt 1).shift (-360))

/-- A code lies within 1 ulp of a value and not on the other side of zero: an infinity stands for the first
value beyond the greatest finite one, and for every value beyond that. -/
def FpFmt.withinUlp (p : FpFmt) (c : Nat) (y : Fx) : Bool :=
  let u := (p.ulp y).add (fxSlack y)
  let top := (QR.ofInt 1).shift (p.topExpo + 1)
  match p.decode c with
  | .nan => false
  | .inf neg =>
    let z := if neg then (fxVal y).neg else fxVal y
    top.le (z.add u)
  | .fin x _ => (x.sub (fxVal y)).abs.le u && !(decide (x.sign < 0) && decide (0 < y)) && !(decide (0 < x.sign) && decide (y < 0))

/-- A result the manual allows: the free one where it lies within 1 ulp, the nearest one else. A zero has the
sign of the value it stands for (04 R161). -/
def FpFmt.within (p : FpFmt) (y : Fx) (free : Nat) : Nat :=
  if p.withinUlp free y then
    match p.decode free with
    | .fin x _ => if x.sign = 0 then p.rne (.fin QR.zero (decide (y < 0))) else free
    | _ => free
  else p.rne (.fin (fxVal y) (decide (y < 0)))

/-! ### Discrete Fourier transforms (09 R368, R369) -/

/-- cos 2πa/b and sin 2πa/b. -/
def fxTurn (a b : Nat) : Fx × Fx :=
  let t := fxOne * (2 * (a % b : Nat) : Int) / (b : Int)
  (fxSinPi (t + fxOne / 2), fxSinPi t)

/-- The exact transform along every dimension of complex elements with n0 fastest, scaled by 2^512:
output k is Σ_j x_j·e^(∓2πi(j0·k0/n0 + j1·k1/n1 + j2·k2/n2)), + under `inv`. Inputs are integers. -/
def dftExact (dims : List Nat) (inv : Bool) (ins : List (Int × Int)) : List (Int × Int) :=
  let n0 := dims.getD 0 1
  let n1 := dims.getD 1 1
  let n2 := dims.getD 2 1
  let n := n0 * n1 * n2
  let phase := fun (j k : Nat) =>
    (j % n0) * (k % n0) * (n1 * n2) + (j / n0 % n1) * (k / n0 % n1) * (n0 * n2) + (j / (n0 * n1)) * (k / (n0 * n1)) * (n0 * n1)
  let turns := (List.range n).map (fun a => fxTurn a n)
  (List.range n).map (fun k =>
    (ins.zipIdx).foldl (fun (acc : Int × Int) e =>
      let w := turns.getD (phase e.2 k % n) (0, 0)
      let s := if inv then w.2 else -w.2
      (acc.1 + e.1.1 * w.1 - e.1.2 * s, acc.2 + e.1.1 * s + e.1.2 * w.1)) (0, 0))

/-- ‖y − ŷ‖₂ ≤ bound · ‖ŷ‖₂ for vectors of integers at one scale; the bound is num/den. -/
def normWithin (num den : Nat) (ys zs : List (Int × Int)) : Bool :=
  let sq := fun (l : List (Int × Int)) => (l.map (fun c => c.1 * c.1 + c.2 * c.2)).foldl (· + ·) 0
  let diff := (List.zip ys zs).map (fun e => (e.1.1 - e.2.1, e.1.2 - e.2.2))
  decide ((den : Int) * den * sq diff ≤ (num : Int) * num * sq zs)

end Sys2Proof.Machine
end

