-- ==== Sys2Proof/Machine/Move.lean ====
section
/-! DEFINITION. MOVE items and the lighters that run them (11 R433 to R435, R475; 03 R112 to R114). -/
namespace Sys2Proof.Machine

/-- Element size of a MOVE (11 R433). -/
def Item.elemSize (it : Item) : Nat := 2 ^ it.f 1 3 0

/-- The five sizes of a MOVE or CONVERT parameter block (09 R353). -/
def Item.dims (it : Item) : List Nat :=
  [bits (it.p 0) 31 0, bits (it.p 0) 63 32, bits (it.p 1) 31 0, bits (it.p 1) 63 32, bits (it.p 2) 31 0]

/-- A signed stride word of a parameter block. -/
def Item.stride (it : Item) (k : Nat) : Int := toInt 64 (it.p k)

/-- The index vector of a linear position, dimension 0 fastest (11 R434). -/
def indexVec : List Nat → Nat → List Nat
  | [], _ => []
  | n :: rest, p => p % n :: indexVec rest (p / n)

/-- Σ i_d · stride_d over words `k`, `k + 1`, … of the parameter block. -/
def Item.dot (it : Item) (k : Nat) (iv : List Nat) : Int :=
  ((List.range 5).map (fun j => (iv.getD j 0 : Int) * it.stride (k + j))).foldl (· + ·) 0

/-- A VA plus a signed byte offset, modulo 2^64. -/
def vaAdd (va : Nat) (o : Int) : Nat := ofInt 64 ((va : Int) + o)

/-- The checks of a MOVE before its parameter block is read (11 R412, R433, R434, R440). -/
def Item.movePre (it : Item) : Option Verdict :=
  if !(it.w0ok && it.zeros [(1, 31, 4)] && it.zeroFrom 5) || 6 < it.f 1 3 0 then some .invalid
  else if it.w 2 % it.elemSize ≠ 0 || it.w 3 % it.elemSize ≠ 0 || it.w 4 % 64 ≠ 0 then some .invalid
  else segVerdict [it.w 2, it.w 3, it.w 4]

/-- The verdict once the parameter block is known (11 R434, R457, R475). -/
def Item.moveVerdict (it : Item) : Verdict :=
  let n := it.dims.foldl (· * ·) 1
  if bits (it.p 2) 63 32 ≠ 0 || it.p 13 ≠ 0 || it.p 14 ≠ 0 || it.p 15 ≠ 0 then .invalid
  else if 2 ^ 32 - 1 < n then .invalid
  else if n = 0 then (if it.startPos = 0 then .empty else .invalid)
  else if n ≤ it.startPos then .invalid
  else .run n

/-- Source and destination VA of the element at a position (11 R434). -/
def Item.moveAddr (it : Item) (p : Nat) : Nat × Nat :=
  let iv := indexVec it.dims p
  (vaAdd (it.w 2) (it.elemSize * it.dot 3 iv), vaAdd (it.w 3) (it.elemSize * it.dot 8 iv))

/-- The least and greatest byte a strided operand touches: a range from its base. -/
def Item.spanOf (it : Item) (base esize k : Nat) : Nat × Nat :=
  let ext := (List.range 5).map (fun j => ((it.dims.getD j 1 : Int) - 1) * it.stride (k + j))
  let lo := (ext.filter (fun x => decide (x < 0))).foldl (· + ·) 0
  let hi := (ext.filter (fun x => decide (0 ≤ x))).foldl (· + ·) 0
  (vaAdd base (esize * lo), esize * (hi - lo).toNat + esize)

/-- The operand ranges of a MOVE (11 R427). -/
def Item.moveRanges (it : Item) : List (Nat × Nat) :=
  [it.spanOf (it.w 2) it.elemSize 3, it.spanOf (it.w 3) it.elemSize 8]

/-- Bytes of a lighter's admitted unfinished slices (03 R112). -/
def Dev.lighterLoad (d : Dev) (lc : Nat) : Nat :=
  ((d.items.filter (fun it => it.typ == tMove && it.assigned && it.engine == lc)).map
    (fun it => d.sliceBytes it 512 it.elemSize)).sum

/-- The least-loaded of some clusters, ties to the lowest number. -/
def Dev.leastLoaded (d : Dev) (cs : List Nat) : Option Nat :=
  (cs.foldl (fun (best : Option (Nat × Nat)) c =>
    let l := d.lighterLoad c
    match best with
    | none => some (c, l)
    | some (b, m) => if l < m then some (c, l) else some (b, m)) none).map (·.1)

/-- A cluster's lighter can be reached: its die is ACTIVE and its deck is not isolated (01 R33, R56). -/
def Dev.lighterUp (d : Dev) (lc : Nat) : Bool :=
  d.dieActive (lc / 4) && !(tget .new d.decks (d.deckOfDie (lc / 4))).isolated

/-- The clusters of dies that are ACTIVE, on one deck or on all. -/
def Dev.clustersOn (d : Dev) (deck : Option Nat) : List Nat :=
  (List.range 176).filter (fun lc => d.dieActive (lc / 4) &&
    (match deck with | some k => d.deckOfDie (lc / 4) == k | none => d.lighterUp lc))

/-- The cluster of an address in a tile's local memory. -/
def clusterOfPa (pa : Nat) : Option Nat := match space pa with | .localMem t _ => some (t / 8) | _ => none

/-- The lighter of a MOVE (03 R104, R112); none where no die is left to run it (01 R33, R56). -/
def Dev.chooseLighter (d : Dev) (it : Item) : Option Nat :=
  let src := d.peek it.ctx (it.w 2)
  let dst := d.peek it.ctx (it.w 3)
  match dst.bind (fun p => clusterOfPa p.2) with
  | some c => some c
  | none => match src.bind (fun p => clusterOfPa p.2) with
    | some c => some c
    | none => match dst.bind (fun p => d.deckOfPa p.2) with
      | some k => d.leastLoaded (d.clustersOn (some k))
      | none => match dst.bind (fun p => p.1.placeDeck) with
        | some k => d.leastLoaded (d.clustersOn (some k))
        | none => d.leastLoaded (d.clustersOn (src.bind (fun p => d.deckOfPa p.2)))

/-- Bytes of an item's destination as they stood before the item wrote them, by physical address. -/
abbrev Overwritten := Tbl (Option Byte)

/-- A 64-bit word of an overlap of source and destination holds the value from before the item wrote it
or the one it wrote (11 R435). -/
def Dev.overlapRead (d : Dev) (pa : Nat) (orig : Overwritten) (bs : List Byte) : Dev × List Byte :=
  if (List.range bs.length).all (fun i => (tget none orig (pa + i)).isNone) then (d, bs)
  else
    ({ d with fresh := d.fresh + ((pa + bs.length) / 8 - pa / 8 + 1) },
      bs.zipIdx.map (fun e => match tget none orig (pa + e.2) with
        | some o => if Config.choice (d.fresh + ((pa + e.2) / 8 - pa / 8)) then o else e.1
        | none => e.1))

/-- The bytes that a write to a VA of an item replaces, noted where they can be read. -/
def Dev.noteOverwritten (d : Dev) (it : Item) (va len : Nat) (orig : Overwritten) : Overwritten :=
  match (d.xlate (.cluster it.engine) it.ctx (BitVec.ofNat 64 va) len 2).2 with
  | .error _ => orig
  | .ok r => match (if r.hostShared then d.hubRead r.pa len else d.readPa r.pa len) with
    | .error _ => orig
    | .ok bs => bs.zipIdx.foldl (fun t e => if (tget none t (r.pa + e.2)).isSome then t else tset none t (r.pa + e.2) (some e.1)) orig

/-- Copy one element (11 R434, R435; 03 R113, R114); `orig` is what the item has overwritten so far. -/
def Dev.moveElem (d : Dev) (it : Item) (orig : Overwritten) (p : Nat) : Dev × Except (XFail × Nat) Overwritten :=
  let (src, dst) := it.moveAddr p
  match d.dmaRead (.cluster it.engine) it.ctx (BitVec.ofNat 64 src) it.elemSize with
  | (d, .error x) => (d, .error (x, src))
  | (d, .ok bs) =>
    let (d, bs) := match (d.xlate (.cluster it.engine) it.ctx (BitVec.ofNat 64 src) it.elemSize 1).2 with
      | .ok r => d.overlapRead r.pa orig bs
      | .error _ => (d, bs)
    let orig := d.noteOverwritten it dst it.elemSize orig
    match d.dmaWrite (.cluster it.engine) it.ctx (BitVec.ofNat 64 dst) bs with
    | (d, .error x) => (d, .error (x, dst))
    | (d, .ok ()) => (d, .ok orig)

/-- A slice of a MOVE is carried out; what the item has overwritten is kept for its next slice. -/
def Dev.moveSliced (d : Dev) (ring index : Nat) (orig : Overwritten) : Dev :=
  (d.modItem ring index (fun it => { it with overwritten := orig })).sliceDone ring index

/-- Copy `n` elements from position `p`; the first failure ends the item there (02 R77, 12 R472,
R474). -/
def Dev.moveLoop (d : Dev) (it : Item) (orig : Overwritten) : Nat → Nat → Dev
  | 0, _ => d.moveSliced it.ring it.index orig
  | n + 1, p =>
    match d.moveElem it orig p with
    | (d, .ok orig) => d.moveLoop it orig n (p + 1)
    | (d, .error (x, va)) => d.xfail it.ring it.index p x va

/-- MOVE (11 R434): the lighter carries out the released slice. -/
def execMove (ring index : Nat) (s : State) : Out :=
  actUp s fun d => d.onItem ring index (fun it => it.typ == tMove) fun it =>
    d.moveLoop it it.overwritten (it.sliceEnd - it.pos) it.pos

end Sys2Proof.Machine
end

