-- ==== Sys2Proof/Machine/Cranes.lean ====
section
/-! DEFINITION. CRANE items (09): the checks of their descriptors, the choice of a crane, and what each
operation writes, position by position. -/
namespace Sys2Proof.Machine

/-- KIND, OP and DECK of a CRANE descriptor (09 R339). -/
def Item.kind (it : Item) : Nat := it.f 1 2 0
def Item.cop (it : Item) : Nat := it.f 1 11 8
def Item.cdeck (it : Item) : Nat := it.f 1 15 12

/-- The engine a CRANE item runs on. -/
def Item.eng (it : Item) : Eng := ⟨.crane (it.engine / 8) (it.engine % 8), it.ctx⟩

/-! ### Gather, bag sum and scatter-add, shared with the wharf (09 R357 to R360, 10 R398) -/

/-- The fields of a gather/scatter descriptor. -/
def Item.gN (it : Item) : Nat := it.f 5 31 0
def Item.gL (it : Item) : Nat := it.f 5 63 32
def Item.gR (it : Item) : Nat := it.f 6 31 0
def Item.gFmt (it : Item) : Nat := it.f 6 35 32
def Item.gTally (it : Item) : Bool := it.b 6 36
def Item.gAnchor (it : Item) : Int := toInt 9 (it.f 6 45 37)

/-- Bytes of a dense row. -/
def Item.rowBytes (it : Item) : Nat := it.gL * fmtBits it.gFmt / 8

/-- A gather/scatter descriptor is well formed (09 R339, R342, R357, R359; 04 R176): TALLY and ANCHOR say
nothing but to BAGSUM. -/
def Item.gatherOk (it : Item) (op : Nat) : Bool :=
  let f := it.gFmt
  it.f 6 63 46 == 0 && (op == 1 || it.w 7 == 0) &&
  (match op with
    | 0 => decide (f ≤ 14) && (fmtBits f ≠ 4 || it.gL % 2 == 0) && (fmtBits f ≠ 6 || it.gL % 4 == 0)
    | 1 => (f == 10 || f == 11) && (!it.gTally || anchorOk it.gAnchor)
    | _ => f == 10 || f == 11 || f == 14)

/-- An operand's alignment to its element size (10 R391): packed rows begin at a byte. -/
def elemAlign (f : Nat) : Nat := if fmtBits f < 8 then 1 else if f = 14 then 16 else fmtBits f / 8

/-- Index entry `i` of the list at W4. -/
def Item.gIndex (it : Item) (e : Eng) (i : Nat) : EM Nat := e.nat (vaAdd (it.w 4) (4 * i)) 4

/-- One index of GATHER: the table row, or a zero row for an index of R or more, counted once as
saturated (09 R357, R358). -/
def Item.gatherUnit (it : Item) (e : Eng) (p : Nat) : EM URes := do
  let i ← it.gIndex e p
  let n := it.rowBytes
  let bs ← if i < it.gR then e.rd (vaAdd (it.w 2) (i * n)) n else pure (List.replicate n 0)
  return ⟨[(vaAdd (it.w 3) (p * n), bs)], b2n (decide (it.gR ≤ i)), 0⟩

/-- The values of a row of F32 or H16 elements. -/
def rowValues (f : Nat) (n : Nat) (bs : List Byte) : List FV :=
  let k := fmtBits f / 8
  (List.range n).map (fun j => decodeFmt f 7 (leNat ((bs.drop (k * j)).take k)))

/-- An F32 addition of BAGSUM, and whether the sum has become infinite from finite values
(09 R359, 04 R161). -/
def bagAdd (a : Nat × Bool) (x : FV) : Nat × Bool :=
  let r := fpF32.rne ((f32 a.1).add x)
  let finite := match x with | .fin _ _ => !f32special a.1 | _ => false
  (r, a.2 || (finite && f32inf r))

/-- One bag of BAGSUM (09 R357 to R359): float sums round to F32 after each addition; tally sums are
evaluated once. -/
def Item.bagUnit (it : Item) (e : Eng) (p : Nat) : EM URes := do
  let lo ← e.nat (vaAdd (it.w 7) (4 * p)) 4
  let hi ← e.nat (vaAdd (it.w 7) (4 * p + 4)) 4
  if hi < lo then throw .invalid
  let n := it.gL
  let rec go (k i sat : Nat) (fs : List (Nat × Bool)) (ts : List Tal) : EM (List (Nat × Bool) × List Tal × Nat) :=
    match k with
    | 0 => return (fs, ts, sat)
    | k + 1 => do
      let ix ← it.gIndex e i
      if it.gR ≤ ix then go k (i + 1) (sat + 1) fs ts
      else
        let bs ← e.rd (vaAdd (it.w 2) (ix * it.rowBytes)) it.rowBytes
        let vs := rowValues it.gFmt n bs
        if it.gTally then go k (i + 1) sat fs ((ts.zip vs).map (fun t => t.1.dyadic it.gAnchor t.2))
        else go k (i + 1) sat ((fs.zip vs).map (fun t => bagAdd t.1 t.2)) ts
  let (fs, ts, sat) ← go (hi - lo) lo 0 (List.replicate n (0, false)) (List.replicate n {})
  let encs : List Enc := if it.gTally then ts.map (fun t => t.evaluate it.gAnchor 11 7 128 .rne false)
    else fs.map (fun c => ⟨c.1, c.2, false⟩)
  return ⟨[(vaAdd (it.w 3) (p * (4 * n)), encs.flatMap (fun c => leBytes 4 c.code))],
    sat + (encs.map (fun c => b2n c.sat)).sum, (encs.map (fun c => b2n c.flush)).sum⟩

/-- Whether an add of SCATTER_ADD counts saturated: a float sum that R161 saturates, or a 128-bit sum that
R173 does (10 R394, R395, R398; 04 R165). -/
def scatterSat (f : Nat) (old x : List Byte) : Bool :=
  if f = 14 then (List.range 4).any (fun j =>
    (sat128 (int128 ((old.drop (16 * j)).take 16)) (int128 ((x.drop (16 * j)).take 16))).2)
  else (encodeFmt f 7 .rne false ((decodeFmt f 7 (leNat old)).add (decodeFmt f 7 (leNat x)))).sat

/-- The sum of a resident element and an added one (03 R107, 10 R395, R398). -/
def scatterSum (f : Nat) (old x : List Byte) : List Byte :=
  if f = 14 then
    (List.range 4).flatMap (fun j => leBytes 16 (radd128 (leNat ((old.drop (16 * j)).take 16)) (leNat ((x.drop (16 * j)).take 16))))
  else leBytes (fmtBits f / 8) (raddNew (f == 10) (leNat old) (leNat x))

/-- The adds of a row of which some word is poisoned (09 R360, 03 R121): those before the first refused
one are performed, and whether the later ones are is free. The refusal ends the item. -/
def Item.scatterPart (it : Item) (e : Eng) (dst : Nat) (src : List Byte) (x : UErr) : EM URes := do
  let k := fmtBits it.gFmt / 8
  let d ← EM.dev
  EM.upd Dev.draw
  let _ ← (List.range it.gL).foldlM (fun (refused : Bool) (j : Nat) =>
    tryCatch (do
      if refused && !Config.choice d.fresh then return true
      let old ← e.rd (vaAdd dst (k * j)) k
      let x := (src.drop (k * j)).take k
      e.wr (vaAdd dst (k * j)) (scatterSum it.gFmt old x)
      EM.upd (fun d => d.countItem it.ring it.index (b2n (scatterSat it.gFmt old x)) 0)
      return refused) (fun _ => pure true)) false
  throw x

/-- A range of VAs that reduce operations add into: their permissions, and its place in a warehouse
(12 R471, 09 R360). -/
def Eng.addable (e : Eng) (va n : Nat) : EM Unit := do
  let inside ← EM.lift (fun d => (pieces va n).foldl (fun acc p =>
    match acc with
    | (d, .error x) => (d, .error x)
    | (d, .ok b) => match d.xlate e.h e.ctx (BitVec.ofNat 64 p.1) p.2 4 with
      | (d, .error x) => (d, .error (x, p.1))
      | (d, .ok r) => (d, .ok (b && inWarehouse r.pa))) (d, .ok true))
  if !inside then throw .invalid

/-- One index of SCATTER_ADD: the source row is added into its table row, all or none, skipped and
counted for an index of R or more (09 R357, R358, R360). -/
def Item.scatterUnit (it : Item) (e : Eng) (p : Nat) : EM URes := do
  let i ← it.gIndex e p
  if it.gR ≤ i then return ⟨[], 1, 0⟩
  let n := it.rowBytes
  let k := fmtBits it.gFmt / 8
  let src ← e.rd (vaAdd (it.w 2) (p * n)) n
  let dst := vaAdd (it.w 3) (i * n)
  e.addable dst n
  tryCatch (do
    let old ← e.rd dst n
    let pairs := (List.range it.gL).map (fun j => ((old.drop (k * j)).take k, (src.drop (k * j)).take k))
    return ⟨[(dst, pairs.flatMap (fun q => scatterSum it.gFmt q.1 q.2))],
      (pairs.map (fun q => b2n (scatterSat it.gFmt q.1 q.2))).sum, 0⟩) (fun x =>
      match x with
      | .acc f _ => if f.status = 0x18 then it.scatterPart e dst src x else throw x
      | .invalid => throw x)

/-! ### Convert (09 R353 to R356) -/

/-- Fields of the format word W5. -/
def Item.sfmt (it : Item) : Nat := it.f 5 3 0
def Item.sbias (it : Item) : Nat := it.f 5 7 4
def Item.sscaled (it : Item) : Bool := it.b 5 8
def Item.dfmt (it : Item) : Nat := it.f 5 15 12
def Item.dbias (it : Item) : Nat := it.f 5 19 16
def Item.dscaled (it : Item) : Bool := it.b 5 20

/-- A rounding mode of a ROUND field, with the noise of an index (04 R160). -/
def modeOf (round : Nat) (seed : W64) (idx : Nat) : Mode :=
  match round with
  | 0 => .rne
  | 1 => .rtz
  | _ => .sr (noise seed idx)

/-- SCALED obeys 04 R152 for a format. -/
def scaledOk (f : Nat) (scaled : Bool) : Bool :=
  if f ≤ 3 then scaled else if f ≤ 9 then true else !scaled

/-- OUTPUT SCALED obeys 04 R164 and 06 R234: only the logarithmic formats and Q8 may carry output
scales. -/
def outScaledOk (f : Nat) (scaled : Bool) : Bool :=
  if f ≤ 3 then scaled else if f ≤ 5 then true else !scaled

/-- Strides of a packed side (09 R355, 06 R232): dimension 0 has stride 1, the others multiples of 2
or 4. -/
def Item.packedOk (it : Item) (f k : Nat) : Bool :=
  let b := fmtBits f
  if b = 4 || b = 6 then
    it.stride k == 1 && (rangeFrom 1 4).all (fun j => it.stride (k + j) % (if b = 4 then 2 else 4) == 0)
  else true

/-- CONVERT's descriptor checks before its parameter block is read (09 R339, R342, R355). -/
def Item.convertPre (it : Item) : Bool :=
  it.f 5 11 9 == 0 && it.f 5 14 13 == 0 && it.f 5 63 24 == 0 && it.w 7 == 0 && it.w 4 % 64 == 0 &&
  decide (it.sfmt ≤ 13) && decide (it.dfmt ≤ 13) && scaledOk it.sfmt it.sscaled && outScaledOk it.dfmt it.dscaled &&
  decide (it.f 5 22 21 ≤ 2)

/-- CONVERT's checks of its parameter block: a fault found in it ends the item FAIL_INVALID at its
position (09 R342, R353, R355). -/
def Item.convertVerdict (it : Item) : Verdict :=
  let n := it.dims.foldl (· * ·) 1
  if bits (it.p 2) 63 32 ≠ 0 then .invalid
  else if !(it.packedOk it.sfmt 3 && it.packedOk it.dfmt 8) then .invalid
  else if (it.sscaled || it.dscaled) && !((it.dims.drop 2).all (· == 1)) then .invalid
  else if n = 0 then (if it.startPos = 0 then .empty else .invalid)
  else if n ≤ it.startPos then .invalid
  else .run n

/-- One destination element of CONVERT; one from a POISON block is a poisoned output (09 R354 to R356,
04 R154, R164). -/
def Item.convertUnit (it : Item) (e : Eng) (p : Nat) : EM URes := do
  let iv := indexVec it.dims p
  let i0 := iv.getD 0 0
  let i1 := iv.getD 1 0
  let c ← e.code (it.w 2) (fmtBits it.sfmt) (it.dot 3 iv)
  let ss ← if it.sscaled then e.nat (vaAdd (it.p 13) (i1 * bits (it.p 15) 31 0 + i0 / 32)) 1 else pure 128
  let ds ← if it.dscaled then e.nat (vaAdd (it.p 14) (i1 * bits (it.p 15) 63 32 + i0 / 32)) 1 else pure 128
  let v := decodeScaled it.sfmt it.sbias ss c
  let enc := encodeScaled it.dfmt it.dbias ds (modeOf (it.f 5 22 21) (BitVec.ofNat 64 (it.w 6)) p) (it.b 5 23) v.isNone (v.getD .nan)
  let w ← e.putCode (it.w 3) (fmtBits it.dfmt) (it.dot 8 iv) enc.code
  return .of w enc

/-! ### Decompression (09 R361 to R363) -/

/-- Fields of W5. -/
def Item.dN (it : Item) : Nat := it.f 5 31 0
def Item.dFmt (it : Item) : Nat := it.f 5 35 32

/-- One group of 8 of SPARSE28 (09 R363). -/
def Item.sparseUnit (it : Item) (e : Eng) (g : Nat) : EM URes := do
  let b := fmtBits it.dFmt
  let m ← e.nat (vaAdd (it.w 4) g) 1
  let a := m % 8
  let c := m / 8 % 8
  if 64 ≤ m || c ≤ a then throw .invalid
  let x ← e.code (it.w 2) b (2 * g)
  let y ← e.code (it.w 2) b (2 * g + 1)
  -- eight elements of b bits are b bytes
  let v := x * 2 ^ (a * b) + y * 2 ^ (c * b)
  return ⟨[(vaAdd (it.w 3) (g * b), leBytes b v)], 0, 0⟩

/-- Bits read from a packed payload. -/
def Eng.bitsAt (e : Eng) (va off n : Nat) : EM Nat := do
  let lo := off / 8
  let hi := (off + n + 7) / 8
  let v ← e.nat (vaAdd va lo) (hi - lo)
  return v / 2 ^ (off % 8) % 2 ^ n

/-- Read up to `n` codes of `b` bits that begin at a bit offset of a payload, after those in hand; the first
read that fails is the answer's second part. -/
def Eng.codesAt (e : Eng) (va off b : Nat) : Nat → List Nat → EM (List Nat × Option UErr)
  | 0, acc => return (acc, none)
  | n + 1, acc => do
    match ← (e.bitsAt va off b).attempt with
    | .error x => return (acc, some x)
    | .ok c => e.codesAt va (off + b) b n (acc ++ [c])

/-- Read a stream from its start and give the codes of its output elements, up to `want` of them, with what
ends it before that: a bad header, or a read that fails (09 R361, R362); the last slice reads its END too.
`fuel` bounds the chunks. -/
def Item.streamCodes (it : Item) (e : Eng) (want : Nat) : Nat → Nat → List Nat → EM (List Nat × Option UErr)
  | 0, _, acc => return (acc, none)
  | fuel + 1, off, acc => do
    if want ≤ acc.length && want < it.dN then return (acc, none)
    match ← (e.nat (vaAdd (it.w 2) off) 4).attempt with
    | .error x => return (acc, some x)
    | .ok h =>
      let kind := bits h 31 30
      let dd := bits h 29 26
      let c := bits h 23 0
      let b := fmtBits it.dFmt
      let bad := (acc, some UErr.invalid)
      let pay := vaAdd (it.w 2) (off + 4)
      let n := min c (want - acc.length)
      if bits h 25 24 ≠ 0 then return bad
      if kind = 3 then
        return if dd = 0 && c = 0 && acc.length = it.dN then (acc, none) else bad
      if c = 0 || it.dN < acc.length + c then return bad
      match kind with
      | 0 =>
        if dd ≠ 0 then return bad
        let (cs, x) ← e.codesAt pay 0 b n []
        if x.isSome then return (acc ++ cs, x)
        it.streamCodes e want fuel (off + 4 + cdiv (c * b) 32 * 4) (acc ++ cs)
      | 1 =>
        if dd ≠ 0 then return bad
        it.streamCodes e want fuel (off + 4) (acc ++ List.replicate n 0)
      | _ =>
        if dd = 0 || 4 < dd then return bad
        let (dict, x) ← e.codesAt pay 0 b (2 ^ dd) []
        if x.isSome then return (acc, x)
        let (idx, x) ← e.codesAt pay (2 ^ dd * b) dd n []
        let cs := acc ++ idx.map (fun i => dict.getD i 0)
        if x.isSome then return (cs, x)
        it.streamCodes e want fuel (off + 4 + cdiv (2 ^ dd * b + c * dd) 32 * 4) cs

/-- Pack codes of `b` bits from bit 0 upwards (04 R150). -/
def packCodes (b : Nat) (cs : List Nat) : Nat := cs.foldr (fun c acc => c % 2 ^ b + acc * 2 ^ b) 0

/-- Write elements `lo` to `hi` − 1 of a stream's output, a byte or a 3-byte group at a time; the item reaches
each element as it is written. -/
def Item.streamPut (it : Item) (e : Eng) (cs : List Nat) (lo hi : Nat) : EM Unit := do
  let b := fmtBits it.dFmt
  let k := if b = 6 then 4 else if b = 4 then 2 else 1
  (rangeFrom (lo / k) (cdiv hi k - lo / k)).forM (fun g => do
    let part := (cs.take (min hi (k * g + k))).drop (k * g)
    let n := part.length * b
    let at' := vaAdd (it.w 3) (k * g * b / 8)
    -- bits of the last byte that hold no element keep their value
    let old ← if n % 8 = 0 then pure 0 else e.nat (vaAdd at' (n / 8)) 1
    e.commit ⟨[(at', leBytes (cdiv n 8) (packCodes b part + old / 2 ^ (n % 8) * 2 ^ n))], 0, 0⟩
    it.reach (min hi (k * g + k)))

/-- The slice of a STREAM: output elements from the item's position to the slice's end (09 R362). A bad
header met on the way ends the item FAIL_INVALID, once the elements before it are written. -/
def Item.streamSlice (it : Item) (e : Eng) : EM URes := do
  let (cs, x) ← it.streamCodes e it.sliceEnd (it.dN + 2) 0 []
  if it.pos < cs.length then it.streamPut e cs it.pos (min it.sliceEnd cs.length)
  match x with
  | some x => throw x
  | none => return {}

/-! ### Sort and top-k (09 R364 to R366) -/

/-- Fields of W5. -/
def Item.sN (it : Item) : Nat := it.f 5 31 0
def Item.kfmt (it : Item) : Nat := it.f 5 35 32
def Item.payloadFlag (it : Item) : Bool := it.b 5 36
def Item.topK (it : Item) : Nat := it.f 5 56 40
/-- Bytes of a key. -/
def Item.keyBytes (it : Item) : Nat := if it.kfmt = 12 then 8 else 4

/-- The order number of a key: floats from −NaN to +NaN, integers signed (09 R364). -/
def keyRank (f c : Nat) : Int :=
  let n := if f = 12 then 64 else 32
  if f = 13 then toInt 32 c
  else if c < 2 ^ (n - 1) then (c : Int) else -((c % 2 ^ (n - 1) : Nat) : Int) - 1

/-- Insert a record behind every record that comes before it or is equal. -/
def insRec (before : Int → Int → Bool) (r : Int × Nat × Nat) : List (Int × Nat × Nat) → List (Int × Nat × Nat)
  | [] => [r]
  | q :: rest => if before r.1 q.1 then r :: q :: rest else q :: insRec before r rest

/-- Stable sort of records (rank, key, payload): ascending or descending. -/
def sortRecs (desc : Bool) (rs : List (Int × Nat × Nat)) : List (Int × Nat × Nat) :=
  rs.foldl (fun acc r => insRec (fun a b => if desc then b < a else a < b) r acc) []

/-- Passes of a sort (09 R366). -/
def Item.passes (it : Item) : Nat := 1 + it.keyBytes

/-- Read the input records of positions `lo` to `hi` − 1 into the item's carried bytes: key and payload
or input position. -/
def Item.readRecs (it : Item) (e : Eng) (lo hi : Nat) : EM Unit := do
  let kb := it.keyBytes
  (rangeFrom lo (hi - lo)).forM (fun i => do
    let k ← e.rd (vaAdd (it.w 2) (i * kb)) kb
    let p ← if it.payloadFlag then e.rd (vaAdd (it.w 6) (4 * i)) 4 else pure (leBytes 4 i)
    EM.upd (fun d => d.modItem it.ring it.index (fun it => { it with bytes := it.bytes ++ k ++ p }))
    it.reach (i + 1))

/-- The carried records. -/
def Item.recs (it : Item) : List (Int × Nat × Nat) :=
  let n := it.keyBytes + 4
  (List.range (it.bytes.length / n)).map (fun i =>
    let r := (it.bytes.drop (n * i)).take n
    let k := leNat (r.take it.keyBytes)
    (keyRank it.kfmt k, k, leNat (r.drop it.keyBytes)))

/-- Output records `lo` to `hi` − 1 of sorted records. -/
def Item.recWrites (it : Item) (rs : List (Int × Nat × Nat)) (lo hi : Nat) : URes :=
  let part := (rs.take hi).drop lo
  let keys := (vaAdd (it.w 3) (lo * it.keyBytes), part.flatMap (fun r => leBytes it.keyBytes r.2.1))
  let pays := (vaAdd (it.w 7) (lo * 4), part.flatMap (fun r => leBytes 4 r.2.2))
  if it.payloadFlag || it.w 7 ≠ 0 then ⟨[keys, pays], 0, 0⟩ else ⟨[keys], 0, 0⟩

/-- Bytes of a sort's scratch (09 R366). -/
def Item.scratchBytes (it : Item) : Nat := 2 * (if 2 ≤ it.cop then it.topK else it.sN) * (it.keyBytes + 4)

/-- A slice of a sort: the load pass reads its records; the last pass writes its part of the sorted
order (09 R365, R366). -/
def Item.sortSlice (it : Item) (e : Eng) (desc : Bool) : EM URes := do
  let n := it.sN
  if it.pos = 0 then e.scribble (it.w 4) it.scratchBytes
  if it.pos < n then it.readRecs e it.pos (min it.sliceEnd n)
  let d ← EM.dev
  let it := (d.item? it.ring it.index).getD it
  let last := (it.passes - 1) * n
  if last < it.sliceEnd then
    let rs := sortRecs desc it.recs
    let lo := it.pos - last
    (rangeFrom lo (it.sliceEnd - last - lo)).forM (fun i => do
      e.commit (it.recWrites rs i (i + 1))
      it.reach (last + i + 1))
  return {}

/-- A slice of a top-k: it reads its records, and the last slice writes the k greatest or least
(09 R365). -/
def Item.topSlice (it : Item) (e : Eng) (desc : Bool) : EM URes := do
  if it.pos = 0 then e.scribble (it.w 4) it.scratchBytes
  it.readRecs e it.pos it.sliceEnd
  let d ← EM.dev
  let it := (d.item? it.ring it.index).getD it
  if it.sliceEnd = it.sN then e.commit (it.recWrites (sortRecs desc it.recs) 0 it.topK)
  return {}

/-! ### FFT (09 R367 to R369) -/

/-- n0, n1, n2 and the element format. -/
def Item.fftDims (it : Item) : List Nat := [it.f 5 31 0, it.f 5 63 32, it.f 6 31 0]
def Item.fftN (it : Item) : Nat := it.fftDims.foldl (· * ·) 1
def Item.fftF64 (it : Item) : Bool := it.b 1 10
def Item.compBytes (it : Item) : Nat := if it.fftF64 then 8 else 4

/-- Remove a factor from a number as often as it divides it. -/
def stripFactor (p : Nat) : Nat → Nat → Nat × Nat
  | 0, m => (m, 0)
  | fuel + 1, m => if m % p = 0 && m ≠ 0 then let r := stripFactor p fuel (m / p); (r.1, r.2 + 1) else (m, 0)

/-- Radix stages of one dimension, and whether it is of the form 2^a·3^b·5^c (09 R367, R369). -/
def radixStages (m : Nat) : Nat × Bool :=
  let r5 := stripFactor 5 32 m
  let r3 := stripFactor 3 32 r5.1
  let r2 := stripFactor 2 32 r3.1
  (r5.2 + r3.2 + r2.2, r2.1 == 1)

/-- Stages of a transform with load and store. -/
def Item.fftStages (it : Item) : Nat := (it.fftDims.map (fun m => (radixStages m).1)).sum + 2

/-- INVERSE and SCALE (09 R339). -/
def Item.fftInv (it : Item) : Bool := it.b 1 8
def Item.fftScale (it : Item) : Bool := it.b 1 9

/-- Pairs of consecutive entries. -/
def pairUp {α : Type} : List α → List (α × α)
  | a :: b :: rest => (a, b) :: pairUp rest
  | _ => []

/-- A code, or the canonical NaN for a NaN (04 R149). -/
def FpFmt.quiet (p : FpFmt) (c : Nat) : Nat := match p.decode c with | .nan => p.nan | _ => c

/-- The transform of the codes of 2N numbers before SCALE (09 R368, R369): the free one where it lies
within the manual's norm of the exact transform, and the exact one rounded else. It is wholly free where
an input is infinite or NaN, or where a radix stage may overflow: a sum of all magnitudes bounds each. -/
def fftCodes (p : FpFmt) (dims : List Nat) (inv : Bool) (stages : Nat) (ins : List Nat) (free : List Nat) : List Nat :=
  let free := free.map p.quiet
  let vals := ins.map p.decode
  -- inputs are integers at this scale
  let unit : Int := p.bias - 1 + (p.mb : Int)
  let num := fun (v : FV) => match v with | .fin x _ => some (x.shift unit).floorInt | _ => none
  let xs := vals.map num
  let big := (xs.map (fun x => (x.getD 0).natAbs)).sum
  if xs.any (·.isNone) || (0 < stages && 1023 * 2 ^ (p.topExpo + 1 + unit).toNat ≤ 1024 * big) then free
  else
    let exact := dftExact dims inv (pairUp (xs.map (·.getD 0)))
    let ys := free.map (fun c => (num (p.decode c)).map (· * fxOne))
    if ys.all (·.isSome) && normWithin (4 * stages * (2 ^ 40 + 1)) (2 ^ (p.mb + 1) * 2 ^ 40) (pairUp (ys.map (·.getD 0))) exact then free
    else (exact.flatMap (fun c => [c.1, c.2])).map (fun y => p.rne (.fin ((fxVal y).shift (-unit)) false))

/-- One output of an FFT, its two parts as encoded: SCALE divides by N with one rounding. -/
def fftOut (p : FpFmt) (scale : Bool) (n c : Nat) : Enc :=
  if scale then
    match (p.decode c).div (.of (QR.ofInt (n : Int))) with
    | .fin x nz => p.encodeFin x nz .rne false
    | v => ⟨p.rne v, false, false⟩
  else ⟨c, false, false⟩

/-- A slice of an FFT: the load stage reads its points; the store stage writes its results, which SCALE
divides by N with one rounding (09 R368, R369). An element that finite inputs carry beyond the finite range
counts saturated, once, and one that SCALE rounds to zero flushed (04 R161, R165). -/
def Item.fftSlice (it : Item) (e : Eng) : EM URes := do
  let n := it.fftN
  let k := 2 * it.compBytes
  if it.pos = 0 then e.scribble (it.w 4) (n * k)
  let hi := min it.sliceEnd n
  (rangeFrom it.pos (hi - it.pos)).forM (fun i => do
    let bs ← e.rd (vaAdd (it.w 2) (i * k)) k
    EM.upd (fun d => d.modItem it.ring it.index (fun it => { it with bytes := it.bytes ++ bs }))
    it.reach (i + 1))
  let d ← EM.dev
  let it := (d.item? it.ring it.index).getD it
  let last := (it.fftStages - 1) * n
  if last < it.sliceEnd then
    let p := if it.fftF64 then fpF64 else fpF32
    let ins := (List.range (2 * n)).map (fun i => leNat ((it.bytes.drop (it.compBytes * i)).take it.compBytes))
    let fin := ins.all (fun c => match p.decode c with | .fin _ _ => true | _ => false)
    let free := (List.range (2 * n)).map (fun i =>
      (Config.fftElement (it.fftDims ++ [b2n it.fftInv, it.compBytes]) (ins.map (BitVec.ofNat 64 ·)) i).toNat % 2 ^ (8 * it.compBytes))
    let ys := pairUp (fftCodes p it.fftDims it.fftInv (it.fftStages - 2) ins free)
    let lo := it.pos - last
    let part := ((ys.take (it.sliceEnd - last)).drop lo).map (fun y => (fftOut p it.fftScale n y.1, fftOut p it.fftScale n y.2))
    let lost := fun (c : Nat) => match p.decode c with | .fin _ _ => false | _ => fin
    part.zipIdx.forM (fun q => do
      let (a, b) := q.1
      e.commit ⟨[(vaAdd (it.w 3) ((lo + q.2) * k), leBytes it.compBytes a.code ++ leBytes it.compBytes b.code)], 0, 0⟩
      EM.upd (fun d => d.countItem it.ring it.index (b2n (lost a.code || lost b.code)) (b2n (a.flush || b.flush)))
      it.reach (last + lo + q.2 + 1))
  return {}

/-! ### Random numbers (09 R370, R371) -/

/-- RAND(K, pos). -/
def craneRand (k0 k1 pos : W64) : W64 :=
  let z := pos * 0xD6E8FEB86659FD93#64 + k0
  let z := (z ^^^ (z >>> 32)) * 0xA3B195354A39B70D#64
  let z := z ^^^ k1
  let z := (z ^^^ (z >>> 29)) * 0x5DEECE66D1CE4E5B#64
  z ^^^ (z >>> 32)

/-- RAND at the position of element `i` of an item. -/
def Item.rand (it : Item) (i : Nat) : W64 :=
  craneRand (BitVec.ofNat 64 (it.w 2)) (BitVec.ofNat 64 (it.w 4)) (BitVec.ofNat 64 (it.w 6 + i))

/-- NORMAL_F32 of two random words (09 R371): √(−2 ln u1)·cos(2πu2). The fixed binary64 sequence is free
where its result lies within an ulp and 2^(−30) of that value; the nearest one stands for any other. -/
def normalOf (a b : W64) : Nat :=
  let u1 := fxDiv ((bits a.toNat 63 11 + 1 : Nat) : Int) (2 ^ 53 : Nat)
  let u2 := fxDiv ((bits b.toNat 63 11 : Nat) : Int) (2 ^ 53 : Nat)
  let x := fxMul (fxSqrt (-2 * fxLn u1)) (fxSinPi (2 * u2 + fxOne / 2))
  let free := (Config.normalF32 a b).toNat % 2 ^ 32
  let near := match fpF32.decode free with
    | .fin y _ => (y.sub (fxVal x)).abs.le ((fpF32.ulp x).add ((QR.ofInt 1).shift (-30)))
    | _ => false
  if near then free else fpF32.rne (.of (fxVal x))

/-- One element of a random item. -/
def Item.randUnit (it : Item) (kind i : Nat) : URes :=
  let r := (it.rand i).toNat
  let out := fun (n v : Nat) => (⟨[(vaAdd (it.w 3) (i * n), leBytes n v)], 0, 0⟩ : URes)
  match kind with
  | 0 => out 4 (r % 2 ^ 32)
  | 1 => out 8 r
  | 2 => out 4 (fpF32.rne (.of (QR.ofRat (bits r 63 40) (2 ^ 24))))
  | 3 => out 8 (fpF64.rne (.of (QR.ofRat (bits r 63 11) (2 ^ 53))))
  | _ =>
    let k0 := BitVec.ofNat 64 (it.w 2)
    let k1 := BitVec.ofNat 64 (it.w 4)
    let q := BitVec.ofNat 64 (it.w 6 + i)
    out 4 (normalOf (craneRand k0 k1 (2 * q)) (craneRand k0 k1 (2 * q + 1)))

/-- Eight bits of BERNOULLI: one byte, bits above n written 0. -/
def Item.bernoulliUnit (it : Item) (byte : Nat) : URes :=
  let n := it.f 5 31 0
  let v := (List.range 8).foldl (fun acc j =>
    let i := 8 * byte + j
    if i < n && (it.rand i).toNat % 2 ^ 32 < it.f 7 31 0 then acc + 2 ^ j else acc) 0
  ⟨[(vaAdd (it.w 3) byte, leBytes 1 v)], 0, 0⟩

/-! ### Digest (09 R372) -/

/-- The ranges of a digest's list: VA and length. -/
def Item.ranges (it : Item) : List (Nat × Nat) :=
  (List.range (it.params.length / 2)).map (fun i => (it.p (2 * i), it.p (2 * i + 1)))

/-- Byte `i` of the message: its VA. -/
def msgVa : List (Nat × Nat) → Nat → Nat
  | [], _ => 0
  | (va, n) :: rest, i => if i < n then vaAdd va i else msgVa rest (i - n)

/-- The pieces of bytes `i` to `i + n` − 1 of the message. -/
def msgPieces : List (Nat × Nat) → Nat → Nat → List (Nat × Nat)
  | [], _, _ => []
  | (va, m) :: rest, i, n =>
    if n = 0 then []
    else if m ≤ i then msgPieces rest (i - m) n
    else
      let k := min n (m - i)
      (vaAdd va i, k) :: msgPieces rest 0 (n - k)

/-- Total length of the message. -/
def Item.msgLen (it : Item) : Nat := (it.ranges.map (·.2)).sum

/-- Digest whole KiB number `p` of the message, or the rest after the last. -/
def Item.readMsg (it : Item) (e : Eng) (off n : Nat) : EM Unit :=
  (msgPieces it.ranges off n).forM (fun q => do
    let bs ← e.rd q.1 q.2
    EM.upd (fun d => d.modItem it.ring it.index (fun it => { it with bytes := it.bytes ++ bs })))

/-- The digest of a message. -/
def digestOf (crc : Bool) (m : List Byte) : List Byte := if crc then leBytes 4 (crc32c m).toNat else sha3 m

/-- One KiB of the message: it is read, and nothing is written. -/
def Item.digestUnit (it : Item) (e : Eng) (p : Nat) : EM URes := do
  it.readMsg e (1024 * p) 1024
  return {}

/-- The last slice takes the rest of the message and writes the digest. -/
def Item.digestLast (it : Item) (e : Eng) (crc : Bool) : EM URes := do
  it.readMsg e (1024 * it.sliceEnd) (it.msgLen - 1024 * it.sliceEnd)
  let d ← EM.dev
  let m := ((d.item? it.ring it.index).map (·.bytes)).getD []
  e.commit ⟨[(it.w 3, digestOf crc m)], 0, 0⟩
  return {}

/-- The whole KiB of a slice, then the digest when the slice is the last. -/
def Dev.digestSlice (d : Dev) (it : Item) (crc : Bool) : Dev :=
  d.engLoop it it.eng 1 (it.digestUnit it.eng) (fun d =>
    if it.sliceEnd < it.last then d.sliceDone it.ring it.index
    else d.engRun { it with pos := it.sliceEnd } (it.digestLast it.eng crc)) (it.sliceEnd - it.pos) it.pos

/-! ### Scale-scan (09 R373 to R375) -/

/-- The largest finite magnitude of a short format (09 R373). -/
def maxFin (f bias : Nat) : QR :=
  match f with
  | 0 => QR.term 1 6
  | 1 => QR.term 1 14
  | 2 => QR.term 1 15
  | 3 => QR.term 1 31
  | 4 => (QR.ofRat 7 4).shift (15 - (bias : Int))
  | 5 => (QR.ofRat 15 8).shift (15 - (bias : Int))
  | 6 => QR.ofInt 7
  | 7 => QR.ofInt 15
  | 8 => QR.ofInt 127
  | _ => QR.ofInt 255

/-- The greater of two values. -/
def qmax (a b : QR) : QR := if a.lt b then b else a

/-- The scale of a block (09 R373): its code and whether it counts saturated. -/
def blockScale (tf bias : Nat) (vs : List FV) : Nat × Bool :=
  if vs.any (fun v => match v with | .fin _ _ => false | _ => true) then (0xFF, false)
  else
    let amax := vs.foldl (fun m v => match v with | .fin x _ => qmax m x.abs | _ => m) QR.zero
    if amax.sign = 0 then (0, false)
    else match (rangeFrom 1 254).find? (fun (s : Nat) => (amax.quarter (128 - (s : Int))).le (maxFin tf bias)) with
      | some s => (s, false)
      | none => (0xFE, true)

/-- One row of BLOCKMAX. -/
def Item.blockmaxUnit (it : Item) (e : Eng) (r : Nat) : EM URes := do
  let l := it.f 5 63 32
  let f := it.f 6 3 0
  let k := fmtBits f / 8
  let bs ← e.rd (vaAdd (it.w 2) (r * it.f 6 63 32 * k)) (l * k)
  let vs := rowValues f l bs
  let ss := (List.range (cdiv l 32)).map (fun j => blockScale (it.f 6 7 4) (it.f 6 11 8) ((vs.drop (32 * j)).take 32))
  return ⟨[(vaAdd (it.w 3) (r * it.f 7 31 0), ss.flatMap (fun s => leBytes 1 s.1))], (ss.map (fun s => b2n s.2)).sum, 0⟩

/-- G of a format (04 R156). -/
def boundG (f bias : Nat) : Int :=
  match f with
  | 0 => 2 | 1 => 4 | 2 => 4 | 3 => 8 | 4 => 16 - (bias : Int) | 5 => 16 - (bias : Int)
  | 6 => 4 | 7 => 4 | 8 => 8 | 9 => 8 | 10 => 32 | _ => 128

/-- The largest scale of an operand (09 R374): 128 with no other code. -/
def largestScale (bs : List Byte) : Nat :=
  let m := bs.foldl (fun m b => if b.toNat = 0 || b.toNat = 0xFF then m else max m b.toNat) 0
  if m = 0 then 128 else m

/-- A_c of 04 R175. -/
def coverAnchor (fa ba sa fb bb sb : Nat) : Int :=
  boundG fa ba + boundG fb bb + -((-((sa : Int) + sb - 256)) / 4) - 1

/-- A slice of ANCHOR: it reads its scale bytes, A before B; the last slice writes the word. -/
def Item.anchorSlice (it : Item) (e : Eng) : EM URes := do
  let na := it.f 5 31 0
  (rangeFrom it.pos (it.sliceEnd - it.pos)).forM (fun i => do
    let b ← e.rd (if i < na then vaAdd (it.w 2) i else vaAdd (it.w 4) (i - na)) 1
    EM.upd (fun d => d.modItem it.ring it.index (fun it => { it with bytes := it.bytes ++ b }))
    it.reach (i + 1))
  let d ← EM.dev
  let bs := ((d.item? it.ring it.index).map (·.bytes)).getD []
  if it.sliceEnd = it.last then
    let a := coverAnchor (it.f 6 3 0) (it.f 6 11 8) (largestScale (bs.take na)) (it.f 6 7 4) (it.f 6 15 12) (largestScale (bs.drop na))
    let c := max (-160) (min 160 a)
    e.commit ⟨[(it.w 3, leBytes 8 (ofInt 16 c * 2 ^ 16))], 0, 0⟩
    return ⟨[], b2n (decide (160 < a)), 0⟩
  return {}

/-- The histogram of values (09 R375): 132 counts and the largest magnitude as F64. -/
def histBytes (vs : List FV) : List Byte :=
  let cls := vs.map (fun v => match v with
    | .nan => 130
    | .inf _ => 129
    | .fin x _ => if x.sign = 0 then 128 else (64 + max (-64) (min 63 x.abs.expo)).toNat)
  let count := fun k => min 0xFFFFFFFF (cls.filter (· == k)).length
  let big := vs.foldl (fun m v => match v with | .fin x _ => qmax m x.abs | _ => m) QR.zero
  (List.range 132).flatMap (fun k => leBytes 4 (if k = 131 then 0 else count k)) ++ leBytes 8 (fpF64.rne (.of big))

/-- A slice of HIST: it reads its elements; the last slice writes the 536 bytes. -/
def Item.histSlice (it : Item) (e : Eng) : EM URes := do
  let f := it.f 6 3 0
  let k := fmtBits f / 8
  (rangeFrom it.pos (it.sliceEnd - it.pos)).forM (fun i => do
    let bs ← e.rd (vaAdd (it.w 2) (i * k)) k
    EM.upd (fun d => d.modItem it.ring it.index (fun it => { it with bytes := it.bytes ++ bs }))
    it.reach (i + 1))
  let d ← EM.dev
  let all := ((d.item? it.ring it.index).map (·.bytes)).getD []
  if it.sliceEnd = it.last then e.commit ⟨[(it.w 3, histBytes (rowValues f it.last all))], 0, 0⟩
  return {}

/-! ### Descriptor checks and assignment (09 R339 to R342, R352) -/

/-- The scratch operand of a kind, when it has one: VA and bytes. -/
def Item.scratch? (it : Item) : Option (Nat × Nat) :=
  match it.kind with
  | 3 => some (it.w 4, it.scratchBytes)
  | 4 => some (it.w 4, it.fftN * 2 * it.compBytes)
  | _ => none

/-- Whether the operation can start at a position other than 0 (09 R347). -/
def Item.resumable (it : Item) : Bool :=
  match it.kind with
  | 0 => true
  | 1 => true
  | 2 => it.cop == 1
  | 5 => true
  | 7 => it.cop == 0
  | _ => false

/-- The reserved fields, codes and limits of a CRANE descriptor (09 R339, R342, R355 to R375). -/
def Item.craneOk (it : Item) : Bool :=
  it.w0ok && it.f 1 31 16 == 0 && it.f 1 7 3 == 0 && (decide (it.cdeck < 8) || it.cdeck == 15) &&
  (match it.kind with
    | 0 => it.cop == 0 && it.convertPre
    | 1 => decide (it.cop ≤ 2) && it.gatherOk it.cop
    | 2 => decide (it.cop ≤ 1) && it.f 5 63 36 == 0 && decide (it.dFmt ≤ 13) && it.w 6 == 0 && it.w 7 == 0 &&
        (if it.cop = 0 then it.w 4 == 0 && it.w 2 % 4 == 0 else it.dN % 8 == 0 && it.startPos % 8 == 0)
    | 3 => decide (it.cop ≤ 3) && (it.kfmt == 11 || it.kfmt == 12 || it.kfmt == 13) && it.f 5 39 37 == 0 && it.f 5 63 57 == 0 &&
        (if it.cop ≤ 1 then decide (it.sN ≤ if it.kfmt = 12 then 2 ^ 23 else 2 ^ 24)
         else decide (it.topK ≤ 65536 ∧ (it.topK ≤ it.sN ∨ it.sN = 0)))
    | 4 => it.f 1 11 11 == 0 && it.f 6 63 32 == 0 && it.w 7 == 0 &&
        it.fftDims.all (fun m => m == 0 || (radixStages m).2) && decide (it.fftN ≤ 2 ^ 24)
    | 5 => decide (it.cop ≤ 5) && it.f 5 63 32 == 0 && it.f 7 63 32 == 0 && (it.cop ≠ 5 || it.startPos % 8 == 0)
    | 6 => decide (it.cop ≤ 1) && it.w 4 == 0 && it.f 5 63 32 == 0 && it.w 6 == 0 && it.w 7 == 0
    | _ =>
      (match it.cop with
        | 0 => (let f := it.f 6 3 0; f == 10 || f == 11 || f == 12) && decide (it.f 6 7 4 ≤ 9) && it.w 4 == 0 && it.f 6 31 12 == 0 &&
            it.f 7 63 32 == 0
        | 1 => decide (it.f 6 3 0 ≤ 11 ∧ it.f 6 7 4 ≤ 11) && it.f 6 63 16 == 0 && it.w 7 == 0
        | 2 => (let f := it.f 6 3 0; f == 10 || f == 11 || f == 12) && it.w 4 == 0 && it.f 5 63 32 == 0 && it.f 6 63 4 == 0 &&
            it.w 7 == 0
        | _ => false))

/-- The item's operands make it empty (09 R352). -/
def Item.craneEmpty (it : Item) : Bool :=
  match it.kind with
  | 1 => it.gN == 0 || it.gL == 0
  | 2 => it.dN == 0
  | 3 => it.sN == 0 || (decide (2 ≤ it.cop) && it.topK == 0)
  | 4 => it.fftN == 0
  | 5 => it.f 5 31 0 == 0
  | 6 => it.f 5 31 0 == 0
  | 7 => if it.cop = 0 then it.f 5 31 0 == 0 || it.f 5 63 32 == 0
      else if it.cop = 1 then it.f 5 31 0 == 0 && it.f 5 63 32 == 0 else it.f 5 31 0 == 0
  | _ => false

/-- The VAs a descriptor names (11 R412). -/
def Item.craneVas (it : Item) : List Nat :=
  match it.kind with
  | 0 => [it.w 2, it.w 3, it.w 4]
  | 1 => if it.cop = 1 then [it.w 2, it.w 3, it.w 4, it.w 7] else [it.w 2, it.w 3, it.w 4]
  | 2 => if it.cop = 1 then [it.w 2, it.w 3, it.w 4] else [it.w 2, it.w 3]
  | 3 => [it.w 2, it.w 3, it.w 4, it.w 6, it.w 7]
  | 4 => [it.w 2, it.w 3, it.w 4]
  | 5 => [it.w 3]
  | 6 => [it.w 2, it.w 3]
  | _ => if it.cop = 1 then [it.w 2, it.w 3, it.w 4] else [it.w 2, it.w 3]

/-- The warehouse of a range of VAs, when it lies in one. -/
def Dev.warehouseOf (d : Dev) (ctx va len : Nat) : Option Nat :=
  let gs := rangeFrom (va / 2 ^ 21) (if len = 0 then 1 else (va + len - 1) / 2 ^ 21 - va / 2 ^ 21 + 1)
  let ks := gs.map (fun g => (d.peek ctx (max va (g * 2 ^ 21))).bind (fun p =>
    match space p.2 with | .warehouse k _ => some k | _ => none))
  match ks with
  | some k :: rest => if rest.all (fun x => x == some k) then some k else none
  | _ => none

/-- The units a quantum counts, per ns and per position (09 R345): rate and cost in bits, records or
points. A bag costs its rows, as `Dev.craneWork` counts them. -/
def Item.craneCost (it : Item) : Nat × Nat :=
  match it.kind with
  | 0 => (4096, max (fmtBits it.sfmt) (fmtBits it.dfmt))
  | 1 => (if it.cop = 2 then 1024 else 2048, max 1 (8 * it.rowBytes))
  | 2 => (8192, fmtBits it.dFmt)
  | 3 => (4, 1)
  | 4 => (if it.fftF64 then 100 else 200, 1)
  | 5 => (4096, [32, 64, 32, 64, 32, 1].getD it.cop 32)
  | 6 => (if it.cop = 0 then 256 else 2048, 8192)
  | _ => if it.cop = 1 then (512, 8) else (8192, (if it.cop = 0 then max 1 (it.f 5 63 32) else 1) * fmtBits (it.f 6 3 0))

/-- A U32 of a context's memory as it stands, without loading or failing. -/
def Dev.peek32 (d : Dev) (ctx va : Nat) : Nat :=
  match d.peek ctx va with
  | some (_, pa) => leNat (d.mem.read pa 4)
  | none => 0

/-- Rows of a bag, by the offsets as they stand when a slice is cut; the row it writes stands for an empty
one's (09 R345; log entry 225). -/
def Dev.bagRows (d : Dev) (it : Item) (b : Nat) : Nat :=
  max 1 (d.peek32 it.ctx (vaAdd (it.w 7) (4 * b + 4)) - d.peek32 it.ctx (vaAdd (it.w 7) (4 * b)))

/-- An item is a BAGSUM of a crane. -/
def Item.isBagsum (it : Item) : Bool := it.typ == tCrane && it.kind == 1 && it.cop == 1

/-- Units of crane work from one position to another (09 R345). -/
def Dev.craneWork (d : Dev) (it : Item) (lo hi : Nat) : Nat :=
  max 1 it.craneCost.2 *
    (if it.isBagsum then ((rangeFrom lo (hi - lo)).map (d.bagRows it)).sum else hi - lo)

/-- The end of a BAGSUM's slice that has some rows' room: whole bags. -/
def Dev.bagsWithin (d : Dev) (it : Item) : Nat → Nat → Nat → Nat
  | 0, b, _ => b
  | fuel + 1, b, room =>
    let r := d.bagRows it b
    if r ≤ room then d.bagsWithin it fuel (b + 1) (room - r) else b

/-- The item's last position as its descriptor gives it, 0 for CONVERT and digests, whose block or list
gives it (09 R347). -/
def Item.craneLast (it : Item) : Nat :=
  match it.kind with
  | 1 => it.gN
  | 2 => it.dN
  | 3 => if it.cop ≤ 1 then it.passes * it.sN else it.sN
  | 4 => it.fftStages * it.fftN
  | 5 => it.f 5 31 0
  | 7 => if it.cop = 1 then it.f 5 31 0 + it.f 5 63 32 else it.f 5 31 0
  | _ => 0

/-- Bits that a crane item reads or writes at a position, as 09 R345 counts them; a record or a point counts
its bytes. -/
def Item.craneBits (it : Item) : Nat :=
  match it.kind with
  | 3 => 8 * (it.keyBytes + 4)
  | 4 => 16 * it.compBytes
  | _ => it.craneCost.2

/-- Bytes of a crane item still to do (09 R340 rule 5; log entry 224): from its start, or its position, to its
last position; one quantum's bytes while that is not known. -/
def Dev.craneBytes (d : Dev) (it : Item) : Nat :=
  let last := if it.checked then it.last else it.craneLast
  if last = 0 then d.quantum it.craneCost.1 / 2048
  else (last - max it.pos it.startPos) * it.craneBits / 8

/-- Unfinished admitted bytes of a crane (09 R340). -/
def Dev.craneLoad (d : Dev) (key : Nat) : Nat :=
  ((d.items.filter (fun it => it.typ == tCrane && it.assigned && it.engine == key && it.status.isNone)).map
    d.craneBytes).sum

/-- Deck-to-deck links between two decks on the normal route (01 R25): hub links are not deck links. -/
def deckHops (a b : Nat) : Nat :=
  let half := fun k => if k % 4 ≤ 1 then 0 else 1
  let row := fun k => k / 4
  let toHub := fun k => if k % 4 = 1 || k % 4 = 2 then 0 else 1
  if half a = half b then
    (if a % 4 = b % 4 then 0 else 1) + (if row a = row b then 0 else 1)
  else toHub a + toHub b

/-- The crane of a kind on the nearest deck whose crane is not fenced (09 R349). -/
def Dev.nearestCrane (d : Dev) (deck kind : Nat) : Option Nat :=
  ((List.range 8).foldl (fun (best : Option (Nat × Nat)) k =>
    if k = deck || (tget .new d.cranes (8 * k + kind)).fenced then best
    else match best with
      | none => some (k, deckHops deck k)
      | some (b, h) => if deckHops deck k < h then some (k, deckHops deck k) else some (b, h)) none).map (·.1)

/-- W2 is a source: not a random item's key, nor a digest's range list (09 R339). -/
def Item.hasSource (it : Item) : Bool := it.kind != 5 && it.kind != 6

/-- The crane of an item, as 8·deck + kind; none when a fence leaves it without one (09 R340, R349), or for a
reserved DECK. -/
def Dev.chooseCrane (d : Dev) (it : Item) : Option Nat :=
  let kind := it.kind
  let fenced := fun k => (tget .new d.cranes (8 * k + kind)).fenced
  if it.cdeck < 8 then (if fenced it.cdeck then none else some (8 * it.cdeck + kind))
  else if it.cdeck ≠ 15 then none
  else
    let at? := fun va => (d.peek it.ctx va).bind (fun p => d.deckOfPa p.2)
    let named := match it.scratch?.bind (fun s => d.warehouseOf it.ctx s.1 s.2) with
      | some k => some k
      | none => match at? (it.w 3) with
        | some k => some k
        | none => if it.hasSource then at? (it.w 2) else none
    match named with
    | some k => if fenced k then (d.nearestCrane k kind).map (fun j => 8 * j + kind) else some (8 * k + kind)
    | none =>
      match (d.peek it.ctx (it.w 3)).bind (fun p => p.1.placeDeck) with
      | some k => if fenced k then least d kind else some (8 * k + kind)
      | none => least d kind
where
  least (d : Dev) (kind : Nat) : Option Nat :=
    ((List.range 8).foldl (fun (best : Option (Nat × Nat)) k =>
      if (tget .new d.cranes (8 * k + kind)).fenced then best
      else
        let l := d.craneLoad (8 * k + kind)
        match best with
        | none => some (k, l)
        | some (b, m) => if l < m then some (k, l) else some (b, m)) none).map (fun b => 8 * b.1 + kind)

/-- The engine the harbourmaster chooses for a MOVE or CRANE item at its admission (03 R104, R112; 09
R340). -/
def Dev.chooseEngine (d : Dev) (it : Item) : Option Nat :=
  if it.typ = tMove then d.chooseLighter it
  else if it.typ = tCrane then d.chooseCrane it
  else none

/-- A sort's or FFT's scratch does not lie in its assigned deck's warehouse (09 R341). -/
def Dev.scratchLost (d : Dev) (it : Item) : Bool :=
  match it.scratch? with
  | none => false
  | some s => d.warehouseOf it.ctx s.1 s.2 != some (it.engine / 8)

/-- A SCATTER_ADD's table begins outside a warehouse (09 R360); an address without translation is met when it
is accessed. -/
def Dev.tableLost (d : Dev) (it : Item) : Bool :=
  it.kind == 1 && it.cop == 2 && (match d.peek it.ctx (it.w 3) with
    | some p => !inWarehouse p.2
    | none => false)

/-- The entries of a bag-offset list's index list: its last offset, as it stands (09 R357). -/
def Dev.bagIndices (d : Dev) (it : Item) : Nat := d.peek32 it.ctx (vaAdd (it.w 7) (4 * it.gN))

/-- Bytes of a stream with its END, by its headers as they stand (09 R361). -/
def Dev.streamBytes (d : Dev) (it : Item) : Nat → Nat → Nat
  | 0, off => off
  | fuel + 1, off =>
    let h := d.peek32 it.ctx (vaAdd (it.w 2) off)
    let dd := bits h 29 26
    let c := bits h 23 0
    let b := fmtBits it.dFmt
    match bits h 31 30 with
    | 0 => d.streamBytes it fuel (off + 4 + cdiv (c * b) 32 * 4)
    | 1 => d.streamBytes it fuel (off + 4)
    | 2 => d.streamBytes it fuel (off + 4 + cdiv (2 ^ dd * b + c * dd) 32 * 4)
    | _ => off + 4

/-- The range of a CONVERT's scales. -/
def Item.scaleRange (it : Item) (va stride : Nat) : Nat × Nat :=
  (va, (it.dims.getD 1 1 - 1) * stride + cdiv (it.dims.getD 0 1) 32)

/-- The operand ranges of a gather/scatter item, of a crane or a wharf (11 R427, 10 R385): `op` as the crane
numbers them. -/
def Dev.gatherRanges (d : Dev) (it : Item) (op : Nat) : List (Nat × Nat) :=
  let n := it.gN
  match op with
  | 0 => [(it.w 2, it.gR * it.rowBytes), (it.w 3, n * it.rowBytes), (it.w 4, 4 * n)]
  | 1 => [(it.w 2, it.gR * it.rowBytes), (it.w 3, n * (4 * it.gL)), (it.w 4, 4 * d.bagIndices it), (it.w 7, 4 * n + 4)]
  | _ => [(it.w 2, n * it.rowBytes), (it.w 3, it.gR * it.rowBytes), (it.w 4, 4 * n)]

/-- The operand ranges of a CRANE item (11 R427). -/
def Dev.craneRanges (d : Dev) (it : Item) : List (Nat × Nat) :=
  match it.kind with
  | 0 => [it.spanOf (it.w 2) (cdiv (fmtBits it.sfmt) 8) 3, it.spanOf (it.w 3) (cdiv (fmtBits it.dfmt) 8) 8, (it.w 4, 128)] ++
      (if it.sscaled then [it.scaleRange (it.p 13) (bits (it.p 15) 31 0)] else []) ++
      (if it.dscaled then [it.scaleRange (it.p 14) (bits (it.p 15) 63 32)] else [])
  | 1 => d.gatherRanges it it.cop
  | 2 => (it.w 3, cdiv (it.dN * fmtBits it.dFmt) 8) ::
      (if it.cop = 1 then [(it.w 2, cdiv (it.dN / 4 * fmtBits it.dFmt) 8), (it.w 4, it.dN / 8)]
       else [(it.w 2, d.streamBytes it (it.dN + 1) 0)])
  | 3 =>
    let outs := if 2 ≤ it.cop then it.topK else it.sN
    [(it.w 2, it.sN * it.keyBytes), (it.w 3, outs * it.keyBytes), (it.w 4, it.scratchBytes)] ++
      (if it.payloadFlag then [(it.w 6, 4 * it.sN)] else []) ++ (if it.payloadFlag || it.w 7 ≠ 0 then [(it.w 7, 4 * outs)] else [])
  | 4 =>
    let n := it.fftN * 2 * it.compBytes
    [(it.w 2, n), (it.w 3, n), (it.w 4, n)]
  | 5 => [(it.w 3, if it.cop = 5 then cdiv (it.f 5 31 0) 8 else it.f 5 31 0 * [4, 8, 4, 8, 4].getD it.cop 4)]
  | 6 => [(it.w 3, if it.cop = 0 then 32 else 4), (it.w 2, 16 * it.f 5 31 0)] ++ it.ranges
  | _ =>
    let n := it.f 5 31 0
    let k := fmtBits (it.f 6 3 0) / 8
    match it.cop with
    | 0 => [(it.w 2, ((n - 1) * it.f 6 63 32 + it.f 5 63 32) * k), (it.w 3, (n - 1) * it.f 7 31 0 + cdiv (it.f 5 63 32) 32)]
    | 1 => [(it.w 2, n), (it.w 4, it.f 5 63 32), (it.w 3, 8)]
    | _ => [(it.w 2, n * k), (it.w 3, 536)]

/-- The number of positions one slice must keep together: a byte of BERNOULLI, a group of SPARSE28, a
byte or 3-byte group of a packed output. -/
def Item.craneGrain (it : Item) : Nat :=
  match it.kind with
  | 2 => if it.cop = 1 then 8 else if fmtBits it.dFmt = 6 then 4 else if fmtBits it.dFmt = 4 then 2 else 1
  | 5 => if it.cop = 5 then 8 else 1
  | _ => 1

/-! ### The commands -/

/-- An older item's slice comes first on the same crane (09 R346), or the crane is being reset
(17 R634). -/
def Dev.craneBusy (d : Dev) (it : Item) : Bool :=
  (tget .new d.cranes it.engine).resetUntil.isSome || d.items.any (fun o => o.typ == tCrane && o.phase == .released && o.engine == it.engine && decide (o.order < it.order))

/-- A released CRANE item of a kind and operation that is its crane's next. -/
def Dev.onCrane (d : Dev) (ring index kind op : Nat) (f : Item → Dev) : Dev :=
  d.onItem ring index (fun it => it.typ == tCrane && it.kind == kind && it.cop == op && !d.craneBusy it) f

/-- Work through the units of a slice, of `k` positions each. -/
def Dev.craneUnits (d : Dev) (it : Item) (f : Nat → EM URes) (k : Nat := 1) : Dev :=
  d.engLoop it it.eng k f (·.sliceDone it.ring it.index) (cdiv it.sliceEnd k - it.pos / k) (it.pos / k)

/-- CONVERT (09 R354). -/
def execConvert (ring index : Nat) (s : State) : Out :=
  actUp s fun d => d.onCrane ring index 0 0 fun it => d.craneUnits it (it.convertUnit it.eng)
/-- CRANE_GATHER (09 R357). -/
def execCraneGather (ring index : Nat) (s : State) : Out :=
  actUp s fun d => d.onCrane ring index 1 0 fun it => d.craneUnits it (it.gatherUnit it.eng)
/-- CRANE_BAGSUM (09 R359). -/
def execCraneBagsum (ring index : Nat) (s : State) : Out :=
  actUp s fun d => d.onCrane ring index 1 1 fun it => d.craneUnits it (it.bagUnit it.eng)
/-- CRANE_SCATTER_ADD (09 R360). -/
def execCraneScatterAdd (ring index : Nat) (s : State) : Out :=
  actUp s fun d => d.onCrane ring index 1 2 fun it => d.craneUnits it (it.scatterUnit it.eng)
/-- STREAM (09 R362). -/
def execStream (ring index : Nat) (s : State) : Out :=
  actUp s fun d => d.onCrane ring index 2 0 fun it => d.engRun it (it.streamSlice it.eng)

/-- SPARSE28 (09 R363). -/
def execSparse28 (ring index : Nat) (s : State) : Out :=
  actUp s fun d => d.onCrane ring index 2 1 fun it => d.craneUnits it (it.sparseUnit it.eng) 8
/-- SORT_ASC (09 R365). -/
def execSortAsc (ring index : Nat) (s : State) : Out :=
  actUp s fun d => d.onCrane ring index 3 0 fun it => d.engRun it (it.sortSlice it.eng false)
/-- SORT_DESC (09 R365). -/
def execSortDesc (ring index : Nat) (s : State) : Out :=
  actUp s fun d => d.onCrane ring index 3 1 fun it => d.engRun it (it.sortSlice it.eng true)
/-- TOPK_MAX (09 R365). -/
def execTopkMax (ring index : Nat) (s : State) : Out :=
  actUp s fun d => d.onCrane ring index 3 2 fun it => d.engRun it (it.topSlice it.eng true)
/-- TOPK_MIN (09 R365). -/
def execTopkMin (ring index : Nat) (s : State) : Out :=
  actUp s fun d => d.onCrane ring index 3 3 fun it => d.engRun it (it.topSlice it.eng false)
/-- FFT (09 R369): every combination of INVERSE, SCALE and F64. -/
def execFft (ring index : Nat) (s : State) : Out :=
  actUp s fun d => d.onItem ring index (fun it => it.typ == tCrane && it.kind == 4 && !d.craneBusy it) fun it => d.engRun it (it.fftSlice it.eng)

/-- The random elements of a slice. -/
def Dev.randSlice (d : Dev) (ring index kind : Nat) : Dev :=
  d.onCrane ring index 5 kind fun it => d.craneUnits it (fun p => return it.randUnit kind p)

/-- RANDOM_U32 (09 R371). -/
def execRandomU32 (ring index : Nat) (s : State) : Out := actUp s fun d => d.randSlice ring index 0
/-- RANDOM_U64 (09 R371). -/
def execRandomU64 (ring index : Nat) (s : State) : Out := actUp s fun d => d.randSlice ring index 1
/-- UNIFORM_F32 (09 R371). -/
def execUniformF32 (ring index : Nat) (s : State) : Out := actUp s fun d => d.randSlice ring index 2
/-- UNIFORM_F64 (09 R371). -/
def execUniformF64 (ring index : Nat) (s : State) : Out := actUp s fun d => d.randSlice ring index 3
/-- NORMAL_F32 (09 R371). -/
def execNormalF32 (ring index : Nat) (s : State) : Out := actUp s fun d => d.randSlice ring index 4

/-- BERNOULLI (09 R371). -/
def execBernoulli (ring index : Nat) (s : State) : Out :=
  actUp s fun d => d.onCrane ring index 5 5 fun it => d.craneUnits it (fun b => return it.bernoulliUnit b) 8
/-- SHA3_256 (09 R372). -/
def execSha3256 (ring index : Nat) (s : State) : Out :=
  actUp s fun d => d.onCrane ring index 6 0 fun it => d.digestSlice it false
/-- CRC32C (09 R372). -/
def execCrc32c (ring index : Nat) (s : State) : Out :=
  actUp s fun d => d.onCrane ring index 6 1 fun it => d.digestSlice it true
/-- BLOCKMAX (09 R373). -/
def execBlockmax (ring index : Nat) (s : State) : Out :=
  actUp s fun d => d.onCrane ring index 7 0 fun it => d.craneUnits it (it.blockmaxUnit it.eng)
/-- ANCHOR (09 R374). -/
def execAnchor (ring index : Nat) (s : State) : Out :=
  actUp s fun d => d.onCrane ring index 7 1 fun it => d.engRun it (it.anchorSlice it.eng)
/-- HIST (09 R375). -/
def execHist (ring index : Nat) (s : State) : Out :=
  actUp s fun d => d.onCrane ring index 7 2 fun it => d.engRun it (it.histSlice it.eng)

/-- The item a crane has in hand: the oldest whose slice is released to it, or else the oldest whose slice it
has carried out (09 R346). -/
def Dev.craneHolds (d : Dev) (key : Nat) : Option (Nat × Nat) :=
  let on := fun (p : Phase) => d.items.filter (fun it => it.typ == tCrane && it.assigned && it.engine == key && it.phase == p)
  let oldest := fun (l : List Item) => (l.foldl (fun best it => match best with
    | none => some it
    | some (b : Item) => if it.order < b.order then some it else best) none)
  ((oldest (on .released)).orElse (fun _ => oldest (on .sliceDone))).map (fun it => (it.ring, it.index))

/-- An item of a fenced crane (09 R349): the running one fails at the position reached, one queued under ANY
moves to the nearest crane and one with a named DECK fails. A sort or FFT whose scratch lies elsewhere then
fails at position 0 (09 R341), at once if a slice of it has run. -/
def Dev.fencedItem (d : Dev) (near : Option Nat) (holds : Option (Nat × Nat)) (kind : Nat) (it : Item) : Item :=
  if holds = some (it.ring, it.index) then { it.finish 0x13 with pos := it.reached }
  else match (if it.cdeck = 15 then near else none) with
    | none => { it.finish 0x13 with pos := if it.started then it.reached else it.startPos }
    | some k =>
      let it : Item := { it with engine := 8 * k + kind }
      if it.started && d.scratchLost it then { it.finish 0x16 with pos := 0 } else it

/-- A crane that holds released slices, and is neither fenced nor in reset, is BUSY with the oldest
(09 R376). -/
def Dev.craneTakesUp (d : Dev) (key : Nat) : Dev :=
  if d.get F.dckCraneStatus_STATE key ≠ 0 then d
  else match (d.craneHolds key).bind (fun h => d.item? h.1 h.2) with
    | some it => if it.phase == .released then
        (d.put F.dckCraneStatus_STATE 1 key).put F.dckCraneStatus_CONTEXT it.ctx key else d
    | none => d

/-- CRANE_FENCE (09 R349): the crane is fenced, its running item fails, its queued items under ANY go to
the nearest crane of their kind, the others fail. -/
def execCraneFence (deck kind : Nat) (s : State) : Out :=
  actUp s fun d => if deck < 8 && kind < 8 && !(tget .new d.cranes (8 * deck + kind)).fenced then
    let key := 8 * deck + kind
    let d := d.modCrane key (fun c => { c with fenced := true, resetUntil := none })
    let d := (d.put F.dckCraneStatus_STATE 2 key).addSat F.dckCraneStatus_FAULTS 1 key
    let d := d.note 0x9310 (locCrane deck kind)
    let near := d.nearestCrane deck kind
    let holds := d.craneHolds key
    let d : Dev := { d with items := d.items.map (fun it =>
        if it.typ == tCrane && it.assigned && it.engine == key && it.status.isNone then d.fencedItem near holds kind it
        else it) }
    match near with
    | some k => d.craneTakesUp (8 * k + kind)
    | none => d
  else d

end Sys2Proof.Machine
end

