-- ==== Sys2Proof/Machine/Power.lean ====
section
/-! DEFINITION. Power, clocks and temperature (15): hints, the lockkeeper's loop, caps, droop, ageing, the
trips; and the fence of a compute die (17 R626). -/
namespace Sys2Proof.Machine

/-! ### Fenced dies and stops -/

/-- The logical dies that are active. -/
def Dev.liveDies (d : Dev) : List Nat := (List.range 44).filter d.dieActive

/-- A compute die is fenced in the field (17 R626, 01 R32): its launches fail, its cached lines are lost,
and the items its lighters move end at the position reached (log entry 20). -/
def Dev.fenceDie (d : Dev) (ld cause : Nat) : Dev :=
  if !d.dieActive ld then d else
  let d := (d.put F.cdLocation_STATE 1 ld).note 0x9301 (d.locDie ld) [(1, cause)]
  let d := d.modPilot (fun p => { p with deadDies := p.deadDies ++ [d.physDie ld] })
  let mine := d.launches.filter (fun l => l.start.isSome && l.clusters.any (fun c => c / 4 == ld))
  let d := mine.foldl (fun d l => d.failLaunch l.ring l.index 0x13) d
  let d := (rangeFrom (4 * ld) 4).foldl (fun d lc =>
    let d := d.modCluster lc (fun c => { c with tc := [], side := [] })
    { d with xlat := tset .new d.xlat (holderKey (.cluster lc)) .new }) d
  { d with items := d.items.map (fun it =>
      if it.typ == tMove && it.started && it.phase != .finished && it.engine / 4 == ld then
        { it.finish 0x13 with pos := it.reached }
      else it) }

/-- COMPUTE_DIE_FENCE (17 R626). -/
def execComputeDieFence (ld cause : Nat) (s : State) : Out :=
  actUp s fun d => if ld < 44 then d.fenceDie ld cause else d

/-- The logical die a physical die serves. -/
def Dev.logicalOf (d : Dev) (phys : Nat) : Option Nat := (List.range 44).find? (fun ld => d.physDie ld == phys)

/-- Every clock except CKD03 stops; items in flight get no record (15 R572, R587). -/
def Dev.stopClocks (d : Dev) : Dev := { d with stopped := true }

/-- A supply stop (15 R572): the clocks stop and DEV_ALERT_N asserts. -/
def Dev.supplyStop (d : Dev) : Dev := ({ d with pins := { d.pins with alert := true } } : Dev).stopClocks

/-! ### Operating points -/

/-- The supply voltage of a logical die at a step: its fused table plus the ageing offset in force, at most
the process limit (15 R568, R579). -/
def Dev.vf (d : Dev) (ld f : Nat) : Nat :=
  min 900 (((d.fuses.vfMv.getD (d.physDie ld) []).getD f 0) + (tget .new d.dies ld).vfOffset)

/-- The V/F tables staged since the latest tick come into force (02 R63). -/
def Dev.swapVf (d : Dev) : Dev :=
  (List.range 44).foldl (fun d ld => d.modDie ld (fun x => { x with vfOffset := d.get F.lkpDie_AGEING_MV ld })) d

/-- Every running die goes to 350 MHz at once and no step of it is pending (15 R571, R572, R588; 17
R632). -/
def Dev.slowDies (d : Dev) : Dev :=
  d.liveDies.foldl (fun d ld => (d.setFreq ld 0).modDie ld (fun x => { x with target := none })) d

/-- Some cluster of a die is stretched. -/
def Dev.dieStretched (d : Dev) (ld : Nat) : Bool :=
  (rangeFrom (4 * ld) 4).any (fun lc => (tget .new d.clusters lc).stretched)

/-- Whether a droop defers a step of a die at this tick (15 R581). -/
def Dev.stepDeferred (d : Dev) (ld : Nat) : Bool :=
  d.dieStretched ld || ((tget .new d.dies ld).deferred && (tget .new d.dies ld).stretchedTide)

/-- Apply a die's decided step at a tick (15 R568, R581). -/
def Dev.applyStep (d : Dev) (ld : Nat) : Dev :=
  let cur := d.get F.lkpDie_FREQ ld
  let d := match (tget .new d.dies ld).target with
    | none => d
    | some (f, ready) =>
      if f = cur then d.modDie ld (fun x => { x with target := none, deferred := false })
      else if d.stepDeferred ld then
        let d := (d.modDie ld (fun x => { x with deferred := true })).flag F.lkpStatus_DROOP_DEFERRED true
        (d.addSat F.lkpDroop_DEFERRED 1).note 0x5401 (d.locDie ld) [(2, d.locDie ld)]
      else if f < cur || ready ≤ d.now then
        (d.setFreq ld f).modDie ld (fun x => { x with target := none, deferred := false })
      else d
  let high := match (tget .new d.dies ld).target with
    | some (f, ready) => if ready ≤ d.now then max f (d.get F.lkpDie_FREQ ld) else d.get F.lkpDie_FREQ ld
    | none => d.get F.lkpDie_FREQ ld
  let again := d.dieStretched ld
  (d.put F.lkpDie_VOLTAGE_MV (d.vf ld high) ld).modDie ld (fun x => { x with stretchedTide := again })

/-- TICK action 3 (02 R63): the decided operating points take effect. -/
def Dev.applySteps (d : Dev) : Dev :=
  let d := (d.flag F.lkpStatus_DROOP_DEFERRED false).modPower (fun p => { p with decided := false })
  let d := (List.range 5).foldl (fun d k => d.put F.lkpClass_ALLOC_W (d.power.alloc.getD k (d.get F.lkpClass_ALLOC_W k)) k) d
  d.liveDies.foldl Dev.applyStep d

/-! ### Measurement (15 R564 to R566) -/

/-- A quantity of the estimator's model after its rescaling (15 R566). -/
def Power.scaled (p : Power) (w : Nat) : Nat := w * p.scaleNum / max 1 p.scaleDen

/-- The hottest of a list of readings and its index. -/
def hottest (l : List (Nat × Int)) : Nat × Int :=
  l.foldl (fun b x => if b.2 < x.2 then x else b) (l.headD (0, 0))

/-- A temperature in an eight-bit field; below zero reads as 0. -/
def tempField (t : Int) : Nat := min 255 t.toNat

/-- A throttle with its two thresholds: on at `hi`, off below `lo` (15 R584 to R586). -/
def throttle (on : Bool) (t hi lo : Int) : Bool := if hi ≤ t then true else if t < lo then false else on

/-- The comparison of estimate and measurement (15 R566). -/
def Dev.compareEstimate (d : Dev) (m e raw : Nat) : Dev :=
  let agrees := decide (100 * (max m e - min m e) ≤ 15 * m)
  let n := if agrees then d.get F.lkpPower_AGREE_TIDES + 1 else 0
  let d := d.put F.lkpPower_AGREE_TIDES (min 0xFFFF n)
  let d := d.modPower (fun p => { p with disagree := if agrees then 0 else p.disagree + 1 })
  let d := if d.get F.lkpStatus_ESTIMATE_DIVERGED = 0 then
      if 8 < d.power.disagree then
        (d.flag F.lkpStatus_ESTIMATE_DIVERGED true).note 0x5101 0 [(4, m), (4, e)]
      else d
    else if 64 ≤ n then (d.flag F.lkpStatus_ESTIMATE_DIVERGED false).note 0x5102 0
    else d
  if d.get F.lkpStatus_ESTIMATE_DIVERGED = 1 && 0 < raw then
    d.modPower (fun p => { p with scaleNum := m, scaleDen := raw })
  else d

/-- The throttles of stacks, decks, the hub and the host die (15 R585, R586). -/
def Dev.throttles (d : Dev) (t : Telemetry) : Dev :=
  let d := (List.range 16).foldl (fun d s =>
    let c := t.stackC.getD s 0
    let on := (tget .new d.hbmStacks s).throttled
    let d := if !on && throttle on c 95 92 then d.note 0x5502 (locStack s) [(2, locStack s), payTemp c] else d
    d.modStack s (fun x => { x with throttled := throttle on c 95 92 })) d
  let d := d.flag F.lkpStatus_HBM_THROTTLE ((List.range 16).any (fun s => (tget .new d.hbmStacks s).throttled))
  let d := (List.range 8).foldl (fun d k =>
    let c := t.deckC.getD k 0
    let on := (tget .new d.decks k).throttled
    let d := if !on && throttle on c 100 97 then d.note 0x5503 (locDeck k) [(2, locDeck k), payTemp c] else d
    d.modDeck k (fun x => { x with throttled := throttle on c 100 97 })) d
  let d := if !d.power.hubHot && throttle d.power.hubHot t.hubC 100 97 then d.note 0x5503 locHub [(2, locHub), payTemp t.hubC] else d
  let d := if !d.power.hostHot && throttle d.power.hostHot t.hostC 100 97 then d.note 0x5503 locHost [(2, locHost), payTemp t.hostC] else d
  d.modPower (fun p => { p with hubHot := throttle p.hubHot t.hubC 100 97, hostHot := throttle p.hostHot t.hostC 100 97 })

/-- The effective cap: the smaller of the two (15 R570). -/
def Dev.effectiveCap (d : Dev) : Nat := min (d.get F.lkpCap_BOARD_CAP_W) (d.get F.lkpCap_SW_CAP_W)

/-- TICK action 2 (02 R63): the telemetry of the tide just ended is latched. -/
def Dev.latchTelemetry (d : Dev) (t : Telemetry) : Dev :=
  let m := t.measuredW
  let e := d.power.scaled t.estimatedW
  let d := d.modPower (fun p => { p with latched := t })
  let sum := t.classW.sum
  let d := ((d.put F.lkpPower_MEASURED_W (min 0xFFFF m)).put F.lkpPower_ESTIMATED_W (min 0xFFFF e)).put F.lkpPower_ALLOCATED_W
    (((List.range 5).map (fun k => d.get F.lkpClass_ALLOC_W k)).sum)
  let d := (List.range 5).foldl (fun d k =>
    let w := t.classW.getD k 0
    d.put F.lkpClass_MEASURED_W (min 0xFFFF (if sum = 0 then w else w * m / sum)) k) d
  let d := d.compareEstimate m e t.estimatedW
  let d := (List.range 44).foldl (fun d ld => d.put F.lkpDie_TEMP_C (tempField (t.dieC.getD ld 0)) ld) d
  let h := hottest ((List.range 16).map (fun s => (locStack s, t.stackC.getD s 0)))
  let j := hottest ((List.range 44).map (fun ld => (d.locDie ld, t.dieC.getD ld 0)) ++
    (List.range 8).map (fun k => (locDeck k, t.deckC.getD k 0)) ++ [(locHub, t.hubC), (locHost, t.hostC)])
  let d := ((d.put F.lkpTemp_HBM_C (tempField h.2)).put F.lkpTemp_HBM_LOCATOR h.1).put F.lkpTemp_JUNCTION_C (tempField j.2)
  (d.put F.lkpTemp_JUNCTION_LOCATOR j.1).throttles t

/-- A tide whose measured power exceeds the effective cap, as the latest decision took it, by more than 10 %
sets every die to 350 MHz until the next decision (15 R570, R571). -/
def Dev.overshoot (d : Dev) : Dev :=
  let m := d.power.latched.measuredW
  let cap := d.power.cap.getD d.effectiveCap
  if 11 * cap < 10 * m then
    ((d.flag F.lkpStatus_OVERSHOOT true).note 0x5202 0 [(4, m), (4, cap)]).slowDies
  else d

/-! ### Hints (15 R582, R583) -/

/-- A HINT replaces its context's earlier one from its release (15 R582). -/
def Dev.hint (d : Dev) (it : Item) : Dev :=
  let t := d.get F.tideCount_VALUE
  let h : Hint := { ctx := it.ctx, kind := it.f 1 3 0, first := t + it.f 1 15 8 + 1,
                    last := if it.f 1 31 16 = 0 then none else some (t + it.f 1 15 8 + it.f 1 31 16) }
  (d.modPower (fun p => { p with hints := p.hints.filter (fun x => x.ctx != it.ctx) ++ [h] })).finish it.ring it.index 0

/-- The released HINT of a phase is taken. -/
def Dev.onHint (d : Dev) (ring index kind : Nat) : Dev :=
  d.onItem ring index (fun it => it.typ == tHint && it.f 1 3 0 == kind) d.hint

/-- HINT_MATRIX_HEAVY (15 R582). -/
def execHintMatrixHeavy (ring index : Nat) (s : State) : Out := actUp s fun d => d.onHint ring index 0
/-- HINT_MEMORY_HEAVY (15 R582). -/
def execHintMemoryHeavy (ring index : Nat) (s : State) : Out := actUp s fun d => d.onHint ring index 1
/-- HINT_LINK_HEAVY (15 R582). -/
def execHintLinkHeavy (ring index : Nat) (s : State) : Out := actUp s fun d => d.onHint ring index 2
/-- HINT_IDLE (15 R583). -/
def execHintIdle (ring index : Nat) (s : State) : Out := actUp s fun d => d.onHint ring index 3

/-- The hints in force for a tide. -/
def Power.hintsAt (p : Power) (n : Nat) : List Hint :=
  p.hints.filter (fun h => decide (h.first ≤ n) && (match h.last with | some e => decide (n ≤ e) | none => true))

/-! ### The decision (15 R567, R574 to R576) -/

/-- The predicted demands of a tide, in mW (15 R565, R582, R583). -/
def Dev.demands (d : Dev) (q : Prediction) (n : Nat) : List Nat :=
  let hs := d.power.hintsAt n
  let mw := fun (l : List Nat) (k : Nat) => d.power.scaled (1000 * l.getD k 0)
  let raise := fun k kind => if hs.any (fun h => h.kind == kind) then max (mw q.demand k) (mw q.fullDemand k) else mw q.demand k
  let compute := if !hs.isEmpty && hs.all (fun h => h.kind == 3) then 1000 * d.get F.lkpClass_FLOOR_W 3 else raise 3 0
  [raise 0 2, raise 1 1, mw q.demand 2, compute, mw q.demand 4]

/-- The allocation of a budget in priority order, and what is left, in mW (15 R574). -/
def shareBudget (floors dem : List Nat) (b : Nat) : List Nat × Nat :=
  (List.range 5).foldl (fun (acc : List Nat × Nat) k =>
    let f := floors.getD k 0
    let add := min acc.2 (dem.getD k 0 - f)
    (acc.1 ++ [f + add], acc.2 - add)) ([], b - floors.sum)

/-- A die's thermal ceiling at a decision (15 R584). -/
def Dev.ceilings (d : Dev) : Dev :=
  let d := d.liveDies.foldl (fun d ld =>
    let c := d.power.latched.dieC.getD ld 0
    let top := d.get F.lkpDie_EFF_MAX ld
    let x := tget .new d.dies ld
    let was := min x.ceiling top
    if 100 ≤ c then
      let d := if x.hot then d else d.note 0x5501 (d.locDie ld) [(2, d.locDie ld), payTemp c]
      d.modDie ld (fun x => { x with ceiling := was - 5, hot := true })
    else if c < 97 then
      d.modDie ld (fun x => { x with ceiling := min top (was + 1), hot := x.hot && decide (was + 1 < top) })
    else d.modDie ld (fun x => { x with ceiling := was })) d
  d.flag F.lkpStatus_COMPUTE_THROTTLE (d.liveDies.any (fun ld => (tget .new d.dies ld).hot))

/-- Predicted power of a die at a step, in mW. -/
def Dev.diePower (d : Dev) (q : Prediction) (ld f : Nat) : Nat := d.power.scaled ((q.dieMw.getD ld []).getD f 0)

/-- The highest common step, of at most `f`, that fits an allocation (15 R575); 350 MHz when none
does. -/
def Dev.commonStep (d : Dev) (q : Prediction) (ceil : Nat → Nat) (alloc : Nat) : Nat → Nat
  | 0 => 0
  | f + 1 =>
    if (d.liveDies.map (fun ld => d.diePower q ld (min (f + 1) (ceil ld)))).sum ≤ alloc then f + 1
    else d.commonStep q ceil alloc f

/-- The SPRINT rounds (15 R575). -/
def Dev.sprint (d : Dev) (q : Prediction) (top : Nat → Nat) : Nat → List (Nat × Nat) → Nat → List (Nat × Nat)
  | 0, fs, _ => fs
  | n + 1, fs, left =>
    let up := fs.filter (fun e => e.2 < top e.1)
    let cost := (up.map (fun e => d.diePower q e.1 (e.2 + 1) - d.diePower q e.1 e.2)).sum
    if up.isEmpty || left < cost then fs
    else d.sprint q top n (fs.map (fun e => if e.2 < top e.1 then (e.1, e.2 + 1) else e)) (left - cost)

/-- Set a die's decided step (15 R568): a raise waits for its voltage; one whose voltage is already
rising high enough keeps its time. -/
def Dev.setDecision (d : Dev) (q : Prediction) (ld f : Nat) : Dev :=
  let cur := d.get F.lkpDie_FREQ ld
  let ready :=
    if f ≤ cur || d.vf ld f ≤ d.get F.lkpDie_VOLTAGE_MV ld then d.now
    else match (tget .new d.dies ld).target with
      | some (f', r) => if f ≤ f' then r else d.now + q.settleNs.getD ld 0
      | none => d.now + q.settleNs.getD ld 0
  d.modDie ld (fun x => { x with target := if f = cur then none else some (f, ready) })

/-- The decision for the next tide (15 R567). -/
def Dev.lockkeeper (d : Dev) (q : Prediction) : Dev :=
  let n := d.get F.tideCount_VALUE + 1
  let d := (d.flag F.lkpStatus_HINT_ACTIVE (!(d.power.hintsAt n).isEmpty)).flag F.lkpStatus_OVERSHOOT false
  let d := d.modPower (fun p => { p with
    decided := true, cap := some d.effectiveCap
    hostMhz := if p.hostHot then max 1000 (p.hostMhz - 200) else 3000 })
  let dem := d.demands q n
  let cap := 1000 * d.effectiveCap
  let b := if d.get F.lkpStatus_ESTIMATE_DIVERGED = 1 then cap * 9 / 10 else cap
  let floors := (List.range 5).map (fun k => 1000 * d.get F.lkpClass_FLOOR_W k)
  let (alloc, left) := shareBudget floors dem b
  let m := 1000 * d.power.latched.measuredW
  let compute := if b < m then max (floors.getD 3 0) (alloc.getD 3 0 - 2 * (m - b)) else alloc.getD 3 0
  let alloc := alloc.set 3 compute
  let d := (List.range 5).foldl (fun d k => d.put F.lkpClass_DEMAND_W (min 0xFFFF (dem.getD k 0 / 1000)) k) d
  let d := d.modPower (fun p => { p with alloc := alloc.map (fun w => min 0xFFFF (w / 1000)) })
  let d := d.ceilings
  let ceil := fun ld => (tget .new d.dies ld).ceiling
  let f := d.commonStep q ceil compute 35
  let base := d.liveDies.map (fun ld => (ld, min f (ceil ld)))
  let sprints := d.get F.lkpMode_MODE = 1
  let fs := if sprints then d.sprint q (fun ld => min (d.get F.lkpDie_EFF_MAX ld) (ceil ld)) 64 base left else base
  let held := !sprints && fs.any (fun e => e.2 < 35)
  let d := if held && d.get F.lkpStatus_FIXED_HELD = 0 then
    d.note 0x5301 0 [(4, 350 + 10 * fs.foldl (fun a e => min a e.2) 35)] else d
  let d := d.flag F.lkpStatus_FIXED_HELD held
  fs.foldl (fun d e => d.setDecision q e.1 (if d.pins.capNow then 0 else e.2)) d

/-- LOCKKEEPER_DECISION (15 R567): once in a tide, from 7/8 of it. -/
def execLockkeeperDecision (d : Prediction) (s : State) : Out :=
  actUp s fun dev =>
    if !dev.power.decided && dev.get F.tideLastTickNs_VALUE + dev.period * 7 / 8 ≤ dev.now then dev.lockkeeper d
    else dev

/-! ### Caps (15 R570, 16 R597) -/

/-- The software cap follows a board cap that falls below it (15 R570, 17 R641). -/
def Dev.lowerSwCap (d : Dev) : Dev :=
  let b := d.get F.lkpCap_BOARD_CAP_W
  if b < d.get F.lkpCap_SW_CAP_W then
    (((d.put F.lkpCap_SW_CAP_W b).flag F.lkpStatus_CAP_LOWERED true).note 0x5203 0 [(4, b)]).newEpoch 3
  else d

/-- The board cap in force: the written value, at most the bound (15 R570, 16 R597). -/
def Dev.setBoardCap (d : Dev) (w : Nat) : Dev :=
  ((d.modPilot (fun p => { p with boardCap := some w })).put F.lkpCap_BOARD_CAP_W (min w d.pilot.capBound)).lowerSwCap

/-! ### Droop (15 R580, R581) -/

/-- DROOP_DETECTED (15 R580, R581): the cluster's clock is stretched; a raise whose ramp is in progress
is abandoned. -/
def execDroopDetected (lc : Nat) (s : State) : Out :=
  actOn s fun d =>
    if 176 ≤ lc || (tget .new d.clusters lc).stretched || !d.dieActive (lc / 4) then d else
    let d := ((d.syncCycles lc).modCluster lc (fun c => { c with stretched := true })).addSat F.lkpDroop_STRETCHES 1
    let ld := lc / 4
    let d := d.modDie ld (fun x => { x with stretchedTide := true })
    match (tget .new d.dies ld).target with
    | some (f, ready) =>
      if d.get F.lkpDie_FREQ ld < f && d.now < ready then
        (d.modDie ld (fun x => { x with target := none, deferred := false })).addSat F.lkpDroop_ABANDONED 1
      else d
    | none => d

/-- DROOP_RELEASE (15 R580): the stretch ends after 64 droop-free cycles. -/
def execDroopRelease (lc : Nat) (s : State) : Out :=
  actOn s fun d =>
    if lc < 176 && (tget .new d.clusters lc).stretched then
      (d.syncCycles lc).modCluster lc (fun c => { c with stretched := false })
    else d

/-! ### Ageing (15 R579) -/

/-- A die's ageing offset is remeasured (15 R579); its V/F table is staged for the next tick (02 R63). -/
def Dev.ageDie (d : Dev) (ld offset : Nat) : Dev :=
  let d := d.put F.lkpDie_AGEING_MV (min 255 offset) ld
  let top := d.get F.lkpDie_EFF_MAX ld
  let need := fun f => ((d.fuses.vfMv.getD (d.physDie ld) []).getD f 0) + min 255 offset
  let d :=
    if 900 < need top then
      if 35 < top then
        (d.put F.lkpDie_EFF_MAX (top - 1) ld).note 0x5302 (d.locDie ld) [(2, d.locDie ld), (4, 350 + 10 * (top - 1))]
      else if d.power.ageingLogged.contains ld then d
      else (d.modPower (fun p => { p with ageingLogged := ld :: p.ageingLogged })).note 0x5303 (d.locDie ld) [(2, d.locDie ld)]
    else d
  let age := tset 0 d.ledger.data.ageing (d.physDie ld) (d.get F.lkpDie_AGEING_MV ld)
  let top := tset 0 d.ledger.data.effMax (d.physDie ld) (d.get F.lkpDie_EFF_MAX ld)
  if age = d.ledger.data.ageing && top = d.ledger.data.effMax then d
  else d.ledgerChange (fun l => { l with ageing := age, effMax := top })

/-- AGEING_UPDATE (15 R579): once per second, with the offset in mV of each logical die. -/
def execAgeingUpdate (offsets : List Nat) (s : State) : Out :=
  actUp s fun d => d.liveDies.foldl (fun d ld => d.ageDie ld (offsets.getD ld (d.get F.lkpDie_AGEING_MV ld))) d

/-! ### Pins -/

/-- CAP_NOW_ASSERT (15 R588; 19 R687, R689, R692): a pulse below 100 ns is ignored; one of 1 µs acts;
whether one between them acts is a free value (log entry 21). -/
def execCapNowAssert (pulseNs : Nat) (s : State) : Out :=
  act s fun d =>
    if d.pins.capNow || pulseNs < 100 then d else
    let acts := decide (1000 ≤ pulseNs) || Config.choice d.fresh
    let d := if 1000 ≤ pulseNs then d else d.draw
    if !acts then d else
    let d : Dev := { d with pins := { d.pins with capNow := true } }
    if d.clocked then
      ((d.flag F.lkpStatus_CAP_NOW true).note 0x5201 0 [(1, Config.causeCode 0x5201 1)]).slowDies
    else d

/-- CAP_NOW_DEASSERT (15 R588): normal decisions resume at the next decision. -/
def execCapNowDeassert (s : State) : Out :=
  act s fun d =>
    if !d.pins.capNow then d else
    let d : Dev := { d with pins := { d.pins with capNow := false } }
    if d.clocked then (d.flag F.lkpStatus_CAP_NOW false).note 0x5201 0 [(1, Config.causeCode 0x5201 0)] else d

/-- THERMAL_TRIP (15 R587; 19 R690, R692): a comparator at 115 °C stops the clocks; it acts under
PKG_POR_N too. -/
def execThermalTrip (locator celsius : Nat) (s : State) : Out :=
  act s fun d =>
    if celsius < 115 || d.pins.thermtrip then d else
    let d : Dev := { d with pins := { d.pins with thermtrip := true, alert := true } }
    (d.note 0x5510 locator [(2, locator), (2, celsius)]).stopClocks

/-- PMB_ALERT (15 R572): a warning slows every die; a rail that is off costs the unit it serves, or stops
the device. -/
def execPmbAlert (rail : Nat) (off : Bool) (status : Nat) (s : State) : Out :=
  actOn s fun d =>
    if 100 ≤ rail then d
    else if !off then (d.note 0x5204 (locModule 2 rail) [(1, rail), (2, status)]).slowDies
    else
      let lost := fun (d : Dev) (loc : Nat) => d.note 0x5205 loc [(1, rail), (2, status), (2, loc)]
      let d : Dev := { d with power := { d.power with cdRails := d.power.cdRails.filter (· != rail) } }
      if rail < 48 then
        match d.logicalOf rail with
        | some ld => (lost d (locPhys rail)).fenceDie ld (Config.causeCode 0x9301 4)
        | none =>
          let d := lost d (locPhys rail)
          if d.get F.dckSpareStatus_PRESENT (rail / 6) = 1 && d.get F.dckSpareStatus_SITE (rail / 6) = rail % 6 then
            d.put F.dckSpareStatus_RESULT 2 (rail / 6)
          else d
      else if 58 ≤ rail && rail < 90 then
        let s := (rail - 58) % 16
        (lost d (locStack s)).fenceStack s
      else if 91 ≤ rail && rail < 97 then
        let d := lost d (locPort (rail - 91))
        if d.portUp (rail - 91) then d.portDown (rail - 91) (Config.causeCode 0x4002 5) else d.portOut (rail - 91) 7
      else (d.note 0x5206 (locModule 2 rail) [(1, rail), (2, status)]).supplyStop

end Sys2Proof.Machine
end

