-- ==== Sys2Proof/Machine/RegRules.lean ====
section
/-! DEFINITION. What a register reads as, which written values are refused, and what an accepted write
does to its fields (00 R14, R15, R22; 18 R663, R665, R671). -/
namespace Sys2Proof.Machine

/-! ### Reading -/

/-- The bits of a field. -/
def Fld.mask (f : Fld) : Nat := (2 ^ (f.hi + 1 - f.lo) - 1) * 2 ^ f.lo

/-- The bits of a register that a read shows: reserved and write-only ones read as 0 (00 R14, R22). -/
def Reg.readMask (r : Reg) : Nat := ((r.fields.filter (fun f => f.typ != .wo)).map (fun f => f.fld.mask)).sum

/-- The oldest fetched item of a ring not yet admitted (11 R459). -/
def Dev.headItem (d : Dev) (n : Nat) : Option Item := d.items.find? (fun it => it.ring == n && it.phase == .fetched)

/-- The activity of a MAINT item (17 R644). -/
def Item.activity (it : Item) : Nat := it.f 1 7 0

/-- A FLASH_WRITE activity is running (16 R609, R620). -/
def Dev.flashWriting (d : Dev) : Bool :=
  d.items.any (fun it => it.typ == tMaint && it.activity == 6 && it.started && it.phase != .finished)

/-- The value of a register whose fields show other state of the device at the read. -/
def Dev.regView (d : Dev) (r : Reg) (i : Nat) : Nat :=
  let v := (d.reg r i).toNat
  let sel := d.ctx (d.get F.segCtxSelect_CONTEXT)
  match r with
  | .devCapCompute => setBits v 47 40 ((List.range 44).filter d.dieActive).length
  | .devCapMemory => setBits v 55 48 ((List.range 16).filter (fun s => d.get F.hbmStatus_STATE s != 3)).length
  | .lkpCap => setBits v 31 16 (min (d.get F.lkpCap_BOARD_CAP_W) (d.get F.lkpCap_SW_CAP_W))
  | .hmEventValue => (d.event (d.get F.hmEventSelect_EVENT)).toNat
  | .hmRingStatus => match d.headItem i with
    | some it => setBits (setBits v 23 16 it.typ) 15 8 (min 255 it.heldCuts)
    | none => setBits (setBits v 23 16 0) 15 8 0
  | .segCtxStatus => sel.state + min 0xFFFF sel.kills * 2 ^ 16 + min 0xFFFF sel.misplaced * 2 ^ 32
  | .segCtxFaultVa => sel.faultVa.toNat
  | .segCtxFaultInfo => sel.faultInfo.toNat
  | .mntRetireCount => d.ledger.data.retired.length
  | .mntRetireEntry => match d.ledger.data.retired[d.get F.mntRetireIndex_INDEX]? with
    | some e => e.word
    | none => 0
  | .pilStatus => setBits v 1 1 (b2n (d.flashWriting || d.get F.pilStatus_STAGING == 1))
  | .cdTcStatus => setBits v 11 0 ((tget .new d.clusters i).tc.filter (·.locked)).length
  | _ => v

/-- What a read of a register answers (18 R665, R669). -/
def Dev.readReg (d : Dev) (r : Reg) (i : Nat) : W64 := BitVec.ofNat 64 (d.regView r i &&& r.readMask)

/-! ### Refused values (18 R663) -/

/-- The sum of the ring shares if TIDE_RING_SHARE_k held a value (02 R71). -/
def Dev.shareSum (d : Dev) (k : Nat) (v : W64) : Nat :=
  ((List.range 128).map (fun j => ((leBytes 8 (if j = k then v else d.reg .tideRingShare j).toNat).map (·.toNat)).sum)).sum

/-- The end of a bounce window (13 R494). -/
def winEnd (base cfg : Nat) : Nat := bits base 39 21 * 2 ^ 21 + bits cfg 19 0 * 2 ^ 21

/-- A value outside the range its field's table states. -/
def outOfRange (r : Reg) (v : Nat) : Bool :=
  let out := fun hi lo a b => decide (bits v hi lo < a ∨ b < bits v hi lo)
  match r with
  | .tidePeriodNs => out 17 0 4000 256000 || bits v 17 0 % 1000 != 0
  | .tideReserve => out 7 0 0 128
  | .tideOverrunLimit => out 6 0 1 64
  | .tideAdmitCfg => out 7 0 1 255
  | .tideBeaconCfg => out 31 16 1 65535 || out 6 0 1 64
  | .hbmScrubCfg => out 7 0 0 168
  | .dckWhScrubCfg => out 15 0 0 10080
  | .cdGangCfg => out 31 16 256 65535 || out 5 0 1 63
  | .hawConnCfg => out 47 40 1 255 || out 31 16 1 65535 || out 15 0 10 10000
  | .logRate => out 7 0 1 255
  | .mntHubWdt => out 9 0 10 1000
  | .mntPoolLayout => out 6 0 0 64
  | .cdTcLockBase => decide (14 ≤ bits v 63 60)
  | .cdTcLockCfg => bit v 63 && out 11 0 1 2048
  | _ => false

/-- A host's write is refused: for its value, or in the register's current state. A read-only field takes
any value (18 R663). -/
def Dev.refuses (d : Dev) (r : Reg) (i : Nat) (w : W64) : Bool :=
  let v := w.toNat
  (outOfRange r v && r != .mntHubWdt && r != .mntPoolLayout) || match r with
  | .tideRingShare => decide (256 < d.shareSum i w)
  | .segCtxTableBase => !d.liveRings.isEmpty || decide (2 ^ 40 < bits v 39 12 * 4096 + 256 * 512)
  | .hawConnTableBase => d.conns.any (fun c => decide (c.1 < 4096) && c.2.state != 0) || decide (2 ^ 40 < bits v 39 12 * 4096 + 2 ^ 18)
  | .hawRoute => decide (i % 2 = bits (d.get F.hawRouteCtrl_EPOCH) (i / 2) (i / 2))
  | .lkpCap => decide (bits v 15 0 < 3600 ∨ d.get F.lkpCap_BOARD_CAP_W < bits v 15 0)
  | .bwfWinBase => d.get F.bwfLock_LOCK == 1 || decide (2 ^ 40 < winEnd v (d.reg .bwfWinCfg i).toNat)
  | .bwfWinCfg => d.get F.bwfLock_LOCK == 1 || decide (2 ^ 40 < winEnd (d.reg .bwfWinBase i).toNat v)
  | _ => false

/-! ### Writing -/

/-- A host's write sets RW fields, clears the W1C bits and sets the W1S bits written as 1, and leaves
every other field (00 R15, R22; 18 R663). -/
def Dev.writeFields (d : Dev) (r : Reg) (i : Nat) (w : W64) : Dev :=
  let v := w.toNat
  d.setReg r i (BitVec.ofNat 64 (r.fields.foldl (fun x f =>
    let new := bits v f.fld.hi f.fld.lo
    let old := bits x f.fld.hi f.fld.lo
    match f.typ with
    | .rw => setBits x f.fld.hi f.fld.lo new
    | .w1c => setBits x f.fld.hi f.fld.lo (old - (old &&& new))
    | .w1s => setBits x f.fld.hi f.fld.lo (old ||| new)
    | _ => x) (d.reg r i).toNat))

/-! ### SETTINGS entries (16 R599, 18 R671) -/

/-- The bits of a register that the image sets. -/
def Reg.imageMask (r : Reg) : Nat := ((r.fields.filter (fun f => f.src == .image)).map (fun f => f.fld.mask)).sum

/-- A SETTINGS entry names a register with image fields, its other bits hold their reset values, and its
image fields are in range (16 R601, 18 R671). -/
def settingOk (off v : Nat) : Bool :=
  match Reg.at? off with
  | none => false
  | some (r, i) =>
    r.imageMask != 0 && decide (v - (v &&& r.imageMask) = (r.resetVal i).toNat - ((r.resetVal i).toNat &&& r.imageMask)) &&
      !outOfRange r v && (match r with | .lkpCap => decide (3600 ≤ bits v 15 0) | _ => true)

/-- Set every image field of a register (18 R671). -/
def Dev.setImage (d : Dev) (r : Reg) (i v : Nat) : Dev :=
  (r.fields.filter (fun f => f.src == .image)).foldl (fun d f => d.put f.fld (bits v f.fld.hi f.fld.lo) i) d

end Sys2Proof.Machine
end

