-- ==== Sys2Proof/Machine/Trust.lean ====
section
/-! DEFINITION. Identity and trust (16): the configuration image and its verification, micro-program
stages, owner keys, tokens, and attestation evidence. -/
namespace Sys2Proof.Machine

/-! ### Flash and the image (16 R598 to R601) -/

/-- Flash bytes. -/
def Dev.flashBytes (d : Dev) (a n : Nat) : List Byte := (List.range n).map (fun i => tget 0xFF d.pilot.flash (a + i))

/-- Write flash bytes. -/
def Dev.writeFlash (d : Dev) (a : Nat) (bs : List Byte) : Dev :=
  d.modPilot (fun p => { p with flash := (bs.foldl (fun (acc : Tbl Byte × Nat) b => (tset 0xFF acc.1 acc.2 b, acc.2 + 1)) (p.flash, a)).1 })

/-- Erase a range of flash. -/
def Dev.eraseFlash (d : Dev) (a n : Nat) : Dev :=
  d.modPilot (fun p => { p with flash := p.flash.filter (fun e => decide (e.1 < a ∨ a + n ≤ e.1)) })

/-- A little-endian value in flash. -/
def Dev.flashNat (d : Dev) (a n : Nat) : Nat := leNat (d.flashBytes a n)

/-- The 7-bit codes of a text. -/
def ascii (s : String) : List Byte := s.toList.map (fun c => BitVec.ofNat 8 c.toNat)

/-- What a verified manifest gives. -/
structure Manifest where
  version : Nat
  svn : Nat
  advance : Bool
  key : Nat
  mpVersion : Nat
  comps : List Component
  /-- SHA3-256 of the bytes that the signature covers (16 R598, R601). -/
  digest : List Byte
  deriving DecidableEq, Repr, Inhabited

/-- Entry `k` of the component table. -/
def Dev.component (d : Dev) (k : Nat) : Component :=
  let a := 0x560 + 64 * k
  { typ := d.flashNat a 2, index := d.flashNat (a + 2) 2, offset := d.flashNat (a + 8) 8,
    length := d.flashNat (a + 16) 4, load := d.flashNat (a + 24) 8, digest := d.flashBytes (a + 32) 32 }

/-- A component entry is well formed (16 R599). -/
def Dev.componentOk (d : Dev) (k : Nat) : Bool :=
  let c := d.component k
  let a := 0x560 + 64 * k
  decide (1 ≤ c.typ ∧ c.typ ≤ 9) && d.flashNat (a + 4) 4 == 0 && d.flashNat (a + 20) 4 == 0 &&
    c.offset % 4096 == 0 && decide (0x10000 ≤ c.offset ∧ c.offset + c.length ≤ 0x0FC00000) &&
    (if c.typ = 7 then c.load % 2 ^ 21 == 0 && decide (c.load < 2 ^ 40) else c.load == 0) &&
    (if c.typ = 8 then decide (16 ≤ c.index ∧ c.index ≤ 63) else if c.typ = 9 then decide (3 ≤ c.index ∧ c.index ≤ 15) else true)

/-- Magic, format, component count, reserved bytes and table are right (16 R598, R599). -/
def Dev.manifestOk (d : Dev) : Bool :=
  let n := d.flashNat 0xC 4
  let cs := (List.range n).map d.component
  let zero := fun a m => (d.flashBytes a m).all (· == 0)
  d.flashBytes 0 8 == ascii "OLHXIMG1" && d.flashNat 8 4 == 1 && decide (7 ≤ n ∧ n ≤ 29) &&
    decide (d.flashNat 0x14 4 ≤ 63) && decide (d.flashNat 0x18 4 < 6) &&
    zero 0x20 0x20 && zero (0x560 + 64 * n) (64 * (32 - n)) && zero 0x16D4 (0x10000 - 0x16D4) &&
    (List.range n).all d.componentOk &&
    (rangeFrom 1 7).all (fun t => (cs.filter (fun c => c.typ == t)).length == 1) &&
    (cs.filter (fun c => decide (8 ≤ c.typ))).all (fun c => (cs.filter (fun e => e.typ == c.typ && e.index == c.index)).length == 1)

/-- The state of an owner slot: 0 EMPTY, 1 ACTIVE, 2 REVOKED (16 R611). -/
def Dev.slotState (d : Dev) (k : Nat) : Nat := (d.fuses.slots.getD k (0, [])).1

/-- A public key is the one that KEY names, and that key is in use (16 R600, R615). -/
def Dev.keyMatches (d : Dev) (key : Nat) (pub : List Byte) : Bool :=
  if key = 0 then sha3 pub == Config.vendorKeyHash && !d.fuses.ownerOnly
  else decide (key ≤ 2) && (d.fuses.slots.getD (key - 1) (0, [])).2 == sha3 pub && d.slotState (key - 1) == 1

/-- The content of a component is well formed (16 R601); the layout of POOL_LAYOUT is that of
MNT_POOL_LAYOUT (log entry 23). -/
def Dev.contentOk (d : Dev) (c : Component) : Bool :=
  if c.typ = 3 then c.length % 16 == 0 &&
    (List.range (c.length / 16)).all (fun k => settingOk (d.flashNat (c.offset + 16 * k) 8) (d.flashNat (c.offset + 16 * k + 8) 8))
  else if c.typ = 2 then decide (8 ≤ c.length) && decide (bits (d.flashNat c.offset 8) 6 0 ≤ 64)
  else true

/-- The first failure of a component, in table order (16 R601). -/
def Dev.componentsFail (d : Dev) : List Component → Option Nat
  | [] => none
  | c :: cs =>
    if sha3 (d.flashBytes c.offset c.length) != c.digest then some 8
    else if !d.contentOk c then some 5
    else d.componentsFail cs

/-- Verify the image in flash: the manifest, or the halt cause of the failure (16 R600, R601, R603). -/
def Dev.verifyImage (d : Dev) (readError : Bool) : Except Nat Manifest :=
  if readError || d.get F.pilStatus_FLASH_RELEASED = 1 then .error 3
  else if !d.manifestOk then .error 5
  else
    let flags := d.flashNat 0x18 4
    let pub := d.flashBytes 0x40 1312
    if !d.keyMatches (flags / 2) pub then .error 6
    else if !Config.mlDsaVerify pub (sha3 (d.flashBytes 0 0xD60)) (d.flashBytes 0xD60 2420) then .error 6
    else if d.flashNat 0x14 4 < d.fuses.svnMin then .error 7
    else
      let cs := (List.range (d.flashNat 0xC 4)).map d.component
      match d.componentsFail cs with
      | some c => .error c
      | none => .ok { version := d.flashNat 0x10 4, svn := d.flashNat 0x14 4, advance := bit flags 0,
                      key := flags / 2, mpVersion := d.flashNat 0x1C 4, comps := cs, digest := sha3 (d.flashBytes 0 0xD60) }

/-- The micro-program slots of a manifest, in slot order. -/
def Manifest.slots (m : Manifest) (typ : Nat) : List (Nat × List Byte) :=
  (m.comps.filter (fun c => c.typ == typ)).foldl (fun t c => tset [] t c.index c.digest) []

/-- Stage the stores of the manifest now in flash; a failure leaves the stores in force (16 R609). -/
def Dev.stage (d : Dev) : Dev :=
  let d := d.flag F.pilStatus_STAGING false
  match d.verifyImage false with
  | .error c => d.note 0x8002 0 [(1, c)]
  | .ok m =>
    let g := d.pilot.gens + 1
    let d := d.modPilot (fun p => { p with
      gens := g
      vecNext := some { gen := g, version := m.mpVersion, slots := m.slots 8 }
      wharfNext := some { gen := g, version := m.mpVersion, slots := m.slots 9 }
      components := p.components.filter (fun c => decide (c.typ < 8)) ++ m.comps.filter (fun c => decide (8 ≤ c.typ)) })
    d.note 0x8003 0 [(4, m.mpVersion)]

/-- The slots a store holds beside the shipped ones. -/
def MpStore.loaded (st : MpStore) (shipped : Nat) : Nat := (st.slots.map (fun s => 2 ^ s.1)).sum + shipped

/-- Show the vector store in force on a die: the older one while a launch still runs under it (07 R295,
R305). -/
def Dev.showVecStore (d : Dev) (ld : Nat) : Dev :=
  let cur := d.pilot.vecStore
  let old := (rangeFrom (32 * ld) 32).find? (fun t => (d.launchOn t).isSome && (d.tile t).sfGen != cur.gen)
  let (v, l) := match old with
    | some t => ((d.tile t).sfVersion, (d.tile t).sfLoaded)
    | none => (cur.version, cur.loaded 0xFFFF)
  ((d.put F.cdSfVersion_VERSION v ld).put F.cdSfLoaded_LOADED l ld).flag F.cdSfVersion_DEFERRED old.isSome ld

/-- TICK: staged stores swap in (07 R295, 10 R403); a wharf store waits while an item uses an older one. -/
def Dev.swapStores (d : Dev) : Dev :=
  let d := match d.pilot.vecNext with
    | none => d
    | some st => (List.range 44).foldl Dev.showVecStore (d.modPilot (fun p => { p with vecStore := st, vecNext := none }))
  match d.pilot.wharfNext with
  | none => d
  | some st =>
    let cur := d.pilot.wharfStore.gen
    let waits := d.items.any (fun it => it.typ == tWharf && it.started && it.phase != .finished && it.f 1 3 0 == 3 && decide (it.storeGen < cur))
    let d := if waits then d else d.modPilot (fun p => { p with wharfStore := st, wharfNext := none })
    (List.range 16).foldl (fun d s =>
      let d := d.flag F.whfMpVersion_DEFERRED waits s
      if waits then d
      else (d.put F.whfMpVersion_VERSION st.version s).put F.whfMpLoaded_LOADED (st.loaded 7) s) d

/-! ### Evidence (16 R618) -/

/-- `n` bytes: the first of a list, filled up with zeros. -/
def fit (n : Nat) (bs : List Byte) : List Byte := (bs ++ List.replicate n 0).take n

/-- A measurement entry. -/
def measurement (typ index version : Nat) (digest : List Byte) : List Byte :=
  leBytes 2 typ ++ leBytes 2 index ++ leBytes 4 0 ++ leBytes 8 version ++ fit 32 digest

/-- The digest of a store: over its slots' digests in slot order. -/
def MpStore.digest (st : MpStore) : List Byte := sha3 (st.slots.flatMap (·.2))

/-- Some die or complex still runs an older store than the one most recently staged. -/
def Dev.mpPending (d : Dev) : Bool :=
  d.pilot.vecNext.isSome || d.pilot.wharfNext.isSome ||
    (List.range 44).any (fun ld => d.get F.cdSfVersion_DEFERRED ld == 1) ||
    d.items.any (fun it => it.typ == tWharf && it.started && it.phase != .finished && it.f 1 3 0 == 3 && decide (it.storeGen < d.pilot.wharfStore.gen))

/-- The fields of PIL_KEYS and PIL_DEBUG as one byte each. -/
def Dev.keysByte (d : Dev) : Nat := (d.reg .pilKeys).toNat % 256
def Dev.debugByte (d : Dev) : Nat := d.get F.pilDebug_SCOPE + 16 * d.get F.pilDebug_EVER

/-- The 4 KiB of evidence for a nonce. -/
def Dev.evidence (d : Dev) (nonce : List Byte) : List Byte :=
  let vec := d.pilot.vecNext.getD d.pilot.vecStore
  let whf := d.pilot.wharfNext.getD d.pilot.wharfStore
  let es := [measurement 0 0 0 d.pilot.fuseDigest] ++
    d.pilot.components.map (fun c => measurement c.typ c.index 0 c.digest) ++
    [measurement 16 0 vec.version vec.digest, measurement 17 0 whf.version whf.digest]
  let head := ascii "OLHXEVD1" ++ leBytes 4 1 ++ leBytes 4 es.length ++ fit 16 d.fuses.serial ++ fit 32 nonce ++
    leBytes 8 (d.get F.tideCount_VALUE) ++ leBytes 4 (d.get F.pilImage_IMAGE_VERSION) ++
    leBytes 1 (d.get F.pilImage_SVN) ++ leBytes 1 d.fuses.svnMin ++ leBytes 1 d.keysByte ++ leBytes 1 d.debugByte ++
    leBytes 1 (b2n d.mpPending)
  let body := fit 0x680 (fit 0x80 head ++ es.flatten)
  fit 4096 (body ++ fit 2420 (Config.attestSign (sha3 body)))

/-- The pilot refuses to sign while firmware debug is unlocked (16 R617). -/
def Dev.mayAttest (d : Dev) : Bool := !bit (d.get F.pilDebug_SCOPE) 3

/-! ### Nonces and tokens (16 R613 to R616) -/

/-- Show the host channel's nonce. -/
def Dev.showNonce (d : Dev) : Dev :=
  (List.range 4).foldl (fun d k =>
    d.put F.pilNonce_NONCE (leNat (((d.pilot.nonceHost.getD []).drop (8 * k)).take 8)) k) d

/-- A fresh nonce on a channel. -/
def Dev.newNonce (d : Dev) (c : Channel) : Dev :=
  let n := fit 32 (Config.nonce d.fresh)
  let d := d.draw
  match c with
  | .host => (d.modPilot (fun p => { p with nonceHost := some n })).showNonce
  | .bmc => d.modPilot (fun p => { p with nonceBmc := some n })

/-- The nonce of a channel. -/
def Dev.nonceOf (d : Dev) : Channel → Option (List Byte)
  | .host => d.pilot.nonceHost
  | .bmc => d.pilot.nonceBmc

/-- A nonce is consumed. -/
def Dev.useNonce (d : Dev) (c : Channel) : Dev :=
  match c with
  | .host => (d.modPilot (fun p => { p with nonceHost := none })).showNonce
  | .bmc => d.modPilot (fun p => { p with nonceBmc := none })

/-- The number of a channel in log payloads (17 R654). -/
def chanNo : Channel → Nat
  | .host => 0
  | .bmc => 1

/-- Bytes of a token. -/
def tok (t : List Byte) (a n : Nat) : List Byte := (t.drop a).take n
/-- A value in a token. -/
def tokNat (t : List Byte) (a n : Nat) : Nat := leNat (tok t a n)

/-- KIND of a token. -/
def tokKind (t : List Byte) : Nat := tokNat t 8 2
/-- ARG0 of a token. -/
def tokArg (t : List Byte) : Nat := tokNat t 0x40 8

/-- A token's format is valid (16 R614). -/
def tokOk (t : List Byte) : Bool :=
  let zero := fun a n => (tok t a n).all (· == 0)
  let k := tokKind t
  t.length == 4096 && tok t 0 8 == ascii "OLHXTOK1" && decide (1 ≤ k ∧ k ≤ 5) && decide (tokNat t 0xA 1 ≤ 2) &&
    zero 0xB 5 && zero 0x68 24 && zero 0xF14 (4096 - 0xF14) && (if k = 3 || k = 4 then decide (tokArg t < 2) else true)

/-- A key may sign a kind of token (16 R615). -/
def maySign (key kind slot : Nat) : Bool :=
  if key = 0 then decide (kind ≤ 4)
  else if kind = 3 then decide (key - 1 ≠ slot) else true

/-- The verdict on a token: none when it is accepted so far, or the RESULT of its rejection (16 R615,
R620). -/
def Dev.tokFault (d : Dev) (c : Channel) (t : List Byte) : Option Nat :=
  let key := tokNat t 0xA 1
  let kind := tokKind t
  let pub := tok t 0x80 1312
  let slot := tokArg t
  if !tokOk t then some 2
  else if tok t 0x10 16 != fit 16 d.fuses.serial then some 6
  else if d.nonceOf c != some (tok t 0x20 32) then some 4
  else if !(d.keyMatches key pub && maySign key kind slot) then some 5
  else if !Config.mlDsaVerify pub (sha3 (tok t 0 0x5A0)) (tok t 0x5A0 2420) then some 3
  else if kind = 3 && d.slotState slot ≠ 0 then some 9
  else if kind = 4 && (d.slotState slot ≠ 1 || (d.fuses.ownerOnly && d.slotState (1 - slot) ≠ 1)) then some 9
  else none

/-- Set an owner slot in fuses and in PIL_KEYS (16 R611, R615). -/
def Dev.setSlot (d : Dev) (k st : Nat) (hash : List Byte) : Dev :=
  let get := fun i => d.fuses.slots.getD i (0, [])
  let slots := (List.range 2).map (fun i => if i = k then (st, hash) else get i)
  let d : Dev := { d with fuses := { d.fuses with slots := slots } }
  let d := if k = 0 then d.put F.pilKeys_SLOT0 st else d.put F.pilKeys_SLOT1 st
  d.note 0x8030 0 [(1, k), (1, st)]

/-- The logbook is cleared (17 R654). -/
def Dev.clearLog (d : Dev) (c : Channel) : Dev :=
  let n := d.get F.logStatus_COUNT
  let dropped := d.get F.logStatus_DROPPED
  let d : Dev := { d with log := { d.log with recs := [], windows := [] } }
  let d := ((d.put F.logStatus_COUNT 0).put F.logStatus_DROPPED 0).flag F.logStatus_FULL false
  let d := (d.eraseFlash (0x0FC01000 + 0x10000 * d.get F.logVaultStatus_SLOT) (256 * 64)).put F.logVaultStatus_MIRRORED 0
  d.logRaw 0xF001 0 ((leBytes 2 n ++ leBytes 2 dropped ++ leBytes 1 (chanNo c) ++ List.replicate 27 0))

/-- The effect of an accepted token (16 R615). -/
def Dev.tokEffect (d : Dev) (c : Channel) (t : List Byte) : Dev :=
  let arg := tokArg t
  match tokKind t with
  | 1 => ((d.put F.pilDebug_SCOPE (d.get F.pilDebug_SCOPE ||| arg % 16)).put F.pilDebug_EVER
      (d.get F.pilDebug_EVER ||| arg % 16)).note 0x8020 0 [(1, d.get F.pilDebug_SCOPE ||| arg % 16)]
  | 2 => d.clearLog c
  | 3 => d.setSlot arg 1 (tok t 0x48 32)
  | 4 => d.setSlot arg 2 (d.fuses.slots.getD arg (0, [])).2
  | _ => ({ d with fuses := { d.fuses with ownerOnly := true } } : Dev).flag F.pilKeys_OWNER_ONLY true

/-- The pilot is occupied: a stage or an evidence request is in progress (16 R616). -/
def Dev.pilotBusy (d : Dev) : Bool :=
  d.get F.pilStatus_STAGING == 1 || d.items.any (fun it => it.typ == tMaint && it.activity == 13 && it.phase == .released)

/-- Report a result on its channel. -/
def Dev.tokResult (d : Dev) (c : Channel) (kind result : Nat) (judged : Bool) : Dev :=
  let d := match c with
    | .host =>
      let d := d.put F.pilTokenStatus_RESULT result
      if judged then d.put F.pilTokenStatus_KIND kind else d
    | .bmc => d
  d.answer (.token result)

/-- Judge a token (16 R613, R615, R616). Whether a fuse write fails is a free value (log entry 24). -/
def Dev.judge (d : Dev) (c : Channel) (t : List Byte) : Dev :=
  let kind := tokKind t
  if d.pilotBusy then d.tokResult c kind 7 false
  else
    let fault := match d.tokFault c t with
      | some r => some r
      | none => if 3 ≤ kind && Config.choice d.fresh then some 8 else none
    let d := (if 3 ≤ kind then d.draw else d).useNonce c
    match fault with
    | some r => (d.note 0x8011 0 [(2, kind), (1, chanNo c), (1, r)]).tokResult c kind r true
    | none => ((d.tokEffect c t).note 0x8010 0 [(2, kind), (1, chanNo c)]).tokResult c kind 1 true

/-- The token a submission judges: the host's lies in the pool at PIL_TOKEN_ADDR, the BMC's comes with
its message (16 R620, 19 R694). A host token that cannot be read is empty. -/
def Dev.tokenOf (d : Dev) (c : Channel) (sent : List Byte) : List Byte :=
  match c with
  | .bmc => sent
  | .host => match d.hubRead (d.get F.pilTokenAddr_PA * 4096) 4096 with
    | .ok bs => bs
    | .error _ => []

/-- The host's token is read from the pool; what its read finds is logged (03 R118, R135). -/
def Dev.meetToken (d : Dev) (c : Channel) : Dev :=
  let pa := d.get F.pilTokenAddr_PA * 4096
  match c with
  | .bmc => d
  | .host =>
    let d := d.look pa 4096
    match d.hubRead pa 4096 with
    | .ok _ => d
    | .error e => d.logAcc e locHub

/-- Submit a token of a kind; a malformed one is of any kind. -/
def Dev.submit (d : Dev) (kind : Nat) (c : Channel) (sent : List Byte) : Dev :=
  let up := match c with | .host => d.ticking | .bmc => true
  let d := d.meetToken c
  let t := d.tokenOf c sent
  if up && (tokKind t == kind || !tokOk t) then d.judge c t else d

/-- DEBUG_UNLOCK (16 R615). -/
def execDebugUnlock (chan : Channel) (token : List Byte) (s : State) : Out := actOn s fun d => d.submit 1 chan token
/-- LOG_CLEAR (16 R615, 17 R654). -/
def execLogClear (chan : Channel) (token : List Byte) (s : State) : Out := actOn s fun d => d.submit 2 chan token
/-- OWNER_ENROL (16 R611, R615). -/
def execOwnerEnrol (chan : Channel) (token : List Byte) (s : State) : Out := actOn s fun d => d.submit 3 chan token
/-- OWNER_REVOKE (16 R611, R615). -/
def execOwnerRevoke (chan : Channel) (token : List Byte) (s : State) : Out := actOn s fun d => d.submit 4 chan token
/-- OWNER_ONLY (16 R611, R615). -/
def execOwnerOnly (chan : Channel) (token : List Byte) (s : State) : Out := actOn s fun d => d.submit 5 chan token

/-- GET_NONCE (16 R613, 19 R694): the BMC's nonce is replaced and returned. -/
def execGetNonce (s : State) : Out :=
  actOn s fun d =>
    let d := d.newNonce .bmc
    d.answer (.data (d.pilot.nonceBmc.getD []))

/-- GET_EVIDENCE (16 R617, R618): evidence and the device certificate are returned to the BMC. -/
def execGetEvidence (nonce : List Byte) (s : State) : Out :=
  actOn s fun d =>
    if d.mayAttest then d.answer (.data (d.evidence nonce ++ Config.deviceCertificate)) else d.answer .error

/-! ### PIL_CMD (16 R608, R609, R613, R617) -/

/-- The offset of PIL_CMD. -/
def pilCmdOff : Nat := Reg.offset .pilCmd 0

/-- FLASH_RELEASE is refused while a flash write or a stage runs or waits; the board may then change the
flash, whose image the next identity sweep reads anew (16 R606). -/
def Dev.flashRelease (d : Dev) (h : Nat) : Dev :=
  if d.get F.pilStatus_STAGING = 1 || d.items.any (fun it => it.typ == tMaint && it.activity == 6 && it.phase != .finished) then
    d.refuse h pilCmdOff
  else ((d.flag F.pilStatus_FLASH_RELEASED true).modPilot (fun p => { p with flashOut := true })).accepted

/-- FLASH_ACQUIRE retakes the flash. -/
def Dev.flashAcquire (d : Dev) : Dev := (d.flag F.pilStatus_FLASH_RELEASED false).accepted

/-- STAGE_MP: refused while a stage is in progress; waits for a flash write. -/
def Dev.stageMp (d : Dev) (h : Nat) : Dev :=
  if d.get F.pilStatus_STAGING = 1 then d.refuse h pilCmdOff
  else if d.flashWriting then (d.flag F.pilStatus_STAGING true).accepted
  else d.stage.accepted

/-- TICK: a stage that waited for a flash write goes on once it has ended (16 R609). -/
def Dev.stageTick (d : Dev) : Dev := if d.get F.pilStatus_STAGING = 1 && !d.flashWriting then d.stage else d

/-- DEBUG_LOCK clears SCOPE. -/
def Dev.debugLock (d : Dev) : Dev := ((d.put F.pilDebug_SCOPE 0).note 0x8021 0).accepted

/-- A write to PIL_CMD (16 R620, 18 R663): at most one command bit. -/
def Dev.writePilCmd (d : Dev) (h : Nat) (v : Nat) : Dev :=
  match v % 64 with
  | 0 => d.accepted
  | 1 => (d.newNonce .host).accepted
  | 2 =>
    let d := d.meetToken .host
    (d.judge .host (d.tokenOf .host [])).accepted
  | 4 => d.stageMp h
  | 8 => d.debugLock
  | 16 => d.flashRelease h
  | 32 => d.flashAcquire
  | _ => d.refuse h pilCmdOff

/-- FLASH_ACQUIRE (16 R608). -/
def execFlashAcquire (hart : Nat) (s : State) : Out := actUp s fun d => if d.hartUp hart then d.flashAcquire else d
/-- FLASH_RELEASE (16 R608). -/
def execFlashRelease (hart : Nat) (s : State) : Out := actUp s fun d => if d.hartUp hart then d.flashRelease hart else d
/-- DEBUG_LOCK (16 R617). -/
def execDebugLock (hart : Nat) (s : State) : Out := actUp s fun d => if d.hartUp hart then d.debugLock else d
/-- STAGE_MP (16 R609). -/
def execStageMp (hart : Nat) (s : State) : Out := actUp s fun d => if d.hartUp hart then d.stageMp hart else d
/-- NEW_NONCE (16 R613). -/
def execNewNonce (hart : Nat) (s : State) : Out := actUp s fun d => if d.hartUp hart then (d.newNonce .host).accepted else d

end Sys2Proof.Machine
end

