-- ==== Sys2Proof/Machine/Maint.lean ====
section
/-! DEFINITION. Maintenance (17 R643 to R648): the checks, slices, exclusions and effects of the thirteen
activities, and the patrol scrub that two of them pause (03 R122). -/
namespace Sys2Proof.Machine

/-! ### Targets and checks (17 R644) -/

/-- TARGET of a MAINT item. -/
def Item.target (it : Item) : Nat := it.f 1 31 16

/-- The stack a locator names. -/
def stackAt (loc : Nat) : Option Nat := (List.range 16).find? (fun s => locStack s == loc)
/-- The deck a locator names. -/
def deckAt (loc : Nat) : Option Nat := (List.range 8).find? (fun k => locDeck k == loc)
/-- The Hawser port a locator names. -/
def portAt (loc : Nat) : Option Nat := (List.range 6).find? (fun p => locPort p == loc)
/-- The logical die whose serving die a locator names. -/
def Dev.dieAt (d : Dev) (loc : Nat) : Option Nat := (List.range 44).find? (fun ld => d.physDie ld < 48 && d.locDie ld == loc)

/-- The words of a warehouse, and of a local memory. -/
def whWords : Nat := 0x18000000 / 8
def lmWords : Nat := 0x100000 / 8

/-- The tiles at a deck's compute sites. -/
def Dev.deckTiles (d : Dev) (k : Nat) : List Nat :=
  (List.range 1408).filter (fun t => d.physDie (t / 32) < 48 && d.deckOfDie (t / 32) == k)

/-- The address SCRUB of a deck reads at a position: its warehouse, then its sites (log entry 25). -/
def Dev.deckScrubPa (d : Dev) (k p : Nat) : Nat :=
  if p < whWords then warehouseBase k + 8 * p
  else localBase ((d.deckTiles k).getD ((p - whWords) / lmWords) 0) + 8 * ((p - whWords) % lmWords)

/-- The 4 KiB or 2 MiB ranges a SECURE_ERASE position covers: its VAs, split at pages. -/
def erasePieces (va p : Nat) : List (Nat × Nat) :=
  let a := va + p * 2 ^ 21
  let cut := 2 ^ 21 - a % 2 ^ 21
  if cut = 2 ^ 21 then [(a, 2 ^ 21)] else [(a, cut), (a + cut, 2 ^ 21 - cut)]

/-- The stacks a range of pool addresses within one 2 MiB page lies on. -/
def Dev.stacksOf (d : Dev) (pa : Nat) : List Nat :=
  if pa < 16 * d.interleave * gib then List.range 16 else [d.stackOfPa pa]

/-- The stacks a SECURE_ERASE covers, as far as its range translates. -/
def Dev.eraseStacks (d : Dev) (it : Item) : List Nat :=
  (List.range 16).filter (fun s => (d.vaRanges it.ctx (it.w 2) (it.w 3)).any (fun r => decide (r.1 < 2 ^ 40) && (d.stacksOf r.1).contains s))

/-- Words from `k` on are 0. -/
def Item.restZero (it : Item) (k : Nat) : Bool := (rangeFrom k (8 - k)).all (fun j => it.w j == 0)

/-- The last position of a well-formed MAINT item; none when it is malformed (17 R644). -/
def Dev.maintLast (d : Dev) (it : Item) : Option Nat :=
  let t := it.target
  let zero := fun (b : Bool) (n : Nat) => if b && t == 0 then some n else none
  match it.activity with
  | 1 => if !it.restZero 2 then none else match stackAt t with
    | some _ => some (2 ^ 30)
    | none => (deckAt t).map (fun k => whWords + lmWords * (d.deckTiles k).length)
  | 2 => if it.restZero 2 then (stackAt t).map (fun _ => 64) else none
  | 3 => match deckAt t with
    | some k => if it.restZero 3 && it.w 2 < 4 && hasSlot k (it.w 2) then some (modulesOf (linkKey (.deck k (it.w 2)))) else none
    | none => none
  | 4 => if it.restZero 2 then (portAt t).map (fun _ => 24) else none
  | 5 => if it.restZero 2 then (d.dieAt t).map (fun _ => 32) else none
  | 6 => zero (it.restZero 4 && decide (1 ≤ it.w 3 ∧ it.w 3 ≤ 0x0FC00000) && it.startPos % 64 == 0) (cdiv (it.w 3) 1024)
  | 7 => zero (it.restZero 4 && it.w 3 % 2 ^ 21 == 0) (it.w 3 / 2 ^ 21)
  | 8 => zero (it.restZero 4 && decide (it.w 3 < 3)) (if it.w 3 = 0 then 4096 else 256)
  | 9 => if it.restZero 2 then (deckAt t).map (fun _ => 0) else none
  | 10 => match d.dieAt t with
    | some ld => if it.restZero 2 && d.get F.cdLocation_STATE ld != 0 then some 0 else none
    | none => none
  | 11 => zero (it.restZero 4 && it.w 2 % 2 ^ 21 == 0 && decide (1 ≤ it.w 3 ∧ it.w 3 < 2 ^ 19 ∧ it.w 2 + it.w 3 * 2 ^ 21 ≤ 2 ^ 40)) 0
  | 12 => zero (it.restZero 3 && it.f 2 62 12 == 0 && (it.b 2 63 || decide (it.f 2 11 0 < d.ledger.data.retired.length))) 0
  | 13 => zero (it.w 7 == 0 && it.w 2 % 4096 == 0) 0
  | _ => none

/-- Activities that can resume at a START. -/
def Item.maintResumable (it : Item) : Bool := decide (it.activity ≤ 8)

/-- The memory operand of a MAINT item whose W2 is a VA: its range (17 R644, 11 R427). -/
def Item.maintRanges (it : Item) : List (Nat × Nat) :=
  match it.activity with
  | 6 => [(it.w 2, it.w 3)]
  | 7 => [(it.w 2, it.w 3)]
  | 8 => [(it.w 2, 64 * it.last)]
  | 13 => [(it.w 2, 4096)]
  | _ => []

/-- The checks of a MAINT item (17 R644). -/
def Dev.maintVerdict (d : Dev) (it : Item) : Verdict :=
  match d.maintLast it with
  | none => .invalid
  | some n =>
    if it.f 1 15 8 ≠ 0 || n < it.startPos || (!it.maintResumable && it.startPos ≠ 0) then .invalid
    else match segVerdict (if [6, 7, 8, 13].contains it.activity then [it.w 2] else []) with
      | some v => v
      | none => .run n

/-- Positions per second of an activity; none when it takes one slice (17 R644). -/
def Dev.maintRate (d : Dev) (it : Item) : Option Nat :=
  match it.activity with
  | 1 => some (if (stackAt it.target).isSome then 10 ^ 9 else 8 * 10 ^ 9)
  | 2 => some 250000
  | 3 => some 50000
  | 4 => some 50000
  | 5 => some 10000
  | 6 => some 640
  | 7 => some (2 * 10 ^ 12 * max 1 (d.eraseStacks it).length / 2 ^ 21)
  | _ => none

/-! ### Exclusion (17 R647) -/

/-- The stacks an activity works on. -/
def Dev.maintStacks (d : Dev) (it : Item) : List Nat :=
  if it.activity = 7 then d.eraseStacks it
  else if it.activity = 1 || it.activity = 2 then (stackAt it.target).toList else []

/-- The deck an activity works on. -/
def Dev.maintDeck (d : Dev) (it : Item) : Option Nat :=
  if it.activity = 5 || it.activity = 10 then (d.dieAt it.target).map d.deckOfDie else deckAt it.target

/-- A row of the exclusion matrix names another activity. -/
def Dev.excludes (d : Dev) (a b : Item) : Bool :=
  let x := a.activity
  let y := b.activity
  let hbmStacks := (d.maintStacks a).any (d.maintStacks b).contains
  let deck := (d.maintDeck a).isSome && d.maintDeck a == d.maintDeck b
  let same := a.target == b.target
  let vault := fun (i : Item) => i.activity == 8 && i.w 3 != 0
  match x with
  | 1 => ([1, 2, 7].contains y && hbmStacks) || (y == 1 && same)
  | 2 => [1, 2, 7].contains y && hbmStacks
  | 3 => y == 3 && match deckAt a.target, deckAt b.target with
    | some k, some j => linkKey (.deck k (a.w 2)) == linkKey (.deck j (b.w 2))
    | _, _ => false
  | 4 => y == 4 && same
  | 5 => (y == 5 && same) || (y == 10 && deck)
  | 6 => y == 6 || y == 12 || vault b
  | 7 => [1, 2, 7].contains y && hbmStacks
  | 8 => vault a && y == 6
  | 9 => y == 10 && deck
  | 10 => y == 10 || y == 13 || ((y == 9 || y == 5) && deck)
  | 11 => y == 12
  | 12 => y == 11 || y == 12 || y == 6
  | 13 => y == 10
  | _ => false

/-- The earlier activity an admitted one waits for; 0 for a wait that is no activity (17 R647). -/
def Dev.maintWaits (d : Dev) (it : Item) : Option Nat :=
  let earlier := d.items.find? (fun o => o.typ == tMaint && o.phase != .fetched && o.phase != .finished &&
    decide (o.cut < it.cut ∨ (o.cut = it.cut ∧ o.order < it.order)) && o.status.isNone && (d.excludes it o || d.excludes o it))
  match earlier with
  | some o => some o.activity
  | none =>
    if it.activity = 6 && (d.get F.pilStatus_FLASH_RELEASED = 1 || d.get F.pilStatus_STAGING = 1) then some 0
    else if it.activity = 3 then
      match deckAt it.target with
      | some k => if d.linkState (linkKey (.deck k (it.w 2))) ≠ 4 && d.linkState (linkKey (.deck k (it.w 2))) ≠ 6 then some 0 else none
      | none => none
    else none

/-! ### Patrol scrub (03 R122, 17 R648) -/

/-- HBM_RETRAIN or SECURE_ERASE runs on a stack. -/
def Dev.scrubPaused (d : Dev) (s : Nat) : Bool :=
  d.items.any (fun it => it.typ == tMaint && (it.activity == 2 || it.activity == 7) && it.started && it.phase != .finished &&
    (d.maintStacks it).contains s)

/-- A scrubbed unit exists. -/
def scrubUnitIs : ScrubUnit → Bool
  | .stack s => decide (s < 16)
  | .warehouse k => decide (k < 8)
  | .localMem t => decide (t < 1408)

/-- The key of a unit's patrol pass. -/
def scrubKey : ScrubUnit → Nat
  | .stack s => s
  | .warehouse k => 16 + k
  | .localMem t => 32 + t

/-- The patrol pass of a unit. -/
def Dev.scrub (d : Dev) (u : ScrubUnit) : Scrub := tget .new d.scrubs (scrubKey u)

/-- Change the patrol pass of a unit. -/
def Dev.modScrub (d : Dev) (u : ScrubUnit) (f : Scrub → Scrub) : Dev :=
  { d with scrubs := tset .new d.scrubs (scrubKey u) (f (d.scrub u)) }

/-- Patrol scrub runs on a unit. -/
def Dev.scrubRuns (d : Dev) (u : ScrubUnit) : Bool :=
  d.scrubNs u != 0 && d.get F.mntPowerStatus_IN_PKG_IDLE == 0 && match u with
  | .stack s => d.get F.whfStatus_STATE s != 2 && !d.scrubPaused s
  | .warehouse k => !bit (d.get F.mntPowerStatus_RETAINED) k
  | .localMem t => d.dieActive (t / 32) && !bit (d.get F.mntPowerStatus_RETAINED) (d.deckOfDie (t / 32))

/-- A read of scrub at an address and what it found (03 R116, R118). -/
def Dev.scrubbed (d : Dev) (u : Nat) (ecc : Ecc) : Dev :=
  match ecc with
  | .clean => d
  | .corrected => d.noteCorrected u
  | .uncorrectable =>
    let d := d.notePoison u
    if u < 2 ^ 40 then d.passError (d.stackOfPa u) u else d

/-- PATROL_SCRUB (03 R116, R118, R122): the patrol reads one unit of memory. -/
def execPatrolScrub (unit : ScrubUnit) (addr : Nat) (ecc : Ecc) (s : State) : Out :=
  actUp s fun d => if d.scrubRuns unit && d.inScrub unit addr then
    let u := unitOf addr
    (d.modScrub unit (fun x => { x with next := u + unitSize u })).scrubbed u ecc
  else d

/-- A finished pass ends and the next begins (03 R123): an HBM pass is counted and logged. -/
def Dev.passDone (d : Dev) (u : ScrubUnit) : Dev :=
  let d := d.modScrub u (fun _ => { start := some d.now })
  match u with
  | .stack k => ((d.modStack k (fun x => { x with passErrors := [] })).addWrap F.hbmScrubCfg_PASSES 1 k).note 0x2030 (locStack k)
  | _ => d

/-- SCRUB_PASS_DONE (03 R123). -/
def execScrubPassDone (unit : ScrubUnit) (s : State) : Out :=
  actUp s fun d => if scrubUnitIs unit && d.scrubRuns unit then d.passDone unit else d

/-- Locator of a scrubbed unit. -/
def Dev.locScrub (d : Dev) : ScrubUnit → Nat
  | .stack k => locStack k
  | .warehouse k => locDeck k
  | .localMem t => d.locTile t

/-- SCRUB_LATE (03 R123): a pass not finished within twice its period is logged once. -/
def execScrubLate (unit : ScrubUnit) (s : State) : Out :=
  actUp s fun d =>
    let x := d.scrub unit
    if scrubUnitIs unit && d.scrubRuns unit && !x.late &&
        x.start.getD d.pilot.releasedAt + 2 * d.scrubNs unit ≤ d.now then
      (d.modScrub unit (fun x => { x with late := true })).note 0x2031 (d.locScrub unit)
    else d

/-! ### The activities (17 R646) -/

/-- Act on the released slice of an activity. -/
def Dev.onMaint (d : Dev) (ring index act : Nat) (f : Item → Dev) : Dev :=
  d.onItem ring index (fun it => it.typ == tMaint && it.activity == act) f

/-- The positions of the slice in hand that a list names. -/
def Item.inSlice (it : Item) (ps : List Nat) : List Nat := ps.filter (fun p => decide (it.pos ≤ p ∧ p < it.sliceEnd))

/-- SCRUB (17 R646): one immediate pass; the positions found uncorrectable and corrected come with the
slice. -/
def execScrub (ring index : Nat) (r : MaintResult) (s : State) : Out :=
  actUp s fun d => d.onMaint ring index 1 fun it =>
    let pa := fun p => match stackAt it.target with
      | some k => poolAddr d.interleave k (64 * p)
      | none => d.deckScrubPa ((deckAt it.target).getD 0) p
    let d := (it.inSlice r.values).foldl (fun d p => d.scrubbed (pa p) .corrected) d
    let d := (it.inSlice r.failed).foldl (fun d p => d.scrubbed (pa p) .uncorrectable) d
    let d := match stackAt it.target with
      | some k => if it.last ≤ it.sliceEnd then
          ((d.modStack k (fun x => { x with passErrors := [] })).addWrap F.hbmScrubCfg_PASSES 1 k).note 0x2030 (locStack k) else d
      | none => d
    d.sliceDone ring index

/-- HBM_RETRAIN (17 R646, 03 R128): a pseudo-channel that fails is fenced. -/
def execHbmRetrain (ring index : Nat) (r : MaintResult) (s : State) : Out :=
  actUp s fun d => d.onMaint ring index 2 fun it =>
    let k := (stackAt it.target).getD 0
    ((it.inSlice r.failed).foldl (fun d p => d.fencePc k p) d).sliceDone ring index

/-- D2D_RETRAIN (17 R646): modules are retrained one at a time; their new widths come with the slice, and
a link left with fewer than half its modules leaves ACTIVE (01 R52). -/
def execD2dRetrain (ring index : Nat) (r : MaintResult) (s : State) : Out :=
  actUp s fun d => d.onMaint ring index 3 fun it =>
    let k := (deckAt it.target).getD 0
    let key := linkKey (.deck k (it.w 2))
    let d := if d.linkState key ≠ 4 then d else
      let d := (rangeFrom it.pos (it.sliceEnd - it.pos)).foldl (fun d m =>
        let w := min 2 (r.values.getD (m - it.pos) 2)
        d.modLink key (fun l => { l with near := tset 0 l.near m w, far := tset 0 l.far m w })) d
      let d := d.showWidths key
      let live := ((List.range (modulesOf key)).filter (fun i => tget 0 (d.link key).near i != 0)).length
      if modulesOf key ≤ 2 * live then d
      else ((d.note 0x3001 (locDeck k) [(1, it.w 2)]).setLinkState key 6).linkLost key
    d.sliceDone ring index

/-- LANE_RECAL (17 R646): each lane moves onto a spare and back; without a free spare it fails. -/
def execLaneRecal (ring index : Nat) (r : MaintResult) (s : State) : Out :=
  actUp s fun d => d.onMaint ring index 4 fun it =>
    let p := (portAt it.target).getD 0
    let good := (tget .new d.ports p).good
    if good < 25 || !(it.inSlice r.failed).isEmpty then d.finishAt ring index 0x13 0 else d.sliceDone ring index

/-- AGEING (17 R646, 15 R579): the remeasured offset updates the ledger. -/
def execAgeing (ring index : Nat) (r : MaintResult) (s : State) : Out :=
  actUp s fun d => d.onMaint ring index 5 fun it =>
    let d := match d.dieAt it.target with
      | some ld => if it.last ≤ it.sliceEnd then d.ageDie ld (r.values.headD (d.get F.lkpDie_AGEING_MV ld)) else d
      | none => d
    d.sliceDone ring index

/-- FLASH_WRITE (17 R646): the image region is written from its source and read back. -/
def execFlashWrite (ring index : Nat) (r : MaintResult) (s : State) : Out :=
  actUp s fun d => d.onMaint ring index 6 fun it =>
    let lo := it.pos * 1024
    let hi := min (it.w 3) (it.sliceEnd * 1024)
    match d.dmaReadN .harbourmaster it.ctx (it.w 2 + lo) (hi - lo) with
    | (d, .error (x, va)) => d.xfail ring index it.pos x va
    | (d, .ok bs) =>
      let d := d.writeFlash lo bs
      match (it.inSlice r.failed).head? with
      | some p => d.finishAt ring index 0x13 p
      | none => d.sliceDone ring index

/-- Erase one range of a page: translated, zeroed, read back (10 R407). Lines that fail are numbered
from the item's first. -/
def Dev.eraseRange (d : Dev) (it : Item) (failed : List Nat) (r : Nat × Nat) : Dev × Except (XFail × Nat) Unit :=
  match d.xlate .harbourmaster it.ctx (BitVec.ofNat 64 r.1) r.2 2 with
  | (d, .error x) => (d, .error (x, r.1))
  | (d, .ok x) =>
    if 2 ^ 40 ≤ x.pa then (d, .error (⟨0, 0x16, none⟩, r.1))
    else if (d.stacksOf x.pa).any (fun s => d.get F.whfStatus_STATE s == 2) then (d, .error (⟨0, 0x13, none⟩, r.1))
    else
      let d := if x.hostShared then (unitsOf x.pa r.2).foldl (fun d u => d.cohDrop (u / 64)) d else d
      let d : Dev := { d with mem := d.mem.erase x.pa r.2 }
      let first := (r.1 - it.w 2) / 64
      let bad := failed.filter (fun l => decide (first ≤ l ∧ l < first + r.2 / 64))
      (bad.foldl (fun d l =>
        let pa := x.pa + 64 * (l - first)
        let d := d.note 0x9321 (locStack (d.stackOfPa pa)) [(8, pa)]
        if d.pageRetired pa then d else d.retire { pending := false, reason := 2, count := 1, first := pa / 2 ^ 21 }) d, .ok ())

/-- Erase pages from a position. -/
def Dev.eraseLoop (d : Dev) (it : Item) (failed : List Nat) : Nat → Nat → Dev
  | 0, _ => d.sliceDone it.ring it.index
  | n + 1, p =>
    let res := (erasePieces (it.w 2) p).foldl (fun (acc : Dev × Except (XFail × Nat) Unit) r =>
      match acc with
      | (d, .error e) => (d, .error e)
      | (d, .ok ()) => d.eraseRange it failed r) (d, .ok ())
    match res with
    | (d, .ok ()) => d.eraseLoop it failed n (p + 1)
    | (d, .error (x, va)) => d.xfail it.ring it.index p x va

/-- A wave holds some line of a slice of SECURE_ERASE locked (10 R382). -/
def Dev.eraseWaits (d : Dev) (it : Item) : Bool :=
  let locked := d.hbmStacks.flatMap (fun e => e.2.waves.flatMap (·.lines))
  !locked.isEmpty && (rangeFrom it.pos (it.sliceEnd - it.pos)).any (fun p => (erasePieces (it.w 2) p).any (fun r =>
    match d.peek it.ctx r.1 with
    | some x => locked.any (fun l => decide (x.2 < 64 * l + 64 ∧ 64 * l < x.2 + r.2))
    | none => false))

/-- SECURE_ERASE (10 R407, 17 R646): it waits, with no effect, while a wave holds a line of its slice locked
(10 R382). -/
def execSecureErase (ring index : Nat) (r : MaintResult) (s : State) : Out :=
  actUp s fun d => d.onMaint ring index 7 fun it =>
    if d.eraseWaits it then d else d.eraseLoop it r.failed (it.sliceEnd - it.pos) it.pos

/-- The 64 bytes of a record that LOG_EXPORT copies. -/
def Dev.exportRecord (d : Dev) (source i : Nat) : List Byte :=
  let slot := d.get F.logVaultStatus_SLOT
  match source with
  | 0 => d.logBytes i
  | 1 => d.flashBytes (0x0FC01000 + 0x10000 * slot + 64 * i) 64
  | _ => d.flashBytes (0x0FC01000 + 0x10000 * (1 - slot) + 64 * i) 64

/-- Copy records from a position. -/
def Dev.exportLoop (d : Dev) (it : Item) : Nat → Nat → Dev
  | 0, _ => d.sliceDone it.ring it.index
  | n + 1, p =>
    match d.dmaPut .harbourmaster it.ctx (it.w 2 + 64 * p) (d.exportRecord (it.w 3) p) with
    | (d, .ok ()) => d.exportLoop it n (p + 1)
    | (d, .error (x, va)) => d.xfail it.ring it.index p x va

/-- LOG_EXPORT (17 R646): records are copied byte for byte. -/
def execLogExport (ring index : Nat) (r : MaintResult) (s : State) : Out :=
  actUp s fun d => d.onMaint ring index 8 fun it =>
    match (it.inSlice r.failed).head? with
    | some p => if it.w 3 = 0 then d.exportLoop it (it.sliceEnd - it.pos) it.pos else d.finishAt ring index 0x13 p
    | none => d.exportLoop it (it.sliceEnd - it.pos) it.pos

/-- SPARE_TEST (17 R646): the deck's spare is tested at the next DEV_WARM. -/
def execSpareTest (ring index : Nat) (r : MaintResult) (s : State) : Out :=
  actUp s fun d => d.onMaint ring index 9 fun it =>
    let k := (deckAt it.target).getD 0
    if !r.ok then d.finishAt ring index 0x13 0
    else (d.modPilot (fun p => { p with spareTests := if p.spareTests.contains k then p.spareTests else p.spareTests ++ [k] })).sliceDone ring index

/-- The enabled physical dies, ascending (01 R30). -/
def enabledDies (f : Fuses) : List Nat := (List.range 48).filter (fun p => f.enabled.getD p false)

/-- The physical die that serves a logical one: its place among the enabled dies, or the spare of its latest
repair (01 R30, R36). -/
def dieServing (f : Fuses) (ld : Nat) : Nat :=
  match f.repairs.reverse.find? (fun r => r.1 == ld) with
  | some r => r.2
  | none => (enabledDies f).getD ld 48

/-- A physical die serves some logical number by a repair (01 R37). -/
def inService (f : Fuses) (p : Nat) : Bool := f.repairs.any (fun r => r.2 == p && dieServing f r.1 == p)

/-- The site of a deck's spare: its die that fuses do not enable (01 R29). -/
def spareSite (f : Fuses) (k : Nat) : Option Nat := (List.range 6).find? (fun i => !f.enabled.getD (6 * k + i) false)

/-- The spare that repairs a die: one that passed its latest self-test and that no repair since has taken, on
the die's own deck, or else the fewest deck links away, lowest deck first (01 R34). -/
def Dev.chooseSpare (d : Dev) (deck : Nat) : Option Nat :=
  let free := (List.range 8).filter (fun k => d.get F.dckSpareStatus_PRESENT k == 1 && d.get F.dckSpareStatus_RESULT k == 1 &&
    !(inService d.fuses (6 * k + d.get F.dckSpareStatus_SITE k)))
  if free.contains deck then some deck else
  (free.foldl (fun (best : Option (Nat × Nat)) k =>
    let h := deckHops deck k
    match best with
    | none => some (k, h)
    | some (b, g) => if h < g then some (k, h) else some (b, g)) none).map (·.1)

/-- REPAIR (01 R34 to R37): a repair record is fused; it takes effect at the next reset. -/
def execRepair (ring index : Nat) (r : MaintResult) (s : State) : Out :=
  actUp s fun d => d.onMaint ring index 10 fun it =>
    match d.dieAt it.target with
    | none => d.finishAt ring index 0x13 0
    | some ld =>
      match d.chooseSpare (d.deckOfDie ld) with
      | none => d.finishAt ring index 0x13 0
      | some k =>
        if 4 ≤ d.fuses.repairs.length || !r.ok then d.finishAt ring index 0x13 0
        else
          let phys := 6 * k + d.get F.dckSpareStatus_SITE k
          ({ d with fuses := { d.fuses with repairs := d.fuses.repairs ++ [(ld, phys)] } } : Dev).sliceDone ring index

/-- PAGE_RETIRE (17 R646): one entry with REASON 5. -/
def execPageRetire (ring index : Nat) (r : MaintResult) (s : State) : Out :=
  actUp s fun d => d.onMaint ring index 11 fun it =>
    if !r.ok then d.finishAt ring index 0x13 0
    else (d.retire { pending := false, reason := 5, count := it.w 3, first := it.w 2 / 2 ^ 21 }).sliceDone ring index

/-- The arm of the ledger holds: set by the BMC within 10 s (17 R643). -/
def Dev.ledgerArmed (d : Dev) : Bool := d.get F.mntLedgerArm_ARMED == 1 && decide (d.now < d.ledger.armedAt + 10 ^ 10)

/-- LEDGER_CLEAR (17 R643, 03 R138): with the BMC's arm, which it consumes; the entries leave the list at
the next DEV_WARM. -/
def execLedgerClear (ring index : Nat) (r : MaintResult) (s : State) : Out :=
  actUp s fun d => d.onMaint ring index 12 fun it =>
    if !d.ledgerArmed then (d.note 0x9404 0).finishAt ring index 0x19 0
    else if !r.ok then d.finishAt ring index 0x13 0
    else
      let n := if it.b 2 63 then d.ledger.data.retired.length else 1
      let d := d.flag F.mntLedgerArm_ARMED false
      let d := d.ledgerChange (fun l => { l with
        removeAll := l.removeAll || it.b 2 63
        removals := if it.b 2 63 then l.removals else it.f 2 11 0 :: l.removals })
      (d.note 0x9402 0 [(4, n)]).sliceDone ring index

/-- ATTEST (16 R617, R618): the evidence is written to memory; the pilot refuses while firmware debug is
unlocked. -/
def execAttest (ring index : Nat) (r : MaintResult) (s : State) : Out :=
  actUp s fun d => d.onMaint ring index 13 fun it =>
    if !d.mayAttest then d.finishAt ring index 0x19 0
    else if !r.ok then d.finishAt ring index 0x13 0
    else match d.dmaPut .harbourmaster it.ctx (it.w 2) (d.evidence ((rangeFrom 3 4).flatMap (fun k => leBytes 8 (it.w k)))) with
      | (d, .ok ()) => d.sliceDone ring index
      | (d, .error (x, va)) => d.xfail ring index 0 x va

end Sys2Proof.Machine
end

