-- ==== Sys2Proof/Machine/Colls.lean ====
section
/-! DEFINITION. Collectives (14 R555 to R560): participants, the exchange of syncs, the stages of a
reduction, a gather or a broadcast step by step, and their messages. -/
namespace Sys2Proof.Machine

/-! ### Descriptor fields (11 R436) -/

def Item.collOp (it : Item) : Nat := it.f 1 3 0
def Item.collFmt (it : Item) : Nat := it.f 1 7 4
def Item.collDims (it : Item) : Nat := it.f 1 10 8
def Item.collPh1 (it : Item) : Bool := it.b 1 11
def Item.collId (it : Item) : Nat := it.f 1 63 32
def Item.collN (it : Item) : Nat := it.f 4 31 0
def Item.collRoot (it : Item) : Nat := it.f 7 14 0
/-- Bytes of an element. -/
def Item.collSize (it : Item) : Nat :=
  if it.collFmt = 14 then (if it.collPh1 then 16 else 64) else fmtBits it.collFmt / 8

/-- The dimensions of a DIMS field, ascending. -/
def dimsOf (m : Nat) : List Nat := (List.range 3).filter (bit m)

/-- The number of participants (14 R555). -/
def Dev.collP (d : Dev) (dims : Nat) : Nat := (dimsOf dims).foldl (fun p k => p * d.dimSize k) 1

/-- This node's rank: the lowest-numbered dimension is the most significant digit (14 R555). -/
def Dev.collRank (d : Dev) (dims : Nat) : Nat := (dimsOf dims).foldl (fun r k => r * d.dimSize k + coord d.node k) 0

/-- A node takes part. -/
def Dev.takesPart (d : Dev) (dims n : Nat) : Bool :=
  d.inTorus n && (List.range 3).all (fun k => bit dims k || coord n k == coord d.node k)

/-- Receive-buffer elements: the item's last position (14 R556, R560). -/
def Dev.collLast (d : Dev) (it : Item) : Nat :=
  match it.collOp with
  | 1 => it.collN / d.collP it.collDims
  | 2 => it.collN * d.collP it.collDims
  | _ => it.collN

/-- The checks of a COLLECTIVE at its release (11 R439, R440; 14 R549, R555, R556, R560). -/
def Dev.collVerdict (d : Dev) (it : Item) : Verdict :=
  let c := it.connOf
  let w := d.cw0 c
  let f := it.collFmt
  if cwValid w && cwCtx w ≠ it.ctx then .denied
  else if !(it.w0ok && it.zeros [(1, 31, 12), (4, 63, 32), (7, 63, 15)]) || 3 < it.collOp then .invalid
  else if !(f == 10 || f == 11 || f == 14) || (it.collPh1 && f ≠ 14) then .invalid
  else if it.collOp = 1 && it.collN % d.collP it.collDims ≠ 0 then .invalid
  else if it.collOp = 3 && !d.takesPart it.collDims it.collRoot then .invalid
  else if cwValid w && !cwGroup w then .invalid
  else match segVerdict (if f = 14 then [it.w 2, it.w 3, it.w 5, it.w 6] else [it.w 2, it.w 3]) with
    | some v => v
    | none => if (d.conn c).state ≠ 2 then .fail 0x17 0 else .run (d.collLast it)

/-- The operand ranges at this node. -/
def Dev.collRanges (d : Dev) (it : Item) : List (Nat × Nat) :=
  [(it.w 2, it.collN * it.collSize), (it.w 3, d.collLast it * it.collSize)]

/-! ### Neighbours -/

/-- The sequence of a group with a neighbour; in a dimension of size 2 both directions reach one. -/
def Dev.nbKey (d : Dev) (c k : Nat) (plus : Bool) : Nat :=
  4096 + 8 * c + 2 * k + (if plus && d.dimSize k ≠ 2 then 1 else 0)

/-- The neighbours of a collective: sequence key and node. -/
def Dev.nbs (d : Dev) (it : Item) : List (Nat × Nat) :=
  ((dimsOf it.collDims).filter (fun k => d.dimSize k ≠ 1)).flatMap (fun k =>
    let lo := (d.nbKey it.connOf k false, d.neighbour d.node k false)
    if d.dimSize k = 2 then [lo] else [lo, (d.nbKey it.connOf k true, d.neighbour d.node k true)])

/-- The sequence key of a neighbour by its node id. -/
def Dev.nbKeyOf (d : Dev) (c src : Nat) : Option Nat :=
  (List.range 3).findSome? (fun k =>
    if d.dimSize k = 1 then none
    else if src = d.neighbour d.node k false then some (d.nbKey c k false)
    else if src = d.neighbour d.node k true then some (d.nbKey c k true)
    else none)

/-- Send the waiting collective messages of a sequence that may go. -/
def Dev.pumpKey (d : Dev) (key g : Nat) : Nat → Dev
  | 0 => d
  | fuel + 1 =>
    match (d.conn key).sendq with
    | [] => d
    | m :: rest =>
      if (d.conn g).state ≠ 2 || !d.maySend key g (msgBytes m.body) then d
      else ((d.modConn key (fun x => { x with sendq := rest })).sendSeq key g m none).pumpKey key g fuel

/-- Send a collective message to a neighbour in sequence. -/
def Dev.sendNb (d : Dev) (c : Nat) (nb : Nat × Nat) (b : MsgBody) : Dev :=
  (d.modConn nb.1 (fun x => { x with sendq := x.sendq ++ [plainMsg nb.2 c 0 b] })).pumpKey nb.1 c 64

/-! ### Elements -/

/-- An element's value as bytes; a T128 element carries its anchor and flags after them. -/
abbrev Elem := List Byte

/-- The T128 value of an element and its anchor. -/
def elemTal (ph1 : Bool) (e : Elem) : Tal × Int :=
  let k := if ph1 then 16 else 64
  let tail := e.drop k
  let fl := leNat (tail.drop 2)
  (Tal.ofBytes (e.take k) ph1 (bit fl 0) (bit fl 1), toInt 16 (leNat (tail.take 2)))

/-- The element of a T128 value. -/
def talElem (ph1 : Bool) (t : Tal) (a : Int) : Elem :=
  t.bytes ph1 ++ leBytes 2 (ofInt 16 a) ++ leBytes 1 (b2n t.poison + 2 * b2n t.overflow)

/-- v + x (14 R557): nearest even with overflow counted, or tally addition, whose flags are counted where its
result is written. -/
def collAdd (f : Nat) (ph1 : Bool) (v x : Elem) : Elem × Nat :=
  if f = 14 then
    let (tv, av) := elemTal ph1 v
    let (tx, ax) := elemTal ph1 x
    let t := tv.join av tx ax
    (talElem ph1 t av, 0)
  else
    let p := if f = 10 then fpH16 else fpF32
    let a := p.decode (leNat v)
    let b := p.decode (leNat x)
    let r := p.rne (a.add b)
    let fin := match a, b with | .fin _ _, .fin _ _ => true | _, _ => false
    let inf := match p.decode r with | .inf _ => true | _ => false
    (leBytes (fmtBits f / 8) r, b2n (fin && inf))

/-- Read element `i` of a buffer with its anchor records (04 R182). -/
def Item.collRead (it : Item) (e : Eng) (base anchors n i : Nat) : EM Elem := do
  let k := it.collSize
  let bs ← e.rd (vaAdd base (i * k)) k
  if it.collFmt = 14 then
    let r := Anchor.ofBytes (← e.rd (vaAdd anchors (16 * (i / 32))) 16) (min 32 (n - i / 32 * 32))
    return bs ++ leBytes 2 (ofInt 16 r.a) ++ leBytes 1 (b2n (bit r.poison (i % 32)) + 2 * b2n (bit r.overflow (i % 32)))
  else return bs

/-- The writes of element `i` of the receive buffer: its anchor record takes the anchor and flags, and an element
whose anchor differs from that of its run is poisoned (04 R185). A T128 element written poisoned or overflowed
counts saturated (04 R165). -/
def Item.collWrite (it : Item) (e : Eng) (n i : Nat) (v : Elem) : EM URes := do
  let k := it.collSize
  let elem := (vaAdd (it.w 3) (i * k), v.take k)
  if it.collFmt ≠ 14 then return ⟨[elem], 0, 0⟩
  let cnt := min 32 (n - i / 32 * 32)
  let ra := vaAdd (it.w 6) (16 * (i / 32))
  let (t, a) := elemTal it.collPh1 v
  let old ← if i % 32 = 0 then pure (⟨a, 0, 0⟩ : Anchor) else do
    let bs ← e.rd ra 16
    pure (Anchor.ofBytes bs cnt)
  let j := i % 32
  let poison := t.poison || old.a ≠ a
  let r : Anchor := { a := old.a, poison := setBits old.poison j j (b2n poison),
                      overflow := setBits old.overflow j j (b2n t.overflow) }
  return ⟨[elem, (ra, r.bytes cnt)], b2n (poison || t.overflow), 0⟩

/-! ### Stages (14 R557) -/

/-- The stages of an operation: (gather, dimension). -/
def Item.collStages (it : Item) : List (Bool × Nat) :=
  let ds := dimsOf it.collDims
  match it.collOp with
  | 0 => ds.map (fun k => (false, k)) ++ ds.reverse.map (fun k => (true, k))
  | 1 => ds.map (fun k => (false, k))
  | 2 => ds.reverse.map (fun k => (true, k))
  | _ => []

/-- Elements of the space in which chunks are numbered. -/
def Dev.collSpace (d : Dev) (it : Item) : Nat := if it.collOp = 2 then d.collLast it else it.collN

/-- The block of elements that a dimension's stage divides: lo and count. -/
def Dev.collBlock (d : Dev) (it : Item) (k : Nat) : Nat × Nat :=
  ((dimsOf it.collDims).filter (· < k)).foldl (fun b j =>
    let s := d.dimSize j
    let c := coord d.node j
    (b.1 + c * b.2 / s, (c + 1) * b.2 / s - c * b.2 / s)) (0, d.collSpace it)

/-- An element of the space belongs to the slice in hand. -/
def Dev.inSlice (d : Dev) (it : Item) (e : Nat) : Bool :=
  let j := if it.collOp = 1 then e % max 1 (d.collLast it) else e
  decide (it.pos ≤ j ∧ j < it.sliceEnd)

/-- The elements of a chunk that belong to the slice in hand. -/
def Dev.collChunk (d : Dev) (it : Item) (k c : Nat) : List Nat :=
  let (lo, m) := d.collBlock it k
  let s := d.dimSize k
  (rangeFrom (lo + c * m / s) ((c + 1) * m / s - c * m / s)).filter (fun e => d.inSlice it e)

/-- The chunk sent and the chunk received at a step. -/
def Dev.collSteps (d : Dev) (st : Bool × Nat) (t : Nat) : Nat × Nat :=
  let s := d.dimSize st.2
  let i := coord d.node st.2
  if st.1 then ((i + s - t % s) % s, (i + 2 * s - 1 - t % s) % s)
  else ((i + 2 * s - 1 - t % s) % s, (i + 2 * s - 2 - t % s) % s)

/-- The collective of an item. -/
def Dev.coll? (d : Dev) (it : Item) : Option Coll := d.colls.find? (fun g => g.ring == it.ring && g.index == it.index)

/-- Change the collective of an item. -/
def Dev.modColl (d : Dev) (it : Item) (f : Coll → Coll) : Dev :=
  { d with colls := d.colls.map (fun g => if g.ring == it.ring && g.index == it.index then f g else g) }

/-- Split elements over messages of at most 4 KiB. -/
def chunksOf (n : Nat) : Nat → List Elem → List (List Elem)
  | 0, _ => []
  | fuel + 1, l => if l.isEmpty then [] else l.take n :: chunksOf n fuel (l.drop n)

/-- Send elements to the next node of a dimension. -/
def Dev.sendElems (d : Dev) (it : Item) (g : Coll) (k chunk step : Nat) (gather : Bool) (es : List Nat) : Dev :=
  let vs := es.map (fun e => tget [] g.vals e)
  let n := it.collSize
  let nb := (d.nbKey it.connOf k true, d.neighbour d.node k true)
  (chunksOf (4096 / (n + 3)) vs.length vs).foldl (fun d part =>
    d.sendNb it.connOf nb (.collData it.collId k chunk step gather (part.flatMap (·.take n)) (part.flatMap (·.drop n)))) d

/-- The elements a message carries. -/
def elemsOf (n : Nat) (data anchors : List Byte) : List Elem :=
  (List.range (data.length / n)).map (fun i => (data.drop (n * i)).take n ++ (if anchors.isEmpty then [] else (anchors.drop (3 * i)).take 3))

/-- Parts of the sync that must match (14 R558). -/
def Item.syncBody (it : Item) (abort : Bool) (n : Nat) : MsgBody :=
  .collSync it.collId it.collOp it.collFmt it.collDims it.collPh1 n it.collRoot abort

/-- The collective a message belongs to. -/
def msgColl : MsgBody → Option Nat
  | .collData i _ _ _ _ _ _ => some i
  | .collSync i _ _ _ _ _ _ _ => some i
  | _ => none

/-- A collective ends with a status at its position, and tells its neighbours if it aborts them; an abort
carries the status in n (14 R558). -/
def Dev.collFail (d : Dev) (it : Item) (status : Nat) (tell : Bool) : Dev :=
  let d := if tell then (d.nbs it).foldl (fun d nb => d.sendNb it.connOf nb (it.syncBody true status)) d else d
  let d : Dev := { d with
    colls := d.colls.filter (fun g => !(g.ring == it.ring && g.index == it.index))
    collIn := d.collIn.filter (fun m => msgColl m.body != some it.collId) }
  d.finishAt it.ring it.index status it.pos

/-- What one received message does to a collective that waits for syncs. -/
def Dev.collSynced (d : Dev) (it : Item) (m : LinkMsg) : Dev :=
  match m.body, d.nbKeyOf it.connOf m.src with
  | .collSync _ op fmt dims ph1 n root abort, some key =>
    if abort then d.collFail it n true
    else if op = it.collOp && fmt = it.collFmt && dims = it.collDims && ph1 = it.collPh1 && n = it.collN && root = it.collRoot then
      d.modColl it (fun g => { g with synced := key :: g.synced.filter (· != key), since := d.now })
    else (d.note 0x4030 0).collFail it 0x16 true
  | _, _ => d

/-- Dimension along which a node receives a broadcast: the highest in which it differs from ROOT
(log entry 19). -/
def Dev.bcastFrom (d : Dev) (it : Item) : Option Nat :=
  (dimsOf it.collDims).reverse.find? (fun k => coord d.node k != coord it.collRoot k)

/-- Dimensions along which a node passes a broadcast on. -/
def Dev.bcastTo (d : Dev) (it : Item) : List Nat :=
  (dimsOf it.collDims).filter (fun k =>
    (match d.bcastFrom it with | some j => decide (j ≤ k) | none => true) &&
    (coord d.node k + 1) % d.dimSize k != coord it.collRoot k)

/-- Load this node's own elements of the slice in hand (14 R556). -/
def Item.collLoad (it : Item) (e : Eng) : EM Unit := do
  let d ← EM.dev
  let n := it.collN
  let r := d.collRank it.collDims
  let mine := match it.collOp with
    | 2 => (rangeFrom (r * n) n).filter (fun x => d.inSlice it x)
    | 3 => if d.node = it.collRoot then (List.range n).filter (fun x => d.inSlice it x) else []
    | _ => (List.range n).filter (fun x => d.inSlice it x)
  let vs ← mine.mapM (fun x => do
    let v ← it.collRead e (it.w 2) (it.w 5) n (if it.collOp = 2 then x - r * n else x)
    return (x, v))
  EM.upd (fun d => d.modColl it (fun g => { g with vals := vs, stage := 0, step := 0, got := [], upTo := it.sliceEnd, since := d.now }))

/-- Write the receive buffer of the slice in hand, element by element: the item reaches each as it is written. -/
def Item.collStore (it : Item) (e : Eng) (g : Coll) : EM Unit := do
  let d ← EM.dev
  let last := d.collLast it
  let off := if it.collOp = 1 then d.collRank it.collDims * last else 0
  (rangeFrom it.pos (it.sliceEnd - it.pos)).forM (fun i => do
    let r ← it.collWrite e last i (tget [] g.vals (off + i))
    e.commit r
    EM.upd (fun d => d.countItem it.ring it.index r.sat 0)
    it.reach (i + 1))

/-- The engine of a collective: the pier of its first port, translating for its context. -/
def Item.collEng (it : Item) : Eng := ⟨.pier (portOf ((dimsOf it.collDims).headD 0) true), it.ctx⟩

/-- The slice's data is complete: the receive buffer is written (14 R556, R560). -/
def Dev.collDone (d : Dev) (it : Item) (g : Coll) : Dev :=
  match (it.collStore it.collEng g).go d with
  | (d, .ok ()) =>
    let d := if it.last ≤ it.sliceEnd then
        { d with colls := d.colls.filter (fun g => !(g.ring == it.ring && g.index == it.index)) }
      else d.modColl it (fun g => { g with upTo := 0, vals := [], got := [] })
    d.sliceDone it.ring it.index
  | (d, .error x) => { d.engFail it (((d.item? it.ring it.index).map (·.pos)).getD it.pos) x with
      colls := d.colls.filter (fun g => !(g.ring == it.ring && g.index == it.index)) }

/-- Take elements from the first waiting message that continues the chunk awaited. -/
def Dev.takeData (d : Dev) (it : Item) (k chunk step : Nat) (gather : Bool) : Option (Dev × List Elem) :=
  let fits := fun (m : LinkMsg) => match m.body with
    | .collData i kk cc ss gg _ _ => i == it.collId && kk == k && cc == chunk && ss == step && gg == gather
    | _ => false
  match d.collIn.find? fits with
  | some m => match m.body with
    | .collData _ _ _ _ _ data anchors => some ({ d with collIn := d.collIn.erase m }, elemsOf it.collSize data anchors)
    | _ => none
  | none => none

/-- Begin a stage's first step by sending its chunk. -/
def Dev.collSendStep (d : Dev) (it : Item) (g : Coll) (st : Bool × Nat) (t : Nat) : Dev :=
  if d.dimSize st.2 ≤ t + 1 then d
  else
    let c := (d.collSteps st t).1
    d.sendElems it g st.2 c t st.1 (d.collChunk it st.2 c)

/-- The elements of a finished step enter the values: summed into, or placed (14 R557). -/
def Dev.collTake (d : Dev) (it : Item) (g : Coll) (st : Bool × Nat) (es : List Nat) : Dev :=
  let pairs := es.zip g.got
  let r := pairs.foldl (fun (acc : List (Nat × Elem) × Nat) p =>
    if st.1 then (tset [] acc.1 p.1 p.2, acc.2)
    else
      let a := collAdd it.collFmt it.collPh1 p.2 (tget [] acc.1 p.1)
      (tset [] acc.1 p.1 a.1, acc.2 + a.2)) (g.vals, 0)
  let d := d.countItem it.ring it.index r.2 0
  d.modColl it (fun g => { g with vals := r.1, got := [], step := g.step + 1, since := d.now })

/-- The collective of an item is over. -/
def Dev.dropColl (d : Dev) (ring index : Nat) : Dev :=
  { d with colls := d.colls.filter (fun g => !(g.ring == ring && g.index == index)) }

/-- Move a collective on as far as the messages received allow. -/
def Dev.collRun (d : Dev) (ring index : Nat) : Nat → Dev
  | 0 => d
  | fuel + 1 =>
    match d.item? ring index with
    | none => d
    | some it =>
    match d.coll? it with
    | none => d
    | some g =>
      match d.collIn.find? (fun m => match m.body with | .collSync i _ _ _ _ _ _ _ => i == it.collId | _ => false) with
      | some m => (({ d with collIn := d.collIn.erase m } : Dev).collSynced it m).collRun ring index fuel
      | none =>
        if it.phase ≠ .released || !((d.nbs it).all (fun nb => g.synced.contains nb.1)) then d
        else if it.collN = 0 then
          (d.finishAt ring index 1 0).dropColl ring index
        else if g.upTo = 0 then
          match (it.collLoad it.collEng).go d with
          | (d, .error x) => (d.engFail it it.pos x).dropColl ring index
          | (d, .ok ()) =>
            match d.coll? it, it.collStages with
            | some g, st :: _ => (d.collSendStep it g st 0).collRun ring index fuel
            | some g, [] =>
              if it.collOp = 3 && d.node = it.collRoot then
                ((d.bcastTo it).foldl (fun d k => d.sendElems it g k 0 0 true ((List.range it.collN).filter (fun e => d.inSlice it e))) d).collDone it g
              else d.collRun ring index fuel
            | none, _ => d
        else match it.collStages[g.stage]? with
          | some st =>
            if d.dimSize st.2 ≤ g.step + 1 then
              let d := d.modColl it (fun g => { g with stage := g.stage + 1, step := 0, got := [] })
              match d.coll? it, it.collStages[g.stage + 1]? with
              | some g, some st => (d.collSendStep it g st 0).collRun ring index fuel
              | _, _ => d.collRun ring index fuel
            else
              let c := (d.collSteps st g.step).2
              let es := d.collChunk it st.2 c
              if es.length ≤ g.got.length then
                let d := d.collTake it g st es
                match d.coll? it with
                | some g => (d.collSendStep it g st g.step).collRun ring index fuel
                | none => d
              else match d.takeData it st.2 c g.step st.1 with
                | some (d, vs) => (d.modColl it (fun g => { g with got := g.got ++ vs, since := d.now })).collRun ring index fuel
                | none => d
          | none =>
            match it.collOp, d.bcastFrom it with
            | 3, some k =>
              let es := (List.range it.collN).filter (fun e => d.inSlice it e)
              if es.length ≤ g.got.length then
                let vals := es.zip g.got
                let d := d.modColl it (fun g => { g with vals := vals })
                match d.coll? it with
                | some g => ((d.bcastTo it).foldl (fun d k => d.sendElems it g k 0 0 true es) d).collDone it g
                | none => d
              else match d.takeData it k 0 0 true with
                | some (d, vs) => (d.modColl it (fun g => { g with got := g.got ++ vs, since := d.now })).collRun ring index fuel
                | none => d
            | _, _ => d.collDone it g

/-- Steps enough for everything a slice can do at once. -/
def Dev.collFuel (d : Dev) (it : Item) : Nat := 64 * (it.collN + d.collIn.length) + 1024

/-- Run an item's collective. -/
def Dev.collGo (d : Dev) (it : Item) : Dev := d.collRun it.ring it.index (d.collFuel it)

/-- Another item of the group is at work (14 R559). -/
def Dev.groupBusy (d : Dev) (it : Item) : Bool :=
  d.items.any (fun o => o.typ == tCollective && o.connOf == it.connOf && o.started && !(o.ring == it.ring && o.index == it.index) &&
    decide (o.order < it.order))

/-- Begin or continue a released COLLECTIVE slice: the syncs go out with the first (14 R558, R559). -/
def Dev.collSlice (d : Dev) (ring index op : Nat) : Dev :=
  d.onItem ring index (fun it => it.typ == tCollective && it.collOp == op) fun it =>
    if (d.conn it.connOf).state ≠ 2 then d.finishAt ring index 0x17 it.pos
    else match d.coll? it with
      | some _ => d.collGo it
      | none =>
        if d.groupBusy it then d
        else
          let d : Dev := { d with colls := d.colls ++ [{ ring := ring, index := index, since := d.now }] }
          ((d.nbs it).foldl (fun d nb => d.sendNb it.connOf nb (it.syncBody false it.collN)) d).collGo it

/-- ALL_REDUCE (14 R556). -/
def execAllReduce (ring index : Nat) (s : State) : Out := actUp s fun d => d.collSlice ring index 0
/-- REDUCE_SCATTER (14 R556). -/
def execReduceScatter (ring index : Nat) (s : State) : Out := actUp s fun d => d.collSlice ring index 1
/-- ALL_GATHER (14 R556). -/
def execAllGather (ring index : Nat) (s : State) : Out := actUp s fun d => d.collSlice ring index 2
/-- BROADCAST (14 R556). -/
def execBroadcast (ring index : Nat) (s : State) : Out := actUp s fun d => d.collSlice ring index 3

/-- A collective message arrives in sequence from a neighbour: it is acknowledged, kept, and its
collective moves on (14 R548, R558). -/
def Dev.collMessage (d : Dev) (port : Nat) (m : LinkMsg) : Dev :=
  d.onMessage port m fun d =>
    let c := m.conn
    match d.nbKeyOf c m.src, (d.conn c).state == 2 && cwGroup (d.cw0 c) with
    | some key, true =>
      let x := d.conn key
      let ack := fun (d : Dev) (u : Nat) => (d.inject (plainMsg m.src c m.seq (.ack u 0 0))).1
      if m.seq ≠ x.rxSeq then (if seqBefore m.seq x.rxSeq then ack d x.rxSeq else d)
      else
        let n := (m.seq + 1) % 2 ^ 32
        let d := ack (d.modConn key (fun x => { x with rxSeq := n })) n
        let d : Dev := { d with collIn := d.collIn ++ [m] }
        match d.items.find? (fun it => it.typ == tCollective && some it.collId == msgColl m.body && (d.coll? it).isSome) with
        | some it => d.collGo it
        | none => d
    | _, _ => d

/-- COLL_DATA (14 R557). -/
def execCollData (port : Nat) (msg : LinkMsg) (s : State) : Out :=
  actUp s fun d => match msg.body with
    | .collData _ _ _ _ _ _ _ => d.collMessage port msg
    | _ => d

/-- COLL_SYNC (14 R558). -/
def execCollSync (port : Nat) (msg : LinkMsg) (s : State) : Out :=
  actUp s fun d => match msg.body with
    | .collSync _ _ _ _ _ _ _ _ => d.collMessage port msg
    | _ => d

/-- COLL_TIMEOUT (14 R558): a participant that has waited COLL_TIMEOUT_MS aborts with FAIL_LINK. -/
def execCollTimeout (ring index : Nat) (s : State) : Out :=
  actUp s fun d => d.onItem ring index (fun it => it.typ == tCollective) fun it =>
    match d.coll? it with
    | some g =>
      if g.since + d.get F.hawConnCfg_COLL_TIMEOUT_MS * 1000000 ≤ d.now then (d.note 0x4031 0).collFail it 0x17 true else d
    | none => d

/-- ACK (14 R548, R552): of a connection, or of a group's neighbour. -/
def execAck (port : Nat) (msg : LinkMsg) (s : State) : Out :=
  actUp s fun d => match msg.body with
    | .ack upTo code va => d.onMessage port msg fun d =>
      let c := msg.conn
      if (d.conn c).state ≠ 2 then d
      else if cwGroup (d.cw0 c) then
        match d.nbKeyOf c msg.src with
        | some key => ((d.acknowledge key upTo).1).pumpKey key c 64
        | none => d
      else if cwNode (d.cw0 c) = msg.src then d.pointAck c upTo code va
      else d
    | _ => d

end Sys2Proof.Machine
end

