-- ==== Sys2Proof/Machine/Aia.lean ====
section
/-! DEFINITION. The interrupt units of the host die (13 R486, R489, R492): the interrupt files of the harts,
1,023 identities each, and the APLIC with an M and an S domain and 64 sources. The rules name the units and
their addresses; their registers are those of the RISC-V Advanced Interrupt Architecture, which 13 does not
restate (PRESUMED, log entry 30). -/
namespace Sys2Proof.Machine

/-! ### Interrupt files -/

/-- An address lies in an IMSIC file (13 R489). -/
def inImsic (pa : Nat) : Bool :=
  decide (0x20000000000 ≤ pa ∧ pa < 0x20000000000 + 96 * 0x1000) ||
  decide (0x20010000000 ≤ pa ∧ pa < 0x20010000000 + 96 * 0x8000)

/-- The file of an address: 0 to 95 the M files, then eight a hart, its S file and its guests' (13 R489). -/
def imsicFile (pa : Nat) : Nat :=
  if pa < 0x20010000000 then (pa - 0x20000000000) / 0x1000 else 96 + (pa - 0x20010000000) / 0x1000

/-- A message-signalled interrupt reaches the host spaces: at the first word of a file, the identity it names
is pending there. -/
def Dev.hostMsi (d : Dev) (pa v : Nat) : Dev :=
  let e := (imsicFile pa, v)
  let new := inImsic pa && pa % 4096 = 0 && decide (1 ≤ v ∧ v ≤ 1023) && !d.host.irqs.contains e
  { d with host := { d.host with
      msis := d.host.msis ++ [(pa, v)], irqs := if new then d.host.irqs ++ [e] else d.host.irqs } }

/-- A unit of the host die sends an MSI; a write that its place refuses is lost. -/
def Dev.unitMsi (d : Dev) (a v : Nat) : Dev :=
  if space a = .host then d.hostMsi a v
  else match d.hubWrite a (leBytes 4 v) with
    | .ok d => d
    | .error _ => d

/-! ### The APLIC -/

/-- Base of the APLIC; its S domain is 0x4000 above (13 R489). -/
def aplicBase : Nat := 0x20020000000
/-- An address lies in the APLIC. -/
def inAplic (pa : Nat) : Bool := decide (aplicBase ≤ pa ∧ pa < aplicBase + 0x8000)

/-- A word that a domain (0 M, 1 S) keeps, by its offset. -/
def Dev.apWord (d : Dev) (m off : Nat) : Nat := (tget 0 d.host.aplic (m * 0x1000 + off / 4)).toNat
/-- Set a word that a domain keeps. -/
def Dev.setAp (d : Dev) (m off v : Nat) : Dev :=
  { d with host := { d.host with aplic := tset 0 d.host.aplic (m * 0x1000 + off / 4) (BitVec.ofNat 32 v) } }

/-- sourcecfg of a source; the S domain has only the sources that the M domain delegates. -/
def Dev.apSource (d : Dev) (m i : Nat) : Nat :=
  if m = 1 && !bit (d.apWord 0 (4 * i)) 10 then 0 else d.apWord m (4 * i)
/-- A source is active in a domain. -/
def Dev.apActive (d : Dev) (m i : Nat) : Bool :=
  decide (1 ≤ i ∧ i ≤ 64) && !bit (d.apSource m i) 10 && d.apSource m i % 8 != 0

/-- A bit of a source: `at_` 0x1C00 pending, 0x1E00 enabled. -/
def Dev.apBit (d : Dev) (m at_ i : Nat) : Bool := bit (d.apWord m (at_ + i / 32 * 4)) (i % 32)
/-- Set or clear a bit of a source that is active; a level-sensitive source, whose wire is not driven, cannot
be made pending. -/
def Dev.apPut (d : Dev) (m at_ i : Nat) (on : Bool) : Dev :=
  if !d.apActive m i || (at_ == 0x1C00 && on && decide (6 ≤ d.apSource m i % 8)) then d
  else d.setAp m (at_ + i / 32 * 4) (setBits (d.apWord m (at_ + i / 32 * 4)) (i % 32) (i % 32) (b2n on))

/-- The address of an MSI of a domain to a hart, or in the S domain to one of its guests. -/
def Dev.apAddr (d : Dev) (m hart guest : Nat) : Nat :=
  let mh := d.apWord 0 0x1BC4
  let lo := d.apWord 0 (if m = 0 then 0x1BC0 else 0x1BC8)
  let hi := if m = 0 then mh else d.apWord 0 0x1BCC
  let w := bits mh 15 12
  let g := hart / 2 ^ w % 2 ^ bits mh 18 16
  let h := hart % 2 ^ w
  ((lo + hi % 2 ^ 12 * 2 ^ 32) ||| (g * 2 ^ (bits mh 28 24 + 12)) ||| (h * 2 ^ bits hi 22 20) ||| (if m = 0 then 0 else guest)) * 4096

/-- The MSIs of the sources that are pending and enabled are sent while the domain's IE is set; they are then
no longer pending. -/
def Dev.apForward (d : Dev) (m : Nat) : Dev :=
  if !bit (d.apWord m 0) 8 then d else
  (rangeFrom 1 64).foldl (fun d i =>
    if d.apActive m i && d.apBit m 0x1C00 i && d.apBit m 0x1E00 i then
      let t := d.apWord m (0x3000 + 4 * i)
      (d.apPut m 0x1C00 i false).unitMsi (d.apAddr m (bits t 31 18) (bits t 17 12)) (bits t 10 0)
    else d) d

/-- Set or clear the bits of a whole word of sources. -/
def Dev.apWordPut (d : Dev) (m at_ k v : Nat) (on : Bool) : Dev :=
  (List.range 32).foldl (fun d j => if bit v j then d.apPut m at_ (32 * k + j) on else d) d

/-- sourcecfg is written: delegation in the M domain only, and a mode that exists; a source that is no longer
active is neither pending nor enabled. -/
def Dev.apConfigure (d : Dev) (m i v : Nat) : Dev :=
  let clear (d : Dev) (m : Nat) : Dev := (d.apPut m 0x1C00 i false).apPut m 0x1E00 i false
  let mode := v % 8
  if m = 1 && !bit (d.apWord 0 (4 * i)) 10 then d
  else if bit v 10 then (if m = 0 then (clear d 0).setAp 0 (4 * i) (2 ^ 10) else (clear d 1).setAp 1 (4 * i) 0)
  else
    let d := if m = 0 && bit (d.apWord 0 (4 * i)) 10 then (clear d 1).setAp 1 (4 * i) 0 else d
    let mode := if mode = 2 || mode = 3 then 0 else mode
    (if mode = 0 then clear d m else d).setAp m (4 * i) mode

/-- A word is stored in a domain. -/
def Dev.apStore (d : Dev) (m off v : Nat) : Dev :=
  let locked := bit (d.apWord 0 0x1BC4) 31
  let d :=
    if off = 0 then d.setAp m 0 (2 ^ 8 * b2n (bit v 8))
    else if off ≤ 0x100 then d.apConfigure m (off / 4) v
    else if off = 0x1BC0 || off = 0x1BC8 then (if m = 0 && !locked then d.setAp 0 off v else d)
    else if off = 0x1BC4 then (if m = 0 && !locked then d.setAp 0 off (v &&& 0x9F77FFFF) else d)
    else if off = 0x1BCC then (if m = 0 && !locked then d.setAp 0 off (v &&& 0x700FFF) else d)
    else if 0x1C00 ≤ off ∧ off < 0x1C0C then d.apWordPut m 0x1C00 ((off - 0x1C00) / 4) v true
    else if off = 0x1CDC || off = 0x2000 then d.apPut m 0x1C00 v true
    else if 0x1D00 ≤ off ∧ off < 0x1D0C then d.apWordPut m 0x1C00 ((off - 0x1D00) / 4) v false
    else if off = 0x1DDC then d.apPut m 0x1C00 v false
    else if 0x1E00 ≤ off ∧ off < 0x1E0C then d.apWordPut m 0x1E00 ((off - 0x1E00) / 4) v true
    else if off = 0x1EDC then d.apPut m 0x1E00 v true
    else if 0x1F00 ≤ off ∧ off < 0x1F0C then d.apWordPut m 0x1E00 ((off - 0x1F00) / 4) v false
    else if off = 0x1FDC then d.apPut m 0x1E00 v false
    else if off = 0x3000 then d.unitMsi (d.apAddr m (bits v 31 18) 0) (bits v 10 0)
    else if 0x3004 ≤ off ∧ off ≤ 0x3100 then
      (if d.apActive m ((off - 0x3000) / 4) then d.setAp m off (v &&& (if m = 0 then 0xFFFC07FF else 0xFFFFF7FF)) else d)
    else d
  d.apForward m

/-- The word that a load from a domain reads. -/
def Dev.apLoad (d : Dev) (m off : Nat) : Nat :=
  if off = 0 then 0x80000004 + d.apWord m 0
  else if off ≤ 0x100 then d.apSource m (off / 4)
  else if 0x1BC0 ≤ off ∧ off < 0x1BD0 then (if m = 0 then d.apWord 0 off else 0)
  else if (0x1C00 ≤ off ∧ off < 0x1C0C) || (0x1E00 ≤ off ∧ off < 0x1E0C) then d.apWord m off
  else if 0x3004 ≤ off ∧ off ≤ 0x3100 then d.apWord m off
  else 0

/-- A hart stores in the APLIC: 4 aligned bytes; any other size changes nothing. -/
def Dev.aplicStore (d : Dev) (off size v : Nat) : Dev :=
  if size = 4 && off % 4 = 0 then d.apStore (off / 0x4000) (off % 0x4000) (v % 2 ^ 32) else d

/-- A hart loads from the APLIC. -/
def Dev.aplicLoad (d : Dev) (off size : Nat) : List Byte :=
  let w := fun (o : Nat) => d.apLoad (o / 0x4000) (o % 0x4000)
  ((leBytes 4 (w (off / 8 * 8)) ++ leBytes 4 (w (off / 8 * 8 + 4))).drop (off % 8)).take size

end Sys2Proof.Machine
end

