-- ==== Sys2Proof/Machine/Iommu.lean ====
section
/-! DEFINITION. The IOMMU of the four root ports (13 R487, R489): its registers, the device directory, the
single-stage and two-stage walks, MSI page tables, the fault queue and the command queue. The rule names the
units and the modes; their layout is that of the RISC-V IOMMU standard, which 13 does not restate
(PRESUMED, log entry 30). -/
namespace Sys2Proof.Machine

/-! ### Registers (13 R489; log entry 30) -/

/-- Base of the register window. -/
def iommuBase : Nat := 0x20021000000
/-- An address lies in the register window. -/
def inIommu (pa : Nat) : Bool := decide (iommuBase ≤ pa ∧ pa < iommuBase + 0x10000)

/-- capabilities: Sv39, Sv48, Sv57 and their x4 forms, MSI page tables, interrupts as MSIs; neither ATS nor
process directories. -/
def iommuCaps : Nat := 0x10 + 7 * 2 ^ 9 + 7 * 2 ^ 17 + 2 ^ 22 + 43 * 2 ^ 32

/-- The 32-bit word of a register offset. -/
def Dev.ioWord (d : Dev) (off : Nat) : Nat :=
  if off = 0 then iommuCaps % 2 ^ 32 else if off = 4 then iommuCaps / 2 ^ 32
  else (tget 0 d.host.iommu (off / 4)).toNat
/-- A 64-bit register. -/
def Dev.ioReg (d : Dev) (off : Nat) : Nat := d.ioWord off + d.ioWord (off + 4) * 2 ^ 32
/-- Set the word of a register offset. -/
def Dev.setIo (d : Dev) (off v : Nat) : Dev :=
  { d with host := { d.host with iommu := tset 0 d.host.iommu (off / 4) (BitVec.ofNat 32 v) } }

/-- Bits of a word that a store sets: ddtp, cqb, cqt, fqb, fqh, the enables, icvec and the MSI table. -/
def ioWritable (off : Nat) : Nat :=
  if off = 16 then 0xFFFFFC0F else if off = 24 || off = 40 then 0xFFFFFC1F
  else if off = 20 || off = 28 || off = 44 then 0x3FFFFF
  else if off = 36 || off = 48 then 0xFFFFFFFF
  else if off = 72 || off = 76 then 3
  else if off = 760 then 0xFF
  else if 768 ≤ off ∧ off < 1024 then
    (if off % 16 = 0 then 0xFFFFFFFC else if off % 16 = 4 then 0xFFFFFF else if off % 16 = 8 then 0xFFFFFFFF else 1)
  else 0
/-- Bits of a word that a store of 1 clears. -/
def ioClears (off : Nat) : Nat := if off = 72 then 0xF00 else if off = 76 then 0x300 else if off = 84 then 3 else 0

/-- Entries of the command queue, or of the fault queue. -/
def Dev.ioEntries (d : Dev) (base : Nat) : Nat := 2 ^ (d.ioWord base % 32 + 1)
/-- Byte address of a queue or of the device directory. -/
def ioPage (v : Nat) : Nat := bits v 53 10 * 4096

/-! ### Interrupts -/

/-- The MSI of a vector, unless it is masked. -/
def Dev.ioVector (d : Dev) (v : Nat) : Dev :=
  let a := d.ioReg (768 + 16 * v) % 2 ^ 56
  let x := d.ioWord (776 + 16 * v)
  if bit (d.ioWord (780 + 16 * v)) 0 then d
  else d.unitMsi a x

/-- ipsr bit i, 0 command queue and 1 fault queue, becomes pending. -/
def Dev.ioPend (d : Dev) (i : Nat) : Dev :=
  if bit (d.ioWord 84) i then d
  else (d.setIo 84 (setBits (d.ioWord 84) i i 1)).ioVector (bits (d.ioWord 760) (4 * i + 3) (4 * i))

/-- A condition bit of cqcsr (i = 0) or fqcsr (i = 1) is set, with its interrupt where that is enabled. -/
def Dev.ioRaise (d : Dev) (i b : Nat) : Dev :=
  let off := 72 + 4 * i
  let d := d.setIo off (setBits (d.ioWord off) b b 1)
  if bit (d.ioWord off) 1 then d.ioPend i else d

/-! ### Translation -/

/-- Why a request is not translated: the cause, the guest address of a guest page fault, and whether it is
reported. -/
structure IoFault where
  cause : Nat
  gpa : Nat := 0
  silent : Bool := false
  deriving DecidableEq, Repr, Inhabited

/-- A translation in progress. -/
abbrev IoM := ExceptT IoFault (StateM Dev)

/-- Run a translation: the device it leaves and its result. -/
def IoM.go {α : Type} (m : IoM α) (d : Dev) : Dev × Except IoFault α :=
  let r := m.run.run d
  (r.2, r.1)

/-- End a translation. -/
def ioFail {α : Type} (cause : Nat) (gpa : Nat := 0) : IoM α := throw { cause := cause, gpa := gpa }

/-- Read a table entry, coherently with host caches; the cause is of a refused read. -/
def ioRead (pa len cause : Nat) : IoM Nat :=
  ExceptT.mk (fun d =>
    let d := if space pa = .pool then d.look pa len else d
    match d.hubRead pa len with
    | .ok bs => (.ok (leNat bs), d)
    | .error _ => (.error { cause := cause }, d))

/-- The device as it stands. -/
def ioDev : IoM Dev := ExceptT.mk (fun d => (.ok d, d))

/-- Cause of a page fault, of a guest page fault and of a refused entry read, for a read or a write. -/
def ioPageCause (guest write : Bool) : Nat := if guest then (if write then 23 else 21) else if write then 15 else 13
def ioReadCause (write : Bool) : Nat := if write then 7 else 5

/-- Levels of a translation mode: 8 Sv39, 9 Sv48, 10 Sv57, and their x4 forms. -/
def ioLevels (mode : Nat) : Nat := mode - 5

/-- The page table entry allows a request: its user page, readable or writable as asked, accessed and, for a
write, dirty. -/
def ioAllows (pte : Nat) (write : Bool) : Bool :=
  bit pte 4 && bit pte 6 && (if write then bit pte 2 && bit pte 7 else bit pte 1)

/-- The page a leaf at a level maps an address to; none where the leaf is misaligned. -/
def ioLeaf (pte va level : Nat) : Option Nat :=
  let ppn := bits pte 53 10
  let size := 2 ^ (12 + 9 * level)
  if bit pte 63 then
    if level = 0 && ppn % 16 = 8 then some (ppn / 16 * 65536 + va % 65536) else none
  else if ppn % 2 ^ (9 * level) ≠ 0 then none
  else some (ppn * 4096 + va % size)

/-- Walk a page table from a level down: `entry` gives the place of an entry, translated for a guest's
tables, and `top` the number of entries of the first table. -/
def ioWalk (entry : Nat → IoM Nat) (guest write : Bool) (gpa va : Nat) : Nat → Nat → Nat → IoM Nat
  | 0, _, _ => ioFail (ioPageCause guest write) gpa
  | n + 1, top, table => do
    let pa ← entry (table + va / 2 ^ (12 + 9 * n) % top * 8)
    let pte ← ioRead pa 8 (ioReadCause write)
    let no : IoM Nat := ioFail (ioPageCause guest write) gpa
    if !bit pte 0 || (!bit pte 1 && bit pte 2) || bits pte 62 54 ≠ 0 then no
    else if bit pte 1 || bit pte 3 then
      if !ioAllows pte write then no
      else match ioLeaf pte va n with
        | some a => pure a
        | none => no
    else if bit pte 4 || bit pte 6 || bit pte 7 || bit pte 63 then no
    else ioWalk entry guest write gpa va n 512 (bits pte 53 10 * 4096)

/-- Second stage: a guest address under iohgatp; `implicit` for an access to a guest's table. -/
def ioSecond (hgatp gpa : Nat) (write implicit : Bool) : IoM Nat :=
  let mode := bits hgatp 63 60
  let n := ioLevels mode
  let kind := if implicit then 1 else 0
  if mode = 0 then pure gpa
  else if 2 ^ (14 + 9 * n) ≤ gpa then ioFail (ioPageCause true write) (gpa / 4 * 4 + kind)
  else ioWalk pure true (write && !implicit) (gpa / 4 * 4 + kind) gpa n 2048 (hgatp % 2 ^ 44 * 4096)

/-- First stage: an I/O address under iosatp. -/
def ioFirst (fsc hgatp va : Nat) (write : Bool) : IoM Nat :=
  let mode := bits fsc 63 60
  let n := ioLevels mode
  let high := va / 2 ^ (11 + 9 * n)
  if mode = 0 then pure va
  else if high ≠ 0 && high ≠ 2 ^ (53 - 9 * n) - 1 then ioFail (ioPageCause false write)
  else ioWalk (fun a => ioSecond hgatp a false true) false write 0 va n 512 (fsc % 2 ^ 44 * 4096)

/-- A device context: tc, iohgatp, fsc, msiptp and the MSI address mask and pattern. -/
structure IoCtx where
  tc : Nat
  hgatp : Nat
  fsc : Nat
  msiptp : Nat
  mask : Nat
  pattern : Nat
  deriving DecidableEq, Repr, Inhabited

/-- The table of the device directory at the last level, from a level down. -/
def ioDirectory (dev : Nat) : Nat → Nat → IoM Nat
  | 0, table => pure table
  | n + 1, table => do
    let i := if n = 0 then bits dev 14 6 else bits dev 23 15
    let e ← ioRead (table + i * 8) 8 257
    if !bit e 0 then ioFail 258
    else if bits e 9 1 ≠ 0 || bits e 63 54 ≠ 0 then ioFail 259
    else ioDirectory dev n (ioPage e)

/-- The directory's modes of a stage. -/
def ioModeOk (v : Nat) : Bool := [0, 8, 9, 10].contains (bits v 63 60)

/-- The context of a device, for `n` levels of directory. -/
def ioContext (dev n : Nat) : IoM IoCtx := do
  let d ← ioDev
  if 2 ^ (9 * n - 3) ≤ dev then ioFail 260 else
  let table ← ioDirectory dev (n - 1) (ioPage (d.ioReg 16))
  let at_ := table + bits dev 5 0 * 64
  let w ← ioRead at_ 64 257
  let word := fun (i : Nat) => w / 2 ^ (64 * i) % 2 ^ 64
  let c : IoCtx := { tc := word 0, hgatp := word 1, fsc := word 3, msiptp := word 4, mask := word 5, pattern := word 6 }
  if !bit c.tc 0 then ioFail 258
  else if bits c.tc 3 1 ≠ 0 || bits c.tc 23 5 ≠ 0 || bits c.tc 63 32 ≠ 0 then ioFail 259
  else if !ioModeOk c.hgatp || (bits c.hgatp 63 60 ≠ 0 && c.hgatp % 4 ≠ 0) then ioFail 259
  else if !ioModeOk c.fsc || bits c.fsc 59 44 ≠ 0 then ioFail 259
  else if 1 < bits c.msiptp 63 60 || bits c.msiptp 59 44 ≠ 0 then ioFail 259
  else pure c

/-- The bits of a page number that a mask selects, packed together. -/
def ioExtract (v mask : Nat) : Nat :=
  (((List.range 52).filter (bit mask)).zipIdx).foldl (fun acc e => acc + b2n (bit v e.1) * 2 ^ e.2) 0

/-- A guest address names a virtual interrupt file. -/
def IoCtx.isMsi (c : IoCtx) (gpa : Nat) : Bool :=
  bits c.msiptp 63 60 = 1 && (List.range 52).all (fun i => bit c.mask i || bit (gpa / 4096) i == bit c.pattern i)

/-- Translate through the MSI page table. -/
def IoCtx.msi (c : IoCtx) (gpa : Nat) : IoM Nat := do
  let e ← ioRead (c.msiptp % 2 ^ 44 * 4096 + ioExtract (gpa / 4096) c.mask * 16) 16 261
  if !bit e 0 then ioFail 262
  else if bits e 2 1 ≠ 3 || bits e 9 3 ≠ 0 || bits e 127 54 ≠ 0 then ioFail 263
  else pure (bits e 53 10 * 4096 + gpa % 4096)

/-- Translate an untranslated request of a device (13 R487). -/
def ioTranslate (dev iova : Nat) (write : Bool) : IoM Nat := do
  let d ← ioDev
  let mode := d.ioWord 16 % 16
  if mode = 0 then ioFail 256
  else if mode = 1 then pure iova
  else
    let c ← ioContext dev (mode - 1)
    let quiet := fun (e : IoFault) => if bit c.tc 4 && 259 < e.cause then { e with silent := true }
      else if bit c.tc 4 && e.cause < 256 then { e with silent := true } else e
    tryCatch (do
      let gpa ← ioFirst c.fsc c.hgatp iova write
      if c.isMsi gpa then c.msi gpa else ioSecond c.hgatp gpa write false) (fun e => throw (quiet e))

/-! ### The fault queue -/

/-- A fault record: cause, request type, device, address and guest address. -/
def ioRecord (dev iova : Nat) (write : Bool) (e : IoFault) : List Byte :=
  wordsBytes [e.cause + (if write then 3 else 2) * 2 ^ 34 + dev * 2 ^ 40, 0, iova, e.gpa]

/-- Put a record in the fault queue while it is on and has not failed. -/
def Dev.ioFault (d : Dev) (dev iova : Nat) (write : Bool) (e : IoFault) : Dev :=
  let n := d.ioEntries 40
  let t := d.ioWord 52 % n
  if e.silent || !bit (d.ioWord 76) 16 || bits (d.ioWord 76) 9 8 ≠ 0 then d
  else if (t + 1) % n = d.ioWord 48 % n then d.ioRaise 1 9
  else match d.hubWrite (ioPage (d.ioReg 40) + 32 * t) (ioRecord dev iova write e) with
    | .ok d =>
      let d := d.setIo 52 ((t + 1) % n)
      if bit (d.ioWord 76) 1 then d.ioPend 1 else d
    | .error _ => d.ioRaise 1 8

/-! ### The command queue -/

/-- Carry out a command. IOTINVAL and IODIR have nothing to invalidate, since no entry is kept (log entry
30); IOFENCE.C finds every earlier request done and writes its data. None: the command is illegal. -/
def Dev.ioCommand (d : Dev) (w : Nat) : Option (Except Unit Dev) :=
  let op := w % 128
  let f := bits w 9 7
  if (op = 1 || op = 3) && f < 2 then some (.ok d)
  else if op = 2 && f = 0 && !bit w 11 then
    if bit w 10 then
      match d.hubWrite (bits w 125 64 * 4) (leBytes 4 (bits w 63 32)) with
      | .ok d => some (.ok d)
      | .error _ => some (.error ())
    else some (.ok d)
  else none

/-- Take commands from the queue until it is empty, off or has failed. -/
def Dev.ioCommands : Nat → Dev → Dev
  | 0, d => d
  | fuel + 1, d =>
    let n := d.ioEntries 24
    let h := d.ioWord 32 % n
    if !bit (d.ioWord 72) 16 || bits (d.ioWord 72) 10 8 ≠ 0 || h = d.ioWord 36 % n then d
    else match (ioRead (ioPage (d.ioReg 24) + 16 * h) 16 0).go d with
      | (d, .error _) => d.ioRaise 0 8
      | (d, .ok w) => match d.ioCommand w with
        | none => d.ioRaise 0 10
        | some (.error _) => d.ioRaise 0 8
        | some (.ok d) => Dev.ioCommands fuel (d.setIo 32 ((h + 1) % n))

/-! ### Accesses to the registers -/

/-- A queue is switched on or off: its index and its error bits are 0 again when it comes on. -/
def Dev.ioSwitch (d : Dev) (i : Nat) : Dev :=
  let off := 72 + 4 * i
  let w := d.ioWord off
  if bit w 0 && !bit w 16 then (d.setIo off (setBits (setBits w 11 8 0) 16 16 1)).setIo (32 + 20 * i) 0
  else if !bit w 0 && bit w 16 then d.setIo off (setBits w 16 16 0)
  else d

/-- Store one word: the bits that may be set are, and the bits that 1 clears are cleared; a directory mode
that the unit lacks is not taken, and commands that now wait are carried out. A vector whose mask is lifted
sends the interrupt that waited. -/
def Dev.ioStore (d : Dev) (off v : Nat) : Dev :=
  let old := d.ioWord off
  let m := ioWritable off
  let v := if off = 16 && 4 < v % 16 then v - v % 16 + old % 16 else v
  let d := d.setIo off ((old &&& (2 ^ 32 - 1 - m - (v &&& ioClears off))) ||| (v &&& m))
  let d := if off = 72 then d.ioSwitch 0 else if off = 76 then d.ioSwitch 1 else d
  let d := if 768 ≤ off ∧ off < 1024 ∧ off % 16 = 12 ∧ bit old 0 ∧ !bit v 0 then
      [0, 1].foldl (fun d i =>
        if bit (d.ioWord 84) i && bits (d.ioWord 760) (4 * i + 3) (4 * i) == (off - 768) / 16 then d.ioVector ((off - 768) / 16)
        else d) d
    else d
  if off = 36 || off = 72 then d.ioCommands (d.ioEntries 24) else d

/-- A hart stores in the register window: 4 or 8 aligned bytes; any other size changes nothing. -/
def Dev.iommuStore (d : Dev) (off size v : Nat) : Dev :=
  if size = 4 && off % 4 = 0 then d.ioStore off (v % 2 ^ 32)
  else if size = 8 && off % 8 = 0 then (d.ioStore (off + 4) (v / 2 ^ 32 % 2 ^ 32)).ioStore off (v % 2 ^ 32)
  else d

/-- A hart loads from the register window. -/
def Dev.iommuLoad (d : Dev) (off size : Nat) : List Byte :=
  (leBytes 8 (d.ioReg (off / 8 * 8))).drop (off % 8) |>.take size

/-- Translate a request of a root port: its address, or none and its fault is queued. A device's number is
its port, as the segment, above its requester id (log entry 30). -/
def Dev.translateInbound (d : Dev) (port requester iova : Nat) (write : Bool) : Dev × Option Nat :=
  let dev := port % 4 * 2 ^ 16 + requester % 2 ^ 16
  match (ioTranslate dev iova write).go d with
  | (d, .ok pa) => (d, some pa)
  | (d, .error e) => (d.ioFault dev iova write e, none)

end Sys2Proof.Machine
end

