-- ==== Sys2Proof/Machine/Rings.lean ====
section
/-! DEFINITION. Ring pairs (11 R410 to R424): the bell line, the shadow line, fetching, the ring
states, enabling and disabling. -/
namespace Sys2Proof.Machine

/-- The phase that index `i` carries on a ring of 2^log slots (11 R413). -/
def phaseOf (i log : Nat) : Nat := (i / 2 ^ log + 1) % 2

/-- Bytes to words. -/
def bytesWords (n : Nat) (bs : List Byte) : List W64 :=
  (List.range n).map (fun i => BitVec.ofNat 64 (leNat ((bs.drop (8 * i)).take 8)))

/-- An access to a ring structure failed: its memory code, a record, and ERROR from ACTIVE or BELL_AHEAD
(03 R95, R135; 11 R422, R458). -/
def Dev.ringFault (d : Dev) (n index pa : Nat) (e : AccErr) : Dev :=
  let d := (d.logAcc e locHub).note 0x7103 0 [(2, n), (4, index), (8, pa)]
  let d := d.modRing n (fun r => { r with awake := false, failing := none })
  if d.ringState n = 1 || d.ringState n = 2 then d.setRing n 5 else d

/-- The words of the shadow line (11 R414). -/
def Dev.shadowWords (d : Dev) (n : Nat) : List Nat :=
  [(d.ring n).bellSeq * 2 ^ 32 + d.fi n, d.cqPi n, (d.ring n).ahead, 0, 0, 0, 0, 0]

/-- Write the shadow line as one whole line (11 R414, R420, R422). -/
def Dev.writeShadow (d : Dev) (n : Nat) : Dev :=
  let pa := d.ctrlBase n + 0x40
  match d.hubWrite pa (wordsBytes (d.shadowWords n)) with
  | .ok d => d
  | .error e => d.ringFault n 0 pa e

/-- What reading a slot and checking it gives (11 R417, R422). -/
inductive Slot where
  | ok (ws : List W64)
  | stale
  | failed (e : AccErr)
  deriving DecidableEq, Repr

/-- The address of the slot of an index. -/
def Dev.slotPa (d : Dev) (n i : Nat) : Nat := d.sqBase n + i % 2 ^ d.sqLog n * 64

/-- Read the slot of index `i` and check its sequence and phase (11 R417). -/
def Dev.readSlot (d : Dev) (n i : Nat) : Slot :=
  match d.hubRead (d.slotPa n i) 64 with
  | .error e => .failed e
  | .ok bs =>
    let ws := bytesWords 8 bs
    let w0 := (ws.getD 0 0).toNat
    if bits w0 23 16 = i % 256 && bits w0 24 24 = phaseOf i (d.sqLog n) then .ok ws else .stale

/-- Take a checked descriptor as an item, at the position where it begins, and advance FI (11 R417, R420,
R442). -/
def Dev.takeSlot (d : Dev) (n i : Nat) (ws : List W64) : Dev :=
  let it : Item := { ring := n, index := i, ctx := d.ringCtx n, words := ws }
  let it : Item := { it with pos := it.startPos }
  ({ d with items := d.items ++ [it] } : Dev).put F.hmRingIndex_FI (i + 1) n

/-- Fetch from FI while descriptors are published and completion slots are free, at most `fuel`
slots (11 R417, R419, R422). -/
def Dev.fetchLoop (d : Dev) (n : Nat) : Nat → Dev
  | 0 => d
  | fuel + 1 =>
    let i := d.fi n
    let r := d.ring n
    if i = r.pi || 2 ^ d.cqLog n ≤ (i + 2 ^ 32 - r.cqCi) % 2 ^ 32 then d
    else
    let d := d.look (d.slotPa n i) 64
    match d.readSlot n i with
      | .ok ws => (d.takeSlot n i ws).fetchLoop n fuel
      | .stale => d.modRing n (fun r => { r with failing := some d.now })
      | .failed e => d.ringFault n i (d.slotPa n i) e

/-- Published descriptors not yet fetched, per the bell line last read. -/
def Dev.published (d : Dev) (n : Nat) : Nat := ((d.ring n).pi + 2 ^ 32 - d.fi n) % 2 ^ 32

/-- A woken fetcher reads the bell line and fetches (11 R417, R418, R420, R422). -/
def Dev.fetch (d : Dev) (n : Nat) : Dev :=
  let d := (d.modRing n (fun r => { r with awake := false, failing := none })).look (d.ctrlBase n) 64
  match d.hubRead (d.ctrlBase n) 64 with
  | .error e => d.ringFault n 0 (d.ctrlBase n) e
  | .ok bs =>
    let w0 := leNat (bs.take 8)
    let w1 := leNat ((bs.drop 8).take 8)
    let pi := w0 % 2 ^ 32
    if 2 ^ d.sqLog n < (pi + 2 ^ 32 - d.fi n) % 2 ^ 32 then
      d.note 0x7102 0 [(2, n), (4, pi), (4, d.fi n)]
    else
      let d := d.modRing n (fun r => { r with bellSeq := w0 / 2 ^ 32, pi := pi, cqCi := w1 % 2 ^ 32 })
      (d.fetchLoop n (d.published n)).writeShadow n

/-- Fetching goes on: no reset is taking the device down, and the package is not in PKG_IDLE (17 R628,
R638). -/
def Dev.mayFetch (d : Dev) : Bool := d.reset.isNone && d.get F.mntPowerStatus_IN_PKG_IDLE == 0

/-- DESCRIPTOR_FETCH (11 R417): the woken fetcher of an ACTIVE ring. -/
def execDescriptorFetch (ring : Nat) (s : State) : Out :=
  actUp s fun d => if ring < 1024 && d.ringState ring = 1 && (d.ring ring).awake && d.mayFetch then d.fetch ring else d

/-- SLOT_RECHECK (11 R419): the slot at FI that failed its check is read again; after 2 µs the ring
enters BELL_AHEAD. -/
def execSlotRecheck (ring : Nat) (s : State) : Out :=
  actUp s fun d => if ring < 1024 && d.ringState ring = 1 && d.mayFetch then
    match (d.ring ring).failing with
    | none => d
    | some t0 =>
      let i := d.fi ring
      let d := d.look (d.slotPa ring i) 64
      match d.readSlot ring i with
      | .failed e => d.ringFault ring i (d.slotPa ring i) e
      | .ok _ => ((d.modRing ring (fun r => { r with failing := none })).fetchLoop ring (d.published ring)).writeShadow ring
      | .stale =>
        if t0 + 2000 ≤ d.now then
          let d := d.modRing ring (fun r => { r with failing := none, ahead := min 0xFFFFFFFF (r.ahead + 1) })
          let d := (d.addSat F.hmRingStatus_BELL_AHEAD_COUNT 1 ring).setRing ring 2
          (d.note 0x7101 0 [(2, ring), (4, i)]).writeShadow ring
        else d
  else d

/-- BELL_LINE_WAKE (11 R416, R419): a write to the watched line wakes the fetcher and takes the ring
out of BELL_AHEAD. -/
def execBellLineWake (ring : Nat) (s : State) : Out :=
  actUp s fun d => if (d.ring ring).bellHit then
    let d := d.modRing ring (fun r => { r with bellHit := false, awake := true, failing := none })
    if d.ringState ring = 2 then d.setRing ring 1 else d
  else d

/-- The bell monitor watches a ring's line from now on (11 R416). -/
def Dev.pin (d : Dev) (n : Nat) : Dev :=
  let d : Dev := { d with coh := { d.coh with
    pins := d.coh.pins.filter (fun p => p.2 != n) ++ [(d.ctrlBase n / 64, n)] } }
  d.put F.hmBellWatch_WATCHED d.coh.pins.length

/-- The bell monitor watches a ring's line no longer. -/
def Dev.unpin (d : Dev) (n : Nat) : Dev :=
  let d : Dev := { d with coh := { d.coh with pins := d.coh.pins.filter (fun p => p.2 != n) } }
  d.put F.hmBellWatch_WATCHED d.coh.pins.length

/-- A DRAINING ring without an unrecorded item is DISABLED (11 R423). -/
def Dev.drained (d : Dev) (n : Nat) : Dev :=
  if d.ringState n = 6 && !(d.items.any (fun it => it.ring == n)) then d.setRing n 0 else d

/-- The effect of ENABLE 1 on a DISABLED ring: indices and counts at 0, the fetcher woken
(11 R417, R423); no transit cache keeps a line of its structures (R411). -/
def Dev.enableRing (d : Dev) (n : Nat) : Dev :=
  let d := d.invalRanges (d.ringParts n)
  let d := d.setReg .hmRingIndex n 0
  let d := d.setReg .hmRingStatus n 0
  let d := d.modRing n (fun r => { awake := true, msiSent := r.msiSent, msiPending := r.msiPending })
  (d.setRing n 1).pin n

/-- A write of HM_RING_CFG_n (11 R423, R424, R457). -/
def Dev.writeRingCfg (d : Dev) (h n : Nat) (v : W64) : Dev :=
  let off := Reg.offset .hmRingCfg n
  let st := d.ringState n
  let w := v.toNat
  let s := bits w 20 16
  let c := bits w 28 24
  let keep := 2 ^ 63 * bits w 63 63 + bits w 39 32 * 2 ^ 32 + c * 2 ^ 24 + s * 2 ^ 16
  let changed := bits w 39 32 ≠ d.ringCtx n || s ≠ d.sqLog n || c ≠ d.cqLog n
  if s < 4 || 16 < s || c < 4 || 16 < c then d.refuse h off
  else if st ≠ 0 && changed then d.refuse h off
  else if bit w 63 then
    if st = 0 then ((d.setReg .hmRingCfg n (BitVec.ofNat 64 keep)).enableRing n).accepted
    else if st = 1 || st = 2 then d.accepted
    else d.refuse h off
  else
    let d := d.setReg .hmRingCfg n (BitVec.ofNat 64 keep)
    if st = 0 then d.accepted
    else (((d.setRing n 6).unpin n).drained n).accepted

/-- RING_ENABLE (11 R417, R423, R424): a hart writes HM_RING_CFG_n with ENABLE 1. -/
def execRingEnable (hart ring : Nat) (value : W64) (s : State) : Out :=
  actUp s fun d => if ring < 1024 && d.hartUp hart then d.writeRingCfg hart ring (value ||| 0x8000000000000000#64) else d

/-- RING_DISABLE (11 R423, R424): a hart writes HM_RING_CFG_n with ENABLE 0. -/
def execRingDisable (hart ring : Nat) (value : W64) (s : State) : Out :=
  actUp s fun d => if ring < 1024 && d.hartUp hart then d.writeRingCfg hart ring (value &&& 0x7FFFFFFFFFFFFFFF#64) else d

end Sys2Proof.Machine
end

