-- ==== Sys2Proof/Machine/Record.lean ====
section
/-! DEFINITION. Completion records (11 R441 to R447, R452), the interrupts they raise (11 R449, R450), and
the preserved-state record (13 R515), which marks interrupts of HELD rings. -/
namespace Sys2Proof.Machine

/-! ### The preserved-state record (13 R515) -/

/-- Word Pk. -/
def Dev.psr (d : Dev) (k : Nat) : Nat := (d.reg .mntPsr k).toNat

/-- The CRC of P0 to P62 in P63. -/
def Dev.sealPsr (d : Dev) : Dev :=
  let bs := (List.range 63).flatMap (fun k => leBytes 8 (d.psr k))
  d.setReg .mntPsr 63 (BitVec.ofNat 64 (crc32c bs).toNat)

/-- Set bits [hi:lo] of word Pk. -/
def Dev.setPsr (d : Dev) (k hi lo v : Nat) : Dev :=
  (d.setReg .mntPsr k (BitVec.ofNat 64 (setBits (d.psr k) hi lo v))).sealPsr

/-- VALID. -/
def Dev.psrValid (d : Dev) : Bool := bit (d.psr 0) 16

/-! ### Interrupts (11 R449, R450; 13 R514) -/

/-- Send a ring's MSI: a 32-bit write through the hub (11 R449). -/
def Dev.sendMsi (d : Dev) (n : Nat) : Dev :=
  let a := d.get F.hmRingMsiAddr_ADDR n * 4
  let v := d.get F.hmRingMsi_DATA n
  let d := d.modRing n (fun r => { r with msiSent := some (d.get F.tideCount_VALUE), msiPending := false })
  match space a with
  | .host => d.hostMsi a v
  | .unmapped => d.note 0x2040 locHub
  | .regs _ => d.note 0x2040 locHub
  | _ =>
    let d := d.meetWrite a 4
    match d.hubWrite a (leBytes 4 v) with
    | .ok d => d
    | .error e => d.logAcc e locHub

/-- An MSI of a ring has been sent in the moderation window that this tide lies in: windows begin at
multiples of MOD_TIDES (11 R450). -/
def Dev.msiSpent (d : Dev) (n : Nat) : Bool :=
  let m := d.get F.hmRingMsi_MOD_TIDES n
  let t := d.get F.tideCount_VALUE
  0 < m && (d.ring n).msiSent.any (fun k => decide (t / m * m ≤ k ∧ k ≤ t))

/-- A record raises its ring's interrupt: none with ADDR 0, pending while the ring is HELD, and until the
next window where this one's MSI is spent (11 R449, R450; 13 R514). -/
def Dev.raiseMsi (d : Dev) (n : Nat) : Dev :=
  if d.get F.hmRingMsiAddr_ADDR n = 0 then d.modRing n (fun r => { r with msiPending := false })
  else if d.ringState n = 3 then d.setPsr (20 + n / 64) (n % 64) (n % 64) 1
  else if d.msiSpent n then d.modRing n (fun r => { r with msiPending := true })
  else d.sendMsi n

/-- Interrupts that waited for a window are sent at its first tick (11 R450). -/
def Dev.msiTick (d : Dev) : Dev :=
  ((d.rings.filter (fun e => e.2.msiPending)).map (·.1)).foldl (fun d n =>
    if d.msiSpent n then d else (d.modRing n (fun r => { r with msiPending := false })).raiseMsi n) d

/-! ### Records (11 R442 to R447) -/

/-- DETAIL of a finished item (11 R444). -/
def Dev.recordDetail (d : Dev) (it : Item) : Nat :=
  if it.status = some 0 && !it.isLaunch then refCycles (d.now - it.relNs) else it.detail.toNat

/-- POSITION: 0 for types without positions (11 R442). -/
def Item.recordPos (it : Item) : Nat := if it.sliced then it.pos % 2 ^ 32 else 0

/-- The 32 bytes of a record at a record index. -/
def Dev.recordBytes (d : Dev) (it : Item) (j : Nat) : List Byte :=
  wordsBytes [it.index % 2 ^ 32 * 2 ^ 32 + it.tag,
    it.recordPos * 2 ^ 32 + phaseOf j (d.cqLog it.ring) * 2 ^ 16 + it.typ * 2 ^ 8 + it.status.getD 0 % 256,
    it.sat % 2 ^ 32 * 2 ^ 32 + it.flushed % 2 ^ 32, d.recordDetail it]

/-- A record that its slot refuses goes to the logbook (11 R447). -/
def Dev.lostRecord (d : Dev) (it : Item) : Dev :=
  let d := d.note 0x7104 0 [(2, it.ring), (4, it.tag), (4, it.index), (1, it.status.getD 0)]
  let st := d.ringState it.ring
  if st = 1 || st = 2 then d.setRing it.ring 5
  else if st = 3 then d.modRing it.ring (fun r => { r with lostHeld := true })
  else d

/-- Write the record of an item, in its ring or the logbook; the item is complete (11 R428, R441 to
R449). The second answer is true when the record is in its ring. -/
def Dev.writeRecord (d : Dev) (it : Item) : Dev × Bool :=
  let n := it.ring
  let j := d.cqPi n
  let held := d.ringState n = 3
  let irq := it.irq || (d.get F.hmRingMsi_ERR_IRQ n = 1 && it.status ≠ some 0 && it.status ≠ some 1)
  let r : Dev × Bool := match d.hubWrite (d.cqBase n + j % 2 ^ d.cqLog n * 32) (d.recordBytes it j) with
    | .ok d => (d.addWrap F.hmRecordCount_RECORDS 1, true)
    | .error _ => (d.lostRecord it, false)
  let d := r.1.put F.hmRingIndex_CQ_PI (j + 1) n
  let d : Dev := { d with
    items := d.items.filter (fun o => !(o.ring == n && o.index == it.index))
    closing := d.closing.filter (fun c => c != (n, it.index)) }
  let d := if it.typ = tCrane && it.assigned then (d.addSat F.dckCraneStatus_ITEMS 1 it.engine).craneIdle it else d
  let d := if it.typ = tMaint && it.started then d.note 0x9002 0 [(1, it.f 1 7 0), (1, it.status.getD 0)] else d
  let d := d.writeShadow n
  let d := if held then d.setPsr 3 63 32 (bits (d.psr 3) 63 32 + 1) else d
  let d := if irq then d.raiseMsi n else d
  let d := if it.typ = tRemote || it.typ = tCollective then d.connSettled it.connOf else d
  (d.drained n, r.2)

/-- RECORD_WRITE (11 R452): the record of a finished item. -/
def execRecordWrite (ring index : Nat) (s : State) : Out :=
  actUp s fun d => match d.item? ring index with
    | some it =>
      if it.phase == .finished && (d.launch? ring index).isNone then (d.writeRecord it).1 else d
    | none => d

end Sys2Proof.Machine
end

