-- ==== Sys2Proof/Machine/Boot.lean ====
section
/-! DEFINITION. What survives a reset (17 R639 to R641), and start-up (16 R593 to R607): the fuse load, the
identity sweep, the image, bring-up, halts and host release. -/
namespace Sys2Proof.Machine

/-! ### Survival (17 R639, R640) -/

/-- The register values that survive when only the listed fields do. -/
def Dev.keptRegs (d : Dev) (keep : List Fld) : Tbl W64 :=
  d.regs.foldl (fun t e => match Reg.at? e.1 with
    | none => t
    | some (r, i) =>
      let v := r.fields.foldl (fun x f =>
        if keep.contains f.fld then setBits x f.fld.hi f.fld.lo (bits e.2.toNat f.fld.hi f.fld.lo) else x) (r.resetVal i).toNat
      tset (r.resetVal i) t e.1 (BitVec.ofNat 64 v)) []

/-- Fields that a PKG_COLD keeps: the logbook's, those the BMC set, and the settings epoch. -/
def coldFields : List Fld :=
  [F.logStatus_FULL, F.logStatus_DROPPED, F.logStatus_COUNT,
   F.logVaultStatus_GENERATION, F.logVaultStatus_ERROR, F.logVaultStatus_SLOT, F.logVaultStatus_MIRRORED,
   F.lkpCap_BOARD_CAP_W, F.lkpCoolant_INLET_C, F.hawNode_ZM1, F.hawNode_YM1, F.hawNode_XM1, F.hawNode_NODE,
   F.mntLedgerArm_ARMED, F.pilDebug_EVER, F.mntSettingsEpoch_EPOCH, F.mntSettingsEpoch_LAST_CAUSE]

/-- Counters that a DEV_WARM keeps beside them. -/
def warmFields : List Fld := coldFields ++
  [F.devErrCount_COUNT, F.hmRecordCount_RECORDS, F.segWalkStatus_WALKS, F.segWalkStatus_INVALS,
   F.lkpDroop_STRETCHES, F.lkpDroop_DEFERRED, F.lkpDroop_ABANDONED, F.bwfDeniedCount_COUNT,
   F.mntPowerStatus_EXITS, F.mntHubWdt_EXPIRIES, F.mntHubWdt_LAST_CHANNEL, F.mntHostLinkStatus_DISPUTES,
   F.dckD2dStatus_DISPUTES, F.dckSpareStatus_RESULT] ++
  [F.dckWhStatus_CORRECTED, F.dckWhStatus_UNCORRECTABLE, F.dckWhStatus_ROWS_SPARED, F.dckWhStatus_ROWS_UNSPARED,
   F.dckCraneStatus_ITEMS, F.dckCraneStatus_FAULTS, F.hawPortCounts_LANE_FAULTS, F.hawPortCounts_RETRIES,
   F.hawPortCounts_DISCARDS, F.hawPortCounts_UNCORRECTED, F.hbmErrCount_CORRECTED, F.hbmErrCount_UNCORRECTABLE,
   F.hbmErrCount_ROWS_SPARED, F.hbmScrubCfg_PASSES, F.whfStatus_PARTS, F.whfStatus_FAULTS] ++
  [F.whfAtomicCount_OPS, F.cdWatchdogCount_LAST_BANK, F.cdWatchdogCount_LAST_LOCATOR, F.cdWatchdogCount_COUNT,
   F.cdGangStatus_SWAPS, F.cdGangStatus_SPLIT_FAULTS, F.cdGangStatus_AGED_ISSUES, F.cdTcStatus_PARITY_DIRTY,
   F.cdTcStatus_PARITY_CLEAN, F.cdTcStatus_LOCK_OVERFLOW]

/-- What a POR leaves: fuses, the flash with its vault and ledger copies, and which dies are bad. -/
def Dev.afterPor (d : Dev) : Dev :=
  { fresh := d.fresh, pins := d.pins, fuses := d.fuses
    pilot := { flash := d.pilot.flash, flashOut := d.pilot.flashOut, deadDies := d.pilot.deadDies }
    ledger := { copy0 := d.ledger.copy0, copy1 := d.ledger.copy1 } }

/-- What a PKG_COLD leaves: the always-on island and the board's values beside that. -/
def Dev.afterCold (d : Dev) : Dev :=
  let p := d.afterPor
  { p with
    resp := d.resp, now := d.now, log := d.log, jtag := d.jtag, regs := d.keptRegs coldFields
    pilot := { p.pilot with boardCap := d.pilot.boardCap }
    ledger := { p.ledger with armedAt := d.ledger.armedAt }
    power := { ageingLogged := d.power.ageingLogged } }

/-- The pool part of memory. -/
def Mem.poolOnly (m : Mem) : Mem :=
  { m with cells := m.cells.filter (fun c => decide (c.1 < 2 ^ 40)), poison := m.poison.filter (fun p => decide (p.1 < 2 ^ 40)) }

/-- What a DEV_WARM leaves: fuse values, counters, the repair ledger and the pool beside that; a fenced
stack stays fenced (03 R133). -/
def Dev.afterWarm (d : Dev) : Dev :=
  let c := d.afterCold
  let c : Dev := { c with
    regs := d.keptRegs warmFields
    mem := d.mem.poolOnly
    ledger := d.ledger
    hbmStacks := (d.hbmStacks.map (fun e => (e.1, ({ relocated := e.2.relocated } : Stack)))).filter (fun e => e.2 != .new)
    ctxs := (d.ctxs.map (fun e => (e.1, ({ kills := e.2.kills, misplaced := e.2.misplaced } : Ctx)))).filter (fun e => e.2 != .new)
    pilot := { c.pilot with fuseDigest := d.pilot.fuseDigest, spareTests := d.pilot.spareTests } }
  ((List.range 16).filter (fun s => d.get F.hbmStatus_STATE s == 3)).foldl (fun c s => c.put F.hbmStatus_STATE 3 s)
    (c.setReg .mntPoolLayout 0 (d.reg .mntPoolLayout))

/-! ### Phases and halts (16 R593, R605) -/

/-- A phase begins (16 R593, R594). -/
def Dev.beginPhase (d : Dev) (n : Nat) : Dev :=
  ((d.put F.pilBootProgress_PHASE n).put F.pilBootProgress_PERCENT 0).note 0x1001 0 [(1, n)]

/-- The phase in force. -/
def Dev.phase (d : Dev) : Nat := d.get F.pilBootProgress_PHASE

/-- Start-up stops (16 R605): the host die stays in reset and the flash is released. -/
def Dev.halt (d : Dev) (cause : Nat) : Dev :=
  let d := ((d.put F.pilBootProgress_PHASE 0xFF).put F.pilBootProgress_PERCENT 0).put F.pilStatus_HALT_CAUSE cause
  let d := d.note 0x1003 0 [(1, cause)]
  let d := (d.flag F.pilStatus_FLASH_RELEASED true).modPilot (fun p => { p with flashOut := true })
  ({ d with host := { d.host with running := false } } : Dev).raiseAlert

/-! ### P0: fuses (16 R594, 01 R29 to R37) -/

/-- Fuse fields of the identity and trust registers (16 R620, 18 R675). -/
def Dev.fuseIdentity (d : Dev) : Dev :=
  let f := d.fuses
  let n := (enabledDies f).length
  let d := ((d.put F.devId_MAJOR f.major).put F.devId_MINOR f.minor).put F.devSerialLo_SERIAL (leNat (fit 8 f.serial))
  let d := d.put F.devSerialHi_SERIAL (leNat (fit 8 (f.serial.drop 8)))
  let d := ((d.put F.devCapCompute_DIES_ENABLED n).put F.devCapCompute_DIES_FITTED 48).put F.devCapCompute_CLUSTERS (4 * n)
  let d := (d.put F.devCapCompute_TILES (32 * n)).put F.pilImage_SVN_MIN f.svnMin
  ((d.flag F.pilKeys_OWNER_ONLY f.ownerOnly).put F.pilKeys_SLOT0 (d.slotState 0)).put F.pilKeys_SLOT1 (d.slotState 1)

/-- The logical-to-physical map and each die's fuse values (01 R30, R36, R37; 15 R579). -/
def Dev.fuseDies (d : Dev) : Dev :=
  let f := d.fuses
  let d : Dev := { d with dieMap := (List.range 44).foldl (fun t ld => tset 48 t ld (dieServing f ld)) [] }
  (List.range 44).foldl (fun d ld =>
    let p := d.physDie ld
    let d := if p = 48 then d.put F.cdLocation_STATE 2 ld
      else ((d.put F.cdLocation_STATE 0 ld).put F.cdLocation_FMAX_STEP (f.fmaxStep.getD p 0) ld).put F.cdLocation_LOCATOR (locPhys p) ld
    (d.flag F.cdLocation_REPAIRED (f.repairs.any (fun r => r.1 == ld)) ld).put F.lkpDie_EFF_MAX (35 + f.fmaxStep.getD p 0) ld) d

/-- The spare of each deck (01 R29, R37); one that serves no longer is untested again. -/
def Dev.fuseSpares (d : Dev) : Dev :=
  (List.range 8).foldl (fun d k => match spareSite d.fuses k with
    | none => d
    | some i =>
      let d := (d.flag F.dckSpareStatus_PRESENT true k).put F.dckSpareStatus_SITE i k
      if inService d.fuses (6 * k + i) then d.put F.dckSpareStatus_RESULT 3 k
      else if d.get F.dckSpareStatus_RESULT k = 3 then d.put F.dckSpareStatus_RESULT 0 k else d) d

/-- Fuse values are applied. -/
def Dev.loadFuses (d : Dev) : Dev := (d.fuseIdentity.fuseDies).fuseSpares

/-- Start-up begins (16 R594): P0, or at DEV_WARM the rebuild of the map, and P1. -/
def Dev.startUp (d : Dev) (kind : Nat) : Dev :=
  let d := d.modPilot (fun p => { p with startKind := kind, startedAt := d.now })
  if kind = 2 then d.loadFuses.beginPhase 1
  else
    let d := d.beginPhase 0
    if !d.fuses.ok then d.halt 1
    else (d.loadFuses.modPilot (fun p => { p with fuseDigest := sha3 (Config.fuseMap d.fuses) })).beginPhase 1

/-- PKG_POR_N_DEASSERT (16 R594; 17 R649; 19 R690, R692): the timebase restarts at 0 and start-up begins,
unless a trip is latched. -/
def execPkgPorNDeassert (s : State) : Out :=
  act s fun d =>
    if !d.pins.por then d else
    let d : Dev := { d with pins := { d.pins with por := false }, now := 0 }
    if d.pins.thermtrip then d.stopClocks else d.startUp 0

/-- PKG_POR_N_ASSERT (19 R688, R690, R691): every unit is held in reset; the trip's latch and the alert are
released. -/
def execPkgPorNAssert (s : State) : Out :=
  act s fun d =>
    if d.pins.por then d else
    let d := d.afterPor
    { d with pins := { d.pins with por := true, thermtrip := false, alert := false } }

/-- LOSS_OF_POWER (17 R633, 19 R684): items get no records; power comes back with PKG_POR_N held low. -/
def execLossOfPower (s : State) : Out :=
  act s fun d =>
    let d := d.afterPor
    ({ d with pins := { d.pins with por := true, thermtrip := false, alert := false } } : Dev).modPilot
      (fun p => { p with flashOut := true })

/-! ### P1: the identity sweep (16 R596, R597) -/

/-- A step of the sweep: the device, and the cause of a halt. -/
abbrev Swept := Dev × Option Nat

/-- Go on unless start-up has halted. -/
def Swept.on (x : Swept) (f : Dev → Swept) : Swept :=
  match x.2 with
  | some _ => x
  | none => f x.1

/-- A module was read. -/
def Dev.moduleFound (d : Dev) (loc summary : Nat) : Dev := d.note 0x1101 loc [(2, loc), (16, summary)]

/-- A module is absent (0) or invalid (1). -/
def Dev.moduleBad (d : Dev) (loc why : Nat) : Dev := d.note 0x1102 loc [(2, loc), (1, Config.causeCode 0x1102 why)]

/-- A board record is valid: its length, its CRC and a default cap that a BMC could set. -/
def boardOk (r : List Byte) : Bool :=
  r.length == 256 && leNat (r.drop 252) == (crc32c (r.take 252)).toNat &&
    decide (3600 ≤ Config.boardRecordCap r ∧ Config.boardRecordCap r ≤ 7200)

/-- Class 0: the board ID EEPROM. -/
def Dev.sweepBoard (d : Dev) (b : Option BoardAnswer) : Swept :=
  let loc := locModule 0 0
  match b with
  | none => (d.moduleBad loc 0, some 2)
  | some b =>
    if boardOk b.record then
      ((d.moduleFound loc b.summary).modPilot (fun p => { p with boardDefault := Config.boardRecordCap b.record }), none)
    else (d.moduleBad loc 1, some 2)

/-- The GENERATION of a vault slot whose header is valid (17 R656). -/
def Dev.slotGeneration (d : Dev) (k : Nat) : Option Nat :=
  let a := 0x0FC00000 + 0x10000 * k
  if d.flashNat (a + 4) 4 = (crc32c (d.flashBytes a 4)).toNat then some (d.flashNat a 4) else none

/-- At a POR a vault slot is erased and given a new generation (17 R656). -/
def Dev.chooseVault (d : Dev) : Dev :=
  let (slot, gen) := match d.slotGeneration 0, d.slotGeneration 1 with
    | some a, some b => if b < a then (1, a + 1) else (0, b + 1)
    | some a, none => (1, a + 1)
    | none, some b => (0, b + 1)
    | none, none => (0, 1)
  let a := 0x0FC00000 + 0x10000 * slot
  let g := leBytes 4 gen
  let d := (d.eraseFlash a 0x10000).writeFlash a (g ++ leBytes 4 (crc32c g).toNat)
  ((d.put F.logVaultStatus_SLOT slot).put F.logVaultStatus_GENERATION gen).put F.logVaultStatus_MIRRORED 0

/-- Class 1: the flash module. Its image is read anew when the flash has been released (16 R606). -/
def Dev.sweepFlash (d : Dev) (a : Option FlashAnswer) : Swept :=
  let loc := locModule 1 0
  match a with
  | none => (d.moduleBad loc 0, some 3)
  | some a =>
    if a.mib < 256 || !a.octalDtr then (d.moduleBad loc 1, some 3)
    else
      let d := (d.moduleFound loc a.summary).flag F.pilStatus_FLASH_RELEASED false
      let d := if d.pilot.flashOut then
          (a.bytes.filter (fun b => decide (b.1 < 0x0FC00000))).foldl (fun d b => d.writeFlash b.1 [b.2])
            (d.eraseFlash 0 0x0FC00000)
        else d
      let d := d.modPilot (fun p => { p with flashOut := false })
      (if d.pilot.startKind = 0 && d.get F.logVaultStatus_GENERATION == 0 then d.chooseVault else d, none)

/-- The number of package rails, in the order of 19 R682. -/
def railCount : Nat := 100

/-- The bound on the board cap, in W (16 R597). -/
def capBoundOf (l : List (Option VrmAnswer)) : Nat :=
  9 * (l.map (fun v => match v with | some v => v.voutMv * v.warnA | none => 0)).sum / 10000

/-- Class 2: every rail's VRM, and the bound on the board cap. -/
def Dev.sweepVrms (d : Dev) (l : List (Option VrmAnswer)) : Swept :=
  let rails := (List.range railCount).map (fun i => l.getD i none)
  let d := (List.range railCount).foldl (fun d i => match rails.getD i none with
    | some v => d.moduleFound (locModule 2 i) v.summary
    | none => d.moduleBad (locModule 2 i) 0) d
  let bound := capBoundOf rails
  if rails.any (·.isNone) || bound < 3600 then (d, some 4)
  else
    let d := d.modPilot (fun p => { p with capBound := bound })
    (d.put F.lkpCap_BOARD_CAP_W (min (d.pilot.boardCap.getD d.pilot.boardDefault) bound), none)

/-- Class 3: the laser modules; a port without light stays NO_LASER (14 R530). -/
def Dev.sweepLasers (d : Dev) (l : List (Option LaserAnswer)) : Dev :=
  (List.range 6).foldl (fun d p =>
    let loc := locModule 3 p
    let dark := fun (d : Dev) why status =>
      (((d.moduleBad loc why).put F.hawPortStatus_STATE 1 p).put F.hawPortStatus_LASER_CLASS 0 p).note 0x4008 (locPort p) [(1, p), (2, status)]
    match l.getD p none with
    | none => (dark d 0 0).modPilot (fun x => { x with lasers := tset 0 x.lasers p 0 })
    | some a =>
      if a.fault ≠ 0 || a.powerClass = 0 || 4 < a.powerClass then
        (dark d 1 a.fault).modPilot (fun x => { x with lasers := tset 0 x.lasers p 0 })
      else
        ((d.moduleFound loc a.summary).put F.hawPortStatus_LASER_CLASS a.powerClass p).modPilot
          (fun x => { x with lasers := tset 0 x.lasers p a.powerClass })) d

/-- The highest speed bin a stack supports, if any (03 R98). -/
def bestBin (a : StackAnswer) : Option Nat := [2, 1, 0].find? a.bins.contains

/-- The HBM stacks: one without a usable answer is fenced (03 R98, R133). -/
def Dev.sweepStacks (d : Dev) (l : List (Option StackAnswer)) : Dev :=
  let d := (List.range 16).foldl (fun d s =>
    match l.getD s none with
    | none => (d.moduleBad (locStack s) 0).fenceStack s
    | some a =>
      if a.density ≠ 32 || a.height ≠ 16 || (bestBin a).isNone then (d.moduleBad (locStack s) 1).fenceStack s
      else d.moduleFound (locStack s) a.summary) d
  d.modPilot (fun p => { p with bins := (List.range 16).map (fun s => ((l.getD s none).bind bestBin).getD 0) })

/-- The ledger's fences and learned values reach their registers (17 R642); a stack with two unit fences is
fenced (03 R133). -/
def Dev.applyLedger (d : Dev) : Dev :=
  let l := d.ledger.data
  let d := l.pcFenced.foldl (fun d e => d.putBit F.hbmPcFenced_FENCED e.2 true e.1) d
  let d := l.coreFenced.foldl (fun d e => d.putBit F.hbmStatus_DIE_FENCED e.2 true e.1) d
  (List.range 44).foldl (fun d ld =>
    let p := d.physDie ld
    let d := d.put F.lkpDie_AGEING_MV (tget 0 l.ageing p) ld
    let e := tget 0 l.effMax p
    if e = 0 then d else d.put F.lkpDie_EFF_MAX e ld) d

/-- The ledger of P1 (17 R642, 03 R138): loaded from its newer valid copy; at DEV_WARM it is the one in
SRAM, less the entries removed. LEDGER_CLEAR under ALL takes every entry then in the list (DESIGN CHOICE: 03
R138 does not say whether entries added since stay; log entry 229). -/
def Dev.loadLedger (d : Dev) : Dev :=
  let d := if d.pilot.startKind = 2 then
      let l := d.ledger.data
      if l.removeAll || !l.removals.isEmpty then
        let kept := ((List.range l.retired.length).filter (fun i => !l.removeAll && !l.removals.contains i)).filterMap (l.retired[·]?)
        d.ledgerChange (fun l => { l with retired := kept, removals := [], removeAll := false })
      else d
    else
      let set := fun (e : Nat × LedgerData) => ({ d with ledger := { d.ledger with seq := e.1, data := e.2, dirty := false } } : Dev)
      match d.ledger.copy0, d.ledger.copy1 with
      | some a, some b => if a.1 < b.1 then set b else set a
      | some a, none => set a
      | none, some b => set b
      | none, none => (set (0, {})).note 0x9403 0
  d.applyLedger

/-- IDENTITY_SWEEP (16 R596): P1, in the order of its table. -/
def execIdentitySweep (r : Sweep) (s : State) : Out :=
  actOn s fun d =>
    if d.phase ≠ 1 then d else
    let x : Swept := (d.sweepBoard r.board).on (fun d => d.sweepFlash r.flash)
    let x := x.on (fun d => d.sweepVrms r.vrms)
    match x.2 with
    | some c => x.1.halt c
    | none => ((((x.1.sweepLasers r.lasers).sweepStacks r.hbm)).loadLedger).beginPhase 2

/-! ### P2: the image (16 R601, 18 R671, R672) -/

/-- Every field that the image sets takes its default image value (16 R599). -/
def Dev.defaultImage (d : Dev) : Dev :=
  d.regs.foldl (fun d e => match Reg.at? e.1 with
    | none => d
    | some (r, i) => d.setImage r i (r.resetVal i).toNat) d

/-- One component is loaded to its destination (16 R599, R601). -/
def Dev.loadComponent (d : Dev) (c : Component) : Dev :=
  match c.typ with
  | 2 =>
    let w := d.flashNat c.offset 8
    let d := d.put F.mntPoolLayout_I (bits w 6 0)
    d.put F.mntPoolLayout_ZERO_AT_COLD (bits w F.mntPoolLayout_ZERO_AT_COLD.hi F.mntPoolLayout_ZERO_AT_COLD.lo)
  | 3 => (List.range (c.length / 16)).foldl (fun d k =>
      match Reg.at? (d.flashNat (c.offset + 16 * k) 8) with
      | some (r, i) => d.setImage r i (d.flashNat (c.offset + 16 * k + 8) 8)
      | none => d) d
  | _ => d

/-- The stores, the versions and the measurements of a verified image. -/
def Dev.installImage (d : Dev) (m : Manifest) : Dev :=
  let g := d.pilot.gens + 1
  let vec : MpStore := { gen := g, version := m.mpVersion, slots := m.slots 8 }
  let whf : MpStore := { gen := g, version := m.mpVersion, slots := m.slots 9 }
  let d := d.modPilot (fun p => { p with
    gens := g, vecStore := vec, wharfStore := whf, vecNext := none, wharfNext := none
    components := m.comps, manifestDigest := m.digest, advance := m.advance })
  let d := ((d.put F.pilImage_IMAGE_VERSION m.version).put F.pilImage_SVN m.svn).put F.pilKeys_KEY_USED m.key
  let d := (List.range 44).foldl Dev.showVecStore d
  (List.range 16).foldl (fun d s =>
    (d.put F.whfMpVersion_VERSION whf.version s).put F.whfMpLoaded_LOADED (whf.loaded 7) s) d

/-- The pool's bytes keep their place in the stacks when I_EFFECTIVE changes (03 R103, 17 R639). -/
def Mem.remap (m : Mem) (old new : Nat) : Mem :=
  if old = new then m else
  let mv := fun a => if a < 2 ^ 40 then let (s, l) := stackOf old a; poolAddr new s l else a
  { m with
    cells := m.cells.foldl (fun t c => tset Mem.absent t (mv c.1) c.2) []
    poison := m.poison.foldl (fun t c => tset false t (mv c.1) c.2) []
    written := m.written.foldl (fun t c => tset false t (mv c.1) c.2) []
    fresh := m.fresh.map (fun e => (new, e.2)) }

/-- Set I_EFFECTIVE. -/
def Dev.setInterleave (d : Dev) (i : Nat) : Dev :=
  ({ d with mem := d.mem.remap d.interleave i } : Dev).put F.mntPoolLayout_I_EFFECTIVE i

/-- Load a verified image; the software cap never exceeds the board cap (16 R597). -/
def Dev.loadImage (d : Dev) (m : Manifest) : Dev :=
  let i := d.interleave
  let d := ((m.comps.foldl Dev.loadComponent d.defaultImage).installImage m).put F.mntPoolLayout_I_EFFECTIVE i
  let d := d.setInterleave (d.get F.mntPoolLayout_I)
  let d := match d.pilot.earlyTag with
    | some v => d.put F.devAssetTag_TAG v.toNat
    | none => d
  let d := d.modPilot (fun p => { p with earlyTag := none })
  let d := d.put F.lkpCap_SW_CAP_W (min (d.get F.lkpCap_SW_CAP_W) (d.get F.lkpCap_BOARD_CAP_W))
  d.note 0x8001 0 [(4, m.version), (1, m.key)]

/-- IMAGE_VERIFICATION (16 R601, R603): P2. -/
def execImageVerification (readError : Bool) (s : State) : Out :=
  actOn s fun d =>
    if d.phase ≠ 2 then d else
    match d.verifyImage readError with
    | .error c => (if c = 3 then d else d.note 0x8002 0 [(1, c)]).halt c
    | .ok m => (d.loadImage m).beginPhase 3

/-! ### P3: bring-up (16 R594, R595, R604) -/

/-- The links between dies that are trained in P3: every one but the optical attachments. -/
def bootLinks : List Nat := meshLinks ++ [32]

/-- Train the links; slots without a link are ABSENT, routes avoid links that are not ACTIVE, and decks
that cannot be reached are isolated (01 R53 to R56). -/
def Dev.trainLinks (d : Dev) (l : List LinkTraining) : Dev :=
  let d := ((List.range 32).filter (fun i => !hasSlot (i / 4) (i % 4))).foldl (fun d i => d.put F.dckD2dStatus_STATE 0 i) d
  let d := bootLinks.foldl (fun d key =>
    d.trainedLink ((l.find? (fun t => linkOk t.link && linkKey t.link == key)).getD ⟨linkOf key, [], []⟩)) d
  ({ d with rerouted := d.rerouteFor (meshLinks.filter (fun key => d.linkState key != 4)), rerouteStaged := none } : Dev).isolate

/-- PENDING pages become retired, and the fenced pseudo-channels of the ledger are relocated: their units
read as zeros until written (03 R130). -/
def Dev.relocate (d : Dev) : Dev :=
  let l := d.ledger.data
  let d := if l.retired.any (·.pending) then
      d.ledgerChange (fun l => { l with retired := l.retired.map (fun r => { r with pending := false }) })
    else d
  l.pcFenced.foldl (fun d e =>
    if (tget .new d.hbmStacks e.1).relocated.contains e.2 then d
    else
      let d := d.modStack e.1 (fun x => { x with relocated := x.relocated ++ [e.2] })
      let i := d.interleave
      let hit := fun a => decide (a < 2 ^ 40) && (let (s, q) := stackOf i a; s == e.1 && pcOf q == e.2 && decide (q < 63 * gib))
      { d with mem := { d.mem with
          cells := d.mem.cells.filter (fun c => !hit c.1)
          poison := d.mem.poison.filter (fun c => !hit c.1)
          fresh := d.mem.fresh ++ [(i, e.1, e.2)] } }) d

/-- Each stack trains at the bin of 03 R98; failures are fenced (03 R98, R128, R132, R133). -/
def Dev.trainStacks (d : Dev) (r : BringUp) : Dev :=
  let d := (r.badStacks.filter (decide <| · < 16)).foldl Dev.fenceStack d
  let up := (List.range 16).filter (fun s => d.get F.hbmStatus_STATE s != 3)
  let d := up.foldl (fun d s => d.put F.hbmStatus_STATE (if d.unitFences s = 0 then 1 else 2) s) d
  let bin := (up.map (fun s => d.pilot.bins.getD s 0)).foldl min 2
  let d := ((List.range 16).foldl (fun d s => d.put F.hbmStatus_BIN bin s) d).note 0x1210 0
  let d := (r.badPcs.filter (fun e => decide (e.1 < 16 ∧ e.2 < 64))).foldl (fun d e => d.fencePc e.1 e.2) d
  (r.badCoreDies.filter (fun e => decide (e.1 < 16 ∧ e.2 < 16))).foldl (fun d e => d.fenceCoreDie e.1 e.2) d

/-- The code of the record of a spare's passed self-test: R31 asks for the record, and no table names its
code; it is one of 0x1200 to 0x12FF that no table names (log entry 220). -/
def sparePassCode : Nat :=
  let c := 0x1200 + Config.spareCode % 256
  if c = 0x1201 || c = 0x1210 then 0x1200 else c

/-- The self-test of the compute dies, and of the spares that are tested (01 R31, R32; 16 R595). -/
def Dev.testDies (d : Dev) (bad : List (Nat × Nat)) : Dev :=
  let failed := fun p => bad.contains (p / 6, p % 6)
  let d := (List.range 44).foldl (fun d ld =>
    let p := d.physDie ld
    if p = 48 then d
    else if failed p || d.pilot.deadDies.contains p then (d.put F.cdLocation_STATE 1 ld).note 0x1201 (locPhys p) [(2, locPhys p)]
    else d.put F.cdLocation_STATE 0 ld) d
  let d := (List.range 8).foldl (fun d k =>
    if d.get F.dckSpareStatus_PRESENT k = 0 || d.get F.dckSpareStatus_RESULT k = 3 then d
    else if d.pilot.startKind = 2 && !d.pilot.spareTests.contains k then d
    else
      let p := 6 * k + d.get F.dckSpareStatus_SITE k
      if failed p || d.pilot.deadDies.contains p then (d.put F.dckSpareStatus_RESULT 2 k).note 0x1201 (locPhys p) [(2, locPhys p)]
      else (d.put F.dckSpareStatus_RESULT 1 k).note sparePassCode (locPhys p) [(2, locPhys p)]) d
  d.modPilot (fun p => { p with spareTests := [] })

/-- Zeroing (03 R111, R124): local memories and warehouses; the pool of a cold start is zeroed, or its
content is undefined. -/
def Dev.zeroMemory (d : Dev) : Dev :=
  if d.pilot.startKind = 2 then { d with mem := d.mem.poolOnly }
  else if d.get F.mntPoolLayout_ZERO_AT_COLD = 1 then { d with mem := {} }
  else ({ d with mem := { cold := some d.fresh } } : Dev).draw

/-- The VDD_CD rails are enabled for the dies in service; a spare's is off again after its self-test
(19 R680). -/
def Dev.enableRails (d : Dev) : Dev :=
  { d with power := { d.power with cdRails := (List.range 48).filter (fun p => (d.logicalOf p).isSome) } }

/-- BRING_UP (16 R594, R595, R604; 19 R680): P3. -/
def execBringUp (r : BringUp) (s : State) : Out :=
  actOn s fun d =>
    if d.phase ≠ 3 then d else
    let d := ((((d.trainLinks r.links).zeroMemory).relocate).trainStacks r).testDies r.badDies |>.enableRails
    if !r.hubOk then d.halt 11
    else if d.linkState 32 ≠ 4 then d.halt 10
    else d.beginPhase 4

/-! ### P4: release (16 R594, R602, R603) -/

/-- The host firmware of the image. -/
def Dev.hostFw (d : Dev) : Option Component := d.pilot.components.find? (fun c => c.typ == 7)

/-- A range of the pool lies outside every retired page and every fenced stack (16 R603). -/
def Dev.placeable (d : Dev) (pa len : Nat) : Bool :=
  decide (pa + len ≤ 2 ^ 40) && !(d.ledger.data.retired.any (fun r => !r.pending &&
    decide (r.first * 2 ^ 21 < pa + len ∧ pa < (r.first + r.count) * 2 ^ 21))) &&
  (rangeFrom (pa / 4096) (cdiv len 4096)).all (fun g => d.get F.hbmStatus_STATE (d.stackOfPa (g * 4096)) != 3)

/-- Copy the host firmware into the pool, where every hart starts (16 R599). -/
def Dev.placeFw (d : Dev) (c : Component) : Dev :=
  { d with mem := d.mem.write c.load (d.flashBytes c.offset c.length), host := { d.host with entry := c.load } }

/-- I_EFFECTIVE at release: 0 when a stack is fenced (03 R103). -/
def Dev.fixInterleave (d : Dev) : Dev :=
  if (List.range 16).any (fun s => d.get F.hbmStatus_STATE s == 3) then (d.setInterleave 0).note 0x2050 0
  else d.setInterleave (d.get F.mntPoolLayout_I)

/-- The fused minimum SVN advances (16 R602). -/
def Dev.advanceSvn (d : Dev) : Dev :=
  let svn := d.get F.pilImage_SVN
  if d.pilot.advance && d.fuses.svnMin < svn then
    (({ d with fuses := { d.fuses with svnMin := svn } } : Dev).put F.pilImage_SVN_MIN svn).note 0x8031 0 [(1, svn)]
  else d

/-- What release starts: the tide, the host die, the watchdog, the ports with light, and scrub passes
(02 R62; 14 R531; 16 R594; 17 R631). -/
def Dev.openHost (d : Dev) : Dev :=
  let d := (d.put F.pilBootProgress_PHASE 5).put F.pilBootProgress_PERCENT 10000
  let d : Dev := { d with
    period := d.get F.tidePeriodNs_PERIOD, nextPeriod := d.get F.tidePeriodNs_PERIOD
    reserve := d.get F.tideReserve_RESERVE, passStart := 0
    host := { d.host with running := true } }
  let d := ((d.put F.tideCount_VALUE 0).put F.tideLastTickNs_VALUE d.now).modPilot (fun p => { p with wdtArmed := true })
  let d : Dev := { d.swapVf with log := { d.log with tickAt := d.now } }
  let d := (List.range 44).foldl (fun d ld => d.put F.lkpDie_VOLTAGE_MV (d.vf ld (d.get F.lkpDie_FREQ ld)) ld) d
  let d := if d.pins.capNow then (d.flag F.lkpStatus_CAP_NOW true).slowDies else d
  let d := ((List.range 6).filter (fun p => d.portState p == 0)).foldl
    (fun d p => d.trainPort p (tget 0 d.pilot.lasers p)) d
  let d := ({ d with scrubs := [] } : Dev).modPilot (fun p => { p with releasedAt := d.now })
  d.note 0x1002 0 [(4, (d.now - d.pilot.startedAt) / 10 ^ 6)]

/-- HOST_RELEASE (16 R594, R602, R603): P4. -/
def execHostRelease (s : State) : Out :=
  actOn s fun d =>
    if d.phase ≠ 4 then d else
    let d := d.fixInterleave
    match d.hostFw with
    | none => d.halt 9
    | some c => if d.placeable c.load c.length then ((d.placeFw c).advanceSvn).openHost else d.halt 9

end Sys2Proof.Machine
end

