-- ==== Sys2Proof/Machine/Jtag.lean ====
section
/-! DEFINITION. The JTAG port (19 R696; 16 R617): the test access port of IEEE 1149.1, IDCODE, BYPASS and the
gate of debug scope bit 2. Its edges come from the board beside the commands, and are taken when no command
waits (log entry 31). -/
namespace Sys2Proof.Machine

/-- The test access port moves with TMS (IEEE 1149.1). -/
def TapState.next (s : TapState) (tms : Bool) : TapState :=
  match s with
  | .reset => if tms then .reset else .idle
  | .idle => if tms then .selectDr else .idle
  | .selectDr => if tms then .selectIr else .captureDr
  | .captureDr => if tms then .exit1Dr else .shiftDr
  | .shiftDr => if tms then .exit1Dr else .shiftDr
  | .exit1Dr => if tms then .updateDr else .pauseDr
  | .pauseDr => if tms then .exit2Dr else .pauseDr
  | .exit2Dr => if tms then .updateDr else .shiftDr
  | .updateDr => if tms then .selectDr else .idle
  | .selectIr => if tms then .reset else .captureIr
  | .captureIr => if tms then .exit1Ir else .shiftIr
  | .shiftIr => if tms then .exit1Ir else .shiftIr
  | .exit1Ir => if tms then .updateIr else .pauseIr
  | .pauseIr => if tms then .exit2Ir else .pauseIr
  | .exit2Ir => if tms then .updateIr else .shiftIr
  | .updateIr => if tms then .selectDr else .idle

/-- The 32 bits of IDCODE, lowest first (19 R696). -/
def Dev.idcode (d : Dev) : Nat := d.get F.devId_MAJOR % 16 * 2 ^ 28 + 0x4816 * 2 ^ 12 + 0x25E * 2 + 1

/-- The instruction an instruction register selects: BYPASS is all ones, and the code of IDCODE is the
part's. -/
def jtagSelect (ir : List Bool) : JtagInstr :=
  if ir.all id then .bypass else if ir = Config.jtagIdcode then .idcode else .other

/-- An instruction responds: BYPASS and IDCODE always, any other under debug scope bit 2 (19 R696). -/
def Dev.jtagResponds (d : Dev) (i : JtagInstr) : Bool := i != .other || bit (d.get F.pilDebug_SCOPE) 2

/-- What the selected data register captures; that of test access to the dies is a free value. -/
def Dev.jtagCapture (d : Dev) : Dev × List Bool :=
  match d.jtag.ir with
  | .bypass => (d, [false])
  | .idcode => (d, (List.range 32).map (fun i => bit d.idcode i))
  | .other => if d.jtagResponds .other then (d.draw, (List.range 64).map (fun i => (Config.freeValue d.fresh).getLsbD i)) else (d, [])

/-- A register shifts one place: TDI enters at its end, and its first bit leaves on TDO. -/
def Jtag.shifted (j : Jtag) (tdi : Bool) : Jtag :=
  match j.shift with
  | [] => { j with tdo := none }
  | b :: rest => { j with shift := rest ++ [tdi], tdo := some b }

/-- A rising edge of TCK: the state's action, then its successor. TDO is driven in the shift states only. -/
def Dev.jtagClock (d : Dev) (tms tdi : Bool) : Dev :=
  let next := d.jtag.tap.next tms
  let moved (d : Dev) (j : Jtag) : Dev := { d with jtag := { j with tap := next, ir := if next = .reset then .idcode else j.ir } }
  let quiet := { d.jtag with tdo := none }
  match d.jtag.tap with
  | .captureDr => let r := d.jtagCapture; moved r.1 { quiet with shift := r.2 }
  | .captureIr => moved d { quiet with shift := true :: List.replicate (Config.jtagIdcode.length - 1) false }
  | .shiftDr => moved d (d.jtag.shifted tdi)
  | .shiftIr => moved d (d.jtag.shifted tdi)
  | .updateIr => moved d { quiet with ir := jtagSelect quiet.shift }
  | _ => moved d quiet

/-- Take an edge: TRST_N resets the port. -/
def Dev.jtagEdge (d : Dev) (e : JtagEdge) : Dev :=
  match e with
  | .trst => { d with jtag := { d.jtag with tap := .reset, ir := .idcode, shift := [], tdo := none } }
  | .tck tms tdi => d.jtagClock tms tdi

/-- Take every edge that the board has driven. -/
def Dev.jtagRun (d : Dev) : Dev :=
  d.jtag.edges.foldl Dev.jtagEdge { d with jtag := { d.jtag with edges := [] } }

end Sys2Proof.Machine
end

