-- ==== Sys2Proof/Machine/Resets.lean ====
section
/-! DEFINITION. Resets (17 R627 to R635), low-power states (17 R636 to R638), the passing of time, and the
upkeep of the repair ledger, the logbook's windows and the log vault (17 R642, R643, R652, R656). -/
namespace Sys2Proof.Machine

/-! ### PKG_COLD and DEV_WARM (17 R628 to R632) -/

/-- The record of an item that a reset ends: FAIL_HW at the position reached, or FAIL_CANCELLED at its
START (17 R628 step 4). -/
def Item.cutOff (it : Item) : Item :=
  if it.phase == .finished then it
  else if it.started then { it.finish 0x13 with pos := it.reached }
  else { it.finish 0x14 with pos := it.startPos }

/-- A launch that a reset ends, and its item. -/
def Dev.cutLaunch (d : Dev) (l : Launch) : Dev :=
  let d := if l.start.isSome then d.failLaunch l.ring l.index 0x13 else d
  let l := (d.launch? l.ring l.index).getD l
  let d := d.modItem l.ring l.index (fun it =>
    { it.finish (if l.start.isSome then l.status.getD 0x13 else 0x14) l.detail.toNat with sat := l.sat, flushed := l.flushed })
  { d with launches := d.launches.filter (fun x => !(x.ring == l.ring && x.index == l.index)) }

/-- Steps 2 and 3 of 17 R628: launches and items stop, connections and collectives say so, and dirty
transit lines are written back. -/
def Dev.stopWork (d : Dev) : Dev :=
  let d := d.launches.foldl Dev.cutLaunch d
  let runs := d.colls.filterMap (fun g => d.item? g.ring g.index)
  let d := runs.foldl (fun d it => d.collFail it 0x13 true) d
  let open' := (d.conns.filter (fun c => decide (c.1 < 4096) && c.2.state == 2)).map (·.1)
  let d := open'.foldl (fun d c => if cwGroup (d.cw0 c) then d else d.sendPlain c .close) d
  let d := (d.items.filter (fun it => it.phase == .released)).foldl Dev.endWaves d
  let d : Dev := { d with items := d.items.map Item.cutOff }
  d.tcClusters.foldl (fun d lc => (d.wbCluster lc).1) d

/-- A PKG_COLD (1) or DEV_WARM (2) is requested (17 R628 to R632); a second request merges with the first.
A stopped pilot takes neither stops nor records. -/
def Dev.requestReset (d : Dev) (kind source : Nat) (skip : Bool) : Dev :=
  match d.reset with
  | some r => { d with reset := some { r with kind := min r.kind kind, skip := r.skip || skip } }
  | none =>
    let d := d.note 0x1010 0 [(1, kind), (1, source)]
    let d := d.liveRings.foldl Dev.writeShadow d
    let d := if d.psrValid then d.setPsr 0 16 16 0 else d
    let d : Dev := { d with reset := some ⟨kind, source, d.now, skip⟩, host := { d.host with resetStep := 0 } }
    if skip then d else d.stopWork

/-- Step 4 of 17 R628: one record for every item without one; the records written and those sent to the
logbook. -/
def Dev.account (d : Dev) : Dev × Nat × Nat :=
  let d : Dev := { d with items := d.items.map Item.cutOff }
  d.items.foldl (fun acc it =>
    let (d, ok) := acc.1.writeRecord it
    if ok then (d, acc.2.1 + 1, acc.2.2) else (d, acc.2.1, acc.2.2 + 1)) (d, 0, 0)

/-- The reset takes effect (17 R628 step 5, R639): MNT_RESET_CAUSE, the settings epoch, and start-up. -/
def Dev.resetEffect (d : Dev) (r : PendingReset) : Dev :=
  let (d, written, diverted) := if r.skip then (d, 0, 0) else d.account
  let d := if r.skip then d else d.note 0x1011 0 [(4, written), (4, diverted)]
  let d := if r.kind = 1 then d.afterCold else d.afterWarm
  let d := ((d.put F.mntResetCause_KIND r.kind).put F.mntResetCause_SOURCE r.source).flag F.mntResetCause_ACCOUNTED (!r.skip)
  ((d.put F.mntResetCause_DIVERTED (min 0xFFFF diverted)).newEpoch r.kind).startUp r.kind

/-- The longest time from a request to its effect, in ns (17 R628, R632). -/
def PendingReset.due (r : PendingReset) : Nat := r.since + (if r.skip then 10000 else 200000)

/-- One nanosecond of CKD01 passes: credits come back, tiles whose zeroing is over begin, and a reset that is
due takes effect; nothing passes while the clocks are stopped (05 R191; 15 R589; 17 R628, R649). Edges of
TCK are taken as they come (19 R696). -/
def Dev.idle (d : Dev) : Dev :=
  let d := d.jtagRun
  if !d.clocked then d else
  let d := ({ d with now := d.now + 1 } : Dev).returnCredits.endZeroing.endCraneResets
  match d.reset with
  | some r => if r.due ≤ d.now then d.resetEffect r else d
  | none => d

/-- DEV_WARM (17 R628): MNT_RESET_CMD is written with KIND 1. -/
def execDevWarm (s : State) : Out := actUp s fun d => (d.requestReset 2 1 false).accepted
/-- PKG_COLD (17 R628): MNT_RESET_CMD is written with KIND 2. -/
def execPkgCold (s : State) : Out := actUp s fun d => (d.requestReset 1 1 false).accepted

/-- HUB_WDT_EXPIRY (17 R631, R632): channel 1 harbourmaster, 2 lockkeeper, 3 pilot. -/
def execHubWdtExpiry (channel : Nat) (s : State) : Out :=
  actOn s fun d =>
    if !d.pilot.wdtArmed || channel = 0 || 3 < channel then d else
    let d := (d.put F.mntHubWdt_LAST_CHANNEL channel).addSat F.mntHubWdt_EXPIRIES 1
    let d := d.note 0x1012 0 [(1, channel)]
    (if channel = 2 then d.slowDies else d).requestReset 2 3 (channel == 3)

/-! ### UNIT_RESET (17 R634) -/

/-- The physical die a tile, cluster or die locator names. -/
def locDieOf (loc : Nat) : Nat := bits loc 11 9 * 6 + bits loc 8 6

/-- The logical cluster that a tile or cluster locator names, and the tiles to reset. -/
def Dev.unitTiles (d : Dev) (loc : Nat) : Option (Nat × List Nat) :=
  if 6 ≤ bits loc 8 6 then none
  else match d.logicalOf (locDieOf loc) with
  | none => none
  | some ld =>
    let lc := 4 * ld + bits loc 5 4
    if bits loc 15 12 = 0 && loc % 2 = 0 then some (lc, [8 * lc + bits loc 3 1])
    else if bits loc 15 12 = 1 && loc % 16 = 0 then some (lc, rangeFrom (8 * lc) 8)
    else none

/-- A cluster's caches are written back and dropped: transit cache, side buffer, segment cache and TLB. -/
def Dev.dropCluster (d : Dev) (lc : Nat) : Dev :=
  let d := (d.clearTc lc).modCluster lc (fun c => { c with tc := [], side := [] })
  { d with xlat := tset .new d.xlat (holderKey (.cluster lc)) .new }

/-- A crane is reset: its running item ends, its fence is cleared, and it is IDLE again after a free time of
at most 1 ms (17 R634, 09 R376). -/
def Dev.resetCrane (d : Dev) (key : Nat) : Dev :=
  let holds := d.craneHolds key
  let d : Dev := { d with items := d.items.map (fun it =>
    if holds = some (it.ring, it.index) then { it.finish 0x13 with pos := it.reached } else it) }
  let took := (Config.freeValue d.fresh).toNat % 10 ^ 6 + 1
  ((d.draw.modCrane key (fun c => { resetUntil := some (d.now + took), slicedAt := c.slicedAt })).put F.dckCraneStatus_STATE 3 key).note 0x9311 (locCrane (key / 8) (key % 8))

/-! ### The bank watchdog (05 R196) -/

/-- The watchdog resets the requester of a grant it ended, as a UNIT_RESET does (17 R627, R634): the tile of
a block with its cluster's caches, or a crane; a lighter keeps its other items, and no other requester has
a unit of that reset (log entry 223). -/
def Dev.watchdogUnit (d : Dev) : Requester → Dev
  | .tile t =>
    let d := (d.dropCluster (t / 8)).zeroTile t
    (if (d.launchOn t).isSome then d else d.setTileState t 0).note 0x9101 (d.locTile t) [(2, d.locTile t)]
  | .crane k kind => d.resetCrane (8 * k + kind)
  | _ => d

/-- BANK_WATCHDOG_RESET (05 R196): the requester of a grant the watchdog ended is reset; the context of
its work is killed and that work completes FAIL_CONTEXT_KILLED; a host core takes an access fault. -/
def execBankWatchdogReset (bank : BankId) (s : State) : Out :=
  actUp s fun d =>
    match (d.arb bank).due with
    | none => d
    | some r =>
      let d : Dev := { d with arbs := tset .new d.arbs (bankKey bank) { d.arb bank with due := none } }
      let d := match bank with
        | .localMem t b =>
          let d := d.addSat F.cdWatchdogCount_COUNT 1 (t / 32)
          (d.put F.cdWatchdogCount_LAST_BANK b (t / 32)).put F.cdWatchdogCount_LAST_LOCATOR (d.locTile t) (t / 32)
        | _ => d
      let d := d.note 0x6102 (d.locReq r.req) [(2, d.locReq r.req)]
      match r.req with
      | .hart _ => d.answer (if r.write then .storeFault else .loadFault)
      | _ => (match d.ctxOfWork r.req r.item with
        | some c => d.killCtx c 0x6102
        | none => d).watchdogUnit r.req

/-- A locator is written to MNT_UNIT_RESET. -/
def Dev.unitReset (d : Dev) (h loc : Nat) : Dev :=
  let deck := bits loc 11 9
  let kind := loc % 8
  if loc = locCrane deck kind then (d.resetCrane (8 * deck + kind)).accepted
  else match d.unitTiles loc with
  | none => d.refuse h (Reg.offset .mntUnitReset 0)
  | some (lc, ts) =>
    if (d.launchOnCluster lc).isSome then d.refuse h (Reg.offset .mntUnitReset 0)
    else
      let d := ts.foldl (fun d t => (d.zeroTile t).setTileState t 0) (d.dropCluster lc)
      (d.note 0x9101 loc [(2, loc)]).accepted

/-- UNIT_RESET (17 R634). -/
def execUnitReset (hart locator : Nat) (s : State) : Out :=
  actUp s fun d => if d.hartUp hart then d.unitReset hart (locator % 2 ^ 16) else d

/-! ### PORT_RESET (17 R635) -/

/-- A Hawser port and its optical attachment are reset and train as after release. -/
def Dev.resetPort (d : Dev) (p : Nat) : Dev :=
  let d := d.portDown p (Config.causeCode 0x4002 7)
  let d := d.modPort p (fun x => { x with out := [], retry := [] })
  let d := (d.scratch (4 * portDeck p + 3) 1).modLink (4 * portDeck p + 3) (fun l => { l with disputes := 0 })
  if d.get F.hawPortCmd_DISABLE p = 1 then d.portOut p 8 else d.trainPort p (tget 0 d.pilot.lasers p)

/-- A die-to-die link is reset and trains again. -/
def Dev.resetLink (d : Dev) (key : Nat) : Dev :=
  let d := if d.linkState key = 4 then (d.scratch key 2).linkLost key else d.scratch key 2
  d.modLink key (fun l => { l with disputes := 0 })

/-- A locator and slot are written to MNT_PORT_RESET. -/
def Dev.portReset (d : Dev) (h loc slot : Nat) : Dev :=
  let k := bits loc 11 9
  let said := fun (d : Dev) => d.note 0x9102 loc [(2, loc), (1, slot)]
  let port := if loc = locDeck k && slot = 3 then (List.range 6).find? (fun p => portDeck p == k)
              else if slot = 0 then (List.range 6).find? (fun p => locPort p == loc) else none
  match port with
  | some p => ((said d).resetPort p).accepted
  | none =>
    if loc = locDeck k && slot < 3 && hasSlot k slot then ((said d).resetLink (linkKey (.deck k slot))).accepted
    else d.refuse h (Reg.offset .mntPortReset 0)

/-- PORT_RESET (17 R635). -/
def execPortReset (hart locator slot : Nat) (s : State) : Out :=
  actUp s fun d => if d.hartUp hart then d.portReset hart (locator % 2 ^ 16) (slot % 4) else d

/-! ### Low-power states (17 R636 to R638) -/

/-- A cluster may be gated: no launch names it and it has been quiet for IDLE_TIDES tides. -/
def Dev.mayGate (d : Dev) (lc : Nat) : Bool :=
  let n := d.get F.cdGateCfg_IDLE_TIDES (lc / 4)
  d.dieActive (lc / 4) && !d.gated lc && n != 0 && !(d.launches.any (fun l => l.clusters.contains lc)) &&
    decide ((d.cluster lc).quietFrom + n ≤ d.get F.tideCount_VALUE)

/-- CLUSTER_GATE (17 R636): without RETAIN the content of its tiles is lost. -/
def execClusterGate (lc : Nat) (s : State) : Out :=
  actUp s fun d => if lc < 176 && d.mayGate lc then
    let d := (d.dropCluster lc).putBit F.cdGateCfg_GATED (lc % 4) true (lc / 4)
    if d.get F.cdGateCfg_RETAIN (lc / 4) = 0 then (rangeFrom (8 * lc) 8).foldl Dev.zeroTile d else d
  else d

/-- CLUSTER_UNGATE (17 R636). -/
def execClusterUngate (lc : Nat) (s : State) : Out :=
  actUp s fun d => if lc < 176 && d.gated lc then (d.wakeCluster lc).useCluster lc else d

/-- Every cluster of a deck's sites is gated. -/
def Dev.deckGated (d : Dev) (k : Nat) : Bool :=
  (d.liveDies.filter (fun ld => d.deckOfDie ld == k)).all (fun ld => (rangeFrom (4 * ld) 4).all d.gated)

/-- A crane item runs on a deck. -/
def Dev.craneOn (d : Dev) (k : Nat) : Bool :=
  d.items.any (fun it => it.typ == tCrane && it.checked && it.started && it.engine / 8 == k && it.phase != .finished)

/-- A deck is in DECK_RETENTION. -/
def Dev.deckRetained (d : Dev) (k : Nat) : Bool := bit (d.get F.mntPowerStatus_RETAINED) k

/-- DECK_RETENTION_ENTER (17 R637): the cranes are off, and their translation caches are empty (17 R639). -/
def execDeckRetentionEnter (deck : Nat) (s : State) : Out :=
  actUp s fun d =>
    if deck < 8 && bit (d.get F.mntPowerCmd_DECK_RETAIN) deck && !d.deckRetained deck && d.deckGated deck && !d.craneOn deck then
      let d : Dev := { d with xlat := (rangeFrom (8 * deck) 8).foldl (fun t c => tset .new t (holderKey (.crane deck (c % 8))) .new) d.xlat }
      (d.putBit F.mntPowerStatus_RETAINED deck true).note 0x5601 (locDeck deck) [(1, Config.causeCode 0x5601 0), (2, locDeck deck)]
    else d

/-- Why a deck leaves DECK_RETENTION: its bit is cleared, a launch, a CRANE item, or an access. -/
def Dev.retentionCause (d : Dev) (k : Nat) : Nat :=
  if !bit (d.get F.mntPowerCmd_DECK_RETAIN) k then 0
  else if d.launches.any (fun l => l.clusters.any (fun lc => d.deckOfDie (lc / 4) == k)) then 1
  else if d.items.any (fun it => it.typ == tCrane && it.checked && it.engine / 8 == k) then 2
  else 3

/-- DECK_RETENTION_EXIT (17 R637). -/
def execDeckRetentionExit (deck tookUs : Nat) (s : State) : Out :=
  actUp s fun d => if deck < 8 && d.deckRetained deck then
    let why := d.retentionCause deck
    ((d.putBit F.mntPowerStatus_RETAINED deck false).addSat F.mntPowerStatus_EXITS 1).note 0x5602 (locDeck deck)
      [(1, Config.causeCode 0x5601 0), (1, Config.causeCode 0x5602 why), (4, tookUs)]
  else d

/-- PKG_IDLE may be entered. -/
def Dev.mayIdle (d : Dev) : Bool :=
  d.get F.mntPowerCmd_PKG_IDLE == 1 && d.get F.mntPowerStatus_IN_PKG_IDLE == 0 && d.items.isEmpty &&
    d.conns.all (fun c => c.2.unacked.isEmpty)

/-- PKG_IDLE_ENTER (17 R638): local memories are lost, and every transit and translation cache is empty. -/
def execPkgIdleEnter (s : State) : Out :=
  actUp s fun d => if d.mayIdle then
    let d := d.tcClusters.foldl Dev.clearTc d
    let isLocal := fun a => decide (0x10100000000 ≤ a)
    let d : Dev := { d with
      mem := { d.mem with cells := d.mem.cells.filter (fun c => !isLocal c.1), poison := d.mem.poison.filter (fun c => !isLocal c.1) }
      tiles := [], xlat := []
      power := { d.power with cdRails := [] }
      clusters := d.clusters.map (fun e => (e.1, { e.2 with tc := [], side := [] })) }
    (d.flag F.mntPowerStatus_IN_PKG_IDLE true).note 0x5601 0 [(1, Config.causeCode 0x5601 1), (2, 0)]
  else d

/-- PKG_IDLE_EXIT (17 R638, 19 R680): a bell write (0), a pool access (1) or a write of PKG_IDLE 0 (2) ends it. -/
def execPkgIdleExit (cause tookUs : Nat) (s : State) : Out :=
  actUp s fun d => if d.get F.mntPowerStatus_IN_PKG_IDLE = 1 then
    let d := ((d.flag F.mntPowerStatus_IN_PKG_IDLE false).flag F.mntPowerCmd_PKG_IDLE false).addSat F.mntPowerStatus_EXITS 1 |>.enableRails
    d.note 0x5602 0 [(1, Config.causeCode 0x5601 1), (1, Config.causeCode 0x5602 (4 + cause)), (4, tookUs)]
  else d

/-! ### Upkeep of the ledger, the log's windows and the vault -/

/-- LEDGER_ARM_EXPIRY (17 R643): an arm older than 10 s lapses. -/
def execLedgerArmExpiry (s : State) : Out :=
  actOn s fun d =>
    if d.get F.mntLedgerArm_ARMED = 1 && d.ledger.armedAt + 10 ^ 10 ≤ d.now then d.flag F.mntLedgerArm_ARMED false else d

/-- LEDGER_FLASH_WRITE (17 R642): a changed ledger goes to the older flash copy. -/
def execLedgerFlashWrite (ok : Bool) (s : State) : Out :=
  actOn s fun d =>
    if !d.ledger.dirty || d.get F.pilStatus_FLASH_RELEASED = 1 then d else
    let l := d.ledger
    let k := match l.copy0, l.copy1 with
      | none, _ => 0
      | some _, none => 1
      | some a, some b => if b.1 < a.1 then 1 else 0
    let n := l.seq + 1
    if !ok then (d.flag F.logVaultStatus_ERROR true).note 0xF003 0 [(4, 0x0FC20000 + 0x40000 * k)]
    else
      let l := { l with seq := n, dirty := false }
      let l := if k = 0 then { l with copy0 := some (n, l.data) } else { l with copy1 := some (n, l.data) }
      ({ d with ledger := l } : Dev).note 0x9401 0 [(1, k), (4, n)]

/-- RATE_WINDOW_END (17 R652): a code's window that is over ends. -/
def execRateWindowEnd (code : Nat) (s : State) : Out := actOn s fun d => d.endWindow code

/-- VAULT_MIRROR (17 R656): the next record is copied into the current vault slot. -/
def execVaultMirror (ok : Bool) (s : State) : Out :=
  actOn s fun d =>
    let n := d.get F.logVaultStatus_MIRRORED
    if d.get F.logVaultStatus_GENERATION = 0 || d.get F.pilStatus_FLASH_RELEASED = 1 || 256 ≤ n ||
        d.get F.logStatus_COUNT ≤ n then d
    else
      let a := 0x0FC01000 + 0x10000 * d.get F.logVaultStatus_SLOT + 64 * n
      if !ok then (d.flag F.logVaultStatus_ERROR true).note 0xF003 0 [(4, a)]
      else (d.writeFlash a (d.logBytes n)).put F.logVaultStatus_MIRRORED (n + 1)

end Sys2Proof.Machine
end

