-- ==== Sys2Proof/Machine/HostReset.lean ====
section
/-! DEFINITION. The HOST_ONLY reset (13 R512 to R516; 01 R57; 16 R610): its causes, what it holds and
poisons, the return of the host die, and RESUME. -/
namespace Sys2Proof.Machine

/-! ### Steps 1 to 4 (13 R513) -/

/-- Steps 1 and 2: rings are HELD and the preserved-state record is written. A record not yet resumed keeps
the rings it holds, its pending interrupts and its count. -/
def Dev.preserve (d : Dev) (cause : Nat) : Dev :=
  let again := d.psrValid
  let live := d.liveRings.filter (fun n => d.ringState n = 1 || d.ringState n = 2)
  let d := live.foldl (fun d n => d.setRing n 3) d
  let words := (List.range 63).map (fun k =>
    let old := if again then d.psr k else 0
    if k = 0 then cause * 2 ^ 24 + 2 ^ 16 + 1
    else if k = 1 then d.get F.tideCount_VALUE
    else if k = 2 then d.now
    else if k = 3 then old / 2 ^ 32 * 2 ^ 32
    else if k < 20 then (live.filter (fun n => n / 64 = k - 4)).foldl (fun w n => w ||| 2 ^ (n % 64)) old
    else if k < 36 then old
    else if k < 40 then ((List.range 64).map (fun i => if (d.ctx (64 * (k - 36) + i)).state = 0 then 2 ^ i else 0)).sum
    else 0)
  ((List.range 63).foldl (fun d k => d.setReg .mntPsr k (BitVec.ofNat 64 (words.getD k 0))) d).sealPsr

/-- Step 3: every L2 writes back its dirty lines. -/
def Dev.writeBackHost (d : Dev) : Dev :=
  let lines := (d.coh.txns.map (·.line)).eraseDups
  let d := lines.foldl Dev.drainLine d
  d.coh.l2.foldl (fun d e => e.2.foldl (fun d l =>
    if l.st < 3 then d else
      (d.homeStore l.line l.data l.poisoned).modCoh (fun c =>
        (c.dropHeld e.1 l.line).setSys { line := l.line, data := l.data, poisoned := l.poisoned })) d) d

/-- The lines that the system cache records as held in E, M or O, or that a transaction has taken dirty
from a holder. -/
def Coherence.recorded (c : Coherence) : List Nat :=
  ((c.l2.flatMap (fun e => (e.2.filter (fun l => 2 ≤ l.st)).map (·.line))) ++
    (c.txns.filter (fun t => (t.got.map (·.2.1)).getD false)).map (·.line)).eraseDups

/-- Step 4: those lines are poisoned at their homes, and the host's caches are empty. -/
def Dev.poisonHost (d : Dev) : Dev :=
  let ls := d.coh.recorded
  let d : Dev := { d with mem := ls.foldl (fun m l => m.poisonUnit (64 * l)) d.mem }
  let d := d.modCoh (fun c => { c with
    l2 := [], txns := [], resv := [], sys := c.sys.filter (fun x => !ls.contains x.line) })
  let d := d.note 0x2007 0 [(4, ls.length)]
  (d.setReg .mntPsr 3 (BitVec.ofNat 64 (setBits (d.psr 3) 31 0 ls.length))).sealPsr

/-- The host die's end of the hub–host link trains afresh, while the hub's end keeps its widths (01 R52). -/
def Dev.hostEndAfresh (d : Dev) : Dev :=
  ((d.setLinkState 32 2).setExchanges 32 0).modLink 32 (fun l => { l with
    far := [], farDone := [], downSince := some d.now, disputes := 0 })

/-- Every nonce is lost at a reset (16 R613). -/
def Dev.loseNonces (d : Dev) : Dev := (d.modPilot (fun p => { p with nonceHost := none, nonceBmc := none })).showNonce

/-- A HOST_ONLY reset begins (13 R512, R513): its first four steps, with the hub–host link then in
training. -/
def Dev.hostReset (d : Dev) (cause : Nat) : Dev :=
  let d := (d.note 0x1401 0 [(1, cause)]).preserve cause
  let d := if d.linkState 32 = 4 then d.writeBackHost else d
  let d := d.poisonHost
  let d : Dev := { d with host := { d.host with running := false, resetStep := 4, irqs := [], aplic := [], iommu := [] } }
  d.loseNonces.hostEndAfresh

/-- A HOST_ONLY reset can begin: the host die runs, and no reset is taking the device down. -/
def Dev.mayHostReset (d : Dev) : Bool := d.host.running && d.reset.isNone

/-- HOST_CMD_RESET (13 R512): a hart writes MNT_HOST_CMD.RESET. -/
def execHostCmdReset (hart : Nat) (s : State) : Out :=
  actUp s fun d => if d.hartUp hart && d.mayHostReset then (d.hostReset 1).accepted else d

/-- HOST_RESET (13 R512, 19 R694): the BMC's request; refused when no reset can begin. -/
def execHostReset (s : State) : Out :=
  actOn s fun d => if d.ticking && d.mayHostReset then (d.hostReset 2).accepted else d.regError .bmc true 0 3

/-- HOST_LINK_TIMEOUT (01 R57, 13 R512): the hub–host link has been out of ACTIVE for 750 µs. -/
def execHostLinkTimeout (s : State) : Out :=
  actUp s fun d => match (d.link 32).downSince with
    | some t => if d.linkState 32 ≠ 4 && t + 750000 ≤ d.now && d.mayHostReset then d.hostReset 3 else d
    | none => d

/-- HOST_DIE_INTERNAL_ERROR (13 R512). -/
def execHostDieInternalError (s : State) : Out := actUp s fun d => if d.mayHostReset then d.hostReset 4 else d

/-- HOST_RESET_QUIESCENT (13 R514): the last admitted item has its record. -/
def execHostResetQuiescent (s : State) : Out :=
  actUp s fun d =>
    if d.psrValid && !bit (d.psr 0) 17 && d.items.all (fun it => it.phase == .fetched) then
      (d.setPsr 0 17 17 1).note 0x1402 0 [(4, bits (d.psr 3) 63 32)]
    else d

/-! ### Step 5 (13 R513, 16 R610) -/

/-- The firmware placed replaces what the caches of the hub held of its range. -/
def Dev.placeHostFw (d : Dev) (c : Component) : Dev :=
  let d := d.modCoh (fun h => { h with
    sys := h.sys.filter (fun x => decide (64 * x.line + 64 ≤ c.load ∨ c.load + c.length ≤ 64 * x.line)) })
  (d.placeFw c).modPilot (fun p => { p with components := p.components.map (fun x => if x.typ = 7 then c else x) })

/-- The step fails: the host die stays in reset with the cause set, and a RETRY repeats the step. -/
def Dev.hostStays (d : Dev) (cause : Nat) : Dev :=
  let d := if cause = 3 || cause = 9 then d else d.note 0x8002 0 [(1, cause)]
  let d := d.put F.pilStatus_HALT_CAUSE cause
  { d with host := { d.host with resetStep := 5 } }

/-- HOST_DIE_LEAVES_RESET (13 R513 step 5, 16 R610): the image in flash is verified, its host firmware
placed, and the link is back. -/
def execHostDieLeavesReset (s : State) : Out :=
  actUp s fun d =>
    if d.host.running || d.host.resetStep ≠ 4 || d.reset.isSome || d.linkState 32 ≠ 4 then d else
    match d.verifyImage false with
    | .error c => d.hostStays c
    | .ok m => match m.comps.find? (fun c => c.typ == 7) with
      | none => d.hostStays 9
      | some c =>
        if d.placeable c.load c.length then
          let d := (d.placeHostFw c).put F.pilStatus_HALT_CAUSE 0
          { d with host := { d.host with running := true, resetStep := 0 } }
        else d.hostStays 9

/-- RETRY (16 R607, R610; 19 R694): a halted start-up starts again at P1, and a host die kept in reset tries
its step again. -/
def execRetry (s : State) : Out :=
  actOn s fun d =>
    if d.phase = 0xFF then
      (((d.put F.pilStatus_HALT_CAUSE 0).flag F.pilStatus_FLASH_RELEASED false).beginPhase 1).accepted
    else if d.ticking && d.host.resetStep = 5 && d.reset.isNone then
      ({ d with host := { d.host with resetStep := 4 } } : Dev).accepted
    else d.regError .bmc true 0 3

/-! ### RESUME (13 R516) -/

/-- A HELD ring is resumed. -/
def Dev.resumeRing (d : Dev) (n : Nat) : Dev :=
  if d.ringState n ≠ 3 then d
  else if (d.ring n).lostHeld then (d.modRing n (fun r => { r with lostHeld := false })).setRing n 5
  else (d.modRing n (fun r => { r with awake := true })).setRing n 1

/-- The rings marked pending in the record. -/
def Dev.pendingRings (d : Dev) : List Nat :=
  (List.range 16).flatMap (fun k => (List.range 64).filterMap (fun i => if bit (d.psr (20 + k)) i then some (64 * k + i) else none))

/-- A hart writes RESUME: refused while VALID is 0. -/
def Dev.resume (d : Dev) (hart : Nat) : Dev :=
  if !d.psrValid then d.refuse hart (Reg.offset .mntHostCmd 0) else
  let d := d.liveRings.foldl Dev.resumeRing d
  let d := d.pendingRings.foldl Dev.raiseMsi d
  ((d.setPsr 0 16 16 0).note 0x1403 0).accepted

/-- RESUME (13 R516). -/
def execResume (hart : Nat) (s : State) : Out :=
  actUp s fun d => if d.hartUp hart then d.resume hart else d

end Sys2Proof.Machine
end

