-- ==== Sys2Proof/Machine/Access.lean ====
section
/-! DEFINITION. Accesses from outside the device's engines: loads and stores of host cores (13 R489 to R491),
set-up registers (18 R661 to R673), PCIe requests through the breakwater (13 R493), and the commands of the
BMC (19 R691, R694). -/
namespace Sys2Proof.Machine

/-! ### Register writes of a hart (18 R663) -/

/-- Offsets of the node-wide Hawser registers in the blocks of ports 1 to 5 are reserved (14 R563). -/
def reservedReg (off : Nat) : Bool :=
  decide (0x210000 ≤ off ∧ off < 0x260000) && decide (0x8000 ≤ off % 0x10000) && (Reg.at? (0x200000 + off % 0x10000)).isSome

/-- LOG_INDEX is written: the record of the slot is latched (17 R653). -/
def Dev.latchLog (d : Dev) (i : Nat) : Dev :=
  let bs := d.logBytes i
  (List.range 8).foldl (fun d k => d.put F.logData_WORD (leNat ((bs.drop (8 * k)).take 8)) k) (d.put F.logIndex_INDEX i)

/-- The fault record of the selected context is cleared (12 R484). -/
def Dev.clearFault (d : Dev) : Dev :=
  d.modCtx (d.get F.segCtxSelect_CONTEXT) (fun c => { c with faultVa := 0, faultInfo := 0 })

/-- HAW_PORT_CMD is written (14 R530, R531). -/
def Dev.writePortCmd (d : Dev) (p v : Nat) : Dev :=
  let held := d.get F.hawPortCmd_DISABLE p = 1
  let d := if bit v 1 then (if held then d else d.disablePort p)
    else if held then (d.flag F.hawPortCmd_DISABLE false p).trainPort p (tget 0 d.pilot.lasers p) else d
  (if bit v 0 then d.retrain p (tget 0 d.pilot.lasers p) else d).accepted

/-- MNT_HOST_CMD is written (13 R512, R516): one command at a time. -/
def Dev.writeHostCmd (d : Dev) (h v : Nat) : Dev :=
  match bit v 0, bit v 8 with
  | true, true => d.refuse h (Reg.offset .mntHostCmd 0)
  | true, false => if d.mayHostReset then (d.hostReset 1).accepted else d.accepted
  | false, true => d.resume h
  | false, false => d.accepted

/-- Every event of a block whose owner has changed is set to 0 (11 R431). -/
def Dev.clearMoved (d : Dev) (k : Nat) (old : W64) : Dev :=
  let owner := fun (w : W64) (j : Nat) => bits w.toNat (8 * j + 7) (8 * j)
  let moved := fun (e : Nat) => e / 128 == k && owner old (e / 16 % 8) != owner (d.reg .hmEventOwner k) (e / 16 % 8)
  { d with events := d.events.filter (fun e => !moved e.1) }

/-- A hart writes a register (18 R663, R664): commands act, a refused value is answered with an error, and
any other write sets the fields it may. -/
def Dev.writeReg (d : Dev) (h : Nat) (r : Reg) (i : Nat) (w : W64) : Dev :=
  let v := w.toNat
  let no := d.refuse h (r.offset i)
  match r with
  | .hmRingCfg => d.writeRingCfg h i w
  | .hmEventValue => (d.setEvent (d.get F.hmEventSelect_EVENT) w).accepted
  | .segCtxCmd => if bits v 9 8 = 1 then d.teardown h (v % 256) else no
  | .segCtxFaultInfo => (if bit v 63 then d.clearFault else d).accepted
  | .hawConnCmd => if bits v 13 12 = 1 then d.connOpen (v % 4096)
      else if bits v 13 12 = 2 then (d.connClose (v % 4096)).accepted else no
  | .hawRouteCtrl => (d.routeSwap (bits v 10 8)).accepted
  | .hawPortCmd => d.writePortCmd i v
  | .pilCmd => d.writePilCmd h v
  | .mntResetCmd => if v % 4 = 1 then (d.requestReset 2 1 false).accepted
      else if v % 4 = 2 then (d.requestReset 1 1 false).accepted else no
  | .mntUnitReset => d.unitReset h (v % 2 ^ 16)
  | .mntPortReset => d.portReset h (v % 2 ^ 16) (bits v 17 16)
  | .mntHostCmd => d.writeHostCmd h v
  | .mntLedgerArm => d.regError (.host h) true (r.offset i) 4
  | .logIndex => (d.latchLog (v % 4096)).accepted
  | .devErrInfo => (if bit v 63 then d.setReg .devErrInfo 0 0 else d).accepted
  | .bwfDeniedInfo => (if bit v 63 then (d.setReg .bwfDeniedInfo 0 0).setReg .bwfDeniedAddr 0 0 else d).accepted
  | .tideMode => ({ d.writeFields r i w with coupledPending := true } : Dev).accepted
  | .hmEventOwner => ((d.writeFields r i w).clearMoved i (d.reg r i)).accepted
  | _ => if d.refuses r i w then no else (d.writeFields r i w).accepted

/-- A hart writes 8 aligned bytes in the register window (18 R661, R662). -/
def Dev.hostWrite (d : Dev) (h off : Nat) (w : W64) : Dev :=
  if off % 8 ≠ 0 then d.regError (.host h) true off 1
  else match Reg.at? off with
    | some (r, i) => d.writeReg h r i w
    | none => if reservedReg off then d.accepted else d.regError (.host h) true off 2

/-- A hart reads 8 aligned bytes in the register window (18 R661, R662, R665). -/
def Dev.hostRead (d : Dev) (h off : Nat) : Dev :=
  if off % 8 ≠ 0 then d.regError (.host h) false off 1
  else match Reg.at? off with
    | some (r, i) => d.answer (.ok (d.readReg r i))
    | none => if reservedReg off then d.accepted else d.regError (.host h) false off 2

/-- REGISTER_WRITE (18 R663). -/
def execRegisterWrite (hart offset : Nat) (value : W64) (s : State) : Out :=
  actUp s fun d => if d.hartUp hart && offset < 2 ^ 24 then d.hostWrite hart offset value else d

/-- LOG_INDEX_WRITE (17 R653). -/
def execLogIndexWrite (hart : Nat) (value : W64) (s : State) : Out :=
  actUp s fun d => if d.hartUp hart then d.writeReg hart .logIndex 0 value else d

/-- HM_EVENT_VALUE_WRITE (11 R459). -/
def execHmEventValueWrite (hart : Nat) (value : W64) (s : State) : Out :=
  actUp s fun d => if d.hartUp hart then d.writeReg hart .hmEventValue 0 value else d

/-! ### Loads and stores of host cores (13 R489 to R491) -/

/-- An address lies in one of the host-die spaces (13 R489). -/
def inHostSpace (pa : Nat) : Bool :=
  inImsic pa || inAplic pa || inIommu pa ||
  decide (0x22000000000 ≤ pa ∧ pa < 0x22040000000) || decide (0x40000000000 ≤ pa ∧ pa < 0x80000000000)

/-- The fault that a failed load takes, by its kind (13 R491). -/
def loadFaultOf : AccessKind → Resp
  | .fetch => .fetchFault
  | .atomic => .storeFault
  | .storeConditional => .storeFault
  | .cacheBlock => .storeFault
  | _ => .loadFault

/-- A load answers with a value of up to 8 bytes, or with its bytes. -/
def loadResp (bs : List Byte) : Resp := if bs.length ≤ 8 then .ok (BitVec.ofNat 64 (leNat bs)) else .data bs

/-- A failed access of a hart: logged, and the fault taken (03 R95, R110; 13 R491). -/
def Dev.hartFault (d : Dev) (h : Nat) (e : AccErr) (r : Resp) : Dev := (d.logAcc e (locHart h)).answer r

/-- An I/O access has one of the sizes of 13 R490 and is naturally aligned. -/
def ioOk (pa size : Nat) : Bool := [1, 2, 4, 8].contains size && pa % size == 0

/-- The line a cacheable load finds in its L2: held, or brought by a GetS; a GetM for a load that reserves
(13 R497, R502). -/
def Dev.lineFor (d : Dev) (k line : Nat) (unique : Bool) : Dev :=
  let st := d.coh.st k line
  if unique then
    if st = 2 || st = 4 then d
    else if st = 0 then (d.serve { kind := .getM, agent := k, line := line }).1
    else (d.serve { kind := .claim, agent := k, line := line }).1
  else if st = 0 then (d.serve { kind := .getS, agent := k, line := line }).1 else d

/-- A cacheable load of pool memory within one line. -/
def Dev.loadCacheable (d : Dev) (h pa size : Nat) (kind : AccessKind) : Dev :=
  match d.paErr pa size with
  | some e => d.hartFault h e (loadFaultOf kind)
  | none =>
    let d := d.lineFor (h / 8) (pa / 64) (decide (kind = .loadReserved))
    match d.coh.held (h / 8) (pa / 64) with
    | none => d.answer (loadFaultOf kind)
    | some l =>
      if l.poisoned then d.answer (loadFaultOf kind) else
      let d := if kind = .loadReserved then
          d.modCoh (fun c => { c with resv := c.resv.filter (fun r => r.1 != h) ++ [(h, pa, size)] }) else d
      d.answer (loadResp ((l.data.drop (pa % 64)).take size))

/-- A load at the unit that holds an address. -/
def Dev.loadUnit (d : Dev) (h pa size : Nat) (kind : AccessKind) : Dev :=
  let d := d.reach pa size
  match d.readPa pa size with
  | .ok bs => d.answer (loadResp bs)
  | .error e => d.hartFault h e (loadFaultOf kind)

/-- A load of a hart. -/
def Dev.hostLoad (d : Dev) (h pa size : Nat) (kind : AccessKind) (cacheable : Bool) : Dev :=
  match space pa with
  | .pool =>
    if cacheable then d.loadCacheable h pa size kind
    else if kind = .loadReserved then d.answer .storeFault
    else d.loadUnit h pa size kind
  | .warehouse _ _ =>
    if kind = .loadReserved then d.answer .storeFault
    else if ioOk pa size then d.loadUnit h pa size kind else d.answer (loadFaultOf kind)
  | .localMem _ _ =>
    if kind = .loadReserved || !ioOk pa size then d.answer (loadFaultOf kind) else d.loadUnit h pa size kind
  | .regs off => if kind = .scalar && size = 8 then d.hostRead h off
      else (d.regError (.host h) false off 1).answer (loadFaultOf kind)
  | .host =>
    if inIommu pa && ioOk pa size && kind ≠ .loadReserved then d.answer (loadResp (d.iommuLoad (pa - iommuBase) size))
    else if inAplic pa && ioOk pa size && kind ≠ .loadReserved then d.answer (loadResp (d.aplicLoad (pa - aplicBase) size))
    else if inImsic pa && kind ≠ .loadReserved then d.answer (loadResp (leBytes (min size 8) 0))
    else if inHostSpace pa && kind ≠ .loadReserved then d.draw.answer (loadResp (leBytes (min size 8) (Config.freeValue d.fresh).toNat))
    else if inHostSpace pa then d.answer .storeFault
    else d.hartFault h .unmapped (loadFaultOf kind)
  | .unmapped => d.hartFault h .unmapped (loadFaultOf kind)

/-- A pool access waits while the package is in PKG_IDLE (17 R638). -/
def Dev.poolWaits (d : Dev) (pa : Nat) : Bool := decide (pa < 2 ^ 40) && d.get F.mntPowerStatus_IN_PKG_IDLE == 1

/-- An access that the hart's L2 answers alone: a cacheable load of a line it holds, or a cacheable access
of a line that it holds in E or M (13 R497). -/
def Dev.l2Answers (d : Dev) (hart pa : Nat) (unique cacheable : Bool) : Bool :=
  let st := d.coh.st (hart / 8) (pa / 64)
  cacheable && decide (pa < 2 ^ 40) && (if unique then st == 2 || st == 4 else st != 0)

/-- An access that a hart makes as one: within a 64-byte line, by a running host; one that its L2 does not
answer waits while the hub–host link carries no traffic (01 R52). -/
def Dev.hartAccess (d : Dev) (hart pa size : Nat) (unique cacheable : Bool) : Bool :=
  decide (hart < 96) && d.host.running && decide (0 < size ∧ pa % 64 + size ≤ 64) && !d.poolWaits pa &&
    (d.hostLinkUp || d.l2Answers hart pa unique cacheable || decide (space pa = .host))

/-- HOST_LOAD (13 R489 to R491). -/
def execHostLoad (hart pa size : Nat) (kind : AccessKind) (cacheable : Bool) (s : State) : Out :=
  actUp s fun d => if d.hartAccess hart pa size (decide (kind = .loadReserved)) cacheable then d.hostLoad hart pa size kind cacheable else d

/-- The bytes a store writes: a cache-block store zeroes its block (13 R486). -/
def storeBytes (size : Nat) (kind : AccessKind) (v : W64) : List Byte :=
  if kind = .cacheBlock then List.replicate size 0 else leBytes size v.toNat

/-- A cacheable store of pool memory within one line: the line is claimed first, and a store-conditional
without its reservation stores nothing (13 R497, R502). -/
def Dev.storeCacheable (d : Dev) (h pa size : Nat) (kind : AccessKind) (v : W64) : Dev :=
  match d.paErr pa size with
  | some e => d.hartFault h e .storeFault
  | none =>
    let mine := d.coh.resv.any (fun r => r.1 == h && r.2.1 == pa && r.2.2 == size)
    let d := if kind = .storeConditional then d.modCoh (fun c => { c with resv := c.resv.filter (fun r => r.1 != h) }) else d
    if kind = .storeConditional && !mine then d.answer (.ok 1)
    else
      let d := d.lineFor (h / 8) (pa / 64) true
      match d.coh.held (h / 8) (pa / 64) with
      | none => d.answer .storeFault
      | some l =>
        if l.poisoned && size < 64 then d.answer .storeFault else
        let n := leNat (storeBytes size kind v)
        (d.storeHeld h pa size n { l with poisoned := false }).answer (.ok 0)

/-- A store at the unit that holds an address (13 R490); to a watched bell line, it wakes the ring as any
write does (11 R416). -/
def Dev.storeUnit (d : Dev) (h pa size : Nat) (kind : AccessKind) (v : W64) : Dev :=
  let d := d.meetWrite pa size
  match d.writePa pa (storeBytes size kind v) with
  | .ok d' => d'.answer (.ok 0)
  | .error e => d.hartFault h e .storeFault

/-- A store of a hart. -/
def Dev.hostStore (d : Dev) (h pa size : Nat) (kind : AccessKind) (cacheable : Bool) (v : W64) : Dev :=
  match space pa with
  | .pool =>
    if cacheable then d.storeCacheable h pa size kind v
    else if kind = .storeConditional then d.answer .storeFault
    else d.storeUnit h pa size kind v
  | .warehouse _ _ => if kind = .storeConditional || !ioOk pa size then d.answer .storeFault else d.storeUnit h pa size kind v
  | .localMem _ _ => if kind = .storeConditional || !ioOk pa size then d.answer .storeFault else d.storeUnit h pa size kind v
  | .regs off => if kind = .scalar && size = 8 then d.hostWrite h off v else d.regError (.host h) true off 1
  | .host =>
    if !inHostSpace pa then d.hartFault h .unmapped .storeFault
    else if kind = .storeConditional then d.answer .storeFault
    else if inImsic pa && size = 4 && pa % 4 = 0 then
      (d.hostMsi pa (v.toNat % 2 ^ 32)).answer (.ok 0)
    else if inAplic pa then (d.aplicStore (pa - aplicBase) size v.toNat).answer (.ok 0)
    else if inIommu pa then (d.iommuStore (pa - iommuBase) size v.toNat).answer (.ok 0)
    else d.answer (.ok 0)
  | .unmapped => d.hartFault h .unmapped .storeFault

/-- HOST_STORE (13 R489 to R491); a value wider than 8 bytes is stored only as zeros of a cache block. -/
def execHostStore (hart pa size : Nat) (kind : AccessKind) (cacheable : Bool) (value : W64) (s : State) : Out :=
  actUp s fun d => if d.hartAccess hart pa size true cacheable && (decide (size ≤ 8) || decide (kind = .cacheBlock)) then
    d.hostStore hart pa size kind cacheable value else d

/-! ### The breakwater (13 R493 to R495) -/

/-- A bounce window allows a request. -/
def Dev.windowAllows (d : Dev) (w port pa len : Nat) (write : Bool) : Bool :=
  let base := d.get F.bwfWinBase_BASE w * 2 ^ 21
  d.get F.bwfWinCfg_ENABLE w == 1 && bit (d.get F.bwfWinCfg_PORTS w) port &&
    (if write then d.get F.bwfWinCfg_W w == 1 else d.get F.bwfWinCfg_R w == 1) &&
    decide (base ≤ pa ∧ pa + len ≤ base + d.get F.bwfWinCfg_LIMIT w * 2 ^ 21)

/-- A request is denied: 1 read, 2 write, 3 malformed MSI. -/
def Dev.denyInbound (d : Dev) (port requester pa kind : Nat) : Dev :=
  let d := d.addSat F.bwfDeniedCount_COUNT 1
  let d := if d.get F.bwfDeniedInfo_VALID = 0 then
      (d.setReg .bwfDeniedAddr 0 (BitVec.ofNat 64 pa)).setReg .bwfDeniedInfo 0
        (BitVec.ofNat 64 (2 ^ 63 + requester % 2 ^ 16 * 2 ^ 8 + port % 4 * 2 ^ 6 + kind))
    else d
  (d.note 0x8201 locHub [(8, pa), (2, requester), (1, port), (1, kind)]).answer (if kind = 1 then .completerAbort else .dropped)

/-- An inbound request after IOMMU translation. -/
def Dev.inbound (d : Dev) (port requester pa len : Nat) (write : Option (List Byte)) : Dev :=
  let allowed := (List.range 16).any (fun w => d.windowAllows w port pa len write.isSome)
  match write with
  | none =>
    if allowed then
      let d := d.look pa len
      match d.hubRead pa len with
      | .ok bs => d.answer (.data bs)
      | .error e => (d.logAcc e locHub).answer .error
    else d.denyInbound port requester pa 1
  | some bs =>
    if inImsic pa && bs.length = 4 && pa % 4 = 0 then
      (d.hostMsi pa (leNat bs)).answer (.ok 0)
    else if allowed then
      let d := d.meetWrite pa bs.length
      match d.hubWrite pa bs with
      | .ok d => d.answer (.ok 0)
      | .error e => (d.logAcc e locHub).answer .error
    else d.denyInbound port requester pa (if inImsic pa then 3 else 2)

/-- A request reaches the breakwater as the IOMMU translates it; a fault of the IOMMU, a translated request and
a PASID prefix are Unsupported Requests (13 R487). In PKG_IDLE, what needs the pool waits (17 R638). -/
def Dev.rootPort (d : Dev) (port requester : Nat) (kind : InboundKind) (addr len : Nat) (write : Option (List Byte)) : Dev :=
  if kind ≠ .untranslated then d.answer .unsupported
  else if 1 < d.ioWord 16 % 16 && d.poolWaits 0 then d
  else match d.translateInbound port requester addr write.isSome with
    | (d, none) => d.answer .unsupported
    | (d, some pa) => if d.poolWaits pa then d else d.inbound port requester pa len write

/-- INBOUND_REQUEST (13 R487, R493): a write carries its bytes, a read its length. A PCIe request lies in one
4 KiB page (log entry 30). -/
def execInboundRequest (port requester : Nat) (a : InboundAddr) (len : Nat) (write : Option (List Byte)) (s : State) : Out :=
  actUp s fun d =>
    let n := (write.map List.length).getD len
    if port < 4 && 0 < n && a.addr % 4096 + n ≤ 4096 && d.hostUp then d.rootPort port requester a.kind a.addr n write else d

/-! ### The BMC (18 R673; 19 R691, R694) -/

/-- Registers the BMC reaches before release (18 R673). -/
def earlyReg (off : Nat) : Bool :=
  decide (off < 0x20000) || decide (0x50000 ≤ off ∧ off < 0x70000) || decide (0x80000 ≤ off ∧ off < 0x90000) ||
    decide (off = Reg.offset .hawNode 0)

/-- A register read of the BMC; a read of LOG_DATA reads the latched record (17 R653, 18 R673). -/
def Dev.bmcRead (d : Dev) (off : Nat) : Dev :=
  if off % 8 ≠ 0 then d.regError .bmc false off 1
  else match Reg.at? off with
    | none => if reservedReg off && d.ticking then d.accepted else d.regError .bmc false off (if reservedReg off then 5 else 2)
    | some (r, i) =>
      if !d.ticking && !earlyReg off then d.regError .bmc false off 5
      else
        let d := if r = .logData then { d with log := { d.log with
            bmcRead := max d.log.bmcRead (d.get F.logIndex_INDEX + 1) } } else d
        d.answer (.ok (d.readReg r i))

/-- Registers of the always-on island, which a stop of the clocks leaves readable: the logbook's and the
preserved-state record (15 R589, R590; 19 R690). -/
def alwaysOnReg (off : Nat) : Bool :=
  decide (0x60000 ≤ off ∧ off < 0x70000) || decide (0x80400 ≤ off ∧ off < 0x80600)

/-- REG_READ (18 R673, 19 R694); after a trip or a supply stop the BMC can still read the logbook
(15 R587, 19 R690). -/
def execRegRead (offset : Nat) (s : State) : Out :=
  act s fun d =>
    if d.clocked || (d.stopped && !d.pins.por && alwaysOnReg (offset % 2 ^ 24)) then d.bmcRead (offset % 2 ^ 24) else d

/-- A node id and torus sizes that HAW_NODE may hold (14 R519). -/
def nodeOk (v : Nat) : Bool :=
  decide (bits v 4 0 ≤ bits v 36 32 ∧ bits v 9 5 ≤ bits v 41 37 ∧ bits v 14 10 ≤ bits v 46 42)

/-- A register write of the BMC (18 R673). -/
def Dev.bmcWrite (d : Dev) (off : Nat) (w : W64) : Dev :=
  let v := w.toNat
  let no := fun (c : Nat) => d.regError .bmc true off c
  if off % 8 ≠ 0 then no 1
  else match Reg.at? off with
    | none => no (if reservedReg off then 5 else 2)
    | some (.lkpCap, _) =>
      let x := bits v F.lkpCap_BOARD_CAP_W.hi F.lkpCap_BOARD_CAP_W.lo
      if x < 3600 || 7200 < x then no 3
      else if d.phase ≤ 1 then (d.modPilot (fun p => { p with boardCap := some x })).accepted
      else (d.setBoardCap x).accepted
    | some (.lkpCoolant, _) => (d.put F.lkpCoolant_INLET_C (v % 256)).accepted
    | some (.hawNode, _) =>
      if d.ticking || !nodeOk v then no 3
      else ((((d.put F.hawNode_NODE (bits v 14 0)).put F.hawNode_XM1 (bits v 36 32)).put F.hawNode_YM1 (bits v 41 37)).put
        F.hawNode_ZM1 (bits v 46 42)).accepted
    | some (.mntLedgerArm, _) =>
      if bit v 0 then
        (({ d with ledger := { d.ledger with armedAt := d.now } } : Dev).flag F.mntLedgerArm_ARMED true).accepted
      else no 3
    | some (.devAssetTag, _) =>
      if d.ticking then d.accepted
      else if d.phase = 3 || d.phase = 4 then (d.setReg .devAssetTag 0 w).accepted
      else (d.modPilot (fun p => { p with earlyTag := some w })).accepted
    | some _ => no 5

/-- REG_WRITE (18 R673, 19 R694). -/
def execRegWrite (offset : Nat) (value : W64) (s : State) : Out := actOn s fun d => d.bmcWrite (offset % 2 ^ 24) value

/-- RESET (19 R694): 1 DEV_WARM, 2 PKG_COLD, with source 2. -/
def execReset (kind : Nat) (s : State) : Out :=
  actOn s fun d =>
    if kind = 1 then (d.requestReset 2 2 false).accepted
    else if kind = 2 then (d.requestReset 1 2 false).accepted
    else d.regError .bmc true 0 3

/-- ALERT_ACK (19 R691): DEV_ALERT_N is released unless a cause has arisen after the latest record that the
BMC has read. -/
def execAlertAck (s : State) : Out :=
  actOn s fun d =>
    (if d.log.alertCause ≤ d.log.bmcRead then { d with pins := { d.pins with alert := false } } else d).accepted

end Sys2Proof.Machine
end

