-- ==== Sys2Proof/Machine/Admit.lean ====
section
/-! DEFINITION. The admission cut (02 R66 to R74, R79; 11 R437): capacity, carry, eligibility and the three
passes of R72. -/
namespace Sys2Proof.Machine

/-- CAP of a tide (02 R66). -/
def capOf (period reserve : Nat) : Nat := period * 7 / 10 * (256 - reserve) / 256

/-- CAP of the tide being admitted. -/
def Dev.nextCap (d : Dev) : Nat := capOf d.nextPeriod d.reserve

/-! ### Carry (02 R65, R74, R79) -/

/-- The time from which a launch's consumption is still to be charged, once it has overrun. -/
def Launch.chargeFrom (l : Launch) (t : Nat) : Nat := max t (max (l.tickAfter.getD 0) l.chargedTo)

/-- The launch a cluster without a running one waits for: the first released on it. -/
def Dev.waitingOn (d : Dev) (lc : Nat) : Option Launch :=
  let ls := d.launches.filter (fun l => l.start.isNone && l.clusters.contains lc)
  ls.foldl (fun best l => match best with
    | none => some l
    | some b => if l.order < b.order then some l else best) none

/-- Nanoseconds of a cluster's overrun not yet charged: launches that have ended, the one that runs, and
its waiting for a slower cluster (02 R74, R79). -/
def Dev.carryNs (d : Dev) (lc : Nat) : Nat :=
  let c := d.cluster lc
  c.charge + match d.launchOnCluster lc with
    | some l => if l.tickAfter.isSome then d.now - l.chargeFrom (l.start.getD d.now) else 0
    | none => match d.waitingOn lc with
      | some l => if l.tickAfter.isSome && decide (1 < l.clusters.length) then d.now - l.chargeFrom c.freeSince else 0
      | none => 0

/-- AGEING takes the whole of a die's clusters while it runs (17 R646). -/
def Dev.ageingOn (d : Dev) (ld : Nat) : Bool :=
  d.items.any (fun it => it.typ == tMaint && it.activity == 5 && it.started && it.phase != .finished && d.dieAt it.target == some ld)

/-- Ten times cap(c) (02 R72): carry is an exact rational of reference cycles. -/
def Dev.cap10 (d : Dev) (lc : Nat) : Nat := if d.ageingOn (lc / 4) then 0 else 10 * d.nextCap - 7 * d.carryNs lc

/-- The overrun counted at a cut is charged (02 R79). -/
def Dev.chargeAll (d : Dev) : Dev :=
  { d with
    clusters := tcanon .new (d.clusters.map (fun e => (e.1, { e.2 with charge := 0 })))
    launches := d.launches.map (fun l => { l with chargedTo := d.now }) }

/-! ### Eligibility (02 R68, 11 R427, R431, R437) -/

/-- Every dependency of an item has completed: a completed item is no longer in hand. -/
def Dev.eligible (d : Dev) (it : Item) : Bool :=
  let prior := d.items.filter (fun o => o.ring == it.ring && decide ((it.index + 2 ^ 32 - o.index) % 2 ^ 32 < 2 ^ 31) && o.index != it.index)
  let scope1 := it.typ == tFence && it.f 1 0 0 == 1
  (!it.fenceBefore || prior.isEmpty) &&
  (!it.ordered || !prior.any (fun o => (o.index + 1) % 2 ^ 32 == it.index)) &&
  (!(it.typ == tFence && !scope1) || prior.isEmpty) &&
  (!scope1 || !d.items.any (fun o => o.ctx == it.ctx && o.phase != .fetched && decide (o.cut < d.get F.tideCount_VALUE + 1))) &&
  (it.typ != tWait || decide (it.w 2 ≤ (d.event it.event).toNat))

/-! ### The three passes (02 R72, R73) -/

/-- The cut in progress: what each cluster has given, what a ring has of its own share, and the clusters
closed to passes 1 and 2. -/
structure Cut where
  d : Dev
  used : Tbl Nat := []
  own : Tbl Nat := []
  closed : List Nat := []

/-- The oldest item of a ring that is not admitted. -/
def Dev.head? (d : Dev) (n : Nat) : Option Item := d.items.find? (fun it => it.ring == n && it.phase == .fetched)

/-- A launch that its own checks end takes no capacity (02 R70, 11 R457). -/
def Dev.takesCapacity (d : Dev) (it : Item) : Bool :=
  it.isLaunch && (match it.launchVerdict d.nextCap with | .run _ => true | _ => false)

/-- Admit a ring's head for the next tide; a MOVE or CRANE item gets its engine (03 R104). -/
def Cut.admitItem (c : Cut) (it : Item) (share : Bool) : Cut :=
  let n := c.d.orders
  let e := c.d.chooseEngine it
  let d := c.d.modItem it.ring it.index (fun i => if i.phase ≠ .fetched then i else { i with
    phase := .admitted, cut := c.d.get F.tideCount_VALUE + 1, order := n, promoted := false
    engine := e.getD 0, assigned := e.isSome })
  let d : Dev := { d with orders := n + 1 }
  if c.d.takesCapacity it then
    let add := fun (t : Tbl Nat) => it.launchClusters.foldl (fun t lc => tset 0 t lc (tget 0 t lc + it.budget)) t
    { c with d := d, used := add c.used, own := if share then add c.own else c.own }
  else { c with d := d }

/-- The head fits in cap(c) − used[c] on every cluster it names. -/
def Cut.fits (c : Cut) (it : Item) : Bool :=
  !c.d.takesCapacity it ||
    it.launchClusters.all (fun lc => decide (10 * (tget 0 c.used lc + it.budget) ≤ c.d.cap10 lc))

/-- The head names no closed cluster, unless it takes no capacity. -/
def Cut.isOpen (c : Cut) (it : Item) : Bool :=
  !c.d.takesCapacity it || !it.launchClusters.any c.closed.contains

/-- The head fits in the ring's share on every cluster it names. -/
def Cut.inShare (c : Cut) (it : Item) (share : Nat) : Bool :=
  !c.d.takesCapacity it ||
    it.launchClusters.all (fun lc => decide (tget 0 c.own lc + it.budget ≤ c.d.cap10 lc * share / 2560))

/-- Share of a ring in 1/256 units (02 R71). -/
def Dev.share (d : Dev) (n : Nat) : Nat := bits (d.reg .tideRingShare (n / 8)).toNat (8 * (n % 8) + 7) (8 * (n % 8))

/-- Pass 0 for one ring: an eligible promoted head launch closes its clusters, admitted or not. -/
def Cut.promotedRing (c : Cut) (n : Nat) : Cut :=
  match c.d.head? n with
  | some it =>
    if it.isLaunch && it.promoted && c.d.eligible it then
      let c := if c.fits it then c.admitItem it false else c
      { c with closed := c.closed ++ it.launchClusters }
    else c
  | none => c

/-- Admit heads of a ring while they are eligible and fit; with a share, within it (pass 1). -/
def Cut.ring (n : Nat) (share : Option Nat) : Nat → Cut → Cut
  | 0, c => c
  | fuel + 1, c => match c.d.head? n with
    | some it =>
      if c.d.eligible it && c.fits it && c.isOpen it && (match share with | some s => c.inShare it s | none => true) then
        Cut.ring n share fuel (c.admitItem it share.isSome)
      else c
    | none => c

/-- Rings whose items take part: not DISABLED, HELD or STOPPED (11 R423, 02 R62). -/
def Dev.cutRings (d : Dev) : List Nat :=
  (List.range 1024).filter (fun n => [1, 2, 5, 6].contains (d.ringState n) && (d.head? n).isSome)

/-- A head that has been held at STARVE_LIMIT cuts is promoted, once (02 R73). -/
def Dev.promote (d : Dev) (n : Nat) : Dev :=
  match d.head? n with
  | some it =>
    if it.isLaunch && !it.promoted && decide (d.get F.tideAdmitCfg_STARVE_LIMIT ≤ it.heldCuts) then
      (d.modItem it.ring it.index (fun i => { i with promoted := true })).note 0x7203 0 [(2, n)]
    else d
  | none => d

/-- A head left by a cut has been held once more. -/
def Dev.held (d : Dev) (n : Nat) : Dev :=
  match d.head? n with
  | some it => (d.modItem it.ring it.index (fun i => { i with heldCuts := i.heldCuts + 1 })).promote n
  | none => d

/-- The cut for the next tide (02 R72): the period and reserve it will run with, three passes, and the
charge of what overran. -/
def Dev.cut (d : Dev) : Dev :=
  let d : Dev := { d with nextPeriod := d.get F.tidePeriodNs_PERIOD, reserve := d.get F.tideReserve_RESERVE }
  let rings := d.cutRings
  let fuel := d.items.length + 1
  let d := rings.foldl Dev.promote d
  let c := rings.foldl Cut.promotedRing { d := d }
  let c := rings.foldl (fun c n => Cut.ring n (some (c.d.share n)) fuel { c with own := [] }) c
  let first := rings.filter (fun n => decide (d.passStart ≤ n))
  let c := (first ++ rings.filter (fun n => decide (n < d.passStart))).foldl (fun c n => Cut.ring n none fuel c) c
  let d := (rings.foldl Dev.held c.d).chargeAll
  { d with cutDone := true, passStart := (d.passStart + 1) % 1024 }

/-- The time of a cut has come: 15/16 of the tide (02 R67). -/
def Dev.cutDue (d : Dev) : Bool :=
  !d.cutDone && d.reset.isNone && decide (15 * d.period ≤ 16 * (d.now - d.get F.tideLastTickNs_VALUE))

/-- ADMISSION_CUT (02 R72). -/
def execAdmissionCut (s : State) : Out := actUp s fun d => if d.cutDue then d.cut else d

end Sys2Proof.Machine
end

