-- ==== Sys2Proof/Machine/Flags.lean ====
section
/-! DEFINITION. The accrued exception flags of the control core and of gang threads (05 R200, R202; 08
R308): the RISC-V F and D operations on codes, each result with its flags NV 16, DZ 8, OF 4, UF 2,
NX 1. -/
namespace Sys2Proof.Machine

/-- A float result and the flags it accrues. -/
structure FRes where
  code : Nat
  flags : Nat := 0
  deriving DecidableEq, Repr, Inhabited

/-- The flags. -/
def fNV : Nat := 16
def fDZ : Nat := 8
def fOF : Nat := 4
def fUF : Nat := 2
def fNX : Nat := 1

/-- A signalling NaN. -/
def FpFmt.snan (p : FpFmt) (c : Nat) : Bool := decide (p.decode c = .nan) && !bit c (p.mb - 1)

/-- What an overflow writes in each rounding mode (IEEE 754-2019, 05 R202). -/
def FpFmt.overflowCode (p : FpFmt) (neg : Bool) (m : Mode) : Nat :=
  let inf := signed p.sign neg (p.inf.getD 0)
  let top := signed p.sign neg (p.maxE * 2 ^ p.mb + p.maxM)
  match m with
  | .rtz => top
  | .rdn => if neg then inf else top
  | .rup => if neg then top else inf
  | _ => inf

/-- A nonzero magnitude is tiny after rounding: rounded with the exponent range unbounded below, it
lies under the smallest normal number. -/
def FpFmt.tiny (p : FpFmt) (x : QR) (neg : Bool) (m : Mode) : Bool :=
  let r := ({ p with bias := p.bias + 100000 } : FpFmt).roundMag x neg m
  decide (r.2 + (p.mb : Int) < 1 - p.bias)

/-- Round an exact value, with the flags of the rounding. -/
def FpFmt.roundF (p : FpFmt) (m : Mode) (v : FV) : FRes :=
  match v with
  | .nan => ⟨p.nan, 0⟩
  | .inf neg => ⟨signed p.sign neg (p.inf.getD 0), 0⟩
  | .fin x nz =>
    if x.sign = 0 then ⟨signed p.sign nz 0, 0⟩
    else
      let neg := decide (x.sign < 0)
      let r := p.roundMag x.abs neg m
      let e : Int := if r.1 < 2 ^ p.mb then 0 else r.2 + (p.mb : Int) + p.bias
      if (p.maxE : Int) < e then ⟨p.overflowCode neg m, fOF + fNX⟩
      else
        let body := if r.1 < 2 ^ p.mb then r.1 else e.toNat * 2 ^ p.mb + (r.1 - 2 ^ p.mb)
        let code := signed p.sign neg body
        let exact := match p.decode code with | .fin y _ => (y.sub x).sign == 0 | _ => false
        ⟨code, if exact then 0 else if p.tiny x.abs neg m then fUF + fNX else fNX⟩

/-- A value computed from operand codes: NaN results of operands without a NaN, and signalling NaN
operands, raise NV. -/
def FpFmt.finishF (p : FpFmt) (m : Mode) (ops : List Nat) (v : FV) : FRes :=
  let nanIn := ops.any (fun c => decide (p.decode c = .nan))
  let nv := ops.any p.snan || (decide (v = .nan) && !nanIn)
  let r := p.roundF m v
  { r with flags := if nv then r.flags ||| fNV else r.flags }

/-- The exact sum with the sign IEEE 754 gives a zero sum in each mode. -/
def addSigned (m : Mode) (a b : FV) : FV :=
  match a.add b with
  | .fin x nz =>
    if x.sign = 0 then
      .fin x ((a.neg? && b.neg?) || ((a.neg? || b.neg?) && decide (m = .rdn)))
    else .fin x nz
  | v => v

/-- FADD and FSUB. -/
def FpFmt.addF (p : FpFmt) (m : Mode) (sub : Bool) (a b : Nat) : FRes :=
  let y := if sub then (p.decode b).negate else p.decode b
  p.finishF m [a, b] (addSigned m (p.decode a) y)

/-- FMUL. -/
def FpFmt.mulF (p : FpFmt) (m : Mode) (a b : Nat) : FRes :=
  p.finishF m [a, b] ((p.decode a).mul (p.decode b))

/-- FDIV; a finite nonzero value over zero raises DZ. -/
def FpFmt.divF (p : FpFmt) (m : Mode) (a b : Nat) : FRes :=
  let x := p.decode a
  let y := p.decode b
  let r := p.finishF m [a, b] (x.div y)
  match x with
  | .fin q _ => if q.sign ≠ 0 && y.isZero then { r with flags := r.flags ||| fDZ } else r
  | _ => r

/-- A value whose rounding to at most `n` bits is that of √x, for rational x > 0. -/
def QR.sqrtNear (n : Nat) (x : QR) : QR :=
  let s : Int := (n : Int) + 3 - x.expo / 2
  let y := x.shift (2 * s)
  let f := y.floor
  let r := isqrt (n + 6) f
  let exact := ((QR.ofInt (Int.ofNat (r * r))).sub y).sign == 0
  (if exact then QR.ofInt (Int.ofNat r) else QR.ofRat (Int.ofNat (2 * r + 1)) 2).shift (-s)

/-- FSQRT. -/
def FpFmt.sqrtF (p : FpFmt) (m : Mode) (a : Nat) : FRes :=
  let v := match p.decode a with
    | .nan => FV.nan
    | .inf neg => if neg then .nan else .inf false
    | .fin x nz => if x.sign = 0 then .fin x nz else if x.sign < 0 then .nan else .of (x.sqrtNear (p.mb + 2))
  p.finishF m [a] v

/-- FMADD and its kin: ±(a × b) ± c rounded once; infinity times zero raises NV even beside a NaN. -/
def FpFmt.fmaF (p : FpFmt) (m : Mode) (negProd negC : Bool) (a b c : Nat) : FRes :=
  let x := (p.decode a).mul (p.decode b)
  let x := if negProd then x.negate else x
  let y := if negC then (p.decode c).negate else p.decode c
  let r := p.finishF m [a, b, c] (addSigned m x y)
  let badMul := decide (x = .nan) && !([a, b].any (fun c => decide (p.decode c = .nan)))
  if badMul then { r with flags := r.flags ||| fNV } else r

/-- FMIN and FMAX: the other operand's bits when one is NaN. -/
def FpFmt.minMaxF (p : FpFmt) (isMax : Bool) (a b : Nat) : FRes :=
  let fl := if p.snan a || p.snan b then fNV else 0
  let x := p.decode a
  let y := p.decode b
  match decide (x = .nan), decide (y = .nan) with
  | true, true => ⟨p.nan, fl⟩
  | true, false => ⟨b, fl⟩
  | false, true => ⟨a, fl⟩
  | false, false =>
    let less := x.lt y || (x.eq y && x.neg? && !y.neg?)
    ⟨if less == isMax then b else a, fl⟩

/-- FEQ, FLT and FLE as f3 2, 1 and 0: quiet and signalling comparisons. -/
def FpFmt.cmpF (p : FpFmt) (f3 a b : Nat) : FRes :=
  let x := p.decode a
  let y := p.decode b
  let nan := decide (x = .nan) || decide (y = .nan)
  if f3 = 2 then ⟨b2n (!nan && x.eq y), if p.snan a || p.snan b then fNV else 0⟩
  else ⟨b2n (!nan && (x.lt y || (f3 == 0 && x.eq y))), if nan then fNV else 0⟩

/-- Round a value to an integer range, with flags. -/
def toIntF (m : Mode) (lo hi : Int) (v : FV) : Int × Nat :=
  match v with
  | .nan => (hi, fNV)
  | .inf neg => (if neg then lo else hi, fNV)
  | .fin x _ =>
    let neg := decide (x.sign < 0)
    let a := x.abs
    let f : Nat := a.floor
    let i : Nat := pick f (a.sub (QR.ofInt (Int.ofNat f))) neg m
    let n : Int := if neg then -(Int.ofNat i) else Int.ofNat i
    if n < lo then (lo, fNV) else if hi < n then (hi, fNV)
    else (n, if ((QR.ofInt n).sub x).sign = 0 then 0 else fNX)

/-- FCLASS. -/
def FpFmt.classF (p : FpFmt) (c : Nat) : Nat :=
  match p.decode c with
  | .nan => if p.snan c then 256 else 512
  | .inf neg => if neg then 1 else 128
  | .fin x nz =>
    if x.sign = 0 then (if nz then 8 else 16)
    else
      let sub := decide (x.abs.expo < 1 - p.bias)
      if x.sign < 0 then (if sub then 4 else 2) else (if sub then 32 else 64)

/-- A rounding mode of the F and D extensions; none for the reserved values. -/
def frmMode (rm frm : Nat) : Option Mode :=
  match (if rm = 7 then frm else rm) with
  | 0 => some .rne
  | 1 => some .rtz
  | 2 => some .rdn
  | 3 => some .rup
  | 4 => some .rmm
  | _ => none

end Sys2Proof.Machine
end

