-- ==== Sys2Proof/Machine/Rv.lean ====
section
/-! DEFINITION. The RISC-V instructions of the control core (05 R200 to R206: RV64IMAFD, Zicsr,
Zifencei, Zba, Zbb) and of gang threads (08 R306: RV64IMAF, Zicsr): decoding a word, its register
operands, and what it does to a register context. Accesses to memory are answered as actions for the
core or the gang to perform. -/
namespace Sys2Proof.Machine

/-- What a decoded instruction asks for. -/
inductive RvAct where
  /-- It retires with this register context, its pc moved on. -/
  | next (h : Hart)
  | illegal
  /-- A jump or taken branch to a misaligned target (05 R213). -/
  | misaligned (va : W64)
  | load (rd : Nat) (fp : Bool) (size : Nat) (signed : Bool) (va : W64)
  | store (size : Nat) (va : W64) (val : Nat)
  | amo (rd : Nat) (op : AtomicOp) (wide : Bool) (va : W64) (x : W64)
  | lr (rd size : Nat) (va : W64)
  | sc (rd size : Nat) (va : W64) (val : Nat)
  | fence
  | fenceI
  | ecall
  | ebreak
  /-- One of the custom opcode spaces 0 to 3 (05 R215). -/
  | custom (space : Nat)
  deriving DecidableEq, Repr, Inhabited

/-- Bits [hi:lo] of an instruction word. -/
def wbits (w : W32) (hi lo : Nat) : Nat := bits w.toNat hi lo

def opc (w : W32) : Nat := wbits w 6 0
def rdOf (w : W32) : Nat := wbits w 11 7
def f3Of (w : W32) : Nat := wbits w 14 12
def rs1Of (w : W32) : Nat := wbits w 19 15
def rs2Of (w : W32) : Nat := wbits w 24 20
def rs3Of (w : W32) : Nat := wbits w 31 27
def f7Of (w : W32) : Nat := wbits w 31 25

/-- Immediates of the I, S, B, U and J types. -/
def immI (w : W32) : W64 := sext 12 (wbits w 31 20)
def immS (w : W32) : W64 := sext 12 (wbits w 31 25 * 32 + wbits w 11 7)
def immB (w : W32) : W64 :=
  sext 13 (wbits w 31 31 * 4096 + wbits w 7 7 * 2048 + wbits w 30 25 * 32 + wbits w 11 8 * 2)
def immU (w : W32) : W64 := sext 32 (wbits w 31 12 * 4096)
def immJ (w : W32) : W64 :=
  sext 21 (wbits w 31 31 * 2 ^ 20 + wbits w 19 12 * 4096 + wbits w 20 20 * 2048 + wbits w 30 21 * 2)

/-! ### Registers -/

/-- x[i]; x0 reads 0. -/
def Hart.getX (h : Hart) (i : Nat) : W64 := if i = 0 then 0 else tget 0 h.x i
/-- Write x[i]; a write to x0 has no effect. -/
def Hart.setX (h : Hart) (i : Nat) (v : W64) : Hart := if i = 0 then h else { h with x := tset 0 h.x i v }
/-- f[i] as it is held. -/
def Hart.getF (h : Hart) (i : Nat) : W64 := tget 0 h.f i
/-- Write f[i] whole. -/
def Hart.setF (h : Hart) (i : Nat) (v : W64) : Hart := { h with f := tset 0 h.f i v }
/-- Move on to the next instruction and count this one. -/
def Hart.retire (h : Hart) : Hart := { h with pc := h.pc + 4, instret := h.instret + 1 }
/-- Move to a jump target and count this instruction. -/
def Hart.jump (h : Hart) (pc : W64) : Hart := { h with pc := pc, instret := h.instret + 1 }

/-- A binary32 value in a 64-bit register, NaN-boxed. -/
def boxS (c : Nat) : W64 := BitVec.ofNat 64 (0xFFFFFFFF00000000 + c % 2 ^ 32)
/-- A register read as binary32 under the NaN-boxing rule. -/
def unboxS (v : W64) : Nat := if v.toNat / 2 ^ 32 = 0xFFFFFFFF then v.toNat % 2 ^ 32 else fpF32.nan

/-- What differs between the control core and a thread: FLEN 64 with D, Zba, Zbb and Zifencei, or FLEN
32 without them (05 R200, 08 R306). -/
structure RvCfg where
  core : Bool
  /-- The read-only CSRs (05 R202, 08 R308). -/
  csr : Nat → Option W64

/-- f[i] as binary32. -/
def RvCfg.getS (c : RvCfg) (h : Hart) (i : Nat) : Nat :=
  if c.core then unboxS (h.getF i) else (h.getF i).toNat % 2 ^ 32
/-- Write f[i] with a binary32 code. -/
def RvCfg.setS (c : RvCfg) (h : Hart) (i v : Nat) : Hart :=
  h.setF i (if c.core then boxS v else BitVec.ofNat 64 (v % 2 ^ 32))

/-- frm and fflags of fcsr. -/
def Hart.frm (h : Hart) : Nat := bits h.fcsr 7 5
/-- Accrue exception flags. -/
def Hart.accrue (h : Hart) (fl : Nat) : Hart := { h with fcsr := h.fcsr ||| fl % 32 }

/-! ### Integer operations -/

/-- Sign-extend the low 32 bits. -/
def sx32 (v : W64) : W64 := sext 32 v.toNat

/-- Division and remainder of two's-complement or unsigned numbers of `n` bits (RISC-V M). -/
def divOp (n : Nat) (signed rem : Bool) (a b : Nat) : Nat :=
  if signed then
    let x := toInt n a
    let y := toInt n b
    if y = 0 then (if rem then a else 2 ^ n - 1)
    else ofInt n (if rem then x.tmod y else x.tdiv y)
  else if b = 0 then (if rem then a else 2 ^ n - 1)
  else if rem then a % b else a / b

/-- Leading zeros, trailing zeros and ones of an `n`-bit number. -/
def clzN (n v : Nat) : Nat := if v = 0 then n else n - 1 - v.log2
def ctzN (n v : Nat) : Nat := ((List.range n).find? (fun i => v.testBit i)).getD n
def popN (n v : Nat) : Nat := ((List.range n).filter (fun i => v.testBit i)).length

/-- Rotate an `n`-bit number right. -/
def rorN (n v k : Nat) : Nat :=
  let k := k % n
  (v / 2 ^ k + v % 2 ^ k * 2 ^ (n - k)) % 2 ^ n

/-- ORC.B and REV8. -/
def orcB (v : Nat) : Nat := leNat ((leBytes 8 v).map (fun b => if b = 0 then 0#8 else 0xFF#8))
def rev8 (v : Nat) : Nat := leNat (leBytes 8 v).reverse

/-- A number as a register value. -/
def w64 (n : Nat) : W64 := BitVec.ofNat 64 n

/-- OP: register-register operations of 64 bits. -/
def aluOp (zb : Bool) (f7 f3 : Nat) (a b : W64) : Option W64 :=
  let x := a.toNat
  let y := b.toNat
  let z := fun (v : W64) => if zb then some v else none
  match f7, f3 with
  | 0x00, 0 => some (a + b)
  | 0x20, 0 => some (a - b)
  | 0x00, 1 => some (a <<< (y % 64))
  | 0x00, 2 => some (w64 (b2n (a.slt b)))
  | 0x00, 3 => some (w64 (b2n (a.ult b)))
  | 0x00, 4 => some (a ^^^ b)
  | 0x00, 5 => some (a >>> (y % 64))
  | 0x20, 5 => some (a.sshiftRight (y % 64))
  | 0x00, 6 => some (a ||| b)
  | 0x00, 7 => some (a &&& b)
  | 0x01, 0 => some (a * b)
  | 0x01, 1 => some (w64 (ofInt 64 (toInt 64 x * toInt 64 y / (2 ^ 64 : Int))))
  | 0x01, 2 => some (w64 (ofInt 64 (toInt 64 x * (Int.ofNat y) / (2 ^ 64 : Int))))
  | 0x01, 3 => some (w64 (x * y / 2 ^ 64))
  | 0x01, 4 => some (w64 (divOp 64 true false x y))
  | 0x01, 5 => some (w64 (divOp 64 false false x y))
  | 0x01, 6 => some (w64 (divOp 64 true true x y))
  | 0x01, 7 => some (w64 (divOp 64 false true x y))
  | 0x10, 2 => z ((a <<< 1) + b)
  | 0x10, 4 => z ((a <<< 2) + b)
  | 0x10, 6 => z ((a <<< 3) + b)
  | 0x20, 7 => z (a &&& ~~~b)
  | 0x20, 6 => z (a ||| ~~~b)
  | 0x20, 4 => z (a ^^^ ~~~b)
  | 0x05, 4 => z (if a.slt b then a else b)
  | 0x05, 5 => z (if a.ult b then a else b)
  | 0x05, 6 => z (if a.slt b then b else a)
  | 0x05, 7 => z (if a.ult b then b else a)
  | 0x30, 1 => z (w64 (rorN 64 x (64 - y % 64)))
  | 0x30, 5 => z (w64 (rorN 64 x (y % 64)))
  | _, _ => none

/-- OP-32: register-register operations of 32 bits; `rs2` is the field itself. -/
def aluOp32 (zb : Bool) (f7 f3 rs2 : Nat) (a b : W64) : Option W64 :=
  let x := a.toNat % 2 ^ 32
  let y := b.toNat % 2 ^ 32
  let s := fun (n : Nat) => some (sext 32 n)
  let z := fun (v : W64) => if zb then some v else none
  match f7, f3 with
  | 0x00, 0 => s (x + y)
  | 0x20, 0 => s (x + (2 ^ 32 - y))
  | 0x00, 1 => s (x * 2 ^ (y % 32))
  | 0x00, 5 => s (x / 2 ^ (y % 32))
  | 0x20, 5 => some (BitVec.ofInt 64 (toInt 32 x / (2 ^ (y % 32) : Nat)))
  | 0x01, 0 => s (x * y)
  | 0x01, 4 => s (divOp 32 true false x y)
  | 0x01, 5 => s (divOp 32 false false x y)
  | 0x01, 6 => s (divOp 32 true true x y)
  | 0x01, 7 => s (divOp 32 false true x y)
  | 0x04, 0 => z (w64 x + b)
  | 0x10, 2 => z ((w64 x <<< 1) + b)
  | 0x10, 4 => z ((w64 x <<< 2) + b)
  | 0x10, 6 => z ((w64 x <<< 3) + b)
  | 0x04, 4 => if rs2 = 0 then z (w64 (x % 2 ^ 16)) else none
  | 0x30, 1 => z (sext 32 (rorN 32 x (32 - y % 32)))
  | 0x30, 5 => z (sext 32 (rorN 32 x (y % 32)))
  | _, _ => none

/-- OP-IMM. -/
def aluImm (zb : Bool) (w : W32) (a : W64) : Option W64 :=
  let i := immI w
  let sh := wbits w 25 20
  let top := wbits w 31 26
  let full := wbits w 31 20
  let x := a.toNat
  let z := fun (v : W64) => if zb then some v else none
  match f3Of w with
  | 0 => some (a + i)
  | 2 => some (w64 (b2n (a.slt i)))
  | 3 => some (w64 (b2n (a.ult i)))
  | 4 => some (a ^^^ i)
  | 6 => some (a ||| i)
  | 7 => some (a &&& i)
  | 1 =>
    if top = 0 then some (a <<< sh)
    else match full with
      | 0x600 => z (w64 (clzN 64 x))
      | 0x601 => z (w64 (ctzN 64 x))
      | 0x602 => z (w64 (popN 64 x))
      | 0x604 => z (sext 8 x)
      | 0x605 => z (sext 16 x)
      | _ => none
  | _ =>
    if top = 0 then some (a >>> sh)
    else if top = 0x10 then some (a.sshiftRight sh)
    else if top = 0x18 then z (w64 (rorN 64 x sh))
    else match full with
      | 0x287 => z (w64 (orcB x))
      | 0x6B8 => z (w64 (rev8 x))
      | _ => none

/-- OP-IMM-32. -/
def aluImm32 (zb : Bool) (w : W32) (a : W64) : Option W64 :=
  let x := a.toNat % 2 ^ 32
  let sh := rs2Of w
  let z := fun (v : W64) => if zb then some v else none
  match f3Of w with
  | 0 => some (sx32 (a + immI w))
  | 1 =>
    if f7Of w = 0 then some (sext 32 (x * 2 ^ sh))
    else if wbits w 31 26 = 2 then z (w64 x <<< wbits w 25 20)
    else match wbits w 31 20 with
      | 0x600 => z (w64 (clzN 32 x))
      | 0x601 => z (w64 (ctzN 32 x))
      | 0x602 => z (w64 (popN 32 x))
      | _ => none
  | 5 =>
    match f7Of w with
    | 0x00 => some (sext 32 (x / 2 ^ sh))
    | 0x20 => some (BitVec.ofInt 64 (toInt 32 x / (2 ^ sh : Nat)))
    | 0x30 => z (sext 32 (rorN 32 x sh))
    | _ => none
  | _ => none

/-- A branch is taken; none for the reserved conditions. -/
def branchTaken (f3 : Nat) (a b : W64) : Option Bool :=
  match f3 with
  | 0 => some (a == b)
  | 1 => some (a != b)
  | 4 => some (a.slt b)
  | 5 => some (!a.slt b)
  | 6 => some (a.ult b)
  | 7 => some (!a.ult b)
  | _ => none

/-- Go to a target, which must be 4-byte aligned. -/
def jumpTo (h : Hart) (target : W64) : RvAct :=
  if target.toNat % 4 = 0 then .next (h.jump target) else .misaligned target

/-! ### CSRs (05 R202, 08 R308) -/

/-- The value of a CSR. -/
def RvCfg.readCsr (c : RvCfg) (h : Hart) (n : Nat) : Option W64 :=
  match n with
  | 1 => some (w64 (bits h.fcsr 4 0))
  | 2 => some (w64 h.frm)
  | 3 => some (w64 (bits h.fcsr 7 0))
  | _ => c.csr n

/-- Write a CSR; none for a read-only one. -/
def writeCsr (h : Hart) (n : Nat) (v : W64) : Option Hart :=
  match n with
  | 1 => some { h with fcsr := setBits h.fcsr 4 0 v.toNat }
  | 2 => some { h with fcsr := setBits h.fcsr 7 5 v.toNat }
  | 3 => some { h with fcsr := v.toNat % 256 }
  | _ => none

/-- A Zicsr instruction: 1 CSRRW, 2 CSRRS, 3 CSRRC on x[rs1], 5 to 7 on the 5-bit immediate. -/
def csrOp (c : RvCfg) (h : Hart) (w : W32) : RvAct :=
  let n := wbits w 31 20
  let f3 := f3Of w
  let a := if 4 ≤ f3 then w64 (rs1Of w) else h.getX (rs1Of w)
  match c.readCsr h n with
  | none => .illegal
  | some old =>
    let wr := f3 % 4 = 1 || rs1Of w ≠ 0
    let new := match f3 % 4 with
      | 1 => a
      | 2 => old ||| a
      | _ => old &&& ~~~a
    if wr then
      match writeCsr h n new with
      | none => .illegal
      | some h => .next (h.setX (rdOf w) old).retire
    else .next (h.setX (rdOf w) old).retire

/-! ### Floating point -/

/-- A float format of an OP-FP instruction: its code 0 binary32, 1 binary64 where D is present. -/
def RvCfg.fmt (c : RvCfg) (k : Nat) : Option FpFmt :=
  match k with
  | 0 => some fpF32
  | 1 => if c.core then some fpF64 else none
  | _ => none

/-- f[i] in the format of code `k`. -/
def RvCfg.getFp (c : RvCfg) (h : Hart) (k i : Nat) : Nat :=
  if k = 0 then c.getS h i else (h.getF i).toNat
/-- Write f[i] in the format of code `k` with the flags of the result, and retire. -/
def RvCfg.putFp (c : RvCfg) (h : Hart) (k i : Nat) (r : FRes) : RvAct :=
  let h := if k = 0 then c.setS h i r.code else h.setF i (w64 r.code)
  .next (h.accrue r.flags).retire
/-- Write x[i] with flags, and retire. -/
def putInt (h : Hart) (i : Nat) (v : W64) (fl : Nat) : RvAct := .next ((h.setX i v).accrue fl).retire

/-- The integer range of a conversion: 0 W, 1 WU, 2 L, 3 LU. -/
def cvtRange (k : Nat) : Int × Int :=
  match k with
  | 0 => (-2147483648, 2147483647)
  | 1 => (0, 4294967295)
  | 2 => (-9223372036854775808, 9223372036854775807)
  | _ => (0, 18446744073709551615)

/-- An integer register as the source of a conversion. -/
def cvtSource (k : Nat) (v : W64) : Int :=
  match k with
  | 0 => toInt 32 v.toNat
  | 1 => Int.ofNat (v.toNat % 2 ^ 32)
  | 2 => toInt 64 v.toNat
  | _ => Int.ofNat v.toNat

/-- FSGNJ, FSGNJN and FSGNJX as f3 0, 1 and 2. -/
def signInject (p : FpFmt) (f3 a b : Nat) : Nat :=
  let s := p.sign.getD 0
  let sb := bit b s
  let sa := bit a s
  a % 2 ^ s + (if (match f3 with | 0 => sb | 1 => !sb | _ => sa != sb) then 2 ^ s else 0)

/-- OP-FP. -/
def fpOp (c : RvCfg) (h : Hart) (w : W32) : RvAct :=
  let k := wbits w 26 25
  let rm := f3Of w
  let rd := rdOf w
  let r2 := rs2Of w
  match c.fmt k with
  | none => .illegal
  | some p =>
    let a := c.getFp h k (rs1Of w)
    let b := c.getFp h k r2
    let round (f : Mode → RvAct) : RvAct := match frmMode rm h.frm with
      | none => .illegal
      | some m => f m
    match wbits w 31 27 with
    | 0x00 => round fun m => c.putFp h k rd (p.addF m false a b)
    | 0x01 => round fun m => c.putFp h k rd (p.addF m true a b)
    | 0x02 => round fun m => c.putFp h k rd (p.mulF m a b)
    | 0x03 => round fun m => c.putFp h k rd (p.divF m a b)
    | 0x0B => if r2 = 0 then round fun m => c.putFp h k rd (p.sqrtF m a) else .illegal
    | 0x04 => if rm ≤ 2 then c.putFp h k rd ⟨signInject p rm a b, 0⟩ else .illegal
    | 0x05 => if rm ≤ 1 then c.putFp h k rd (p.minMaxF (rm == 1) a b) else .illegal
    | 0x08 =>
      -- FCVT.S.D and FCVT.D.S
      if c.core && ((k == 0 && r2 == 1) || (k == 1 && r2 == 0)) then
        round fun m =>
          let q := if k = 0 then fpF64 else fpF32
          let x := c.getFp h r2 (rs1Of w)
          let r := p.roundF m (q.decode x)
          c.putFp h k rd { r with flags := if q.snan x then r.flags ||| fNV else r.flags }
      else .illegal
    | 0x14 =>
      if rm ≤ 2 then
        let r := p.cmpF rm a b
        putInt h rd (w64 r.code) r.flags
      else .illegal
    | 0x18 =>
      if r2 ≤ 3 then
        round fun m =>
          let (lo, hi) := cvtRange r2
          let r := toIntF m lo hi (p.decode a)
          putInt h rd (if r2 ≤ 1 then sext 32 (ofInt 64 r.1) else BitVec.ofInt 64 r.1) r.2
      else .illegal
    | 0x1A =>
      if r2 ≤ 3 then round fun m => c.putFp h k rd (p.roundF m (.of (QR.ofInt (cvtSource r2 (h.getX (rs1Of w))))))
      else .illegal
    | 0x1C =>
      if r2 = 0 && rm = 0 then
        let raw := (h.getF (rs1Of w)).toNat
        putInt h rd (if k = 0 then sext 32 raw else w64 raw) 0
      else if r2 = 0 && rm = 1 then putInt h rd (w64 (p.classF a)) 0
      else .illegal
    | 0x1E =>
      if r2 = 0 && rm = 0 then c.putFp h k rd ⟨(h.getX (rs1Of w)).toNat, 0⟩ else .illegal
    | _ => .illegal

/-- FMADD, FMSUB, FNMSUB and FNMADD. -/
def fmaOp (c : RvCfg) (h : Hart) (w : W32) (negProd negC : Bool) : RvAct :=
  let k := wbits w 26 25
  match c.fmt k, frmMode (f3Of w) h.frm with
  | some p, some m =>
    c.putFp h k (rdOf w)
      (p.fmaF m negProd negC (c.getFp h k (rs1Of w)) (c.getFp h k (rs2Of w)) (c.getFp h k (rs3Of w)))
  | _, _ => .illegal

/-- The operation of an AMO's funct5. -/
def amoOp? (f5 : Nat) : Option AtomicOp :=
  match f5 with
  | 0x01 => some .swap
  | 0x00 => some .add
  | 0x04 => some .xor
  | 0x0C => some .and
  | 0x08 => some .or
  | 0x10 => some .min
  | 0x14 => some .max
  | 0x18 => some .minu
  | 0x1C => some .maxu
  | _ => none

/-- The A extension. -/
def amoAct (h : Hart) (w : W32) : RvAct :=
  let va := h.getX (rs1Of w)
  let x := h.getX (rs2Of w)
  if f3Of w = 2 || f3Of w = 3 then
    let size := if f3Of w = 3 then 8 else 4
    match wbits w 31 27 with
    | 0x02 => if rs2Of w = 0 then .lr (rdOf w) size va else .illegal
    | 0x03 => .sc (rdOf w) size va (x.toNat % 2 ^ (8 * size))
    | f5 => match amoOp? f5 with
      | some op => .amo (rdOf w) op (f3Of w = 3) va x
      | none => .illegal
  else .illegal

/-- Write rd with an integer result and retire, or illegal. -/
def retireX (h : Hart) (w : W32) (r : Option W64) : RvAct :=
  match r with
  | some v => .next (h.setX (rdOf w) v).retire
  | none => .illegal

/-- Decode an instruction word against a register context (05 R200, R215; 08 R306). -/
def rvDecode (c : RvCfg) (h : Hart) (w : W32) : RvAct :=
  let a := h.getX (rs1Of w)
  let b := h.getX (rs2Of w)
  let f3 := f3Of w
  match opc w with
  | 0x37 => .next (h.setX (rdOf w) (immU w)).retire
  | 0x17 => .next (h.setX (rdOf w) (h.pc + immU w)).retire
  | 0x6F =>
    match jumpTo (h.setX (rdOf w) (h.pc + 4)) (h.pc + immJ w) with
    | .next h => .next h
    | r => r
  | 0x67 => if f3 = 0 then jumpTo (h.setX (rdOf w) (h.pc + 4)) ((a + immI w) &&& ~~~(1#64)) else .illegal
  | 0x63 =>
    match branchTaken f3 a b with
    | none => .illegal
    | some true => jumpTo h (h.pc + immB w)
    | some false => .next h.retire
  | 0x03 => if f3 = 7 then .illegal else .load (rdOf w) false (2 ^ (f3 % 4)) (f3 < 4) (a + immI w)
  | 0x23 => if 4 ≤ f3 then .illegal else .store (2 ^ f3) (a + immS w) (b.toNat % 2 ^ (8 * 2 ^ f3))
  | 0x13 => retireX h w (aluImm c.core w a)
  | 0x1B => retireX h w (aluImm32 c.core w a)
  | 0x33 => retireX h w (aluOp c.core (f7Of w) f3 a b)
  | 0x3B => retireX h w (aluOp32 c.core (f7Of w) f3 (rs2Of w) a b)
  | 0x0F => if f3 = 0 then .fence else if f3 = 1 && c.core then .fenceI else .illegal
  | 0x2F => amoAct h w
  | 0x07 =>
    if f3 = 2 || (f3 = 3 && c.core) then .load (rdOf w) true (2 ^ f3) false (a + immI w) else .illegal
  | 0x27 =>
    if f3 = 2 || (f3 = 3 && c.core) then .store (2 ^ f3) (a + immS w) ((h.getF (rs2Of w)).toNat % 2 ^ (8 * 2 ^ f3))
    else .illegal
  | 0x43 => fmaOp c h w false false
  | 0x47 => fmaOp c h w false true
  | 0x4B => fmaOp c h w true false
  | 0x4F => fmaOp c h w true true
  | 0x53 => fpOp c h w
  | 0x73 =>
    if f3 = 0 then (if w = 0x00000073#32 then .ecall else if w = 0x00100073#32 then .ebreak else .illegal)
    else if f3 = 4 then .illegal
    else csrOp c h w
  | 0x0B => .custom 0
  | 0x2B => .custom 1
  | 0x5B => .custom 2
  | 0x7B => .custom 3
  | _ => .illegal

/-- The value a load writes and the register context after it. -/
def RvCfg.loaded (c : RvCfg) (h : Hart) (rd : Nat) (fp : Bool) (size : Nat) (signed : Bool) (v : Nat) : Hart :=
  if fp then (if size = 4 then c.setS h rd v else h.setF rd (w64 v)).retire
  else (h.setX rd (if signed then sext (8 * size) v else w64 v)).retire

/-- The x and f registers a word of the base instruction set or of a custom space names, read or written,
for the stalls of 05 R288. -/
def regsNamed (w : W32) : List Nat × List Nat :=
  let rd := rdOf w
  let r1 := rs1Of w
  let r2 := rs2Of w
  match opc w with
  | 0x37 => ([rd], [])
  | 0x17 => ([rd], [])
  | 0x6F => ([rd], [])
  | 0x63 => ([r1, r2], [])
  | 0x23 => ([r1, r2], [])
  | 0x33 => ([rd, r1, r2], [])
  | 0x3B => ([rd, r1, r2], [])
  | 0x2F => ([rd, r1, r2], [])
  | 0x07 => ([r1], [rd])
  | 0x27 => ([r1], [r2])
  | 0x43 => ([], [rd, r1, r2, rs3Of w])
  | 0x47 => ([], [rd, r1, r2, rs3Of w])
  | 0x4B => ([], [rd, r1, r2, rs3Of w])
  | 0x4F => ([], [rd, r1, r2, rs3Of w])
  | 0x53 =>
    match wbits w 31 27 with
    | 0x14 => ([rd], [r1, r2])
    | 0x18 => ([rd], [r1])
    | 0x1C => ([rd], [r1])
    | 0x1A => ([r1], [rd])
    | 0x1E => ([r1], [rd])
    | 0x0B => ([], [rd, r1])
    | 0x08 => ([], [rd, r1])
    | _ => ([], [rd, r1, r2])
  | 0x73 => if f3Of w = 0 then ([], []) else if 4 < f3Of w then ([rd], []) else ([rd, r1], [])
  | 0x0F => ([], [])
  | _ => ([rd, r1], [])

end Sys2Proof.Machine
end

