-- ==== Sys2Proof/Machine/Tile.lean ====
section
/-! DEFINITION. The memory a tile program sees (05 R203 to R209, R705; 08 R326, R328; 12 R471): decoding
a virtual address, and reads, writes, fetches and atomics through it with the failures of 05 R213. -/
namespace Sys2Proof.Machine

/-- Why an access of a tile program fails (05 R213). -/
inductive TFault where
  | misaligned | segment | page | hw | poison
  deriving DecidableEq, Repr, Inhabited

/-- The launch status of a failed access (05 R213, 11 R444). -/
def TFault.status : TFault → Nat
  | .misaligned => 0x12
  | .segment => 0x10
  | .page => 0x11
  | .hw => 0x13
  | .poison => 0x18

/-- The row of the cause in the trap table of 05 R213. -/
def TFault.row : TFault → Nat
  | .misaligned => 2
  | .segment => 4
  | .page => 5
  | .hw => 6
  | .poison => 7

/-- The failure of an access to the home of an address (03 R95, R110, R119, R135). -/
def accTFault : AccErr → TFault
  | .unmapped => .segment
  | .retired => .segment
  | .dieWindow => .hw
  | .isolated => .hw
  | .poison => .poison

/-- The failure of a check of translation (12 R472, R701). -/
def xTFault (x : XFail) : TFault :=
  if x.status = 0x11 then .page else if x.status = 0x13 then .hw else if x.status = 0x18 then .poison else .segment

/-- An address of the tile's own local memory or of a peer's. -/
def localOk (pa : Nat) : XOk := ⟨pa, false, false, false⟩

/-- Decode and translate an access of `len` bytes, aligned to `align`; kinds: 1 read, 2 write, 3 fetch,
4 atomic (05 R207 to R209, R705). -/
def Dev.tileXlate (d : Dev) (t va align len kind : Nat) : Dev × Except TFault XOk :=
  let seg := va / 2 ^ 60
  let off := va % 2 ^ 60
  if va % align ≠ 0 then (d, .error .misaligned)
  else if seg = 15 then
    if off < 2 ^ 20 then (d, .ok (localOk (localBase t + off))) else (d, .error .segment)
  else if seg = 14 then
    let peer := t / 8 * 8 + off / 2 ^ 20
    let named := match d.launchOn t with | some l => l.tiles.contains peer | none => false
    if off < 2 ^ 23 && peer ≠ t && named && kind ≠ 3 then (d, .ok (localOk (localBase peer + off % 2 ^ 20)))
    else (d, .error .segment)
  else
    let ctx := d.tileCtx t
    let v := BitVec.ofNat 64 va
    match d.translate (.cluster (t / 8)) ctx v len kind with
    | (d, .ok r) => (d, .ok r)
    | (d, .error x) => (d.checkFailed ctx v (d.locTile t) kind x, .error (xTFault x))

/-- An access that its home refuses is logged (03 R95, R110). -/
def Dev.tileErr (d : Dev) (t : Nat) (e : AccErr) : Dev := d.logAcc e (d.locTile t)

/-- Read `len` bytes within one 64-byte line; `kind` 1 or 3. -/
def Dev.tileLoad (d : Dev) (t va align len kind : Nat) : Dev × Except TFault (List Byte) :=
  match d.tileXlate t va align len kind with
  | (d, .error e) => (d, .error e)
  | (d, .ok r) =>
    match d.tileRead t (d.tileCtx t) va r len with
    | (d, .ok bs) => (d, .ok bs)
    | (d, .error e) => (d.tileErr t e, .error (accTFault e))

/-- Write bytes within one 64-byte line. -/
def Dev.tileStore (d : Dev) (t va align : Nat) (bs : List Byte) : Dev × Except TFault Unit :=
  match d.tileXlate t va align bs.length 2 with
  | (d, .error e) => (d, .error e)
  | (d, .ok r) =>
    match d.tileWrite t (d.tileCtx t) va r bs with
    | (d, .ok ()) => (d, .ok ())
    | (d, .error e) => (d.tileErr t e, .error (accTFault e))

/-- What an atomic of a tile program meets: a wave holds its line locked and it waits (10 R382), or it
is performed or fails. -/
inductive AtomicRes where
  | wait
  | ok (old : Nat)
  | fail (e : TFault)
  deriving DecidableEq, Repr, Inhabited

/-- An atomic at the home of its address: the cluster's transit-cache copy of a pool line is written
back and invalidated first (05 R204, 08 R328). -/
def Dev.tileAtomic (d : Dev) (t va size : Nat) (f : Nat → Nat) (again : Bool := false) : Dev × AtomicRes :=
  match d.tileXlate t va size size 4 with
  | (d, .error e) => (d, .fail e)
  | (d, .ok r) =>
    if r.pa < 2 ^ 40 && d.lockedLine r.pa then (d, .wait)
    else
      let d := if r.pa < 2 ^ 40 then d.invalLines (t / 8) (fun line => line == r.pa / 128) else d
      let d := d.reach r.pa size
      match d.atomicAt r.pa size r.hostShared f again with
      | .ok (d, old) => (d, .ok old)
      | .error e => (d.tileErr t e, .fail (accTFault e))

/-- The physical address of an LR or SC, which must lie in segment 0xF (05 R203, R705). -/
def resvAddr (t va size : Nat) : Except TFault Nat :=
  if va % size ≠ 0 then .error .misaligned
  else if va / 2 ^ 60 = 15 && va % 2 ^ 60 < 2 ^ 20 then .ok (localBase t + va % 2 ^ 60)
  else .error .segment

/-- The read-only CSRs a tile program sees (05 R202); `thread` adds those of a gang thread: its index and
its gang's (08 R308). -/
def Dev.tileCsr (d : Dev) (t : Nat) (l : Launch) (instret : Nat) (thread : Option (Nat × Nat)) (n : Nat) : Option W64 :=
  match n with
  | 0xC00 => some (BitVec.ofNat 64 (d.cycles (t / 8)))
  | 0xC01 => some (BitVec.ofNat 64 d.now)
  | 0xC02 => some (BitVec.ofNat 64 instret)
  | 0xCC0 => some (BitVec.ofNat 64 t)
  | 0xCC1 => some (BitVec.ofNat 64 l.ctx)
  | 0xCC2 => some (BitVec.ofNat 64 (l.budget - refCycles (d.now - l.start.getD d.now)))
  | 0xCC3 => some (d.reg .tideCount)
  | 0xCC4 => thread.map (fun x => BitVec.ofNat 64 x.1)
  | 0xCC5 => thread.map (fun x => BitVec.ofNat 64 x.2)
  | _ => none

/-- Words the instruction cache of a tile holds at most (05 R186). -/
def icacheWords : Nat := 8192

/-- The instruction cache may keep a word that a fetch at an address reads: one of the tile's own local
memory or of the pool, for other memories are held in no cache outside the unit that owns them (03 R96). -/
def Dev.icacheKeeps (d : Dev) (t va : Nat) : Bool :=
  match d.tileXlate t va 4 4 3 with
  | (_, .ok r) => decide (r.pa < 2 ^ 40) || decide (localBase t ≤ r.pa ∧ r.pa < localBase t + 2 ^ 20)
  | _ => false

/-- Fetch an instruction word: from segment 0xF or a pool segment with X permission (05 R209). A word
the instruction cache may still hold is either the held one or the memory's (05 R205). -/
def Dev.tileFetch (d : Dev) (t : Nat) (pc : W64) : Dev × Except TFault W32 :=
  let va := pc.toNat
  let held : Option W64 := if va % 4 = 0 then (((d.tile t).icache.find? (fun e => e.1 == va / 4)).map (·.2)) else none
  match (if held.isSome && Config.choice d.fresh then held else none) with
  | some w => (d.draw, .ok (w.setWidth 32))
  | none =>
    let d := if held.isSome then d.draw else d
    match d.tileLoad t va 4 4 3 with
    | (d, .error e) => (d, .error e)
    | (d, .ok bs) =>
      let w := BitVec.ofNat 32 (leNat bs)
      let keeps := d.icacheKeeps t va
      let d := d.modTile t (fun x =>
        if keeps && (x.icache.length < icacheWords || held.isSome) then { x with icache := tins x.icache (va / 4) (w.setWidth 64) } else x)
      (d, .ok w)

/-- Authorised debug of tiles (05 R214, 16 R617). -/
def Dev.tileDebug (d : Dev) : Bool := bit (d.get F.pilDebug_SCOPE) 0

end Sys2Proof.Machine
end

