-- ==== Sys2Proof/Machine/ControlCore.lean ====
section
/-! DEFINITION. The control core of a tile (05 R200 to R216, R288): issue in program order, the queues
to the vector engine and the matrix unit, loads, stores, atomics, fences, traps and the end of a
program. -/
namespace Sys2Proof.Machine

/-- Jobs of the tile that have not completed (06 R223). -/
def Matrix.outstanding (m : Matrix) : Nat := (m.jobs.filter (fun j => j.state ≠ 2)).length

/-- The core issues nothing: an X.WAIT is in progress, or an X.MMA waits for a job slot (05 R201; 06 R224,
R226). -/
def Tile.coreHeld (x : Tile) : Bool :=
  x.mat.queue.any (fun o => f3Of o.word == 1) ||
  (match x.mat.queue with
   | o :: _ => f3Of o.word == 0 && decide (8 ≤ x.mat.outstanding)
   | [] => false)

/-- The launch whose tile program runs on a tile and may issue (05 R188, R201, R211). -/
def Dev.coreLaunch (d : Dev) (t : Nat) : Option Launch :=
  match d.launchOn t with
  | none => none
  | some l => if !l.gangs && d.tileState t = 2 && !(d.tile t).ecall && !(d.tile t).coreHeld then some l else none

/-- A trap of the control core: logged, the launch fails, its context is killed (05 R213). The number a
cause carries in the payload is the implementation's, and the address of a trap without one is free. -/
def Dev.coreTrap (d : Dev) (t row status : Nat) (pc : W64) (va : Nat) : Dev :=
  let w3 := if row = 1 || row = 3 then pc.toNat else va
  let addr := if row = 1 || row = 3 then (Config.freeValue d.fresh).toNat else va
  d.draw.tileFault t 0x6101 status w3 [(1, Config.causeCode 0x6101 row), (8, pc.toNat), (8, addr), (2, d.locTile t)]

/-- An illegal instruction. -/
def Dev.coreIllegal (d : Dev) (t : Nat) (pc : W64) : Dev := d.coreTrap t 1 0x12 pc 0

/-- An access fault of the control core. -/
def Dev.coreFault (d : Dev) (t : Nat) (pc : W64) (e : TFault) (va : Nat) : Dev := d.coreTrap t e.row e.status pc va

/-- A vector fault (07 R304); `at'` is the faulting VA or element index of the payload. -/
def Dev.vecFault (d : Dev) (t row status w3 : Nat) (pc : W64) (at' : Nat) : Dev :=
  d.tileFault t 0x6104 status w3 [(1, Config.causeCode 0x6104 row), (8, pc.toNat), (8, at'), (2, d.locTile t)]

/-- An illegal vector instruction at a pc; its payload's element index is unstated. -/
def Dev.vecIllegal (d : Dev) (t : Nat) (pc : W64) : Dev :=
  d.draw.vecFault t 1 0x12 pc.toNat pc (Config.freeValue d.fresh).toNat

/-- A parity error in a register file of the tile: a fault of the tile program, whose address is unstated
(13 R511; 01 R42; 03 R115, R119). -/
def Dev.coreParity (d : Dev) (t : Nat) (pc : W64) : Dev :=
  d.draw.coreTrap t 7 0x18 pc (Config.freeValue d.fresh).toNat

/-! ### The queues -/

/-- The operation of a vector or matrix word: its row name's key (space, operation), none where no
chapter assigns the encoding (05 R216; 06 R221; 07 R265, R267). -/
def queueOp (w : W32) : Option (Nat × Nat) :=
  let f7 := f7Of w
  match opc w with
  | 0x0B =>
    let op := wbits w 31 26
    if [0x0F, 0x1A, 0x1B, 0x1C, 0x1D, 0x1E, 0x1F, 0x26, 0x27, 0x2D, 0x2E, 0x2F, 0x33, 0x36, 0x37].contains op then none
    else some (0, op)
  | 0x2B =>
    match f3Of w with
    | 0 => if f7 = 0 && rs2Of w = 0 then some (1, 0) else none
    | 1 => if f7 = 0 && rs2Of w = 0 then some (1, 1) else none
    | 2 => if f7 ≤ 2 && rs2Of w = 0 then some (1, 2 + f7) else none
    | _ => none
  | 0x7B =>
    if wbits w 13 12 ≠ 0 then none
    else if 0x40 ≤ f7 || [0, 1, 2, 3, 8, 9, 0x10, 0x11, 0x18, 0x19, 0x1A].contains f7 then some (3, f7)
    else none
  | _ => none

/-- The scalar register a queued vector instruction writes: x first, f second (07 R265, R287). -/
def vecWrites (w : W32) : List Nat × List Nat :=
  if opc w = 0x0B then
    let op := wbits w 31 26
    if [0x38, 0x39].contains op then (if wbits w 13 12 = 2 then ([], [rdOf w]) else ([rdOf w], []))
    else if [0x3A, 0x3B, 0x3D, 0x3F].contains op then ([rdOf w], [])
    else ([], [])
  else ([], [])

/-- The scalar registers a vector or matrix word names, read or written. -/
def queueNames (w : W32) : List Nat × List Nat :=
  let r1 := rs1Of w
  let r2 := rs2Of w
  match opc w with
  | 0x0B =>
    let op := wbits w 31 26
    let wr := vecWrites w
    if 0x38 ≤ op then
      (wr.1 ++ (if [0x3C, 0x3E, 0x3F].contains op then [r1, r2] else []), wr.2)
    else match wbits w 13 12 with
      | 1 => ([r1], [])
      | 2 => ([], [r1])
      | _ => ([], [])
  | 0x2B => ([r1, rdOf w], [])
  | _ => if f7Of w ≤ 3 then ([r1, r2], []) else if f7Of w = 0x11 then ([r1], []) else ([], [])

/-- A vector instruction reads or writes memory (07 R264, R267). -/
def vecMemory (w : W32) : Bool :=
  if opc w = 0x7B then (f7Of w ≤ 0x11 && f7Of w ≠ 0x10) else wbits w 13 12 == 3

/-- The registers that queued instructions will write (07 R288, 06 R224). -/
def Tile.pendingRegs (x : Tile) : List Nat × List Nat :=
  let v := x.vec.queue.map (fun o => vecWrites o.word)
  (v.flatMap (·.1) ++ x.mat.queue.map (fun o => rdOf o.word), v.flatMap (·.2))

/-- The core may not issue this word yet: a register it names is due from a queue, its queue is full, or a
queued vector instruction's memory access comes before its own (05 R201, R206; 06 R247; 07 R276, R288). -/
def Dev.coreStalls (d : Dev) (t : Nat) (w : W32) (memory : Bool) : Bool :=
  let x := d.tile t
  let pend := x.pendingRegs
  let names := if [0x0B, 0x2B, 0x7B].contains (opc w) then queueNames w else regsNamed w
  let clash := fun (a b : List Nat) => a.any (fun r => b.contains r)
  let full := match opc w with
    | 0x2B => decide (16 ≤ x.mat.queue.length)
    | 0x0B => decide (16 ≤ x.vec.queue.length)
    | 0x7B => decide (16 ≤ x.vec.queue.length)
    | _ => false
  let mem := (memory || opc w == 0x2B) && x.vec.queue.any (fun o => vecMemory o.word)
  full || mem || clash (names.1.filter (· ≠ 0)) pend.1 || clash names.2 pend.2

/-! ### Issue -/

/-- The configuration of the control core's instructions. -/
def Dev.coreCfg (d : Dev) (t : Nat) (l : Launch) : RvCfg :=
  { core := true, csr := d.tileCsr t l (d.tile t).core.instret none }

/-- Set the register context of a tile's core. -/
def Dev.setCore (d : Dev) (t : Nat) (h : Hart) : Dev := d.modTile t (fun x => { x with core := h })

/-- What the next instruction of a core asks for; a fetch that fails answers its failure. -/
inductive CoreNext where
  | none
  | fetchFault (e : TFault)
  | act (l : Launch) (w : W32) (a : RvAct)

/-- Fetch and decode the core's next instruction. -/
def Dev.coreNext (d : Dev) (t : Nat) : Dev × CoreNext :=
  match d.coreLaunch t with
  | none => (d, .none)
  | some l =>
    match d.tileFetch t (d.tile t).core.pc with
    | (d, .error e) => (d, .fetchFault e)
    | (d, .ok w) => (d, .act l w (rvDecode (d.coreCfg t l) (d.tile t).core w))

/-- Enter a word into its queue with the scalar operands it is issued with (05 R201). -/
def Dev.coreEnqueue (d : Dev) (t : Nat) (w : W32) : Dev :=
  d.modTile t (fun x =>
    let h := x.core
    let y := { x with core := h.retire }
    if opc w = 0x2B then
      { y with mat := { y.mat with queue := y.mat.queue ++ [{ word := w, pc := h.pc, rs1 := h.getX (rs1Of w) }] } }
    else
      { y with vec := { y.vec with queue := y.vec.queue ++
          [{ word := w, pc := h.pc, rs1 := h.getX (rs1Of w), rs2 := h.getX (rs2Of w), fs1 := h.getF (rs1Of w) }] } })

/-- A word no chapter assigns: the vector engine's when it is one of its opcodes, where every queued
instruction comes before it (05 R216, 07 R304), and the control core's otherwise. -/
def Dev.coreUnassigned (d : Dev) (t : Nat) (w : W32) (pc : W64) : Option Dev :=
  if opc w = 0x0B || opc w = 0x7B then
    if (d.tile t).vec.queue.isEmpty then some (d.vecIllegal t pc) else none
  else some (d.coreIllegal t pc)

/-- CONTROL_CORE_INSTRUCTION (05 R201, R213, R215, R216): the core issues an instruction that makes no
memory access of its own; vector and matrix words enter their queue, and a parity error in a register file
is a fault (13 R511). -/
def execControlCoreInstruction (i : TileIssue) (s : State) : Out :=
  actUp s fun d =>
    let t := i.tile
    let pc := (d.tile t).core.pc
    if i.parity && (d.coreLaunch t).isSome then d.coreParity t pc
    else match d.coreNext t with
    | (_, .none) => d
    | (d', .fetchFault e) => d'.coreFault t pc e pc.toNat
    | (d', .act _ w a) =>
      match a with
      | .illegal => d'.coreIllegal t pc
      | .custom _ => if (queueOp w).isNone then (d'.coreUnassigned t w pc).getD d
        else if d.coreStalls t w false then d else d'.coreEnqueue t w
      | .next h => if d.coreStalls t w false then d else d'.setCore t h
      | .misaligned va => if d.coreStalls t w false then d else d'.coreFault t pc .misaligned va.toNat
      | _ => d

/-- CC_LOAD (05 R207 to R209): a load is translated and performed. -/
def execCcLoad (t : Nat) (s : State) : Out :=
  actUp s fun d =>
    match d.coreNext t with
    | (d', .act l w (.load rd fp size sg va)) =>
      if d.coreStalls t w true then d
      else match d'.tileLoad t va.toNat size size 1 with
        | (d', .error e) => d'.coreFault t (d.tile t).core.pc e va.toNat
        | (d', .ok bs) => d'.setCore t ((d'.coreCfg t l).loaded (d'.tile t).core rd fp size sg (leNat bs))
    | _ => d

/-- CC_STORE (05 R201, R207 to R209): a store is posted and performed. -/
def execCcStore (t : Nat) (s : State) : Out :=
  actUp s fun d =>
    match d.coreNext t with
    | (d', .act _ w (.store size va val)) =>
      if d.coreStalls t w true then d
      else match d'.tileStore t va.toNat size (leBytes size val) with
        | (d', .error e) => d'.coreFault t (d.tile t).core.pc e va.toNat
        | (d', .ok ()) => d'.setCore t (d'.tile t).core.retire
    | _ => d

/-- The bytes an AMO of a width acts on, as a value of x[rd]: 32-bit results are sign-extended. -/
def amoOld (wide : Bool) (old : Nat) : W64 := if wide then BitVec.ofNat 64 old else sext 32 old

/-- CC_AMO (05 R204): an AMO is performed at the home of its address. -/
def execCcAmo (t : Nat) (s : State) : Out :=
  actUp s fun d =>
    match d.coreNext t with
    | (d', .act _ w (.amo rd op wide va x)) =>
      if d.coreStalls t w true then d
      else match d'.tileAtomic t va.toNat (if wide then 8 else 4) (fun old => atomicNew op wide old x.toNat 0) with
        | (_, .wait) => d
        | (d', .fail e) => d'.coreFault t (d.tile t).core.pc e va.toNat
        | (d', .ok old) => d'.setCore t ((d'.tile t).core.setX rd (amoOld wide old)).retire
    | _ => d

/-- LR: read own local memory and hold a reservation (05 R203). -/
def Dev.coreLr (d : Dev) (t rd size va : Nat) : Dev × Except TFault Unit :=
  match resvAddr t va size with
  | .error e => (d, .error e)
  | .ok pa =>
    match d.readPa pa size with
    | .error e => (d.tileErr t e, .error (accTFault e))
    | .ok bs =>
      let h := ((d.tile t).core.setX rd (amoOld (size == 8) (leNat bs))).retire
      (d.setCore t { h with resv := some (pa, size) }, .ok ())

/-- SC: write own local memory if the reservation still holds; x[rd] is 0 on success and 1 otherwise
(05 R203). -/
def Dev.coreSc (d : Dev) (t rd size va val : Nat) : Dev × Except TFault Unit :=
  match resvAddr t va size with
  | .error e => (d, .error e)
  | .ok pa =>
    let ok := decide ((d.tile t).core.resv = some (pa, size))
    let done := fun (d : Dev) (v : W64) =>
      let h := ((d.tile t).core.setX rd v).retire
      d.setCore t { h with resv := none }
    if ok then
      match d.writePa pa (leBytes size val) with
      | .error e => (d.tileErr t e, .error (accTFault e))
      | .ok d => (done d 0, .ok ())
    else (done d 1, .ok ())

/-- CC_LR_SC (05 R203). -/
def execCcLrSc (t : Nat) (s : State) : Out :=
  actUp s fun d =>
    let pc := (d.tile t).core.pc
    match d.coreNext t with
    | (d', .act _ w (.lr rd size va)) =>
      if d.coreStalls t w true then d
      else match d'.coreLr t rd size va.toNat with
        | (d', .ok ()) => d'
        | (d', .error e) => d'.coreFault t pc e va.toNat
    | (d', .act _ w (.sc rd size va val)) =>
      if d.coreStalls t w true then d
      else match d'.coreSc t rd size va.toNat val with
        | (d', .ok ()) => d'
        | (d', .error e) => d'.coreFault t pc e va.toNat
    | _ => d

/-- CC_FENCE (05 R205): the core's loads and stores are already performed in order; the transit cache
is left as it is. -/
def execCcFence (t : Nat) (s : State) : Out :=
  actUp s fun d =>
    match d.coreNext t with
    | (d', .act _ w .fence) => if d.coreStalls t w true then d else d'.setCore t (d'.tile t).core.retire
    | _ => d

/-- CC_FENCE_I (05 R205): the instruction cache is invalidated. -/
def execCcFenceI (t : Nat) (s : State) : Out :=
  actUp s fun d =>
    match d.coreNext t with
    | (d', .act _ w .fenceI) =>
      if d.coreStalls t w true then d
      else d'.modTile t (fun x => { x with core := x.core.retire, icache := [] })
    | _ => d

/-! ### The end of a program, in either kind of launch -/

/-- ECALL on the control core ends its tile program (05 R211). -/
def Dev.coreEcall (d : Dev) (t : Nat) : Dev :=
  match d.coreNext t with
  | (d', .act _ w .ecall) =>
    if d.coreStalls t w false then d
    else d'.modTile t (fun x => { x with core := { x.core with instret := x.core.instret + 1 }, ecall := true })
  | _ => d

/-- EBREAK on the control core halts its tile under authorised debug and traps otherwise (05 R214). -/
def Dev.coreEbreak (d : Dev) (t : Nat) : Dev :=
  match d.coreNext t with
  | (d', .act _ w .ebreak) =>
    if d.coreStalls t w false then d
    else if d.tileDebug then d'.setTileState t 5
    else d'.coreTrap t 3 0x12 (d.tile t).core.pc 0
  | _ => d

end Sys2Proof.Machine
end

