-- ==== Sys2Proof/Machine/Matrix.lean ====
section
/-! DEFINITION. The matrix unit (06 R219 to R254): job descriptors and their checks, the arithmetic of
the four accumulation modes, the order in which jobs start, write and complete, and X.WAIT and X.STAT
as functions of a token. -/
namespace Sys2Proof.Machine

/-! ### Descriptors and their checks (06 R229 to R235) -/

/-- An operand descriptor from its words (06 R230). -/
def operandOf (o : List Nat) : Operand :=
  let w := fun (k : Nat) => o.getD k 0
  { base := w64 (w 0), rstride := bits (w 1) 31 0, cstride := bits (w 1) 63 32, scale := w64 (w 2),
    sstride := bits (w 3) 63 32, phases1 := bit (w 3) 10, trans := bit (w 3) 9, scaled := bit (w 3) 8,
    bias := bits (w 3) 7 4, fmt := bits (w 3) 3 0 }

/-- A job from its descriptor's words and its operand descriptors (06 R229). -/
def jobOf (seq : Nat) (j a b c : List Nat) : Job :=
  let w := fun (k : Nat) => j.getD k 0
  { seq := seq, m := bits (w 0) 31 0, n := bits (w 0) 63 32, k := bits (w 1) 31 0,
    a := operandOf a, b := operandOf b, c := operandOf c, anchor := toInt 16 (bits (w 3) 31 16),
    serial := bit (w 3) 6, flush := bit (w 3) 5, round := bits (w 3) 4 3, accum := bit (w 3) 2,
    acc := bits (w 3) 1 0, seed := w64 (w 4) }

/-- Conditions 1, 2, 8 and 9 of 06 R234 that a job descriptor alone breaks. -/
def jobCond (n : Nat) (j : List Nat) : Bool :=
  let w := fun (k : Nat) => j.getD k 0
  match n with
  | 1 => bits (w 1) 63 32 ≠ 0 || bits (w 2) 63 60 ≠ 0 || bits (w 3) 63 32 ≠ 0 || bits (w 3) 15 7 ≠ 0 ||
      w 5 ≠ 0 || w 6 ≠ 0 || w 7 ≠ 0
  | 2 => 0x1000000 < bits (w 0) 31 0 || 0x1000000 < bits (w 0) 63 32
  | 8 => bits (w 3) 4 3 == 3
  | 9 =>
    let a := toInt 16 (bits (w 3) 31 16)
    if bits (w 3) 1 0 = 1 then !anchorOk a else decide (a ≠ 0)
  | _ => false

/-- An operand pair one of whose modes accepts it: two short formats, or one wide format twice
(06 R236, 04 R155). -/
def floatPair (fa fb : Nat) : Bool := (isShort fa && isShort fb) || (fa == fb && (fa == 10 || fa == 11))

/-- The pair and output format of a mode (06 R236). -/
def modeOk (j : Job) : Bool :=
  match j.acc with
  | 0 => floatPair j.a.fmt j.b.fmt && (if j.accum then j.c.fmt == 11 else [0, 1, 2, 3, 4, 5, 10, 11].contains j.c.fmt)
  | 1 => floatPair j.a.fmt j.b.fmt && (if j.accum then j.c.fmt == 14 else [12, 11, 10, 4, 5, 14].contains j.c.fmt)
  | 2 => [6, 7, 8, 9].contains j.a.fmt && [6, 7, 8, 9].contains j.b.fmt && !j.a.scaled && !j.b.scaled && j.c.fmt == 13
  | _ => j.a.fmt == 12 && j.b.fmt == 12 && j.c.fmt == 12

/-- SCALED of an input operand (04 R152). -/
def jobScaledOk (o : Operand) : Bool := if o.fmt ≤ 3 then o.scaled else if 10 ≤ o.fmt then !o.scaled else true
/-- SCALED of the output (06 R234, condition 4). -/
def scaledOutOk (o : Operand) : Bool := if o.fmt ≤ 3 then o.scaled else if 6 ≤ o.fmt then !o.scaled else true

/-- Strides and alignment of an operand (06 R232): `unit` is its stride along K, or along N for C. -/
def strideOk (o : Operand) (unit other : Nat) : Bool :=
  let b := fmtBits o.fmt
  if b = 4 then unit == 1 && other % 2 == 0
  else if b = 6 then unit == 1 && other % 4 == 0
  else o.base.toNat % (if o.fmt = 14 then 16 else b / 8) == 0

/-- Every stride and alignment (06 R232, R233). -/
def layoutOk (j : Job) : Bool :=
  strideOk j.a (if j.a.trans then j.a.rstride else j.a.cstride) (if j.a.trans then j.a.cstride else j.a.rstride) &&
  strideOk j.b (if j.b.trans then j.b.cstride else j.b.rstride) (if j.b.trans then j.b.rstride else j.b.cstride) &&
  strideOk j.c (if j.c.trans then j.c.rstride else j.c.cstride) (if j.c.trans then j.c.cstride else j.c.rstride) &&
  (j.c.fmt ≠ 14 || (j.c.scale.toNat % 16 == 0 && j.c.sstride % 16 == 0))

/-- A condition of 06 R234 on the whole job. -/
def jobBreaks (n : Nat) (jw : List Nat) (ow : List (List Nat)) (j : Job) : Bool :=
  let ops := [j.a, j.b, j.c]
  match n with
  | 1 => jobCond 1 jw || ow.any (fun o => bits (o.getD 3 0) 31 11 ≠ 0) || ops.any (fun o => o.fmt == 15)
  | 2 => jobCond 2 jw
  | 3 => !modeOk j
  | 4 => !(jobScaledOk j.a && jobScaledOk j.b && scaledOutOk j.c)
  | 5 => ops.any (fun o => o.bias ≠ 0 && o.fmt ≠ 4 && o.fmt ≠ 5)
  | 6 => ops.any (fun o => o.phases1 && o.fmt ≠ 14)
  | 7 => !layoutOk j
  | n => jobCond n jw

/-- Read 64-bit words of a tile's own local memory for X.MMA. -/
def Dev.mmaWords (d : Dev) (t off n : Nat) : Except TFault (List Nat) :=
  let rs := (List.range n).map (fun i => d.readPa (localBase t + off + 8 * i) 8)
  rs.foldl (fun acc r => match acc, r with
    | .ok l, .ok bs => .ok (l ++ [leNat bs])
    | .ok _, .error e => .error (accTFault e)
    | .error e, _ => .error e) (.ok [])

/-- What X.MMA does at the head of its queue (06 R223, R235). -/
inductive MmaRes where
  /-- Eight jobs are outstanding. -/
  | wait
  /-- The job is accepted. -/
  | token (seq : Nat)
  /-- The job is refused. -/
  | ended
  /-- An access of the instruction itself faults. -/
  | fault (e : TFault) (va : Nat)
  deriving DecidableEq, Repr, Inhabited

/-- A job is refused: no token, the context is killed (06 R235). -/
def Dev.mmaRefused (d : Dev) (t cond : Nat) (va : W64) : Dev :=
  d.tileFault t 0x6103 0x16 va.toNat [(1, cond), (2, d.locTile t)]

/-- A fault of a matrix job (06 R253). -/
def Dev.jobFault (d : Dev) (t row status token va : Nat) : Dev :=
  d.tileFault t 0x6103 status va [(1, Config.causeCode 0x6103 row), (8, token), (8, va), (2, d.locTile t)]

/-- Keep at most the eight latest jobs once they are complete (06 R226). -/
def keepJobs (js : List Job) : List Job :=
  (js.take 8) ++ ((js.drop 8).filter (fun j => j.state ≠ 2))

/-- Cycles of a job that meets no wait, from its start (06 R250). -/
def Job.cycles (j : Job) : Nat :=
  let narrow := fun (f : Nat) => f == 0 || f == 1 || f == 6 || f == 7
  let g := if narrow j.a.fmt && narrow j.b.fmt then 32 else if j.a.fmt ≤ 9 then 16 else if j.a.fmt = 10 then 4 else 1
  let f := if j.acc = 3 then 4 else if j.acc = 1 && 10 ≤ j.a.fmt then 2 else 1
  let e := if j.acc = 1 then 32 else 0
  24 + cdiv j.m 32 * cdiv j.n 32 * (cdiv j.k g * f + e) + 32

/-- A job that makes no memory access (06 R251). -/
def Job.idle (j : Job) : Bool := j.m == 0 || j.n == 0 || (j.k == 0 && j.accum)

/-- X.MMA: wait for a slot, read and check the descriptors, answer a token. A bad VA, and a fault of its
reads, is a trap of the instruction (06 R223, R225, R235; 05 R705). -/
def Dev.mma (d : Dev) (t : Nat) (va : W64) : Dev × MmaRes :=
  let x := d.tile t
  let v := va.toNat
  if 8 ≤ x.mat.outstanding then (d, .wait)
  else if v % 64 ≠ 0 then (d, .fault .misaligned v)
  else if !(v / 2 ^ 60 = 15 && v % 2 ^ 60 < 2 ^ 20) then (d, .fault .segment v)
  else match d.mmaWords t (v % 2 ^ 20) 8 with
    | .error e => (d, .fault e v)
    | .ok jw =>
      let offs := [bits (jw.getD 2 0) 19 0, bits (jw.getD 2 0) 39 20, bits (jw.getD 2 0) 59 40]
      if offs.any (fun o => o % 32 ≠ 0) then
        (d.mmaRefused t (([1, 2, 8, 9].find? (fun n => jobCond n jw)).getD 7) va, .ended)
      else match d.mmaWords t (offs.getD 0 0) 4, d.mmaWords t (offs.getD 1 0) 4, d.mmaWords t (offs.getD 2 0) 4 with
        | .ok a, .ok b, .ok c =>
          let seq := x.mat.seq + 1
          let j := jobOf seq jw a b c
          match (rangeFrom 1 9).find? (fun n => jobBreaks n jw [a, b, c] j) with
          | some n => (d.mmaRefused t n va, .ended)
          | none =>
            let j := if j.idle then { j with state := 1, start := d.cycles (t / 8) } else j
            (d.modTile t (fun x => { x with mat := { x.mat with seq := seq, jobs := keepJobs (j :: x.mat.jobs) } }), .token seq)
        | .error e, _, _ => (d, .fault e (15 * 2 ^ 60 + offs.getD 0 0))
        | _, .error e, _ => (d, .fault e (15 * 2 ^ 60 + offs.getD 1 0))
        | _, _, .error e => (d, .fault e (15 * 2 ^ 60 + offs.getD 2 0))

/-! ### Reading operands -/

/-- The bytes earlier running jobs have computed and not yet written, by address (06 R246). -/
def Matrix.unwritten (m : Matrix) (seq : Nat) : List (Nat × Nat × Nat) :=
  (m.jobs.filter (fun j => j.seq < seq && j.state == 1)).flatMap (fun j => j.todo.flatMap (·.bytes))

/-- Read bytes for a job: a word an earlier job is still writing holds its old or its new value
(06 R246). -/
def Dev.jobRead (d : Dev) (t : Nat) (un : List (Nat × Nat × Nat)) (va align len : Nat) :
    Dev × Except (TFault × Nat) (List Byte) :=
  match d.tileLoad t va align len 1 with
  | (d, .error e) => (d, .error (e, va))
  | (d, .ok bs) =>
    let hit := fun (a : Nat) => un.find? (fun e => e.1 == a)
    if (List.range len).all (fun i => (hit (va + i)).isNone) then (d, .ok bs)
    else
      let word := fun (a : Nat) => Config.choice (d.fresh + (a / 8 - va / 8))
      let out := (List.range len).map (fun i =>
        let b := bs.getD i 0
        match hit (va + i) with
        | some (_, m, v) => if word (va + i) then BitVec.ofNat 8 (b.toNat &&& (255 - m) ||| v) else b
        | none => b)
      ({ d with fresh := d.fresh + (len / 8 + 2) }, .ok out)

/-- Where element (r, c) of an operand lies: address, bytes, bit shift and bits (06 R231, 04 R150). -/
def Operand.place (o : Operand) (r c : Nat) : Nat × Nat × Nat × Nat :=
  let e := r * o.rstride + c * o.cstride
  let b := fmtBits o.fmt
  let at' := fun (off : Nat) => (o.base.toNat + off) % 2 ^ 64
  if b = 4 then (at' (e / 2), 1, 4 * (e % 2), 4)
  else if b = 6 then
    let s := 6 * (e % 4)
    (at' (3 * (e / 4) + s / 8), if 8 < s % 8 + 6 then 2 else 1, s % 8, 6)
  else
    let size := if o.phases1 then 16 else b / 8
    (at' (e * size), size, 0, 8 * size)

/-- The stored element of a logical one (06 R231). -/
def Operand.logical (o : Operand) (i j : Nat) : Nat × Nat × Nat × Nat := if o.trans then o.place j i else o.place i j

/-- Read bytes in pieces of at most `step`, each aligned to it. -/
def Dev.jobBytes (d : Dev) (t : Nat) (un : List (Nat × Nat × Nat)) (va n step : Nat) : Dev × Except (TFault × Nat) (List Byte) :=
  (List.range (n / step)).foldl (fun acc i =>
    match acc with
    | (d, .error e) => (d, .error e)
    | (d, .ok bs) => match d.jobRead t un ((va + i * step) % 2 ^ 64) step step with
      | (d, .error e) => (d, .error e)
      | (d, .ok b) => (d, .ok (bs ++ b))) (d, .ok [])

/-- Read an element's bits. -/
def Dev.jobElem (d : Dev) (t : Nat) (un : List (Nat × Nat × Nat)) (p : Nat × Nat × Nat × Nat) : Dev × Except (TFault × Nat) Nat :=
  let step := if p.2.2.2 < 8 then 1 else min p.2.1 16
  match d.jobBytes t un p.1 p.2.1 step with
  | (d, .error e) => (d, .error e)
  | (d, .ok bs) => (d, .ok (leNat bs / 2 ^ p.2.2.1 % 2 ^ p.2.2.2))

/-- Collect results of reads. -/
def collect {α β : Type} (l : List α) (f : Dev → α → Dev × Except (TFault × Nat) β) (d : Dev) :
    Dev × Except (TFault × Nat) (List β) :=
  l.foldl (fun acc x =>
    match acc with
    | (d, .error e) => (d, .error e)
    | (d, .ok bs) => match f d x with
      | (d, .error e) => (d, .error e)
      | (d, .ok b) => (d, .ok (bs ++ [b]))) (d, .ok [])

/-- The block scale of an element, 0x80 where there is none (06 R233). -/
def Dev.jobScale (d : Dev) (t : Nat) (un : List (Nat × Nat × Nat)) (o : Operand) (line run : Nat) : Dev × Except (TFault × Nat) Nat :=
  if o.scaled then
    match d.jobRead t un ((o.scale.toNat + line * o.sstride + run) % 2 ^ 64) 1 1 with
    | (d, .error e) => (d, .error e)
    | (d, .ok bs) => (d, .ok (leNat bs))
  else (d, .ok 128)

/-- A row of A or a column of B: its K elements with their block scales. -/
def Dev.jobLine (d : Dev) (t : Nat) (un : List (Nat × Nat × Nat)) (o : Operand) (k line : Nat) (isB : Bool) :
    Dev × Except (TFault × Nat) (List (Nat × Nat)) :=
  match collect (List.range (cdiv k 32)) (fun d r => d.jobScale t un o line r) d with
  | (d, .error e) => (d, .error e)
  | (d, .ok ss) =>
    collect (List.range k) (fun d i =>
      match d.jobElem t un (if isB then o.logical i line else o.logical line i) with
      | (d, .error e) => (d, .error e)
      | (d, .ok c) => (d, .ok (c, ss.getD (i / 32) 128))) d

/-! ### Arithmetic (06 R236 to R243) -/

/-- The value of an element under its block scale; none from a POISON block. -/
def elemFV (o : Operand) (e : Nat × Nat) : Option FV := decodeScaled o.fmt o.bias e.2 e.1

/-- A product as a value; none from a POISON block; a short-format product is never −0 (06 R237). -/
def prodFV (a b : Operand) (x y : Nat × Nat) : Option FV :=
  match elemFV a x, elemFV b y with
  | some u, some v => some (match u.mul v with
    | .fin q nz => .fin q (nz && !isShort a.fmt)
    | p => p)
  | _, _ => none

/-- The next accumulator of a group (06 R237, R238), and whether it became infinite from finite values
(06 R239). -/
def groupStep (p : FpFmt) (a : FV) (ps : List (Option FV)) : FV × Bool :=
  let vs := ps.map (fun o => o.getD .nan)
  let all := a :: vs
  if all.any (fun v => decide (v = .nan)) then (.nan, false)
  else
    let infs := all.filterMap (fun v => match v with | .inf s => some s | _ => none)
    match infs with
    | s :: rest => if rest.all (· == s) then (.inf s, false) else (.nan, false)
    | [] =>
      let qs := all.map (fun v => match v with | .fin q _ => q | _ => QR.zero)
      let sum := qs.foldl QR.add QR.zero
      if sum.sign = 0 then
        let nz := fun (v : FV) => match v with | .fin q n => q.sign == 0 && n | _ => false
        (.fin QR.zero (nz a && vs.all nz), false)
      else
        let r := p.decode (p.rne (.of sum))
        (r, match r with | .inf _ => true | _ => false)

/-- Pieces of `g` elements. -/
def chunks {α : Type} (g : Nat) : Nat → List α → List (List α)
  | 0, _ => []
  | _, [] => []
  | n + 1, l => l.take g :: chunks g n (l.drop g)

/-- The group size of step 2 of 06 R237. -/
def Job.group (j : Job) : Nat :=
  let narrow := fun (f : Nat) => f == 0 || f == 1 || f == 6 || f == 7
  if narrow j.a.fmt && narrow j.b.fmt then 32 else if j.a.fmt ≤ 9 then 16 else if j.a.fmt = 10 then 4 else 1

/-- An F32 or F64 output before its conversion (06 R237). -/
def Job.floatAcc (j : Job) (c : FV) (row col : List (Nat × Nat)) : FV × Bool :=
  let p := if j.acc = 3 then fpF64 else fpF32
  let ps := List.zipWith (prodFV j.a j.b) row col
  (chunks j.group ps.length ps).foldl (fun (acc : FV × Bool) g =>
    let r := groupStep p acc.1 g
    (r.1, acc.2 || r.2)) (c, false)

/-- The integer sum of an I32 output (06 R240). -/
def Job.intAcc (j : Job) (c : Int) (row col : List (Nat × Nat)) : Int :=
  let val := fun (o : Operand) (e : Nat × Nat) => match shortElem o.fmt 0 e.1 with | some (n, _) => n | none => 0
  (List.zipWith (fun x y => val j.a x * val j.b y) row col).foldl (· + ·) c

/-- A product into a tally (04 R166 to R171). -/
def Job.tallyAdd (j : Job) (t : Tal) (x y : Nat × Nat) : Tal :=
  if isShort j.a.fmt then
    let el := fun (o : Operand) (e : Nat × Nat) =>
      if e.2 = 0 then some ((0 : Int), (0 : Int))
      else if e.2 = 0xFF then none
      else (shortElem o.fmt o.bias e.1).map (fun (r : Int × Int) => (r.1, r.2 + ((e.2 : Int) - 128)))
    match el j.a x, el j.b y with
    | some (n, q), some (m, r) => t.product j.anchor (n * m) (q + r)
    | _, _ => { t with poison := true }
  else
    t.dyadic j.anchor ((decodeFmt j.a.fmt 0 x.1).mul (decodeFmt j.b.fmt 0 y.1))

/-- A tally output's accumulation. -/
def Job.tally (j : Job) (c : Tal) (row col : List (Nat × Nat)) : Tal :=
  (List.zip row col).foldl (fun t e => j.tallyAdd t e.1 e.2) c

/-- The rounding of an output (06 R243). -/
def Job.mode (j : Job) (m n : Nat) : Mode :=
  match j.round with
  | 0 => .rne
  | 1 => .rtz
  | _ => .sr (noise j.seed (m * j.n + n))

/-- Convert a value to C's format; a poisoned one is written as 04 R164 states (06 R243, 04 R161). -/
def Job.encode (j : Job) (s m n : Nat) (poison : Bool) (v : FV) : Enc :=
  if j.c.scaled then encodeScaled j.c.fmt j.c.bias s (j.mode m n) j.flush poison v
  else encodeFmt j.c.fmt j.c.bias (j.mode m n) j.flush v

/-! ### Blocks (06 R241 to R244, R251) -/

/-- Put an element's bits into a block's bytes. -/
def putBits (out : List (Nat × Nat × Nat)) (p : Nat × Nat × Nat × Nat) (code : Nat) : List (Nat × Nat × Nat) :=
  let v := code % 2 ^ p.2.2.2 * 2 ^ p.2.2.1
  let m := (2 ^ p.2.2.2 - 1) * 2 ^ p.2.2.1
  (List.range p.2.1).foldl (fun o i =>
    let mi := m / 256 ^ i % 256
    let vi := v / 256 ^ i % 256
    let a := (p.1 + i) % 2 ^ 64
    let old := tget (0, 0) o a
    tins o a (old.1 ||| mi, (old.2 &&& (255 - mi)) ||| vi)) out

/-- A row's run of a block: the codes it writes, and its anchor record under T128. -/
structure RunOut where
  encs : List Enc
  record : Option (List Byte)
  tals : List Tal
  deriving Inhabited

/-- The address of the anchor record or output scale of row `m` in block column `bj` (06 R233). -/
def Job.record (j : Job) (m bj size : Nat) : Nat := (j.c.scale.toNat + m * j.c.sstride + size * bj) % 2 ^ 64

/-- C's element as it stands, for ACCUM. -/
def Dev.jobC (d : Dev) (t : Nat) (un : List (Nat × Nat × Nat)) (j : Job) (m n : Nat) : Dev × Except (TFault × Nat) Nat :=
  d.jobElem t un (j.c.logical m n)

/-- T128 outputs as they are written, with their record (06 R241, R242; 04 R181 to R183). -/
def Job.t128Run (j : Job) (a : Int) (tals : List Tal) : RunOut :=
  let ts := tals.map (fun t => t.exported j.c.phases1)
  let flagOf := fun (f : Tal → Bool) => (List.range ts.length).foldl (fun n i => setBits n i i (b2n (f (ts.getD i {})))) 0
  { encs := ts.map (fun t => ⟨leNat (t.bytes j.c.phases1), t.counts, false⟩)
    record := some ((Anchor.mk a (flagOf (·.poison)) (flagOf (·.overflow))).bytes ts.length)
    tals := ts }

/-- One row of a TALLY block: its tallies, joined with C's under ACCUM (06 R241, R242). -/
def Dev.jobTallyRun (d : Dev) (t : Nat) (un : List (Nat × Nat × Nat)) (j : Job) (m bj : Nat) (cols : List Nat)
    (row : List (Nat × Nat)) (bs : List (List (Nat × Nat))) : Dev × Except (TFault × Nat) RunOut :=
  let fresh := fun (_ : Unit) => bs.map (fun col => j.tally {} row col)
  if j.c.fmt = 14 then
    if j.accum then
      match d.jobRead t un (j.record m bj 16) 16 16 with
      | (d, .error e) => (d, .error e)
      | (d, .ok rb) =>
        let r := Anchor.ofBytes rb cols.length
        match collect cols (fun d n => d.jobC t un j m n) d with
        | (d, .error e) => (d, .error e)
        | (d, .ok cs) =>
          let old := (List.range cols.length).map (fun i =>
            Tal.ofBytes (leBytes 64 (cs.getD i 0)) j.c.phases1 (bit r.poison i) (bit r.overflow i))
          if r.a = j.anchor then (d, .ok (j.t128Run j.anchor (List.zipWith (fun c col => j.tally c row col) old bs)))
          else (d, .ok (j.t128Run r.a (old.map (fun c => { c with poison := true }))))
    else (d, .ok (j.t128Run j.anchor (fresh ())))
  else
    match (if j.c.scaled then d.jobScale t un j.c m bj else (d, .ok 128)) with
    | (d, .error e) => (d, .error e)
    | (d, .ok s) =>
      let ts := fresh ()
      (d, .ok { encs := (List.range cols.length).map (fun i =>
                  (ts.getD i {}).evaluate j.anchor j.c.fmt j.c.bias s (j.mode m (cols.getD i 0)) j.flush),
                record := none, tals := ts })

/-- One row of a block under F32, F64 or I32 (06 R237 to R240). -/
def Dev.jobPlainRun (d : Dev) (t : Nat) (un : List (Nat × Nat × Nat)) (j : Job) (m bj : Nat) (cols : List Nat)
    (row : List (Nat × Nat)) (bs : List (List (Nat × Nat))) : Dev × Except (TFault × Nat) RunOut :=
  match (if j.accum then collect cols (fun d n => d.jobC t un j m n) d else (d, .ok [])) with
  | (d, .error e) => (d, .error e)
  | (d, .ok cs) =>
    match d.jobScale t un j.c m bj with
    | (d, .error e) => (d, .error e)
    | (d, .ok s) =>
      let one := fun (i : Nat) =>
        let col := bs.getD i []
        if j.acc = 2 then intEncode (-2147483648) 2147483647 32 (QR.ofInt (j.intAcc (if j.accum then toInt 32 (cs.getD i 0) else 0) row col)) .rne
        else
          let p := if j.acc = 3 then fpF64 else fpF32
          let c := if j.accum then p.decode (cs.getD i 0) else .of QR.zero
          let r := j.floatAcc c row col
          -- an output that depends on a POISON block counts saturated (04 R154)
          let poison := (List.zip row col).any (fun e => e.1.2 == 255 || e.2.2 == 255)
          let e := j.encode s m (cols.getD i 0) poison r.1
          { e with sat := e.sat || poison || r.2 }
      (d, .ok { encs := (List.range cols.length).map one, record := none, tals := [] })

/-- A row of zeros for K = 0: it counts nothing and reads no scales (06 R251). -/
def Job.zeroRun (j : Job) (cols : List Nat) : RunOut :=
  if j.c.fmt = 14 then j.t128Run j.anchor (cols.map (fun _ => {}))
  else { encs := cols.map (fun _ => ⟨0, false, false⟩), record := none, tals := [] }

/-- A flag of every output of a block: bit 32·row + column (06 R241). -/
def tallyFlags (rows : List (Nat × RunOut)) (f : Tal → Bool) : Nat :=
  rows.foldl (fun n r => r.2.tals.zipIdx.foldl (fun n e => setBits n (r.1 * 32 + e.2) (r.1 * 32 + e.2) (b2n (f e.1))) n) 0

/-- The tally storage of a block: 64 bytes for each output, in row-major order (06 R220). -/
def tallyStore (rows : List (Nat × RunOut)) : Tbl Byte :=
  let cells := rows.flatMap (fun r => (List.range r.2.tals.length).flatMap (fun i =>
    let bs := (r.2.tals.getD i {}).bytes false
    (List.range bs.length).map (fun b => ((r.1 * 32 + i) * 64 + b, bs.getD b 0))))
  tcanon 0 cells

/-- One output block computed (06 R241 to R244). -/
def Dev.jobBlock (d : Dev) (t : Nat) (un : List (Nat × Nat × Nat)) (j : Job) (bi bj : Nat) : Dev × Except (TFault × Nat) JobBlock :=
  let rows := rangeFrom (32 * bi) (min 32 (j.m - 32 * bi))
  let cols := rangeFrom (32 * bj) (min 32 (j.n - 32 * bj))
  match collect cols (fun d n => d.jobLine t un j.b j.k n true) d with
  | (d, .error e) => (d, .error e)
  | (d, .ok bs) =>
    match collect rows (fun d m =>
        if j.k = 0 then (d, .ok (j.zeroRun cols))
        else match d.jobLine t un j.a j.k m false with
          | (d, .error e) => (d, .error e)
          | (d, .ok row) => if j.acc = 1 then d.jobTallyRun t un j m bj cols row bs else d.jobPlainRun t un j m bj cols row bs) d with
    | (d, .error e) => (d, .error e)
    | (d, .ok runs) =>
      let rr := List.zip rows runs
      let out := rr.foldl (fun o r =>
        let o := (List.range cols.length).foldl (fun o i =>
          putBits o (j.c.logical r.1 (cols.getD i 0)) (r.2.encs.getD i default).code) o
        match r.2.record with
        | some bs => putBits o (j.record r.1 bj 16, 16, 0, 128) (leNat bs)
        | none => o) ([] : List (Nat × Nat × Nat))
      let encs := runs.flatMap (·.encs)
      let rows := if j.acc = 1 then (List.range runs.length).zip runs else []
      (d, .ok { bytes := out, sat := (encs.filter (·.sat)).length, flushed := (encs.filter (·.flush)).length,
                tally := tallyStore rows, poison := tallyFlags rows (·.poison), overflow := tallyFlags rows (·.overflow) })

/-- Every block of a job in order; the first fault ends it (06 R244, R253). -/
def Dev.jobCompute (d : Dev) (t : Nat) (j : Job) : Dev × List JobBlock × Option (TFault × Nat) :=
  let un := (d.tile t).mat.unwritten j.seq
  let order := (List.range (cdiv j.m 32)).flatMap (fun bi => (List.range (cdiv j.n 32)).map (fun bj => (bi, bj)))
  order.foldl (fun acc b =>
    match acc.2.2 with
    | some _ => acc
    | none => match acc.1.jobBlock t un j b.1 b.2 with
      | (d, .ok blk) => (d, acc.2.1 ++ [blk], none)
      | (d, .error e) => (d, acc.2.1, some e)) (d, [], none)

/-! ### Writing -/

/-- Bytes gathered into runs that lie within one 64-byte line. -/
def lineRuns : List (Nat × Nat × Nat) → List (Nat × List (Nat × Nat))
  | [] => []
  | (a, m, b) :: rest =>
    match lineRuns rest with
    | (a', l) :: more => if a' = a + 1 && a / 64 = a' / 64 then (a, (m, b) :: l) :: more else (a, [(m, b)]) :: (a', l) :: more
    | [] => [(a, [(m, b)])]

/-- Write a run; bits outside its masks keep their value. -/
def Dev.jobWrite (d : Dev) (t : Nat) (run : Nat × List (Nat × Nat)) : Dev × Except (TFault × Nat) Unit :=
  let len := run.2.length
  match d.tileXlate t run.1 1 len 2 with
  | (d, .error e) => (d, .error (e, run.1))
  | (d, .ok r) =>
    let ctx := d.tileCtx t
    match (if run.2.all (fun e => e.1 == 255) then (d, Except.ok (List.replicate len (0 : Byte))) else d.tileRead t ctx run.1 r len) with
    | (d, .error e) => (d.tileErr t e, .error (accTFault e, run.1))
    | (d, .ok old) =>
      let bs := (List.range len).map (fun i =>
        let e := run.2.getD i (0, 0)
        BitVec.ofNat 8 ((old.getD i 0).toNat &&& (255 - e.1) ||| e.2))
      match d.tileWrite t ctx run.1 r bs with
      | (d, .ok ()) => (d, .ok ())
      | (d, .error e) => (d.tileErr t e, .error (accTFault e, run.1))

/-- A job of a tile by its sequence number. -/
def Matrix.job? (m : Matrix) (seq : Nat) : Option Job := m.jobs.find? (fun j => j.seq == seq)
/-- Change a job. -/
def Dev.modJob (d : Dev) (t seq : Nat) (f : Job → Job) : Dev :=
  d.modTile t (fun x => { x with mat := { x.mat with jobs := x.mat.jobs.map (fun j => if j.seq == seq then f j else j) } })

/-- Write runs one after another, up to one that fails. -/
def Dev.jobRuns (d : Dev) (t : Nat) (runs : List (Nat × List (Nat × Nat))) : Dev × Option (TFault × Nat) :=
  runs.foldl (fun (acc : Dev × Option (TFault × Nat)) run =>
    match acc.2 with
    | some _ => acc
    | none => match acc.1.jobWrite t run with
      | (d, .ok ()) => (d, none)
      | (d, .error e) => (d, some e)) (d, none)

/-- Write a job's next computed block; a fault ends the job, which writes nothing more (06 R244, R253). -/
def Dev.jobWriteBlock (d : Dev) (t seq : Nat) : Dev × Bool :=
  match ((d.tile t).mat.job? seq) with
  | none => (d, false)
  | some j =>
    match j.todo with
    | [] => (d, true)
    | b :: rest =>
      match d.jobRuns t (lineRuns b.bytes) with
      | (d, some (e, va)) =>
        ((d.modJob t seq (fun j => { j with todo := [], fault := some (e.row, e.status, va) })).jobFault t e.row e.status seq va, false)
      | (d, none) =>
        let d := d.modJob t seq (fun j => { j with
          todo := rest, blocks := j.blocks + 1, sat := satAdd32 j.sat b.sat, flushed := satAdd32 j.flushed b.flushed })
        (d.modTile t (fun x => { x with mat := { x.mat with
          tally := b.tally, tallyPoison := b.poison, tallyOverflow := b.overflow } }), true)

/-- Write up to `n` of a job's computed blocks. -/
def Dev.jobAdvance (d : Dev) (t seq : Nat) : Nat → Dev × Bool
  | 0 => (d, true)
  | n + 1 =>
    match d.jobWriteBlock t seq with
    | (d, true) => d.jobAdvance t seq n
    | r => r

/-- Cycles from a job's start to the end of its last reduction group, and under TALLY of its last block's
evaluation or export, when it meets no wait (06 R246, R250): its reduction begins 24 cycles after its start,
and so does the next job's. -/
def Job.reduceCycles (j : Job) : Nat := j.cycles - 56

/-- A job can start: the jobs before it have finished their reductions; under SERIAL every earlier job has
completed (06 R245, R246). -/
def Matrix.canStart (m : Matrix) (now : Nat) (j : Job) : Bool :=
  let before := m.jobs.filter (fun k => k.seq < j.seq)
  j.state == 0 && before.all (fun k => k.state == 2 || (!j.serial && k.state == 1 && (k.idle || decide (k.start + k.reduceCycles ≤ now))))

/-- MATRIX_JOB_START (06 R246): the job begins to read its operands; what it will write is computed from
what it reads. -/
def execMatrixJobStart (t seq : Nat) (s : State) : Out :=
  actUp s fun d =>
    match (d.launchOn t), (d.tile t).mat.job? seq with
    | some _, some j =>
      if (d.tile t).mat.canStart (d.cycles (t / 8)) j && (d.tileState t = 2 || d.tileState t = 5) then
        match d.jobCompute t j with
        | (d', blocks, err) =>
          d'.modJob t seq (fun j => { j with
            state := 1, start := d.cycles (t / 8), todo := blocks
            fault := err.map (fun e => (e.1.row, e.1.status, e.2)) })
      else d
    | _, _ => d

/-- MATRIX_JOB_COMPLETE (06 R244, R245, R250, R251): the rest of the outputs are written, after every
earlier job has completed, and not before the time the job takes. -/
def execMatrixJobComplete (t seq : Nat) (s : State) : Out :=
  actUp s fun d =>
    match (d.launchOn t), (d.tile t).mat.job? seq with
    | some l, some j =>
      let earlier := ((d.tile t).mat.jobs.filter (fun k => k.seq < seq)).all (fun k => k.state == 2)
      let now := d.cycles (t / 8)
      let ready := decide (j.state = 1 ∧ j.start + (if j.idle then 8 else j.cycles) ≤ now)
      if !earlier || !ready || !(d.tileState t = 2 || d.tileState t = 5) then d
      else match d.jobAdvance t seq j.todo.length with
        | (d, false) => d
        | (d, true) =>
          match j.fault with
          | some (row, status, va) => d.jobFault t row status seq va
          | none =>
            let done := ((d.tile t).mat.job? seq).getD j
            let d := d.modJob t seq (fun j => { j with state := 2, stop := now })
            let d := d.modTile t (fun x => { x with mat := { x.mat with jobs := keepJobs x.mat.jobs } })
            d.modLaunch l.ring l.index (fun l => { l with
              sat := satAdd32 l.sat done.sat, flushed := satAdd32 l.flushed done.flushed })
    | _, _ => d

/-- The 64-byte words a block writes to. -/
def JobBlock.lines (b : JobBlock) : List Nat := (b.bytes.map (fun e => e.1 / 64)).eraseDups

/-- One running job when its launch stops: some more of its blocks may have been written, and one block in
part, in whole 64-byte words; how far is free. Answers the counts of those blocks, and whether every output
of the job has been written (06 R245, R254). -/
def Dev.jobCut (d : Dev) (t : Nat) (j : Job) : Dev × (Nat × Nat) × Bool :=
  let n := (Config.freeValue d.fresh).toNat % (j.todo.length + 1)
  let r := (j.todo.take n).foldl (fun (acc : Dev × (Nat × Nat) × Bool) b =>
    if !acc.2.2 then acc
    else match acc.1.jobRuns t (lineRuns b.bytes) with
      | (d, none) => (d, (acc.2.1.1 + b.sat, acc.2.1.2 + b.flushed), true)
      | (d, some _) => (d, acc.2.1, false)) (d.draw, (0, 0), true)
  match j.todo.drop n with
  | [] => (r.1, r.2.1, r.2.2 && j.fault.isNone)
  | b :: _ =>
    let ls := b.lines.zipIdx.filter (fun e => Config.partialWrite (r.1.fresh + e.2)) |>.map (·.1)
    let d : Dev := { r.1 with fresh := r.1.fresh + b.lines.length }
    (if r.2.2 then (d.jobRuns t ((lineRuns b.bytes).filter (fun e => ls.contains (e.1 / 64)))).1 else d, r.2.1, false)

/-- The outstanding jobs of a tile end as its launch stops, the oldest first: a later one has written something
only if the earlier ones have written everything (06 R245, R254). Answers the counts of the blocks written. -/
def Dev.jobsEnd (d : Dev) (t : Nat) : Dev × Nat × Nat :=
  let r := (d.tile t).mat.jobs.reverse.foldl (fun (acc : Dev × (Nat × Nat) × Bool) j =>
    if acc.2.2 then
      match acc.1.jobCut t j with
      | (d, c, more) => (d, (acc.2.1.1 + c.1, acc.2.1.2 + c.2), more)
    else acc) (d, (0, 0), true)
  (r.1.modTile t (fun x => { x with mat := { x.mat with jobs := x.mat.jobs.map (fun j => { j with todo := [] }) } }), r.2.1)

/-! ### X.WAIT and X.STAT (06 R226 to R228) -/

/-- A token the instruction accepts: its sequence number (06 R228). -/
def Matrix.tokenOk (m : Matrix) (tok : W64) : Bool :=
  let n := tok.toNat
  decide (n < 2 ^ 32 ∧ n ≠ 0 ∧ n ≤ m.seq)

/-- Among the 8 most recently issued (06 R226). -/
def Matrix.recent (m : Matrix) (seq : Nat) : Bool := decide (m.seq < seq + 8)

/-- The value X.WAIT returns, none while the job has not completed (06 R226). -/
def Matrix.waitValue (m : Matrix) (seq : Nat) : Option Nat :=
  if m.recent seq then
    match m.job? seq with
    | some j => if j.state = 2 then some (j.stop - j.start) else none
    | none => some 0
  else some 0

/-- The value X.STAT returns (06 R227). A job that computes nothing is RUNNING from its token on (06 R251). -/
def Matrix.statValue (m : Matrix) (sel seq : Nat) : Nat :=
  match (if m.recent seq then m.job? seq else none) with
  | none => if sel = 2 then 3 else 0
  | some j => match sel with
    | 0 => j.sat * 2 ^ 32 + j.flushed
    | 1 => j.blocks
    | _ => j.state

/-- Before a job's progress is read, some of its computed blocks, a free number of them, are written:
how far it has come is timing (06 R227, R244). -/
def Dev.jobProgress (d : Dev) (t seq : Nat) : Dev × Bool :=
  match (d.tile t).mat.job? seq with
  | none => (d, true)
  | some j =>
    if j.state = 1 && ((d.tile t).mat.jobs.filter (fun k => k.seq < seq)).all (fun k => k.state == 2) then
      let n := (Config.freeValue d.fresh).toNat % (j.todo.length + 1)
      d.draw.jobAdvance t seq n
    else (d, true)

/-- The X. instruction at the head of a control core's matrix queue. -/
def Dev.matHead (d : Dev) (t key : Nat) : Option MatOp :=
  match d.launchOn t with
  | none => none
  | some l =>
    if l.gangs || !(d.tileState t = 2 || d.tileState t = 5) then none
    else match (d.tile t).mat.queue with
      | [] => none
      | o :: _ => if queueOp o.word = some (1, key) then some o else none

/-- It leaves the queue and writes x[rd]. -/
def Dev.matRetire (d : Dev) (t : Nat) (o : MatOp) (v : Nat) : Dev :=
  d.modTile t (fun x => { x with core := x.core.setX (rdOf o.word) (w64 v), mat := { x.mat with queue := x.mat.queue.drop 1 } })

/-- X.MMA on the control core (06 R223). -/
def Dev.coreMma (d : Dev) (t : Nat) : Dev :=
  match d.matHead t 0 with
  | none => d
  | some o =>
    match d.mma t o.rs1 with
    | (_, .wait) => d
    | (d, .token n) => d.matRetire t o n
    | (d, .ended) => d
    | (d, .fault e va) => d.coreFault t o.pc e va

/-- X.WAIT on the control core (06 R226, R228). -/
def Dev.coreWait (d : Dev) (t : Nat) : Dev :=
  match d.matHead t 1 with
  | none => d
  | some o =>
    let m := (d.tile t).mat
    if !m.tokenOk o.rs1 then d.coreIllegal t o.pc
    else match m.waitValue o.rs1.toNat with
      | none => d
      | some v => d.matRetire t o v

/-- X.STAT on the control core (06 R227, R228). -/
def Dev.coreStat (d : Dev) (t sel : Nat) : Dev :=
  match d.matHead t (2 + sel) with
  | none => d
  | some o =>
    if !(d.tile t).mat.tokenOk o.rs1 then d.coreIllegal t o.pc
    else match (if sel = 2 then (d, true) else d.jobProgress t o.rs1.toNat) with
      | (d, true) => d.matRetire t o ((d.tile t).mat.statValue sel o.rs1.toNat)
      | (d, false) => d

end Sys2Proof.Machine
end

