-- ==== Sys2Proof/Machine/Gangs.lean ====
section
/-! DEFINITION. Gangs (08 R306 to R338): the choice of a group, issue, barriers, votes, shuffles and the
uniform path, memory accesses and atomics of a group, swapping through state frames, faults, and the X.
instructions and ends of programs that gangs share with the control core. -/
namespace Sys2Proof.Machine

/-! ### Gangs of a tile -/

/-- Change a gang of a tile. -/
def Dev.modGang (d : Dev) (t idx : Nat) (f : Gang → Gang) : Dev :=
  d.modTile t (fun x => { x with gangs := x.gangs.map (fun g => if g.idx == idx then f g else g) })

/-- A gang of a tile. -/
def Dev.gang? (d : Dev) (t idx : Nat) : Option Gang := (d.tile t).gangs.find? (fun g => g.idx == idx)

/-- A thread of a gang. -/
def Gang.thread (g : Gang) (i : Nat) : Thread := g.threads.getD i .new

/-- Change a thread. -/
def Gang.modThread (g : Gang) (i : Nat) (f : Thread → Thread) : Gang :=
  { g with threads := g.threads.zipIdx.map (fun e => if e.2 == i then f e.1 else e.1) }

/-- The threads' indices. -/
def lanes : List Nat := List.range 32

/-- The wait of a held instruction is over: a job slot is free, or its job has completed (08 R325). -/
def Held.over (h : Held) (m : Matrix) : Bool :=
  if h.mma then decide (m.outstanding < 8) else (m.waitValue h.val.toNat).isSome

/-- A thread can be part of an issue. One whose frame was overwritten with WAIT_JOB and which holds no
instruction executes the one at its pc again. -/
def Thread.canIssue (th : Thread) : Bool := th.state == 0 || (th.state == 2 && th.held.isNone)

/-- A thread is ready: it can issue, or what it waits for is there (08 R313, R325). -/
def Thread.ready (th : Thread) (m : Matrix) : Bool :=
  th.canIssue || (th.state == 2 && (match th.held with | some h => h.over m | none => false))

/-- A gang's ready threads. -/
def Gang.readyLanes (g : Gang) (m : Matrix) : List Nat := lanes.filter (fun i => (g.thread i).ready m)

/-- A gang's threads that can issue. -/
def Gang.issueLanes (g : Gang) : List Nat := lanes.filter (fun i => (g.thread i).canIssue && i < g.threads.length)

/-- The group a gang issues next: its threads and pc, and whether rule 1 chose it (08 R317). -/
def Gang.group (g : Gang) : Option (List Nat × W64 × Bool) :=
  let ready := g.issueLanes
  let at' := fun (pc : W64) => ready.filter (fun i => (g.thread i).hart.pc == pc)
  let old := ready.filter (fun i => 256 ≤ (g.thread i).age)
  match old with
  | i :: rest =>
    let o := rest.foldl (fun a b => if (g.thread a).age < (g.thread b).age then b else a) i
    let pc := (g.thread o).hart.pc
    some (at' pc, pc, true)
  | [] =>
    match ready with
    | [] => none
    | i :: rest =>
      let lo := rest.foldl (fun a b => if (g.thread b).hart.pc.toNat < (g.thread a).hart.pc.toNat then b else a) i
      let pc := (g.thread lo).hart.pc
      some (at' pc, pc, false)

/-- The gang that issues next: active gangs with a thread that can issue in turn, after the one chosen before;
the lowest index first after a launch start (08 R312). -/
def Tile.nextGang (x : Tile) : Option Gang :=
  let can := x.gangs.filter (fun g => g.active && !g.issueLanes.isEmpty)
  match can.find? (fun g => x.lastGang < g.idx) with
  | some g => some g
  | none => can.head?

/-- The launch whose gangs run on a tile (08 R310). -/
def Dev.gangLaunch (d : Dev) (t : Nat) : Option Launch :=
  match d.launchOn t with
  | none => none
  | some l => if l.gangs && d.tileState t = 2 then some l else none

/-- The issue a tile's gang processor makes next. -/
structure Issue where
  l : Launch
  g : Gang
  group : List Nat
  pc : W64
  aged : Bool
  word : W32
  deriving DecidableEq, Repr

/-- What the next issue finds. -/
inductive GangNext where
  | none
  | fetchFault (i : Issue) (e : TFault)
  | issue (i : Issue)

/-- Choose the next group and fetch its instruction. -/
def Dev.gangNext (d : Dev) (t : Nat) : Dev × GangNext :=
  match d.gangLaunch t, (d.tile t).nextGang with
  | some l, some g =>
    match g.group with
    | none => (d, .none)
    | some (grp, pc, aged) =>
      match d.tileFetch t pc with
      | (d, .error e) => (d, .fetchFault ⟨l, g, grp, pc, aged, 0⟩ e)
      | (d, .ok w) => (d, .issue ⟨l, g, grp, pc, aged, w⟩)
  | _, _ => (d, .none)

/-- The lowest thread of a group. -/
def Issue.low (i : Issue) : Nat := i.group.headD 0

/-- Configuration of a thread's instructions (08 R306, R308). -/
def Dev.threadCfg (d : Dev) (t : Nat) (i : Issue) (n : Nat) : RvCfg :=
  { core := false, csr := d.tileCsr t i.l (i.g.thread n).hart.instret (some (n, i.g.idx)) }

/-- Decode the issue's word for one of its threads. -/
def Dev.threadAct (d : Dev) (t : Nat) (i : Issue) (n : Nat) : RvAct :=
  rvDecode (d.threadCfg t i n) (i.g.thread n).hart i.word

/-- A gang fault (08 R333). -/
def Dev.gangFault (d : Dev) (t row status w3 : Nat) (pc : W64) (va thread gang : Nat) : Dev :=
  d.tileFault t 0x6105 status w3
    [(1, Config.causeCode 0x6105 row), (8, pc.toNat), (8, va), (1, thread), (1, gang), (2, d.locTile t)]

/-- A gang fault that kills the context and has no faulting VA: that field of its payload is free (08 R333). -/
def Dev.gangTrap (d : Dev) (t row : Nat) (pc : W64) (thread gang : Nat) : Dev :=
  d.draw.gangFault t row 0x12 pc.toNat pc (Config.freeValue d.fresh).toNat thread gang

/-- An illegal instruction of a thread of an issue. -/
def Dev.gangIllegal (d : Dev) (t : Nat) (i : Issue) (n : Nat) : Dev := d.gangTrap t 1 i.pc n i.g.idx

/-- A parity error in a register file that an issue reads: a fault of the tile program, whose address is
unstated (13 R511; 01 R42; 03 R115, R119). -/
def Dev.gangParity (d : Dev) (t : Nat) (i : Issue) : Dev :=
  let va := (Config.freeValue d.fresh).toNat
  d.draw.gangFault t 7 0x18 va i.pc va i.low i.g.idx

/-- Row of 08 R333's table for an access fault. -/
def gangRow : TFault → Nat
  | .misaligned => 3
  | .segment => 5
  | .page => 6
  | .poison => 7
  | .hw => 9

/-- An access fault of a thread. -/
def Dev.gangMemFault (d : Dev) (t : Nat) (i : Issue) (n : Nat) (e : TFault) (va : Nat) : Dev :=
  d.gangFault t (gangRow e) e.status va i.pc va n i.g.idx

/-- An issue takes place: the group's ages are cleared, the other ready threads grow older, and the
choice is remembered (08 R312, R317). -/
def Dev.gangIssued (d : Dev) (t : Nat) (i : Issue) : Dev :=
  let m := (d.tile t).mat
  let d := if i.aged then d.addSat F.cdGangStatus_AGED_ISSUES 1 (t / 32) else d
  let d := d.modTile t (fun x => { x with lastGang := i.g.idx })
  d.modGang t i.g.idx (fun g => { g with threads := g.threads.zipIdx.map (fun e =>
    if i.group.contains e.2 then { e.1 with age := 0 }
    else if e.1.ready m then { e.1 with age := e.1.age + 1 } else e.1) })

/-- Set a thread's register context and make it READY. -/
def Dev.setThread (d : Dev) (t gang n : Nat) (h : Hart) : Dev :=
  d.modGang t gang (fun g => g.modThread n (fun th => { th with hart := h, state := 0, held := none }))

/-- Every thread of the group moves on to the next instruction. -/
def Dev.gangRetire (d : Dev) (t : Nat) (i : Issue) : Dev :=
  i.group.foldl (fun d n => d.setThread t i.g.idx n (i.g.thread n).hart.retire) d

/-- A uniform register; u0 reads 0 (08 R307). -/
def Gang.getU (g : Gang) (r : Nat) : W64 := if r = 0 then 0 else tget 0 g.u r
/-- Write a uniform register; a write to u0 has no effect (08 R307). -/
def Dev.setU (d : Dev) (t gang r : Nat) (v : W64) : Dev :=
  if r = 0 then d else d.modGang t gang (fun g => { g with u := tset 0 g.u r v })

/-! ### Barriers, exits and faults that follow an issue (08 R319 to R322, R332) -/

/-- Threads that have not exited. -/
def Gang.alive (g : Gang) : List Nat := lanes.filter (fun i => (g.thread i).state ≠ 3 && i < g.threads.length)

/-- Barriers some thread waits at. -/
def Gang.barriers (g : Gang) : List Nat :=
  (List.range 16).filter (fun b => lanes.any (fun i => (g.thread i).state == 1 && (g.thread i).barrier == b))

/-- After an issue or exit: a barrier all live threads wait at completes; a split one faults; a gang
without live threads ends, and with the last gang the program of the tile. -/
def Dev.gangSettle (d : Dev) (t gang : Nat) : Dev :=
  match d.gang? t gang with
  | none => d
  | some g =>
    if g.alive.isEmpty then
      let d := d.modTile t (fun x => { x with gangs := x.gangs.filter (fun h => h.idx ≠ gang) })
      if (d.tile t).gangs.isEmpty then d.modTile t (fun x => { x with ecall := true }) else d
    else if !(g.alive.all (fun i => (g.thread i).state == 1)) then d
    else match g.barriers with
      | [] => d
      | [_] => d.modGang t gang (fun g => { g with threads := g.threads.map (fun th =>
          if th.state == 1 then { th with state := 0, hart := th.hart.retire } else th) })
      | bs =>
        -- every barrier of a split is the barrier of R321: which one the fault names is free
        let b := bs.getD ((Config.freeValue d.fresh).toNat % bs.length) 0
        let d := d.draw
        let w := (lanes.find? (fun i => (g.thread i).state == 1 && (g.thread i).barrier == b)).getD 0
        let pc := (g.thread w).hart.pc
        (d.addSat F.cdGangStatus_SPLIT_FAULTS 1 (t / 32)).gangTrap t 2 pc w gang

/-! ### Custom-2 words (08 R336) -/

/-- The operation a custom-2 word encodes, as (funct3 class, code): G. and U. operations of funct3 0 by
funct7; 1 G.AMO by operation; 2 U. by funct7; 3 U.ADDI; 4 to 7 uniform branches. -/
def gangOp (w : W32) : Option (Nat × Nat) :=
  let f7 := f7Of w
  let rd := rdOf w
  let r1 := rs1Of w
  let r2 := rs2Of w
  if opc w ≠ 0x5B then none
  else match f3Of w with
    | 0 =>
      match f7 with
      | 0x00 => if rd = 0 && r1 < 16 && r2 = 0 then some (0, f7) else none
      | 0x01 => if rd = 0 && r1 = 0 && r2 = 0 then some (0, f7) else none
      | 0x02 => if rd = 0 && r1 = 0 && r2 = 0 then some (0, f7) else none
      | 0x10 => some (0, f7)
      | 0x11 => some (0, f7)
      | _ => if [0x08, 0x09, 0x0A, 0x18, 0x19].contains f7 && r2 = 0 then some (0, f7) else none
    | 1 => if f7 % 4 = 0 && f7 / 8 ≤ 10 then some (1, f7 / 8) else none
    | 2 => if f7 ≤ 0x0A then some (2, f7) else none
    | k => some (k, 0)

/-- The G.AMO operation of a code (08 R328). -/
def gAmoOf (k : Nat) : AtomicOp :=
  match k with
  | 0 => .add | 1 => .fadd | 2 => .min | 3 => .max | 4 => .minu | 5 => .maxu
  | 6 => .and | 7 => .or | 8 => .xor | 9 => .swap | _ => .cas

/-- Issue the next group when its word is the named custom-2 operation. -/
def Dev.gangRun (d : Dev) (t : Nat) (key : Nat × Nat) (f : Dev → Issue → Dev) : Dev :=
  match d.gangNext t with
  | (d', .issue i) => if gangOp i.word = some key then (f (d'.gangIssued t i) i).gangSettle t i.g.idx else d
  | _ => d

/-- G.BAR (08 R319): the threads of the group wait at the barrier. -/
def execGBar (t : Nat) (s : State) : Out :=
  actUp s fun d => d.gangRun t (0, 0x00) fun d i =>
    d.modGang t i.g.idx (fun g => { g with threads := g.threads.zipIdx.map (fun e =>
      if i.group.contains e.2 then { e.1 with state := 1, barrier := rs1Of i.word } else e.1) })

/-- G.YIELD (08 R313, condition 1). -/
def execGYield (t : Nat) (s : State) : Out :=
  actUp s fun d => d.gangRun t (0, 0x01) fun d i =>
    (d.gangRetire t i).modGang t i.g.idx (fun g => { g with yielded := true })

/-- The threads of a group end (08 R332). -/
def Dev.gangExit (d : Dev) (t : Nat) (i : Issue) : Dev :=
  d.modGang t i.g.idx (fun g => { g with threads := g.threads.zipIdx.map (fun e =>
    if i.group.contains e.2 then { e.1 with state := 3, hart := { e.1.hart with instret := e.1.hart.instret + 1, resv := none } } else e.1) })

/-- G.EXIT (08 R332). -/
def execGExit (t : Nat) (s : State) : Out := actUp s fun d => d.gangRun t (0, 0x02) fun d i => d.gangExit t i

/-- The threads of a group whose x[rs1] is not zero. -/
def Issue.votes (i : Issue) : List Nat := i.group.filter (fun n => (i.g.thread n).hart.getX (rs1Of i.word) ≠ 0)

/-- G.VOTE.ANY (08 R323). -/
def execGVoteAny (t : Nat) (s : State) : Out :=
  actUp s fun d => d.gangRun t (0, 0x08) fun d i =>
    (d.gangRetire t i).setU t i.g.idx (rdOf i.word) (w64 (b2n (!i.votes.isEmpty)))

/-- G.VOTE.ALL (08 R323). -/
def execGVoteAll (t : Nat) (s : State) : Out :=
  actUp s fun d => d.gangRun t (0, 0x09) fun d i =>
    (d.gangRetire t i).setU t i.g.idx (rdOf i.word) (w64 (b2n (i.votes.length == i.group.length)))

/-- G.VOTE.BALLOT (08 R323). -/
def execGVoteBallot (t : Nat) (s : State) : Out :=
  actUp s fun d => d.gangRun t (0, 0x0A) fun d i =>
    (d.gangRetire t i).setU t i.g.idx (rdOf i.word) (w64 (i.votes.foldl (fun m n => m + 2 ^ n) 0))

/-- The thread a shuffle reads from: the named one, or itself when that one is not in the group
(08 R323). -/
def Issue.from (i : Issue) (n : Nat) : Nat :=
  let k := ((i.g.thread n).hart.getX (rs2Of i.word)).toNat % 32
  if i.group.contains k then k else n

/-- G.SHFL (08 R323): every source is read before any destination is written. -/
def execGShfl (t : Nat) (s : State) : Out :=
  actUp s fun d => d.gangRun t (0, 0x10) fun d i =>
    i.group.foldl (fun d n => d.setThread t i.g.idx n
      ((i.g.thread n).hart.setX (rdOf i.word) ((i.g.thread (i.from n)).hart.getX (rs1Of i.word))).retire) d

/-- G.SHFL.F (08 R323). -/
def execGShflF (t : Nat) (s : State) : Out :=
  actUp s fun d => d.gangRun t (0, 0x11) fun d i =>
    i.group.foldl (fun d n => d.setThread t i.g.idx n
      ((i.g.thread n).hart.setF (rdOf i.word) ((i.g.thread (i.from n)).hart.getF (rs1Of i.word))).retire) d

/-- U.GET (08 R324): the lowest-numbered thread's x[rs1]. -/
def execUGet (t : Nat) (s : State) : Out :=
  actUp s fun d => d.gangRun t (0, 0x18) fun d i =>
    (d.gangRetire t i).setU t i.g.idx (rdOf i.word) ((i.g.thread i.low).hart.getX (rs1Of i.word))

/-- U.PUT (08 R324). -/
def execUPut (t : Nat) (s : State) : Out :=
  actUp s fun d => d.gangRun t (0, 0x19) fun d i =>
    i.group.foldl (fun d n => d.setThread t i.g.idx n
      ((i.g.thread n).hart.setX (rdOf i.word) (i.g.getU (rs1Of i.word))).retire) d

/-- A uniform operation on u[rs1] and u[rs2], once for the issue (08 R324, R336). -/
def Dev.uniform (d : Dev) (t : Nat) (key : Nat × Nat) (f : W64 → W64 → W64) : Dev :=
  d.gangRun t key fun d i =>
    (d.gangRetire t i).setU t i.g.idx (rdOf i.word) (f (i.g.getU (rs1Of i.word)) (i.g.getU (rs2Of i.word)))

/-- U.ADD (08 R336). -/
def execUAdd (t : Nat) (s : State) : Out := actUp s fun d => d.uniform t (2, 0) fun a b => a + b
/-- U.SUB (08 R336). -/
def execUSub (t : Nat) (s : State) : Out := actUp s fun d => d.uniform t (2, 1) fun a b => a - b
/-- U.AND (08 R336). -/
def execUAnd (t : Nat) (s : State) : Out := actUp s fun d => d.uniform t (2, 2) fun a b => a &&& b
/-- U.OR (08 R336). -/
def execUOr (t : Nat) (s : State) : Out := actUp s fun d => d.uniform t (2, 3) fun a b => a ||| b
/-- U.XOR (08 R336). -/
def execUXor (t : Nat) (s : State) : Out := actUp s fun d => d.uniform t (2, 4) fun a b => a ^^^ b
/-- U.SLL (08 R336). -/
def execUSll (t : Nat) (s : State) : Out := actUp s fun d => d.uniform t (2, 5) fun a b => a <<< (b.toNat % 64)
/-- U.SRL (08 R336). -/
def execUSrl (t : Nat) (s : State) : Out := actUp s fun d => d.uniform t (2, 6) fun a b => a >>> (b.toNat % 64)
/-- U.SRA (08 R336). -/
def execUSra (t : Nat) (s : State) : Out := actUp s fun d => d.uniform t (2, 7) fun a b => a.sshiftRight (b.toNat % 64)
/-- U.SLT (08 R336). -/
def execUSlt (t : Nat) (s : State) : Out := actUp s fun d => d.uniform t (2, 8) fun a b => w64 (b2n (a.slt b))
/-- U.SLTU (08 R336). -/
def execUSltu (t : Nat) (s : State) : Out := actUp s fun d => d.uniform t (2, 9) fun a b => w64 (b2n (a.ult b))
/-- U.MUL (08 R336). -/
def execUMul (t : Nat) (s : State) : Out := actUp s fun d => d.uniform t (2, 10) fun a b => a * b

/-- U.ADDI (08 R336). -/
def execUAddi (t : Nat) (s : State) : Out :=
  actUp s fun d => d.gangRun t (3, 0) fun d i =>
    (d.gangRetire t i).setU t i.g.idx (rdOf i.word) (i.g.getU (rs1Of i.word) + immI i.word)

/-- A uniform branch moves every thread of the group (08 R324); a misaligned target faults. -/
def Dev.uBranch (d : Dev) (t k : Nat) (f : W64 → W64 → Bool) : Dev :=
  d.gangRun t (k, 0) fun d i =>
    if f (i.g.getU (rs1Of i.word)) (i.g.getU (rs2Of i.word)) then
      let target := i.pc + immB i.word
      if target.toNat % 4 ≠ 0 then d.gangMemFault t i i.low .misaligned target.toNat
      else i.group.foldl (fun d n => d.setThread t i.g.idx n ((i.g.thread n).hart.jump target)) d
    else d.gangRetire t i

/-- U.BEQ (08 R324). -/
def execUBeq (t : Nat) (s : State) : Out := actUp s fun d => d.uBranch t 4 fun a b => a == b
/-- U.BNE (08 R324). -/
def execUBne (t : Nat) (s : State) : Out := actUp s fun d => d.uBranch t 5 fun a b => a != b
/-- U.BLT (08 R324, R336). -/
def execUBlt (t : Nat) (s : State) : Out := actUp s fun d => d.uBranch t 6 fun a b => a.slt b
/-- U.BGE (08 R324, R336). -/
def execUBge (t : Nat) (s : State) : Out := actUp s fun d => d.uBranch t 7 fun a b => !a.slt b

/-! ### Ordinary instructions of a group (08 R312, R326) -/

/-- The acts of a group's threads. -/
def Dev.groupActs (d : Dev) (t : Nat) (i : Issue) : List (Nat × RvAct) := i.group.map (fun n => (n, d.threadAct t i n))

/-- The issue that a tile's next group makes. -/
def GangNext.issue? : GangNext → Option Issue
  | .none => .none
  | .fetchFault i _ => some i
  | .issue i => some i

/-- GANG_THREAD_INSTRUCTION (08 R312, R317, R333): the next group issues an instruction that makes no
memory access, a FENCE, or an illegal instruction; a parity error in a register file it reads is a fault
(13 R511). -/
def execGangThreadInstruction (turn : TileIssue) (s : State) : Out :=
  actUp s fun d =>
    let t := turn.tile
    match d.gangNext t with
    | (d', next) =>
      match next, next.issue?.filter (fun _ => turn.parity) with
      | _, some i => d.gangParity t i
      | .none, none => d
      | .fetchFault i e, none => (d'.gangIssued t i).gangMemFault t i i.low e i.pc.toNat
      | .issue i, none =>
        let acts := d'.groupActs t i
        let d1 := d'.gangIssued t i
        match acts.find? (fun a => match a.2 with | .illegal => true | .misaligned _ => true | _ => false) with
        | some (n, .misaligned va) => d1.gangMemFault t i n .misaligned va.toNat
        | some (n, _) => d1.gangIllegal t i n
        | none =>
          match d'.threadAct t i i.low with
          | .next _ => acts.foldl (fun d a => match a.2 with
              | .next h => d.setThread t i.g.idx a.1 h
              | _ => d) d1
          | .fence => d1.gangRetire t i
          | .custom 1 => if (queueOp i.word).isSome then d else d1.gangIllegal t i i.low
          | .custom 2 => if (gangOp i.word).isSome then d else d1.gangIllegal t i i.low
          | .custom _ => d1.gangIllegal t i i.low
          | _ => d

/-- Carry out an action for each thread of a group in ascending order; a fault ends it (08 R327, R333).
The answer says whether it completed. -/
def groupRun (f : Dev → Nat → Dev × Except (TFault × Nat) Unit) (t : Nat) (i : Issue) (d : Dev) : Dev :=
  (i.group.foldl (fun (acc : Dev × Bool) n =>
    if acc.2 then acc
    else match f acc.1 n with
      | (d, .ok ()) => (d, false)
      | (d, .error (e, va)) => (d.gangMemFault t i n e va, true)) (d, false)).1

/-- One thread's load or store (08 R326). -/
def Dev.threadMem (d : Dev) (t : Nat) (i : Issue) (n : Nat) : Dev × Except (TFault × Nat) Unit :=
  let h := (i.g.thread n).hart
  match d.threadAct t i n with
  | .load rd fp size sg va =>
    match d.tileLoad t va.toNat size size 1 with
    | (d, .error e) => (d, .error (e, va.toNat))
    | (d, .ok bs) => (d.setThread t i.g.idx n ((d.threadCfg t i n).loaded h rd fp size sg (leNat bs)), .ok ())
  | .store size va val =>
    match d.tileStore t va.toNat size (leBytes size val) with
    | (d, .error e) => (d, .error (e, va.toNat))
    | (d, .ok ()) => (d.modGang t i.g.idx (fun g => g.modThread n (fun th => { th with hart := th.hart.retire })), .ok ())
  | _ => (d, .ok ())

/-- THREAD_MEMORY_ACCESS (08 R326, R327). -/
def execThreadMemoryAccess (t : Nat) (s : State) : Out :=
  actUp s fun d =>
    match d.gangNext t with
    | (d', .issue i) =>
      match d'.threadAct t i i.low with
      | .load _ _ _ _ _ => groupRun (fun d n => d.threadMem t i n) t i (d'.gangIssued t i)
      | .store _ _ _ => groupRun (fun d n => d.threadMem t i n) t i (d'.gangIssued t i)
      | _ => d
    | _ => d

/-- One thread's LR or SC; each thread has its own reservation (08 R331). -/
def Dev.threadResv (d : Dev) (t : Nat) (i : Issue) (n : Nat) : Dev × Except (TFault × Nat) Unit :=
  let hart := fun (d : Dev) => (((d.gang? t i.g.idx).getD i.g).thread n).hart
  match d.threadAct t i n with
  | .lr rd size va =>
    match resvAddr t va.toNat size with
    | .error e => (d, .error (e, va.toNat))
    | .ok pa =>
      match d.readPa pa size with
      | .error e => (d.tileErr t e, .error (accTFault e, va.toNat))
      | .ok bs =>
        let h := ((hart d).setX rd (amoOld (size == 8) (leNat bs))).retire
        (d.setThread t i.g.idx n { h with resv := some (pa, size) }, .ok ())
  | .sc rd size va val =>
    match resvAddr t va.toNat size with
    | .error e => (d, .error (e, va.toNat))
    | .ok pa =>
      let done := fun (d : Dev) (v : W64) =>
        let h := ((hart d).setX rd v).retire
        d.setThread t i.g.idx n { h with resv := none }
      if (hart d).resv = some (pa, size) then
        match d.writePa pa (leBytes size val) with
        | .error e => (d.tileErr t e, .error (accTFault e, va.toNat))
        | .ok d => (done d 0, .ok ())
      else (done d 1, .ok ())
  | _ => (d, .ok ())

/-- THREAD_LR_SC (08 R331): of several reservations of one address only the lowest thread's SC
succeeds, since its write ends the others. -/
def execThreadLrSc (t : Nat) (s : State) : Out :=
  actUp s fun d =>
    match d.gangNext t with
    | (d', .issue i) =>
      match d'.threadAct t i i.low with
      | .lr _ _ _ => groupRun (fun d n => d.threadResv t i n) t i (d'.gangIssued t i)
      | .sc _ _ _ _ => groupRun (fun d n => d.threadResv t i n) t i (d'.gangIssued t i)
      | _ => d
    | _ => d

/-! ### Atomics (08 R328 to R331) -/

/-- The atomic of a group's word: its operation and width, from G.AMO or an A-extension AMO. -/
def Dev.groupAmo (d : Dev) (t : Nat) (i : Issue) : Option (AtomicOp × Bool) :=
  match gangOp i.word with
  | some (1, k) => some (gAmoOf k, bit (f7Of i.word) 2)
  | _ => match d.threadAct t i i.low with
    | .amo _ op wide _ _ => some (op, wide)
    | _ => none

/-- A group's atomics, thread after thread in ascending order: the effect of the combined operations, each of
which its unit counts once (08 R329, R330; 10 R405). Answers none when some of them must wait for a wave's lock. -/
def Dev.groupAtomics (d : Dev) (t : Nat) (i : Issue) (op : AtomicOp) (wide : Bool) : Option Dev :=
  let size := if wide then 8 else 4
  let vaOf := fun (n : Nat) => ((i.g.thread n).hart.getX (rs1Of i.word)).toNat
  let r := i.group.foldl (fun (acc : Option (Dev × Bool)) n =>
    match acc with
    | none => none
    | some (d, true) => some (d, true)
    | some (d, false) =>
      let h := (i.g.thread n).hart
      let va := vaOf n
      let x := (h.getX (rs2Of i.word)).toNat
      let cmp := (h.getX (rdOf i.word)).toNat
      match d.tileAtomic t va size (fun old => atomicNew op wide old x cmp) (i.group.any (fun m => m < n && vaOf m == va)) with
      | (_, .wait) => none
      | (d, .fail e) => some (d.gangMemFault t i n e va, true)
      | (d, .ok old) =>
        let now := (((d.gang? t i.g.idx).getD i.g).thread n).hart
        some (d.setThread t i.g.idx n (now.setX (rdOf i.word) (amoOld wide old)).retire, false)) (some (d, false))
  r.map (·.1)

/-- A G.AMO row: the next group's word is this operation. -/
def Dev.gangAmo (d : Dev) (t : Nat) (op : AtomicOp) : Dev :=
  match d.gangNext t with
  | (d', .issue i) =>
    match d'.groupAmo t i with
    | some (o, wide) =>
      if o = op then
        match (d'.gangIssued t i).groupAtomics t i op wide with
        | some d2 => d2
        | none => d
      else d
    | none => d
  | _ => d

/-- G.AMO ADD (08 R328). -/
def execGAmoAdd (t : Nat) (s : State) : Out := actUp s fun d => d.gangAmo t .add
/-- G.AMO FADD (08 R328). -/
def execGAmoFadd (t : Nat) (s : State) : Out := actUp s fun d => d.gangAmo t .fadd
/-- G.AMO MIN (08 R328). -/
def execGAmoMin (t : Nat) (s : State) : Out := actUp s fun d => d.gangAmo t .min
/-- G.AMO MAX (08 R328). -/
def execGAmoMax (t : Nat) (s : State) : Out := actUp s fun d => d.gangAmo t .max
/-- G.AMO MINU (08 R328). -/
def execGAmoMinu (t : Nat) (s : State) : Out := actUp s fun d => d.gangAmo t .minu
/-- G.AMO MAXU (08 R328). -/
def execGAmoMaxu (t : Nat) (s : State) : Out := actUp s fun d => d.gangAmo t .maxu
/-- G.AMO AND (08 R328). -/
def execGAmoAnd (t : Nat) (s : State) : Out := actUp s fun d => d.gangAmo t .and
/-- G.AMO OR (08 R328). -/
def execGAmoOr (t : Nat) (s : State) : Out := actUp s fun d => d.gangAmo t .or
/-- G.AMO XOR (08 R328). -/
def execGAmoXor (t : Nat) (s : State) : Out := actUp s fun d => d.gangAmo t .xor
/-- G.AMO SWAP (08 R328). -/
def execGAmoSwap (t : Nat) (s : State) : Out := actUp s fun d => d.gangAmo t .swap
/-- G.AMO CAS (08 R328). -/
def execGAmoCas (t : Nat) (s : State) : Out := actUp s fun d => d.gangAmo t .cas

/-! ### Start state, frames and swaps (08 R309 to R316) -/

/-- A gang's state at its start (08 R310). -/
def gangStart (idx : Nat) (entry arg : W64) (t rank n g : Nat) (now : Nat) (active : Bool) : Gang :=
  let common := fun (tt : Tbl W64) =>
    tset 0 (tset 0 (tset 0 (tset 0 (tset 0 (tset 0 tt 10 arg) 11 (w64 t)) 12 (w64 rank)) 13 (w64 n)) 14 (w64 idx)) 15 (w64 g)
  { idx := idx, active := active, started := active, activeSince := now,
    u := common [],
    threads := lanes.map (fun i => { hart := { pc := entry, x := tset 0 (common []) 16 (w64 i) } }) }

/-- The physical address of a gang's state frame (08 R309). -/
def frameAt (t pend idx : Nat) : Nat := localBase t + pend + idx * 0x4400

/-- The bytes of a gang's frame (08 R311). -/
def Gang.frame (g : Gang) : List Byte :=
  let regs := fun (n : Nat) =>
    let h := (g.thread n).hart
    (List.range 32).flatMap (fun r => leBytes 8 (h.getX r).toNat) ++
    (List.range 32).flatMap (fun r => leBytes 4 (h.getF r).toNat ++ [0xFF, 0xFF, 0xFF, 0xFF])
  lanes.flatMap regs ++
  (List.range 32).flatMap (fun r => leBytes 8 (g.getU r).toNat) ++
  lanes.flatMap (fun n => leBytes 8 (g.thread n).hart.pc.toNat) ++
  lanes.flatMap (fun n =>
    let th := g.thread n
    leBytes 8 (min 255 th.age * 256 + th.barrier % 16 * 16 + th.state % 16)) ++
  lanes.flatMap (fun n => leBytes 1 (g.thread n).hart.fcsr) ++ List.replicate 224 0

/-- A gang's state from its frame; what the frame does not hold is as the device kept it. -/
def Gang.fromFrame (g : Gang) (bs : List Byte) : Gang :=
  let v := fun (off n : Nat) => leNat ((bs.drop off).take n)
  let table := fun (off len : Nat) => tcanon (0 : W64) ((List.range 32).map (fun r => (r, w64 (v (off + 8 * r) len))))
  { g with
    u := table 0x4000 8
    threads := lanes.map (fun n =>
      let st := v (0x4200 + 8 * n) 8
      let th := g.thread n
      { th with
        hart := { pc := w64 (v (0x4100 + 8 * n) 8), x := table (0x200 * n) 8,
                  f := table (0x100 + 0x200 * n) 4, fcsr := v (0x4300 + n) 1, instret := th.hart.instret }
        state := bits st 3 0, barrier := bits st 7 4, age := bits st 15 8 }) }

/-- What a pending gang's device state keeps: its registers are in its frame. -/
def Gang.park (g : Gang) (place : Nat) : Gang :=
  { g with
    active := false, yielded := false, pendSince := place, u := []
    threads := g.threads.map (fun th => { th with hart := { instret := th.hart.instret } }) }

/-- The place of the next gang to become pending (08 R315). -/
def Tile.nextPlace (x : Tile) : Nat := x.gangs.foldl (fun n g => max n g.pendSince) 0 + 1

/-- The ready pending gang that became pending earliest; those that have never run come first, by index
(08 R315). -/
def Tile.readyPending (x : Tile) : List Gang :=
  let ps := x.gangs.filter (fun g => !g.active && !(g.readyLanes x.mat).isEmpty)
  match ps with
  | [] => []
  | p :: rest => [rest.foldl (fun (a : Gang) b => if b.pendSince < a.pendSince then b else a) p]

/-- A thread's next instruction is a local-memory access whose bank's latest hint to the gang processor
exceeds a threshold (08 R313, condition 3). -/
def Dev.hintExceeds (d : Dev) (t : Nat) (g : Gang) (n limit : Nat) : Bool :=
  let h := (g.thread n).hart
  match (d.tileFetch t h.pc).2 with
  | .error _ => false
  | .ok w =>
    let va : Option W64 := match rvDecode { core := false, csr := fun _ => none } h w with
      | .load _ _ _ _ va => some va
      | .store _ va _ => some va
      | .amo _ _ _ va _ => some va
      | .lr _ _ va => some va
      | .sc _ _ va _ => some va
      | _ => match gangOp w with
        | some (1, _) => some (h.getX (rs1Of w))
        | _ => none
    match va with
    | none => false
    | some va =>
      va.toNat / 2 ^ 60 == 15 &&
        (d.arb (.localMem t (bits va.toNat 10 6))).hints.any (fun x => x.1 == 2 && limit < x.2)

/-- A swap condition of 08 R313 holds for an active gang. -/
def Dev.swapDue (d : Dev) (t : Nat) (g : Gang) : Bool :=
  let x := d.tile t
  let ready := g.readyLanes x.mat
  let halted := g.alive.all (fun i => (g.thread i).state == 4)
  !halted && (g.yielded || ready.isEmpty || decide (g.activeSince + x.slice ≤ d.cycles (t / 8)) ||
    ready.all (fun n => d.hintExceeds t g n x.swapHint))

/-- GANG_SWAP_OUT (08 R313, R314, R316): the gang's state is written to its frame; its reservations
end. -/
def execGangSwapOut (t gang : Nat) (s : State) : Out :=
  actUp s fun d =>
    match d.gangLaunch t, d.gang? t gang with
    | some l, some g =>
      if g.active && !(d.tile t).readyPending.isEmpty && d.swapDue t g then
        match d.writePa (frameAt t l.pend gang) g.frame with
        | .error e =>
          let va := 15 * 2 ^ 60 + l.pend + gang * 0x4400
          d.gangFault t (gangRow (accTFault e)) (accTFault e).status va 0 va 0 gang
        | .ok d =>
          (d.modGang t gang (fun g => g.park (d.tile t).nextPlace)).addSat F.cdGangStatus_SWAPS 1 (t / 32)
      else d
    | _, _ => d

/-- GANG_SWAP_IN (08 R310, R315, R333): the earliest ready pending gang takes a free place. -/
def execGangSwapIn (t : Nat) (s : State) : Out :=
  actUp s fun d =>
    match d.gangLaunch t, (d.tile t).readyPending with
    | some l, g :: _ =>
      if ((d.tile t).gangs.filter (·.active)).length < 4 then
        let now := d.cycles (t / 8)
        if g.started then
          let a := frameAt t l.pend g.idx
          match d.readPa a 0x4400 with
          | .ok bs => d.modGang t g.idx (fun g => { g.fromFrame bs with active := true, activeSince := now })
          | .error e =>
            let off := ((d.mem.firstPoison a 0x4400).getD a) - localBase t
            let va := 15 * 2 ^ 60 + off
            d.gangFault t (gangRow (accTFault e)) (accTFault e).status va 0 va 0 g.idx
        else d.modGang t g.idx (fun g => { g with active := true, started := true, activeSince := now })
      else d
    | _, _ => d

/-! ### Instructions shared with the control core -/

/-- A matrix instruction from a gang's uniform path, when the next group's word is it (06 R222,
08 R325). -/
def Dev.gangX (d : Dev) (t key : Nat) (f : Dev → Issue → Dev) : Dev :=
  match d.gangNext t with
  | (d', .issue i) => if queueOp i.word = some (1, key) then f (d'.gangIssued t i) i else d
  | _ => d

/-- The group waits in WAIT_JOB and holds its instruction (08 R325). -/
def Dev.gangWaits (d : Dev) (t : Nat) (i : Issue) (mma : Bool) (val : W64) : Dev :=
  let seq := (d.tile t).gangs.foldl (fun n g => g.threads.foldl (fun n th =>
    match th.held with | some h => max n h.seq | none => n) n) 0 + 1
  d.modGang t i.g.idx (fun g => { g with threads := g.threads.zipIdx.map (fun e =>
    if i.group.contains e.2 then { e.1 with state := 2, held := some { seq := seq, mma := mma, val := val, word := i.word } } else e.1) })

/-- The instruction held longest whose wait is over, among the active gangs of a tile, as the issue it was:
its threads and the operand it holds (08 R325). -/
def Dev.heldIssue (d : Dev) (t : Nat) (mma : Bool) : Option (Issue × W64) :=
  match d.gangLaunch t with
  | none => none
  | some l =>
    let x := d.tile t
    let all := (x.gangs.filter (·.active)).flatMap (fun g => lanes.filterMap (fun n =>
      if (g.thread n).state = 2 then
        match (g.thread n).held with
        | some h => if h.mma == mma && h.over x.mat then some (g, n, h) else none
        | none => none
      else none))
    match all with
    | [] => none
    | e :: rest =>
      let o := rest.foldl (fun (a : Gang × Nat × Held) b => if b.2.2.seq < a.2.2.seq then b else a) e
      let grp := lanes.filter (fun n => (o.1.thread n).state == 2 && (o.1.thread n).held == some o.2.2)
      some (⟨l, o.1, grp, (o.1.thread o.2.1).hart.pc, false, o.2.2.word⟩, o.2.2.val)

/-- Whether a tile runs gangs. -/
def Dev.runsGangs (d : Dev) (t : Nat) : Bool := match d.launchOn t with | some l => l.gangs | none => false

/-- X.MMA of a group of threads, with the address it was issued with. -/
def Dev.gangMma (d : Dev) (t : Nat) (i : Issue) (va : W64) : Dev :=
  match d.mma t va with
  | (_, .wait) => d.gangWaits t i true va
  | (d, .token n) => (d.gangRetire t i).setU t i.g.idx (rdOf i.word) (w64 n)
  | (d, .ended) => d
  | (d, .fault e va) => d.gangFault t (gangRow e) e.status va i.pc va i.low i.g.idx

/-- X.WAIT of a group of threads, with the token it was issued with. -/
def Dev.gangWait (d : Dev) (t : Nat) (i : Issue) (tok : W64) : Dev :=
  let m := (d.tile t).mat
  if !m.tokenOk tok then d.gangIllegal t i i.low
  else match m.waitValue tok.toNat with
    | none => d.gangWaits t i false tok
    | some v => (d.gangRetire t i).setU t i.g.idx (rdOf i.word) (w64 v)

/-- X_MMA (06 R223): from the control core's matrix queue, or once for a group (08 R325): one that waited for
the slot first, and else the next issue. -/
def execXMma (t : Nat) (s : State) : Out :=
  actUp s fun d =>
    if d.runsGangs t then
      match d.heldIssue t true with
      | some (i, va) => d.gangMma t i va
      | none => d.gangX t 0 fun d i => d.gangMma t i (i.g.getU (rs1Of i.word))
    else d.coreMma t

/-- X_WAIT (06 R226, R228): one whose job has completed first, and else the next issue. -/
def execXWait (t : Nat) (s : State) : Out :=
  actUp s fun d =>
    if d.runsGangs t then
      match d.heldIssue t false with
      | some (i, tok) => d.gangWait t i tok
      | none => d.gangX t 1 fun d i => d.gangWait t i (i.g.getU (rs1Of i.word))
    else d.coreWait t

/-- X.STAT from either path (06 R227, R228). -/
def Dev.xStat (d : Dev) (t sel : Nat) : Dev :=
  if d.runsGangs t then
    d.gangX t (2 + sel) fun d i =>
      let tok := i.g.getU (rs1Of i.word)
      if !(d.tile t).mat.tokenOk tok then d.gangIllegal t i i.low
      else match (if sel = 2 then (d, true) else d.jobProgress t tok.toNat) with
        | (d, true) => (d.gangRetire t i).setU t i.g.idx (rdOf i.word) (w64 ((d.tile t).mat.statValue sel tok.toNat))
        | (d, false) => d
  else d.coreStat t sel

/-- X_STAT_COUNTS (06 R227). -/
def execXStatCounts (t : Nat) (s : State) : Out := actUp s fun d => d.xStat t 0
/-- X_STAT_PROGRESS (06 R227). -/
def execXStatProgress (t : Nat) (s : State) : Out := actUp s fun d => d.xStat t 1
/-- X_STAT_STATE (06 R227). -/
def execXStatState (t : Nat) (s : State) : Out := actUp s fun d => d.xStat t 2

/-- ECALL (05 R211, 08 R332): ends the tile program, or the threads of the group. -/
def execEcall (t : Nat) (s : State) : Out :=
  actUp s fun d =>
    if d.runsGangs t then
      match d.gangNext t with
      | (d', .issue i) =>
        match d'.threadAct t i i.low with
        | .ecall => ((d'.gangIssued t i).gangExit t i).gangSettle t i.g.idx
        | _ => d
      | _ => d
    else d.coreEcall t

/-- EBREAK (05 R214, 08 R334): halts under authorised debug, and traps otherwise. -/
def execEbreak (t : Nat) (s : State) : Out :=
  actUp s fun d =>
    if d.runsGangs t then
      match d.gangNext t with
      | (d', .issue i) =>
        match d'.threadAct t i i.low with
        | .ebreak =>
          let d1 := d'.gangIssued t i
          if d1.tileDebug then
            d1.modGang t i.g.idx (fun g => { g with threads := g.threads.zipIdx.map (fun e =>
              if i.group.contains e.2 then { e.1 with state := 4 } else e.1) })
          else d1.gangTrap t 4 i.pc i.low i.g.idx
        | _ => d
      | _ => d
    else d.coreEbreak t

end Sys2Proof.Machine
end

