-- ==== Sys2Proof/Machine/Wharf.lean ====
section
/-! DEFINITION. WHARF items (10 R377 to R403, R408): the checks of their descriptors, the stacks they run
on, their waves in two phases, and what each operation writes. -/
namespace Sys2Proof.Machine

/-! ### Descriptor fields (10 R389, R390) -/

def Item.wop (it : Item) : Nat := it.f 1 3 0
def Item.nowb (it : Item) : Bool := it.b 1 8
def Item.slot (it : Item) : Nat := it.f 1 23 16
/-- n of the element word. -/
def Item.wn (it : Item) : Nat := it.f 4 31 0
def Item.yfmt (it : Item) : Nat := it.f 4 35 32
def Item.xfmt (it : Item) : Nat := it.f 4 39 36
def Item.wround (it : Item) : Nat := it.f 4 41 40
def Item.wflush (it : Item) : Bool := it.b 4 42
def Item.ph1 (it : Item) : Bool := it.b 4 43
/-- R and C of slot 2. -/
def Item.facR (it : Item) : Nat := it.f 7 31 0
def Item.facC (it : Item) : Nat := it.f 7 63 32

/-- Bytes of an element of a format under PHASES1. -/
def Item.wsize (it : Item) (f : Nat) : Nat := if f = 14 then (if it.ph1 then 16 else 64) else fmtBits f / 8

/-- An embedding operation. -/
def Item.embeds (it : Item) : Bool := it.wop == 4 || it.wop == 5 || it.wop == 6

/-- The primary operand: VA and length (10 R379, R389, R398). -/
def Item.primary (it : Item) : Nat × Nat :=
  match it.wop with
  | 4 => (it.w 2, it.gR * it.rowBytes)
  | 5 => (it.w 2, it.gR * it.rowBytes)
  | 6 => (it.w 3, it.gR * it.rowBytes)
  | 7 => (it.w 2, 8 * it.wn)
  | 8 => (it.w 2, 8 * it.wn)
  | 3 => (it.w 2, 4 * it.wn)
  | _ => (it.w 2, it.wn * it.wsize it.yfmt)

/-- Positions of a wave (10 R389). -/
def Item.waveLen (it : Item) : Nat :=
  match it.wop with
  | 3 => 16384
  | 4 => 64
  | 5 => 64
  | 6 => 64
  | 7 => 8192
  | 8 => 8192
  | _ => 65536 / max 1 (it.wsize it.yfmt)

/-- The item's last position. -/
def Item.wharfLast (it : Item) : Nat :=
  if it.embeds then it.gN else if it.wop = 3 && it.slot = 2 then 3 * it.wn else it.wn

/-- The VAs a WHARF descriptor names (11 R412). -/
def Item.wharfVas (it : Item) : List Nat :=
  match it.wop with
  | 0 => [it.w 2, it.w 3]
  | 1 => [it.w 2]
  | 2 => if it.yfmt = 14 then [it.w 2, it.w 3, it.w 5, it.w 6] else [it.w 2, it.w 3]
  | 3 => [it.w 2, it.w 3, it.w 5, it.w 6]
  | 5 => [it.w 2, it.w 3, it.w 4, it.w 7]
  | 7 => [it.w 2]
  | 8 => [it.w 2, it.w 3]
  | _ => [it.w 2, it.w 3, it.w 4]

/-- Two byte ranges share a byte. -/
def rangesMeet (a b n : Nat) : Bool := decide (a < b + n ∧ b < a + n)

/-- The reserved fields, codes, formats and alignments of a WHARF descriptor (10 R389 to R391, R395,
R398, R400). -/
def Item.wharfOk (it : Item) : Bool :=
  let h := fun f => f == 10 || f == 11
  it.w0ok && it.f 1 31 24 == 0 && it.f 1 15 9 == 0 && it.f 1 7 4 == 0 && (it.wop == 3 || it.slot == 0) &&
  (it.embeds || it.wop == 7 || it.wop == 8 || it.f 4 63 44 == 0) &&
  (match it.wop with
    | 0 => h it.yfmt && h it.xfmt && decide (it.wround ≤ 2) && it.f 5 63 32 == 0 && it.w 7 == 0 &&
        it.w 2 % it.wsize it.yfmt == 0 && it.w 3 % it.wsize it.xfmt == 0
    | 1 => h it.yfmt && it.xfmt == 0 && decide (it.wround ≤ 2) && it.w 3 == 0 && it.f 5 63 32 == 0 && it.w 7 == 0 &&
        it.w 2 % it.wsize it.yfmt == 0
    | 2 =>
      if it.yfmt = 14 then it.xfmt == 14 && it.w 2 % it.wsize 14 == 0 && it.w 3 % it.wsize 14 == 0 && it.w 5 % 16 == 0 && it.w 6 % 16 == 0
      else ((it.yfmt == 11 && h it.xfmt) || (it.yfmt == 10 && it.xfmt == 10)) && decide (it.wround ≤ 2) &&
        it.w 5 == 0 && it.w 6 == 0 && it.w 2 % it.wsize it.yfmt == 0 && it.w 3 % it.wsize it.xfmt == 0
    | 3 => it.yfmt == 11 && (h it.xfmt || it.xfmt == 14) && (it.xfmt == 14 || !it.ph1) && it.wround == 0 && !it.wflush &&
        decide (it.slot < 16) && it.w 2 % 4 == 0 && it.w 3 % it.wsize it.xfmt == 0 &&
        it.w 5 % 4 == 0 && it.w 6 % 64 == 0 &&
        (if it.slot = 2 then decide (it.facR ≤ 65536 ∧ it.facC ≤ 65536 ∧
            (it.wn = 0 ∨ it.facR = 0 ∨ it.facC = 0 ∨ it.wn = it.facR * it.facC)) else it.w 7 == 0)
    | 4 => it.gatherOk 0 && it.w 2 % elemAlign it.gFmt == 0 && it.w 3 % elemAlign it.gFmt == 0 && it.w 4 % 4 == 0
    | 5 => it.gatherOk 1 && it.w 2 % elemAlign it.gFmt == 0 && it.w 3 % 4 == 0 && it.w 4 % 4 == 0 && it.w 7 % 4 == 0
    | 6 => it.gatherOk 2 && it.w 2 % elemAlign it.gFmt == 0 && it.w 3 % elemAlign it.gFmt == 0 && it.w 4 % 4 == 0
    | 7 => it.w 2 % 8 == 0 && it.w 3 == 0 && it.f 4 63 32 == 0 && it.w 6 == 0 && it.w 7 == 0
    | 8 => it.w 2 % 8 == 0 && it.w 3 % 8 == 0 && it.f 4 63 32 == 0 && it.w 5 == 0 && it.w 6 == 0 && it.w 7 == 0 &&
        !rangesMeet (it.w 2) (it.w 3) (8 * it.wn)
    | _ => false)

/-- The item's operands make it empty (10 R392, 09 R352). -/
def Item.wharfEmpty (it : Item) : Bool :=
  if it.embeds then it.gN == 0 || it.gL == 0
  else it.wn == 0 || (it.wop == 3 && it.slot == 2 && (it.facR == 0 || it.facC == 0))

/-- START may be non-zero (10 R389). -/
def Item.wharfResumable (it : Item) : Bool := it.wop ≠ 3 || it.slot ≤ 1

/-- The 2 MiB pages of a VA range: the first address of each. -/
def pagesOf (va len : Nat) : List Nat :=
  if len = 0 then [] else
  (rangeFrom (va / 2 ^ 21) ((va + len - 1) / 2 ^ 21 - va / 2 ^ 21 + 1)).map (fun g => max va (g * 2 ^ 21))

/-- The stacks that hold granules of the primary operand (10 R379). -/
def Dev.wharfStacks (d : Dev) (it : Item) : List Nat :=
  let (va, len) := it.primary
  ((pagesOf va len).flatMap (fun a =>
    match d.peek it.ctx a with
    | some (_, pa) =>
      let stop := min (a / 2 ^ 21 * 2 ^ 21 + 2 ^ 21) (va + len)
      (List.range (min 32 ((stop - 1) / 4096 - a / 4096 + 1))).map (fun i => d.stackOfPa (pa + 4096 * i))
    | none => [])).eraseDups

/-- Some page of the primary operand translates outside the pool (10 R379). -/
def Dev.primaryOutside (d : Dev) (it : Item) : Bool :=
  let (va, len) := it.primary
  (pagesOf va len).any (fun a => match d.peek it.ctx a with | some (_, pa) => decide (2 ^ 40 ≤ pa) | none => false)

/-- A micro-program slot of the wharf store is loaded (10 R409). -/
def Dev.wharfSlot (d : Dev) (slot : Nat) : Bool := bit (d.get F.whfMpLoaded_LOADED 0) slot

/-- The checks of a WHARF item at its first release but for its parameter block (10 R379, R391, R392,
R408). -/
def Dev.wharfVerdict (d : Dev) (it : Item) : Verdict :=
  if !it.wharfOk then .invalid
  else if it.wop = 3 && !d.wharfSlot it.slot then .invalid
  else match segVerdict it.wharfVas with
    | some v => v
    | none =>
      if it.wharfEmpty then (if it.startPos = 0 then .empty else .invalid)
      else if it.wharfLast ≤ it.startPos || (it.startPos ≠ 0 && !it.wharfResumable) then .invalid
      else if d.primaryOutside it then .invalid
      else if (d.wharfStacks it).any (fun s => (tget .new d.hbmStacks s).fenced) then .fail 0x13 0
      else .run it.wharfLast

/-- The OPTIM parameter block is well formed (10 R391, R399). -/
def Item.optimParamsOk (it : Item) : Bool :=
  it.p 5 == 0 && it.p 6 == 0 && it.p 7 == 0 && (if it.xfmt = 14 then it.p 4 % 16 == 0 else it.p 4 == 0)

/-- The operand ranges of a WHARF item (10 R385). -/
def Dev.wharfRanges (d : Dev) (it : Item) : List (Nat × Nat) :=
  let n := it.wn
  let anchors := fun va => [(va, 16 * cdiv n 32)]
  match it.wop with
  | 0 => [(it.w 2, n * it.wsize it.yfmt), (it.w 3, n * it.wsize it.xfmt)]
  | 1 => [(it.w 2, n * it.wsize it.yfmt)]
  | 2 => [(it.w 2, n * it.wsize it.yfmt), (it.w 3, n * it.wsize it.xfmt)] ++
      (if it.yfmt = 14 then anchors (it.w 5) ++ anchors (it.w 6) else [])
  | 3 => [(it.w 2, 4 * n), (it.w 3, n * it.wsize it.xfmt), (it.w 6, 64),
      (it.w 5, if it.slot = 2 then 4 * (it.facR + it.facC) else if it.slot = 1 then 8 * n else 4 * n)] ++
      (if it.xfmt = 14 then anchors (it.p 4) else [])
  | 7 => [(it.w 2, 8 * n)]
  | 8 => [(it.w 2, 8 * n), (it.w 3, 8 * n)]
  | op => d.gatherRanges it (op - 4)

/-- Operand bytes read and result bytes written for `n` positions from `p` on of one pass, the anchor records of
the runs that begin there included (10 R384). The rows of a bag are those of its offsets as they stand. -/
def Dev.wharfBytes (d : Dev) (it : Item) (p n : Nat) : Nat :=
  let runs := cdiv (p % max 1 it.wn + n) 32 - cdiv (p % max 1 it.wn) 32
  let grad := it.wsize it.xfmt * n + (if it.xfmt = 14 then 16 * runs else 0)
  match it.wop with
  | 0 => (2 * it.wsize it.yfmt + it.wsize it.xfmt) * n
  | 1 => 2 * it.wsize it.yfmt * n
  | 2 => (2 * it.wsize it.yfmt + it.wsize it.xfmt) * n + (if it.yfmt = 14 then 48 * runs else 0)
  | 3 =>
    if it.slot = 2 then (if p < 2 * it.wn then grad else grad + 16 * n)
    else grad + (if it.slot = 1 then 24 else 16) * n
  | 4 => (4 + 2 * it.rowBytes) * n
  | 5 => ((rangeFrom p n).map (fun (b : Nat) =>
      let r := d.peek32 it.ctx (vaAdd (it.w 7) (4 * b + 4)) - d.peek32 it.ctx (vaAdd (it.w 7) (4 * b))
      8 + (4 + it.rowBytes) * r + 4 * it.gL)).sum
  | 6 => (4 + 3 * it.rowBytes) * n
  | 7 => 8 * n
  | _ => 16 * n

/-- The primary address of a position, as far as memory shows it: the element's, or its row's. -/
def Dev.primaryAt (d : Dev) (it : Item) (p : Nat) : Nat :=
  let row := fun (table i : Nat) => if i < it.gR then vaAdd table (i * it.rowBytes) else table
  let index := fun (i : Nat) => d.peek32 it.ctx (vaAdd (it.w 4) (4 * i))
  match it.wop with
  | 4 => row (it.w 2) (index p)
  | 5 => row (it.w 2) (index (d.peek32 it.ctx (vaAdd (it.w 7) (4 * p))))
  | 6 => row (it.w 3) (index p)
  | 3 => vaAdd (it.w 2) (4 * (p % max 1 it.wn))
  | 7 => vaAdd (it.w 2) (8 * p)
  | 8 => vaAdd (it.w 2) (8 * p)
  | _ => vaAdd (it.w 2) (it.wsize it.yfmt * p)

/-- Positions from `p` on that lie in its granule, and in its pass. -/
def Dev.granuleRun (d : Dev) (it : Item) (p : Nat) : Nat :=
  if it.embeds then 1
  else
    let k := match it.wop with
      | 3 => 4
      | 7 => 8
      | 8 => 8
      | _ => max 1 (it.wsize it.yfmt)
    let n := cdiv (4096 - d.primaryAt it p % 4096) k
    if it.wop = 3 then min n (it.wn - p % max 1 it.wn) else n

/-- The bytes that each complex reads and writes for its part of the positions from `p` to `hi`, by stack
(10 R379, R384); that of element 0 the statistics of FACTORED too. A position whose primary operand does not
translate counts for the first stack. -/
def Dev.wharfParts (d : Dev) (it : Item) (p hi : Nat) : Tbl Nat :=
  let stackAt := fun (a : Nat) => ((d.peek it.ctx a).map (fun q => d.stackOfPa q.2)).getD 0
  let add := fun (t : Tbl Nat) (s n : Nat) => tset 0 t s (tget 0 t s + n)
  let rec go (fuel p : Nat) (t : Tbl Nat) : Tbl Nat :=
    match fuel with
    | 0 => t
    | fuel + 1 =>
      if hi ≤ p then t
      else
        let n := max 1 (min (hi - p) (d.granuleRun it p))
        go fuel (p + n) (add t (stackAt (d.primaryAt it p)) (d.wharfBytes it p n))
  let t := go (hi - p) p []
  if it.wop = 3 && it.slot = 2 && p < 2 * it.wn && 2 * it.wn ≤ hi then
    add t (stackAt (it.w 2)) (8 * (it.facR + it.facC))
  else t

/-! ### Element arithmetic -/

/-- One element of AXPY, SCALE or a float REDUCE_ADD (10 R394, R395): a·x + y, a·y or y + x, formed
exactly and rounded once. -/
def axpyElem (op yf xf a : Nat) (m : Mode) (flush : Bool) (y x : Nat) : Enc :=
  let vy := decodeFmt yf 7 y
  let v := match op with
    | 0 => ((f32 a).mul (decodeFmt xf 7 x)).add vy
    | 1 => (f32 a).mul vy
    | _ => vy.add (decodeFmt xf 7 x)
  encodeFmt yf 7 m flush v

/-- A run of T128 elements of REDUCE_ADD (10 R395, R396): positions lo to hi − 1 of one anchor record. Anchors
that differ set every POISON bit of the run (04 R185). -/
def Item.tallyRun (it : Item) (e : Eng) (lo hi : Nat) : EM URes := do
  let k := it.wsize 14
  let run := lo / 32
  let n := min 32 (it.wn - 32 * run)
  let ry := Anchor.ofBytes (← e.rd (vaAdd (it.w 5) (16 * run)) 16) n
  let rx := Anchor.ofBytes (← e.rd (vaAdd (it.w 6) (16 * run)) 16) n
  let ys ← e.rd (vaAdd (it.w 2) (lo * k)) ((hi - lo) * k)
  let xs ← e.rd (vaAdd (it.w 3) (lo * k)) ((hi - lo) * k)
  let ts := (List.range (hi - lo)).map (fun i =>
    let b := lo + i - 32 * run
    let y := Tal.ofBytes ((ys.drop (k * i)).take k) it.ph1 (bit ry.poison b) (bit ry.overflow b)
    let x := Tal.ofBytes ((xs.drop (k * i)).take k) it.ph1 (bit rx.poison b) (bit rx.overflow b)
    y.join ry.a x rx.a)
  let flags := fun (old : Nat) (f : Tal → Bool) => (List.range (hi - lo)).foldl (fun acc i =>
    setBits acc (lo + i - 32 * run) (lo + i - 32 * run) (b2n (f (ts.getD i {})))) old
  let poison := if ry.a = rx.a then flags ry.poison (·.poison) else 2 ^ n - 1
  let r : Anchor := { a := ry.a, poison := poison, overflow := flags ry.overflow (·.overflow) }
  return ⟨[(vaAdd (it.w 2) (lo * k), ts.flatMap (fun t => t.bytes it.ph1)), (vaAdd (it.w 5) (16 * run), r.bytes n)],
    (ts.map (fun t => b2n t.counts)).sum, 0⟩

/-- grad of element `i` (10 R400). -/
def Item.grad (it : Item) (e : Eng) (i : Nat) : EM Nat := do
  if it.xfmt = 11 then e.nat (vaAdd (it.w 3) (4 * i)) 4
  else if it.xfmt = 10 then
    let c ← e.nat (vaAdd (it.w 3) (2 * i)) 2
    return fpF32.rne (fpH16.decode c)
  else
    let k := it.wsize 14
    let n := min 32 (it.wn - i / 32 * 32)
    let r := Anchor.ofBytes (← e.rd (vaAdd (it.p 4) (16 * (i / 32))) 16) n
    let bs ← e.rd (vaAdd (it.w 3) (k * i)) k
    return ((Tal.ofBytes bs it.ph1 (bit r.poison (i % 32)) (bit r.overflow (i % 32))).evaluate r.a 11 7 128 .rne false).code

/-- The values of the parameter block (10 R399). -/
def Item.lr (it : Item) : Nat := it.p 0 % 2 ^ 32
def Item.beta1 (it : Item) : Nat := it.p 0 / 2 ^ 32
def Item.beta2 (it : Item) : Nat := it.p 1 % 2 ^ 32
def Item.eps (it : Item) : Nat := it.p 1 / 2 ^ 32
def Item.lambda (it : Item) : Nat := it.p 2 % 2 ^ 32
def Item.gamma (it : Item) : Nat := it.p 2 / 2 ^ 32
def Item.corr1 (it : Item) : Nat := it.p 3 % 2 ^ 32
def Item.corr2 (it : Item) : Nat := it.p 3 / 2 ^ 32
/-- 1.0 as binary32. -/
def f32one : Nat := 0x3F800000
def Item.b1 (it : Item) : Nat := f32sub f32one it.beta1
def Item.b2 (it : Item) : Nat := f32sub f32one it.beta2

/-- MOMENTUM: (m, θ) (10 R400). -/
def Item.momentum (it : Item) (grad theta m : Nat) : Nat × Nat :=
  let g := f32mul it.gamma grad
  let g := f32add g (f32mul it.lambda theta)
  let m := f32add (f32mul it.beta1 m) g
  (m, f32sub theta (f32mul it.lr m))

/-- ADAPTIVE: (m, v, θ) (10 R400). -/
def Item.adaptive (it : Item) (grad theta m v : Nat) : Nat × Nat × Nat :=
  let g := f32mul it.gamma grad
  let m := f32add (f32mul it.beta1 m) (f32mul it.b1 g)
  let v := f32add (f32mul it.beta2 v) (f32mul it.b2 (f32mul g g))
  let mh := f32div m it.corr1
  let vh := f32div v it.corr2
  let u := f32add (f32div mh (f32add (f32sqrt vh) it.eps)) (f32mul it.lambda theta)
  (m, v, f32sub theta (f32mul it.lr u))

/-- How many results are infinite although every operand was finite (10 R402). -/
def infCount (ins outs : List Nat) : Nat := if ins.any f32special then 0 else (outs.filter f32inf).length

/-- One element of OPTIM under slot 0, 1 or a loaded slot (10 R399, R400). -/
def Item.optimUnit (it : Item) (e : Eng) (i : Nat) : EM URes := do
  let n := it.wn
  let g ← it.grad e i
  let ta := vaAdd (it.w 2) (4 * i)
  let ma := vaAdd (it.w 5) (4 * i)
  let th ← e.nat ta 4
  if it.slot = 0 then
    let m ← e.nat ma 4
    let r := it.momentum g th m
    return ⟨[(ma, leBytes 4 r.1), (ta, leBytes 4 r.2)], infCount [g, th, m] [r.1, r.2], 0⟩
  else if it.slot = 1 then
    let va := vaAdd (it.w 5) (4 * n + 4 * i)
    let m ← e.nat ma 4
    let v ← e.nat va 4
    let r := it.adaptive g th m v
    return ⟨[(ma, leBytes 4 r.1), (va, leBytes 4 r.2.1), (ta, leBytes 4 r.2.2)], infCount [g, th, m, v] [r.1, r.2.1, r.2.2], 0⟩
  else
    -- a loaded optimizer's own arithmetic and counts are not the manual's: free values (log entry 14)
    let m ← e.nat ma 4
    let ws := Config.loadedOptimizer it.storeVersion it.slot
      ((it.params ++ [BitVec.ofNat 64 i, BitVec.ofNat 64 g, BitVec.ofNat 64 th, BitVec.ofNat 64 m]))
    let m' := fpF32.quiet ((ws.getD 0 0).toNat % 2 ^ 32)
    let t' := fpF32.quiet ((ws.getD 1 0).toNat % 2 ^ 32)
    return ⟨[(ma, leBytes 4 m'), (ta, leBytes 4 t')], (ws.getD 2 0).toNat % 3, (ws.getD 3 0).toNat % 3⟩

/-! ### FACTORED (10 R401) -/

/-- Words an item carries: the greatest |g| (an F32 code), the elements that were infinite or NaN, and
Rsum. -/
def Item.carryW (it : Item) (k : Nat) : Nat := (it.carry.getD k 0).toNat

/-- Set a carried word. -/
def Item.setCarry (it : Item) (k v : Nat) : Item :=
  { it with carry := (List.range (max it.carry.length (k + 1))).map (fun i =>
      if i = k then BitVec.ofNat 64 v else it.carry.getD i 0) }

/-- Anchor A of pass 2 from the greatest |g|. -/
def facAnchor (m : Nat) : Int :=
  match f32 m with
  | .fin x _ => if x.sign = 0 then 0 else min 160 (max (-160) (2 * x.expo + 1))
  | _ => 0

/-- A carried sub-sum, by number: rows first, then columns. -/
def Item.facSum (it : Item) (k : Nat) : Int := int128 ((it.bytes.drop (16 * k)).take 16)

/-- Add into a carried sub-sum. -/
def Item.addSum (it : Item) (k : Nat) (v : Int) : Item :=
  let bs := if it.bytes.isEmpty then List.replicate (16 * (it.facR + it.facC)) 0 else it.bytes
  let s := (sat128 (int128 ((bs.drop (16 * k)).take 16)) v).1
  { it with bytes := bs.take (16 * k) ++ sub128 s ++ bs.drop (16 * (k + 1)) }

/-- mean of a sub-sum over `cnt` terms at anchor A, rounded to F32. -/
def facMean (s a : Int) (cnt : Nat) : Nat :=
  let v := match b64 (.of (QR.ofInt s)) with
    | .fin x nz => FV.fin (x.shift (a - 100)) nz
    | v => v
  fpF32.rne (v.div (.of (QR.ofInt cnt)))

/-- The statistics the complex that holds element 0 sets at the end of pass 2: the writes of r and c,
and Rsum. -/
def Item.facStats (it : Item) (e : Eng) : EM (URes × Nat) := do
  let a := facAnchor (it.carryW 0)
  let upd := fun (va cnt k : Nat) => do
    let old ← e.nat va 4
    return f32add (f32mul it.beta2 old) (f32mul it.b2 (f32add (facMean (it.facSum k) a cnt) it.eps))
  let rs ← (List.range it.facR).mapM (fun (i : Nat) => upd (vaAdd (it.w 5) (4 * i)) it.facC i)
  let cs ← (List.range it.facC).mapM (fun (j : Nat) => upd (vaAdd (it.w 5) (4 * it.facR + 4 * j)) it.facR (it.facR + j))
  let sum := rs.foldl (fun s r => b64 (s.add (f32 r))) (FV.of QR.zero)
  return (⟨[(it.w 5, (rs ++ cs).flatMap (leBytes 4))], 0, 0⟩, fpF32.rne sum)

/-- Element `i` of pass 3. -/
def Item.facElem (it : Item) (e : Eng) (beyond : List (Nat × List Byte)) (i : Nat) : EM URes := do
  let rd4 := fun va => match beyond.find? (fun w => w.1 ≤ va && va + 4 ≤ w.1 + w.2.length) with
    | some w => pure (leNat ((w.2.drop (va - w.1)).take 4))
    | none => e.nat va 4
  let g0 ← it.grad e i
  let g := f32mul it.gamma g0
  let ta := vaAdd (it.w 2) (4 * i)
  let th ← e.nat ta 4
  let r ← rd4 (vaAdd (it.w 5) (4 * (i / it.facC)))
  let c ← rd4 (vaAdd (it.w 5) (4 * it.facR + 4 * (i % it.facC)))
  let vh := f32div (f32mul r c) (it.carryW 2)
  let u := f32add (f32div g (f32sqrt vh)) (f32mul it.lambda th)
  let t := f32sub th (f32mul it.lr u)
  return ⟨[(ta, leBytes 4 t)], infCount [g0, th, r, c] [t], 0⟩

/-- Change the item in hand. -/
def Item.updateIn (it : Item) (f : Item → Item) : EM Unit := EM.upd (fun d => d.modItem it.ring it.index f)

/-- The item in hand as it stands. -/
def Item.now (it : Item) : EM Item := do
  let d ← EM.dev
  return (d.item? it.ring it.index).getD it

/-- Position `p` of FACTORED: its pass's contribution, or its write in pass 3. -/
def Item.facUnit (it : Item) (e : Eng) (beyond : List (Nat × List Byte)) (p : Nat) : EM URes := do
  let n := it.wn
  if p < n then
    let g := f32mul it.gamma (← it.grad e p)
    if f32special g then it.updateIn (fun it => it.setCarry 1 (it.carryW 1 + 1))
    else it.updateIn (fun it => it.setCarry 0 (max (it.carryW 0) (g % 2 ^ 31)))
    return {}
  else if p < 2 * n then
    let now ← it.now
    let i := p - n
    let g := f32mul it.gamma (← it.grad e i)
    let a := facAnchor (now.carryW 0)
    let v := match (f32 g).mul (f32 g) with
      | .fin x _ => tallyInt x a
      | _ => 0
    it.updateIn (fun it => (it.addSum (i / it.facC) v).addSum (it.facR + i % it.facC) v)
    return {}
  else
    let now ← it.now
    now.facElem e beyond (p - 2 * n)

/-! ### Units of a wave -/

/-- A unit of a wave: its first position, where its primary operand lies, and its work over the results
its wave has staged so far. -/
structure WUnit where
  pos : Nat
  home : EM (Nat × Nat)
  work : List (Nat × List Byte) → EM URes

/-- The engine a stack's complex reads and writes with. -/
def wharfEng (it : Item) (s : Nat) : Eng := ⟨.wharf s, it.ctx⟩

/-- The primary row of an index or a bag: that of its (first) index, or the table's first byte. -/
def Item.homeRow (it : Item) (e : Eng) (p : Nat) : EM (Nat × Nat) := do
  let n := it.rowBytes
  let table := if it.wop = 6 then it.w 3 else it.w 2
  let i ← if it.wop = 5 then do
      let lo ← e.nat (vaAdd (it.w 7) (4 * p)) 4
      let hi ← e.nat (vaAdd (it.w 7) (4 * p + 4)) 4
      if lo < hi then it.gIndex e lo else pure it.gR
    else it.gIndex e p
  return if i < it.gR then (vaAdd table (i * n), n) else (table, 1)

/-- A source row added into a table row, over what the wave has staged for it. -/
def Item.scatterOver (it : Item) (e : Eng) (beyond : List (Nat × List Byte)) (p : Nat) : EM URes := do
  let i ← it.gIndex e p
  if it.gR ≤ i then return ⟨[], 1, 0⟩
  let n := it.rowBytes
  let k := fmtBits it.gFmt / 8
  let src ← e.rd (vaAdd (it.w 2) (p * n)) n
  let dst := vaAdd (it.w 3) (i * n)
  let old ← match beyond.find? (fun w => w.1 == dst) with
    | some w => pure w.2
    | none => e.rd dst n
  let pairs := (List.range it.gL).map (fun j => ((old.drop (k * j)).take k, (src.drop (k * j)).take k))
  return ⟨[(dst, pairs.flatMap (fun q => scatterSum it.gFmt q.1 q.2))],
    (pairs.map (fun q => b2n (scatterSat it.gFmt q.1 q.2))).sum, 0⟩

/-- The units of positions lo to hi − 1, in ascending order; `stats` is what the wave has staged for r and c of
FACTORED. -/
def Item.wunits (it : Item) (e : Eng) (lo hi : Nat) (stats : List (Nat × List Byte)) : List WUnit :=
  let ps := rangeFrom lo (hi - lo)
  let flat := fun (k : Nat) (work : Nat → EM URes) =>
    ps.map (fun p => (⟨p, pure (vaAdd (it.w 2) (k * p), k), fun _ => work p⟩ : WUnit))
  match it.wop with
  | 3 =>
    if it.slot = 2 then ps.map (fun p => ⟨p, pure (vaAdd (it.w 2) (4 * (p % it.wn)), 4), fun _ => it.facUnit e stats p⟩)
    else flat 4 (it.optimUnit e)
  | 4 => ps.map (fun p => ⟨p, it.homeRow e p, fun _ => it.gatherUnit e p⟩)
  | 5 => ps.map (fun p => ⟨p, it.homeRow e p, fun _ => it.bagUnit e p⟩)
  | 6 => ps.map (fun p => ⟨p, it.homeRow e p, fun o => it.scatterOver e o p⟩)
  | 7 => flat 8 (fun p => return ⟨[(vaAdd (it.w 2) (8 * p), leBytes 8 (it.w 5))], 0, 0⟩)
  | 8 => flat 8 (fun p => do return ⟨[(vaAdd (it.w 2) (8 * p), ← e.rd (vaAdd (it.w 3) (8 * p)) 8)], 0, 0⟩)
  | _ =>
    if it.wop = 2 && it.yfmt = 14 then
      let runs := (rangeFrom (lo / 32) (cdiv hi 32 - lo / 32))
      runs.map (fun r => ⟨max lo (32 * r), pure (vaAdd (it.w 2) (it.wsize 14 * max lo (32 * r)),
          it.wsize 14 * (min hi (32 * r + 32) - max lo (32 * r))),
        fun _ => it.tallyRun e (max lo (32 * r)) (min hi (32 * r + 32))⟩)
    else
      let ky := it.wsize it.yfmt
      let seed := BitVec.ofNat 64 (if it.wop = 2 then it.w 7 else it.w 6)
      flat ky (fun p => do
        let y ← e.nat (vaAdd (it.w 2) (ky * p)) ky
        let x ← if it.wop = 1 then pure 0 else e.nat (vaAdd (it.w 3) (it.wsize it.xfmt * p)) (it.wsize it.xfmt)
        let enc := axpyElem it.wop it.yfmt it.xfmt (it.f 5 31 0) (modeOf it.wround seed p) it.wflush y x
        return .of (vaAdd (it.w 2) (ky * p), leBytes ky enc.code) enc)

/-- The stack a primary address lies on, if it translates. -/
def Dev.homeStack (d : Dev) (it : Item) (va : Nat) : Option Nat := (d.peek it.ctx va).map (fun p => d.stackOfPa p.2)

/-- What a read phase gives: staged writes by VA in order, newest first while it runs, the VA ranges of
primary lines, and counts. -/
structure WRead where
  writes : List (Nat × List Byte) := []
  primary : List (Nat × Nat) := []
  sat : Nat := 0
  flushed : Nat := 0

/-- Work through the units of a stack; a unit whose home does not translate belongs to every stack, so that its
fault is found. -/
def Dev.unitsRead (it : Item) (stack : Nat) : List WUnit → WRead → EM WRead
  | [], acc => return acc
  | u :: rest, acc => do
    let (va, n) ← u.home
    let d ← EM.dev
    let mine := match d.homeStack it va with
      | some h => stack == h
      | none => true
    if mine then
      let r ← u.work acc.writes
      Dev.unitsRead it stack rest
        ⟨r.writes.reverse ++ acc.writes, (va, n) :: acc.primary, acc.sat + r.sat, acc.flushed + r.flushed⟩
    else Dev.unitsRead it stack rest acc

/-- Later writes win over earlier ones at the same address. -/
def lastWrites (newestFirst : List (Nat × List Byte)) : List (Nat × List Byte) :=
  newestFirst.foldl (fun acc w => if acc.any (fun x => x.1 == w.1 && x.2.length == w.2.length) then acc else w :: acc) []

/-- Translate a staged write to physical pieces and check that it can be performed. -/
def Eng.place (e : Eng) (ws : List (Nat × List Byte)) : EM (List (Nat × List Byte) × List Nat) := do
  let ps := (mergeWrites ws).flatMap (fun w => (pieces w.1 w.2.length).map (fun p => (p.1, (w.2.drop (p.1 - w.1)).take p.2)))
  let rs ← ps.mapM (fun p => EM.lift (fun d =>
    match d.xlate e.h e.ctx (BitVec.ofNat 64 p.1) p.2.length 2 with
    | (d, .error x) => (d, .error (x, p.1))
    | (d, .ok r) =>
      if d.mem.writeRefused r.pa p.2.length || (decide (r.pa < 2 ^ 40) && d.fencedAt r.pa) then (d, .error (accFail .poison, p.1))
      else (d, .ok (r, p.2))))
  return (rs.map (fun r => (r.1.pa, r.2)), (rs.filter (·.1.hostShared)).map (fun r => r.1.pa / 64))

/-- First and last position of a wave in the slice in hand. -/
def Item.waveSpan (it : Item) (wave : Nat) : Nat × Nat :=
  (max it.pos (wave * it.waveLen), min it.sliceEnd ((wave + 1) * it.waveLen))

/-- The wave that a complex has in hand with what its read phase gave: its staged results and its locked
lines. -/
def Item.stage (it : Item) (stack wave : Nat) (r : WRead) : EM Wave := do
  let (staged, shared) ← (wharfEng it stack).place (lastWrites r.writes)
  let d ← EM.dev
  let lines := r.primary.flatMap (fun p => (pieces p.1 p.2).filterMap (fun q =>
    (d.peek it.ctx q.1).map (fun x => x.2 / 64)))
  return { ring := it.ring, index := it.index, wave := wave, lines := lines.eraseDups, staged := staged,
           shared := shared, upTo := (it.waveSpan wave).2, sat := r.sat, flushed := r.flushed }

/-- The read phase of a wave on one stack: the wave it leaves in hand (10 R380). -/
def Item.readPhase (it : Item) (stack wave : Nat) : EM Wave := do
  let (lo, hi) := it.waveSpan wave
  let r ← Dev.unitsRead it stack (it.wunits (wharfEng it stack) lo hi []) {}
  it.stage stack wave r

/-- Every complex's part of some positions of a wave, after what each has in hand of it. -/
def Item.eachStack (it : Item) (lo hi : Nat) (stats : List (Nat × List Byte)) :
    List (Nat × WRead) → EM (List (Nat × WRead))
  | [] => return []
  | (s, acc) :: rest => do
    let r ← Dev.unitsRead it s (it.wunits (wharfEng it s) lo hi stats) acc
    return (s, r) :: (← it.eachStack lo hi stats rest)

/-- The read phase of a wave of FACTORED on every complex, pass after pass (10 R401): an infinite or NaN g ends
it with pass 1, and the complex that holds element 0 sets the statistics at the end of pass 2. -/
def Item.facPhase (it : Item) (ss : List Nat) (wave : Nat) : EM (List (Nat × Wave)) := do
  let n := it.wn
  let (lo, hi) := it.waveSpan wave
  let parts ← it.eachStack lo (min hi n) [] (ss.map (fun s => (s, {})))
  let now ← it.now
  if lo < n && n ≤ hi && now.carryW 1 ≠ 0 then return []
  let parts ← it.eachStack (max lo n) (min hi (2 * n)) [] parts
  let (parts, stats) ←
    if lo < 2 * n && 2 * n ≤ hi then do
      let d ← EM.dev
      let s0 := (d.homeStack it (it.w 2)).getD 0
      let now ← it.now
      let (r, rsum) ← now.facStats (wharfEng it s0)
      it.updateIn (fun it => it.setCarry 2 rsum)
      pure (parts.map (fun p => if p.1 = s0 then (p.1, { p.2 with writes := r.writes.reverse ++ p.2.writes }) else p), r.writes)
    else pure (parts, [])
  let parts ← it.eachStack (max lo (2 * n)) hi stats parts
  parts.mapM (fun p => do return (p.1, ← it.stage p.1 wave p.2))

/-- The waves of a slice. -/
def Item.sliceWaves (it : Item) : List Nat :=
  rangeFrom (it.pos / it.waveLen) (cdiv it.sliceEnd it.waveLen - it.pos / it.waveLen)

/-- First position of a wave in the item (10 R383). -/
def Item.wavePos (it : Item) (wave : Nat) : Nat := max it.pos (wave * it.waveLen)

/-- An item ends at a wave with what its read phase met (10 R383). -/
def Dev.waveFail (d : Dev) (it : Item) (wave : Nat) (x : UErr) : Dev := d.engFail it (it.wavePos wave) x

/-- The slice's part on every stack has been carried out; a last slice completes its parts (10 R409). -/
def Dev.wharfSliceDone (d : Dev) (it : Item) : Dev :=
  let d := if it.last ≤ it.sliceEnd then
      (d.wharfStacks it).foldl (fun d s => d.addSat F.whfStatus_PARTS 1 s) d else d
  d.sliceDone it.ring it.index

/-- FACTORED found an infinite or NaN g in pass 1: it writes nothing more and completes OK (10 R401). -/
def Dev.facStop (d : Dev) (it : Item) : Option Dev :=
  match d.item? it.ring it.index with
  | some now =>
    if now.wop = 3 && now.slot = 2 && now.carryW 1 ≠ 0 then
      some ((d.countItem it.ring it.index (now.carryW 1) 0).finishAt it.ring it.index 0 it.last)
    else none
  | none => none

/-- The item is FACTORED. -/
def Item.factored (it : Item) : Bool := it.wop == 3 && it.slot == 2

/-- Whether pass 1 of FACTORED ends within a wave. -/
def Item.endsPass1 (it : Item) (wave : Nat) : Bool :=
  it.factored && decide (wave * it.waveLen < it.wn ∧ it.wn ≤ (wave + 1) * it.waveLen)

/-- The read phase of a wave on every complex of the item. -/
def Item.wholePhase (it : Item) (ss : List Nat) (wave : Nat) : EM (List (Nat × Wave)) :=
  if it.factored then it.facPhase ss wave else ss.mapM (fun s => do return (s, ← it.readPhase s wave))

/-- The counts of waves are added to the item's. -/
def Dev.countWaves (d : Dev) (it : Item) (ws : List Wave) : Dev :=
  ws.foldl (fun d w => d.countItem it.ring it.index w.sat w.flushed) d

/-- The wave loop of an operation's row: every stack's read phase, then the writes (10 R380 to R383). -/
def Dev.waveLoop (d : Dev) (it : Item) (ss : List Nat) : List Nat → Dev
  | [] => d.wharfSliceDone it
  | j :: rest =>
    match (it.wholePhase ss j).go d with
    | (d, .error x) => d.waveFail it j x
    | (d, .ok ws) =>
      match (if it.endsPass1 j then d.facStop it else none) with
      | some d => d
      | none =>
        match d.writeWaves (ws.map (·.2)) with
        | (d, some x) => d.waveFail it j (.acc (accFail x) it.primary.1)
        | (d, none) => (d.countWaves it (ws.map (·.2))).waveLoop it ss rest

/-- Another item's slice comes before this one on a stack they share (10 R381). -/
def Dev.waveBlocked (d : Dev) (it : Item) (hbmStacks : List Nat) : Bool :=
  d.items.any (fun o => o.typ == tWharf && o.phase == .released && decide (o.order < it.order) &&
    (d.wharfStacks o).any (fun s => hbmStacks.contains s && o.sliceWaves.any (fun j => !o.wavesRead.contains (s, j))))

/-- Carry out a released WHARF slice of an operation, unless its waves have been begun one by one or an
earlier item's waves come first. -/
def Dev.onWharf (d : Dev) (ring index : Nat) (p : Item → Bool) : Dev :=
  d.onItem ring index (fun it => it.typ == tWharf && p it && it.wavesRead.isEmpty) fun it =>
    let ss := d.wharfStacks it
    let locked := d.hbmStacks.any (fun s => ss.contains s.1 && !s.2.waves.isEmpty)
    if d.waveBlocked it ss || locked then d
    else
      let d := ss.foldl (fun d s => d.put F.whfStatus_CONTEXT it.ctx s) d
      d.waveLoop it ss it.sliceWaves

/-- AXPY (10 R394). -/
def execAxpy (ring index : Nat) (s : State) : Out := actUp s fun d => d.onWharf ring index (fun it => it.wop == 0)
/-- SCALE (10 R394). -/
def execScale (ring index : Nat) (s : State) : Out := actUp s fun d => d.onWharf ring index (fun it => it.wop == 1)
/-- REDUCE_ADD (10 R395). -/
def execReduceAdd (ring index : Nat) (s : State) : Out := actUp s fun d => d.onWharf ring index (fun it => it.wop == 2)
/-- OPTIM_MOMENTUM (10 R400). -/
def execOptimMomentum (ring index : Nat) (s : State) : Out :=
  actUp s fun d => d.onWharf ring index (fun it => it.wop == 3 && it.slot == 0)
/-- OPTIM_ADAPTIVE (10 R400). -/
def execOptimAdaptive (ring index : Nat) (s : State) : Out :=
  actUp s fun d => d.onWharf ring index (fun it => it.wop == 3 && it.slot == 1)
/-- OPTIM_FACTORED (10 R401). -/
def execOptimFactored (ring index : Nat) (s : State) : Out :=
  actUp s fun d => d.onWharf ring index (fun it => it.wop == 3 && it.slot == 2)
/-- OPTIM_LOADED_SLOT (10 R399). -/
def execOptimLoadedSlot (ring index : Nat) (s : State) : Out :=
  actUp s fun d => d.onWharf ring index (fun it => it.wop == 3 && decide (3 ≤ it.slot))
/-- WHARF_GATHER (10 R398). -/
def execWharfGather (ring index : Nat) (s : State) : Out := actUp s fun d => d.onWharf ring index (fun it => it.wop == 4)
/-- WHARF_BAGSUM (10 R398). -/
def execWharfBagsum (ring index : Nat) (s : State) : Out := actUp s fun d => d.onWharf ring index (fun it => it.wop == 5)
/-- WHARF_SCATTER_ADD (10 R398). -/
def execWharfScatterAdd (ring index : Nat) (s : State) : Out := actUp s fun d => d.onWharf ring index (fun it => it.wop == 6)
/-- FILL (10 R397). -/
def execFill (ring index : Nat) (s : State) : Out := actUp s fun d => d.onWharf ring index (fun it => it.wop == 7)
/-- COPY (10 R397). -/
def execCopy (ring index : Nat) (s : State) : Out := actUp s fun d => d.onWharf ring index (fun it => it.wop == 8)

/-- Lines of a wave meet lines that another wave, of this item or another, holds locked (10 R382). -/
def Dev.linesHeld (d : Dev) (w : Wave) : Bool :=
  d.hbmStacks.any (fun e => e.2.waves.any (fun o => o.lines.any w.lines.contains))

/-- Note the lowest wave that met a fault. -/
def Item.noteFault (it : Item) (wave status va : Nat) : Item :=
  match it.waveFault with
  | some (w, _, _) => if wave < w then { it with waveFault := some (wave, status, va) } else it
  | none => { it with waveFault := some (wave, status, va) }

/-- Once a fault is known and every wave before it is written on every stack, the item ends there
(10 R383); once every wave is written, the slice is done. -/
def Dev.waveSettle (d : Dev) (ring index : Nat) : Dev :=
  match d.item? ring index with
  | none => d
  | some it =>
    if it.phase ≠ .released then d else
    let ss := d.wharfStacks it
    let done := fun js => js.all (fun j => ss.all (fun s => it.wavesDone.contains (s, j)))
    match it.waveFault with
    | some (w, st, va) =>
      if done (it.sliceWaves.filter (· < w)) then
        let (ws, d) := d.takeWaves (fun x => x.ring == ring && x.index == index)
        ((d.unlock ws).finishAt ring index st (it.wavePos w) (failDetail st va)).wharfIdle
      else d
    | none => if done it.sliceWaves then (d.wharfSliceDone it).wharfIdle else d

/-- The wave of FACTORED that ends pass 2: pass 3 begins once it is written (10 R401). -/
def Item.pass2Wave (it : Item) : Nat := (2 * it.wn - 1) / it.waveLen

/-- Take a wave of FACTORED into hand once every complex has reached it; none where it must wait for a
lock. -/
def Dev.facRead (d : Dev) (it : Item) (wave : Nat) : Option Dev :=
  let ss := d.wharfStacks it
  let now := (d.item? it.ring it.index).getD it
  if !(ss.all (fun s => now.wavesRead.contains (s, wave))) then some d
  else match (it.facPhase ss wave).go d with
    | (d, .error (.acc x va)) => some (d.modItem it.ring it.index (fun it => it.noteFault wave x.status va))
    | (d, .error .invalid) => some (d.modItem it.ring it.index (fun it => it.noteFault wave 0x16 0))
    | (d1, .ok ws) =>
      match (if it.endsPass1 wave then d1.facStop it else none) with
      | some d => some d.wharfIdle
      | none =>
        if ws.any (fun w => d.linesHeld w.2) then none
        else some (ws.foldl (fun d w => d.modStack w.1 (fun s => { s with waves := s.waves ++ [w.2] })) d1)

/-- A complex has begun a wave of an item (10 R409). -/
def Dev.waveSeen (d : Dev) (it : Item) (stack wave : Nat) : Dev :=
  ((d.modItem it.ring it.index (fun i => { i with wavesRead := i.wavesRead ++ [(stack, wave)] })).put
    F.whfStatus_CONTEXT it.ctx stack).put F.whfStatus_STATE 1 stack

/-- WAVE_READ_PHASE (10 R380, R381): a complex reads its part of its next wave and locks its lines. -/
def execWaveReadPhase (ring index stack wave : Nat) (s : State) : Out :=
  actUp s fun d => d.onItem ring index (fun it => it.typ == tWharf) fun it =>
    if stack < 16 && (d.wharfStacks it).contains stack && it.sliceWaves.contains wave &&
        !it.wavesRead.contains (stack, wave) &&
        (it.sliceWaves.filter (· < wave)).all (fun j => it.wavesRead.contains (stack, j)) &&
        !d.waveBlocked it [stack] && !(tget .new d.hbmStacks stack).fenced &&
        !(it.factored && decide (it.pass2Wave < wave) && it.sliceWaves.any (fun j => decide (j ≤ it.pass2Wave) &&
          (d.wharfStacks it).any (fun s => !it.wavesDone.contains (s, j)))) then
      let seen := fun (d : Dev) => d.waveSeen it stack wave
      if it.factored then
        match (seen d).facRead it wave with
        | some d => d.waveSettle ring index
        | none => d
      else match (it.readPhase stack wave).go d with
        | (d1, .ok w) =>
          if d1.linesHeld w then d
          else (seen d1).modStack stack (fun s => { s with waves := s.waves ++ [w] })
        | (d1, .error x) =>
          let (st, va) := match x with | .acc x va => (x.status, va) | .invalid => (0x16, 0)
          ((seen d1).modItem ring index (fun it => it.noteFault wave st va)).waveSettle ring index
    else d

/-- The waves of one stack that a test takes, and the device without them. -/
def Dev.takeWavesAt (d : Dev) (stack : Nat) (mine : Wave → Bool) : List Wave × Dev :=
  ((tget .new d.hbmStacks stack).waves.filter mine,
    d.modStack stack (fun s => { s with waves := s.waves.filter (fun w => !mine w) }))

/-- WAVE_WRITE_PHASE (10 R380): once every complex has read this wave and every earlier one without a
fault, a complex writes its results and releases its locks. -/
def execWaveWritePhase (ring index stack wave : Nat) (s : State) : Out :=
  actUp s fun d => d.onItem ring index (fun it => it.typ == tWharf) fun it =>
    let ss := d.wharfStacks it
    let ready := ss.all (fun s => (it.sliceWaves.filter (· ≤ wave)).all (fun j => it.wavesRead.contains (s, j))) &&
      (match it.waveFault with | some (w, _, _) => decide (wave < w) | none => true)
    if ss.contains stack && ready && it.sliceWaves.contains wave && !it.wavesDone.contains (stack, wave) then
      let (mine, d) := d.takeWavesAt stack (fun w => w.ring == ring && w.index == index && w.wave == wave)
      let d := d.modItem ring index (fun it =>
        let it : Item := { it with wavesDone := it.wavesDone ++ [(stack, wave)] }
        if ss.all (fun s => it.wavesDone.contains (s, wave)) then { it with waved := min it.sliceEnd ((wave + 1) * it.waveLen) } else it)
      let d := match d.writeWaves mine with
        | (d, none) => d.countWaves it mine
        | (d, some x) => d.modItem ring index (fun it => it.noteFault wave (accStatus x) it.primary.1)
      (d.unlock mine).waveSettle ring index
    else d

/-- The 64-byte lines of a wave in hand that a fence leaves written: the manual leaves which to the moment
(10 R408, log entry 15). -/
def Dev.partWave (d : Dev) (w : Wave) : Dev :=
  (w.staged.map (fun p => p.1 / 64)).eraseDups.foldl (fun d line =>
    let keep := Config.partialWrite d.fresh
    let d := d.draw
    if keep then (d.writeWave { w with staged := w.staged.filter (fun p => p.1 / 64 == line) }).1 else d) d

/-- WHARF_FENCE (10 R408): the complex is fenced, its waves' items fail at the first position of the wave
in progress, and every other item with a part on the stack fails. -/
def execWharfFence (stack : Nat) (s : State) : Out :=
  actUp s fun d => if stack < 16 && !(tget .new d.hbmStacks stack).fenced then
    let hit := d.items.filter (fun it => it.typ == tWharf && it.checked && it.status.isNone && (d.wharfStacks it).contains stack)
    let (here, d) := d.takeWavesAt stack (fun _ => true)
    let (others, d) := d.takeWaves (fun w => hit.any (fun it => it.ring == w.ring && it.index == w.index))
    let d := here.foldl (fun d w => d.partWave w) d
    -- a wave that one stack has written is written on the others
    let begun := others.filter (fun w => hit.any (fun it => it.ring == w.ring && it.index == w.index && it.wavesDone.any (fun k => k.2 == w.wave)))
    let d := (((d.writeWaves begun).1.unlock here).unlock others)
    let d := begun.foldl (fun d w => (d.countItem w.ring w.index w.sat w.flushed).modItem w.ring w.index (fun i =>
      { i with waved := max i.waved w.upTo })) d
    let d := d.modStack stack (fun s => { s with fenced := true })
    let d := ((d.put F.whfStatus_STATE 2 stack).addSat F.whfStatus_FAULTS 1 stack).put F.whfStatus_FALLBACK 1 stack
    let d := d.note 0x9320 (locStack stack)
    let d := hit.foldl (fun d it =>
      match here.find? (fun w => w.ring == it.ring && w.index == it.index) with
      | some w => d.finishAt it.ring it.index 0x13 (it.wavePos w.wave)
      | none => d.modItem it.ring it.index (fun it => { it.finish 0x13 with pos := it.reached })) d
    d.wharfIdle
  else d

end Sys2Proof.Machine
end

