-- ==== Sys2Proof/Machine/Release.lean ====
section
/-! DEFINITION. What a tick releases (02 R63, R75, R76, R82; 11 R421, R427, R439, R440): the checks at an
item's first release, the engine it is assigned to, and the slices its engine's quantum allows. -/
namespace Sys2Proof.Machine

/-! ### Checks at the first release -/

/-- The checks of a CRANE item but for what its parameter block or list says (09 R342, R347, R352). -/
def Item.cranePre (it : Item) : Verdict :=
  if !it.craneOk then .invalid
  else match segVerdict it.craneVas with
    | some v => v
    | none =>
      if it.craneEmpty then (if it.startPos = 0 then .empty else .invalid)
      else if it.startPos ≠ 0 && !it.resumable then .invalid
      else if it.kind = 0 || it.kind = 6 then .run 0
      else if it.craneLast ≤ it.startPos then .invalid
      else .run it.craneLast

/-- The checks of a sliced item before its parameter block is read (11 R421, R439, R440). -/
def Dev.firstCheck (d : Dev) (it : Item) : Verdict :=
  match it.typ with
  | 4 => it.movePre.getD (.run 0)
  | 6 => it.cranePre
  | 7 => d.wharfVerdict it
  | 8 => d.collVerdict it
  | 12 => if it.ctx ≠ 0 then .denied else if !it.w0ok then .invalid else d.maintVerdict it
  | 14 => d.remoteVerdict it
  | _ => .invalid

/-- The parameter block or list of an item: VA and bytes (11 R433; 09 R353, R372; 10 R399). -/
def Item.block (it : Item) : Option (Nat × Nat) :=
  match it.typ with
  | 4 => some (it.w 4, 128)
  | 6 => if it.kind = 0 then some (it.w 4, 128) else if it.kind = 6 then some (it.w 2, 16 * it.f 5 31 0) else none
  | 7 => if it.wop = 3 then some (it.w 6, 64) else none
  | _ => none

/-- The checks of a digest's list (09 R352, R372): the message must not exceed 1 TiB. -/
def Item.digestVerdict (it : Item) : Verdict :=
  if it.msgLen = 0 then .empty
  else if 2 ^ 40 < it.msgLen then .invalid
  else match segVerdict ((it.ranges.filter (fun r => r.2 ≠ 0)).map (·.1)) with
    | some v => v
    | none => .run (it.msgLen / 1024)

/-- The checks once the parameter block is known. -/
def Item.blockCheck (it : Item) (v : Verdict) : Verdict :=
  match it.typ with
  | 4 => it.moveVerdict
  | 6 => if it.kind = 0 then it.convertVerdict else if it.kind = 6 then it.digestVerdict else v
  | 7 => if it.wop = 3 && !it.optimParamsOk then .invalid else v
  | _ => v

/-- End an item at its release without running it (11 R439, R443, R444): at its START, from which it can be
resubmitted (11 R442), but at position 0 where 11 R412 or 14 R549 says so. -/
def Dev.refuseItem (d : Dev) (it : Item) (v : Verdict) : Dev :=
  match v with
  | .denied => (d.note 0x7105 0 [(2, it.ring), (1, it.typ), (4, it.index)]).finishAt it.ring it.index 0x19 it.startPos
  | .invalid => d.finishAt it.ring it.index 0x16 it.startPos
  | .empty => d.finishAt it.ring it.index 1 0
  | .fail st va => d.finishAt it.ring it.index st (if st = 0x10 || st = 0x17 then 0 else it.startPos) (failDetail st va)
  | .run _ => d

/-- The pier that carries an item's traffic: a collective's first direction, or the connection's port. -/
def Dev.itemPier (d : Dev) (it : Item) : Nat :=
  if it.typ = tCollective then portOf ((dimsOf it.collDims).headD 0) true else d.pierOf it.connOf

/-- The engine an item's slices run on: the one its admission assigned to a MOVE or CRANE item (03 R104),
unless none was left or its deck or die is gone, which ends it FAIL_HW (01 R33, R56; 09 R349). A crane item
whose scratch or table lies elsewhere is FAIL_INVALID (09 R341, R360). -/
def Dev.assign (d : Dev) (it : Item) : Except Verdict Nat :=
  match it.typ with
  | 4 => if it.assigned && d.lighterUp it.engine then .ok it.engine else .error (.fail 0x13 0)
  | 6 =>
    if !it.assigned || (tget .new d.decks (it.engine / 8)).isolated then .error (.fail 0x13 0)
    else if d.scratchLost it || d.tableLost it then .error .invalid
    else .ok it.engine
  | 8 => .ok (d.itemPier it)
  | 14 => .ok (d.itemPier it)
  | _ => .ok 0

/-- The operand ranges that a write-back and invalidation covers before the first slice (11 R427,
10 R385). -/
def Dev.wbRanges (d : Dev) (it : Item) : List (Nat × Nat) :=
  match it.typ with
  | 4 => it.moveRanges
  | 5 => [(it.w 1, it.f 2 5 0)]
  | 6 => d.craneRanges it
  | 7 => d.wharfRanges it
  | 8 => d.collRanges it
  | 12 => it.maintRanges
  | 14 => it.remoteRanges
  | _ => []

/-- The write-back of an item that asks for one: a WHARF item always, unless NOWB (10 R385). -/
def Dev.wbBefore (d : Dev) (it : Item) : Dev :=
  if (if it.typ = tWharf then !it.nowb else it.wbBefore) then d.rangeInval it.ctx (d.wbRanges it) else d

/-! ### Quanta (02 R75, R82; 09 R345; 10 R384; 14 R527; 17 R645) -/

/-- An engine whose quantum a slice uses: its number among all, the rate in units of work per ns, the
units of one position, and the positions a slice keeps together. -/
structure EngineUse where
  key : Nat
  rate : Nat
  cost : Nat
  grain : Nat

/-- The engine of a MOVE, CRANE, COLLECTIVE or REMOTE item: lighters count bytes, cranes bits, records or
points, piers quarters of a line byte. -/
def Dev.engineUse (d : Dev) (it : Item) : EngineUse :=
  match it.typ with
  | 4 => ⟨it.engine, 512, it.elemSize, 1⟩
  | 6 => ⟨256 + it.engine, it.craneCost.1, max 1 it.craneCost.2, it.craneGrain⟩
  | _ =>
    let bytes := if it.typ = tCollective then it.collSize else if it.rop = 2 then it.asize else 1
    ⟨512 + it.engine, if d.portState it.engine = 5 then 2400 else 4800, 5 * bytes, 1⟩

/-- Add a part's bytes to the quanta used, by complex. -/
def addParts (u part : Tbl Nat) : Tbl Nat :=
  part.foldl (fun u e => tset 0 u (1024 + e.1) (tget 0 u (1024 + e.1) + 256 * e.2)) u

/-- Quanta used so far at this tick, by engine; a slice still at work takes its part first (02 R82). -/
def Dev.busyWork (d : Dev) : Tbl Nat :=
  (d.items.filter (fun it => it.phase == .released && it.sliced)).foldl (fun u it =>
    let n := it.sliceEnd - max it.pos it.waved
    match it.typ with
    | 12 => u
    | 7 => addParts u (d.wharfParts it (it.sliceEnd - n) it.sliceEnd)
    | _ =>
      let e := d.engineUse it
      let w := if it.typ = tCrane then d.craneWork it (it.sliceEnd - n) it.sliceEnd else e.cost * n
      tset 0 u e.key (tget 0 u e.key + 256 * w)) []

/-- The end of a WHARF slice: whole waves within every complex's quantum; a wave that no complex has begun its
quantum for is always taken (02 R75, 10 R384). -/
def Dev.wharfSlice (d : Dev) (it : Item) : Nat → Nat → Tbl Nat → Nat × Tbl Nat
  | 0, p, u => (p, u)
  | fuel + 1, p, u =>
    if it.last ≤ p then (p, u)
    else
      let stop := min it.last ((p / it.waveLen + 1) * it.waveLen)
      let part := d.wharfParts it p stop
      let u' := addParts u part
      if part.all (fun e => decide (tget 0 u' (1024 + e.1) ≤ d.quantum 4100) || tget 0 u (1024 + e.1) == 0) then
        d.wharfSlice it fuel stop u'
      else (p, u)

/-- A maintenance slice: the positions finished by its end, and the part of a unit left over (17 R645). -/
def Dev.maintSlice (d : Dev) (it : Item) : Nat × List W64 :=
  match d.maintRate it with
  | none => (it.last, [])
  | some r =>
    let unit := if it.activity = 6 then 64 else 1
    let acc := (it.carry.getD 0 0).toNat + d.quantum r
    let whole := 256 * 10 ^ 9 * unit
    (min it.last (it.pos / unit * unit + acc / whole * unit), [BitVec.ofNat 64 (acc % whole)])

/-- The end of an item's next slice, the quanta then used, and what the item keeps; none when its
engine's quantum is used up. -/
def Dev.nextSlice (d : Dev) (it : Item) (used : Tbl Nat) : Option (Nat × Tbl Nat × List W64) :=
  match it.typ with
  | 12 => let r := d.maintSlice it; some (r.1, used, r.2)
  | 7 =>
    let r := d.wharfSlice it (it.last - it.pos) it.pos used
    if r.1 ≤ it.pos then none else some (r.1, r.2, it.carry)
  | _ =>
    let e := d.engineUse it
    let u := tget 0 used e.key
    let room := (d.quantum e.rate - u) / (256 * e.cost)
    let n := if it.isBagsum then d.bagsWithin it (it.last - it.pos) it.pos room - it.pos else room / e.grain * e.grain
    if it.last ≤ it.pos then some (it.pos, used, it.carry)
    else if n = 0 && u ≠ 0 then none
    else
      let stop := min it.last (it.pos + max n e.grain)
      let w := if it.typ = tCrane then d.craneWork it it.pos stop else e.cost * (stop - it.pos)
      some (stop, tset 0 used e.key (u + 256 * w), it.carry)

/-- A retained deck holds its cranes' items (17 R637). -/
def Dev.retains (d : Dev) (it : Item) : Bool :=
  it.typ == tCrane && bit (d.get F.mntPowerStatus_RETAINED) (it.engine / 8)

/-- A crane of a hot deck waits between slices, at half duty: it takes none in the tide after one (15 R586, log
entry 228). -/
def Dev.craneRests (d : Dev) (it : Item) : Bool :=
  it.typ == tCrane && (tget .new d.decks (it.engine / 8)).throttled &&
    (tget .new d.cranes it.engine).slicedAt.any (fun n => n + 1 == d.get F.tideCount_VALUE)

/-- A slice of an item can be released, whatever its parameter block says of its last position. -/
def Dev.hasRoom (d : Dev) (it : Item) (used : Tbl Nat) : Bool :=
  !d.retains it && !d.craneRests it && (d.nextSlice { it with last := if it.last = 0 then 2 ^ 64 else it.last } used).isSome

/-! ### Releases (02 R63 action 6, R76) -/

/-- A slice, or a small item's action, is released. -/
def Dev.releaseAs (d : Dev) (it : Item) : Dev :=
  let n := d.get F.tideCount_VALUE
  d.modItem it.ring it.index (fun _ => { it with
    phase := .released, checked := true, started := true
    relNs := if it.started then it.relNs else d.now
    relTide := if it.started then it.relTide else n
    wavesRead := [], wavesDone := [], waveFault := none, waved := 0 })

/-- A crane takes a slice in hand; it shows the context once no reset of it is in progress (09 R376). -/
def Dev.craneTakes (d : Dev) (it : Item) : Dev :=
  if it.typ ≠ tCrane then d else
  let d := d.modCrane it.engine (fun c => { c with slicedAt := some (d.get F.tideCount_VALUE) })
  if (tget .new d.cranes it.engine).resetUntil.isNone then (d.put F.dckCraneStatus_STATE 1 it.engine).put F.dckCraneStatus_CONTEXT it.ctx it.engine else d

/-- Release the next slice of a checked item, when its engine has room and no conflict or retained deck
holds it (02 R75, 17 R637, R647). -/
def Dev.releaseSlice (d : Dev) (used : Tbl Nat) (it : Item) : Dev × Tbl Nat :=
  match (if d.retains it || d.craneRests it then none else d.nextSlice it used) with
  | none => (d.modItem it.ring it.index (fun _ => it), used)
  | some (stop, used, carry) =>
    let d := if it.started then d else d.wbBefore it
    let d := if it.typ = tMaint && !it.started then d.note 0x9001 0 [(1, it.activity), (2, it.target)] else d
    ((d.craneTakes it).releaseAs { it with sliceEnd := stop, carry := carry, waiting := false }, used)

/-- The first release of an engine item: its checks, its engine, its parameter block, its first slice. A
maintenance item that conflicts with an earlier one waits (17 R647). -/
def Dev.firstRelease (d : Dev) (used : Tbl Nat) (it : Item) : Dev × Tbl Nat :=
  match (if it.checked then .run it.last else d.firstCheck it) with
  | .run n =>
    match d.assign it with
    | .error .invalid => (d.finishAt it.ring it.index 0x16 0, used)
    | .error v => (d.refuseItem it v, used)
    | .ok e =>
      let it : Item := { it with checked := true, engine := e, pos := it.startPos, last := n
                                 storeGen := d.pilot.wharfStore.gen, storeVersion := d.pilot.wharfStore.version }
      match (if it.typ = tMaint then d.maintWaits it else none) with
      | some b =>
        let d := if it.waiting then d else d.note 0x9003 0 [(1, it.activity), (1, b)]
        (d.modItem it.ring it.index (fun _ => { it with waiting := true }), used)
      | none =>
        if !d.hasRoom it used then (d.modItem it.ring it.index (fun _ => it), used)
        else match it.block with
          | none => d.releaseSlice used it
          | some (va, n) =>
            match d.readParams it va n with
            | (d, .error (x, va)) => (d.xfail it.ring it.index it.startPos x va, used)
            | (d, .ok ws) =>
              let full : Item := { it with params := ws }
              match full.blockCheck (.run it.last) with
              | .run m => d.releaseSlice used { full with last := m }
              | v => (d.refuseItem it v, used)
  | v => (d.refuseItem it v, used)

/-- The dies and decks of some clusters can run a launch (01 R33, R56). -/
def Dev.clustersUp (d : Dev) (cs : List Nat) : Bool :=
  cs.all (fun lc => d.dieActive (lc / 4) && !(tget .new d.decks (d.deckOfDie (lc / 4))).isolated)

/-- Release an item that takes no engine: a launch once its checks pass, a small item, or what its checks
say of it. -/
def Dev.releaseSmall (d : Dev) (it : Item) : Dev :=
  let v := if it.isLaunch then it.launchVerdict (capOf d.period d.reserve) else d.smallVerdict it
  match v with
  | .run _ =>
    if it.isLaunch && !d.clustersUp it.launchClusters then d.finishAt it.ring it.index 0x13 0
    else (if it.isLaunch then d else d.wbBefore it).releaseAs it
  | v => d.refuseItem it v

/-- Release what one admitted or continuing item is due at this tick. -/
def Dev.releaseOne (d : Dev) (used : Tbl Nat) (it : Item) : Dev × Tbl Nat :=
  if it.phase = .between then d.releaseSlice used it
  else if it.phase = .admitted then (if it.sliced then d.firstRelease used it else (d.releaseSmall it, used))
  else (d, used)

/-- Insert an item by its admission order. -/
def byOrder (it : Item) : List Item → List Item
  | [] => [it]
  | o :: rest => if it.order < o.order then it :: o :: rest else o :: byOrder it rest

/-- A tide-closing item of which something was released at this tick, or that ended at its release, closes
this tide (02 R83, R85). -/
def Dev.closeWith (d : Dev) (it : Item) : Dev :=
  match d.item? it.ring it.index with
  | some now => if now.phase == .released || now.phase == .finished then { d with closing := d.closing ++ [(it.ring, it.index)] } else d
  | none => d

/-- Releases of a tick, in admission order (02 R63 action 6, R75). -/
def Dev.releases (d : Dev) : Dev :=
  let due := (d.items.filter (fun it => it.phase == .admitted || it.phase == .between)).foldl (fun l it => byOrder it l) []
  ((due.foldl (fun (acc : Dev × Tbl Nat) it =>
    match acc.1.item? it.ring it.index with
    | some now =>
      let r := acc.1.releaseOne acc.2 now
      (if now.closingFlag then r.1.closeWith now else r.1, r.2)
    | none => acc) ({ d with closing := [] }, d.busyWork))).1

/-! ### Progress lines (11 R448) -/

/-- The item a ring's progress line describes. -/
def Dev.progressItem (d : Dev) (n : Nat) : Option Item :=
  d.items.find? (fun it => it.ring == n && it.sliced && (it.started || it.waiting))

/-- Basis points of a position. -/
def percentOf (pos last : Nat) : Nat := if last = 0 then 0 else min 10000 (10000 * pos / last)

/-- The words of a ring's progress line. -/
def Dev.progressWords (d : Dev) (n : Nat) : List Nat :=
  let t := d.get F.tideCount_VALUE
  match d.progressItem n with
  | none => [0, 0, t, 0, 0, 0, 0, 0]
  | some it =>
    let pos := it.reached
    let pct := if it.waiting then 0 else percentOf pos it.last
    [it.typ * 2 ^ 56 + (if it.waiting then 2 else 1) * 2 ^ 48 + pct * 2 ^ 32 + it.tag,
     it.last % 2 ^ 32 * 2 ^ 32 + pos % 2 ^ 32, t, if it.started then it.relTide else 0, 0, 0, 0, 0]

/-- Write a ring's progress line, at 0x80 of its control block; a line that cannot be written is a failed
ring structure (11 R422). -/
def Dev.progressLine (d : Dev) (n : Nat) : Dev :=
  match d.hubWrite (d.ctrlBase n + 0x80) (wordsBytes (d.progressWords n)) with
  | .ok d => d
  | .error e => d.ringFault n 0 (d.ctrlBase n + 0x80) e

/-- Progress lines of every ring that is not DISABLED (02 R63 action 5). -/
def Dev.progressLines (d : Dev) : Dev := d.liveRings.foldl Dev.progressLine d

end Sys2Proof.Machine
end

