-- ==== Sys2Proof/Machine/Launch.lean ====
section
/-! DEFINITION. The life of a launch (02 R65, R74, R78 to R81; 05 R191, R210 to R212; 07 R255; 08 R310, R332;
11 R432, R453): its start on the clusters it names, the end of its tiles, its completion and its stop. -/
namespace Sys2Proof.Machine

/-! ### LAUNCH_TILES and LAUNCH_GANGS -/

/-- The launch a released item asks for (11 R432). -/
def Item.launchOf (it : Item) : Launch :=
  { ring := it.ring, index := it.index, ctx := it.ctx, gangs := it.typ == tLaunchGangs
    entry := BitVec.ofNat 64 (it.w 1), arg := BitVec.ofNat 64 (it.w 2)
    g := it.f 3 45 40, pend := it.f 6 57 48 * 0x400
    clusters := it.launchClusters, tiles := it.launchTiles, budget := it.budget
    relTide := it.relTide, relNs := it.relNs, order := it.order }

/-- A released launch item without a launch yet. -/
def Dev.launchDue (d : Dev) (it : Item) : Bool :=
  it.isLaunch && it.phase == .released && (d.launch? it.ring it.index).isNone

/-- A released launch item becomes a launch that waits for its clusters. -/
def Dev.makeLaunch (d : Dev) (ring index typ : Nat) : Dev :=
  d.onItem ring index (fun it => it.typ == typ && d.launchDue it) fun it =>
    { d with launches := d.launches ++ [it.launchOf] }

/-- LAUNCH_TILES (11 R432). -/
def execLaunchTiles (ring index : Nat) (s : State) : Out := actUp s fun d => d.makeLaunch ring index tLaunchTiles
/-- LAUNCH_GANGS (08 R309, R310). -/
def execLaunchGangs (ring index : Nat) (s : State) : Out := actUp s fun d => d.makeLaunch ring index tLaunchGangs

/-! ### LAUNCH_START (02 R74) -/

/-- Two launches name a common cluster. -/
def sharesCluster (a b : List Nat) : Bool := a.any b.contains

/-- Every named cluster has finished the launches admitted before this one, and none is gated or on a
retained deck (17 R636, R637). -/
def Dev.mayStart (d : Dev) (l : Launch) : Bool :=
  l.start.isNone && l.status.isNone && d.reset.isNone &&
  !d.launches.any (fun o => sharesCluster o.clusters l.clusters && (o.start.isSome || decide (o.order < l.order))) &&
  !d.items.any (fun it => d.launchDue it && decide (it.order < l.order) && sharesCluster it.launchClusters l.clusters) &&
  l.clusters.all (fun lc => !d.gated lc && !bit (d.get F.mntPowerStatus_RETAINED) (d.deckOfDie (lc / 4)))

/-- The latched lock ranges of a cluster (13 R509). -/
def Dev.lockRanges (d : Dev) (lc : Nat) : List (Nat × Nat × Nat) :=
  (List.range 2).filterMap (fun k =>
    let i := 2 * lc + k
    if d.get F.cdTcLockCfg_VALID i = 1 then
      some (d.get F.cdTcLockBase_VA i * 128, d.get F.cdTcLockCfg_LINES i, d.get F.cdTcLockCfg_CONTEXT i)
    else none)

/-- A cluster begins a launch: idle time that counted as consumption is noted (02 R74), WB_BEFORE clears
its cache (11 R427), its cycles count from 0 and its status names the launch (05 R217). -/
def Dev.startCluster (d : Dev) (l : Launch) (wb : Bool) (lc : Nat) : Dev :=
  let wait := if l.tickAfter.isSome && decide (1 < l.clusters.length) then d.now - l.chargeFrom (d.cluster lc).freeSince else 0
  let d := if wb then d.clearTc lc else d
  let locks := d.lockRanges lc
  let d := (d.modCluster lc (fun c => { c with charge := c.charge + wait, locks := locks, cyc := 0, cycSince := d.now })).useCluster lc
  let mask := (l.tiles.filter (fun t => t / 8 == lc)).map (fun t => 2 ^ (t % 8))
  ((((d.flag F.cdClusterStatus_PREV_NONE false lc).flag F.cdClusterStatus_KIND l.gangs lc).put
    F.cdClusterStatus_CONTEXT l.ctx lc).put F.cdClusterStatus_MASK mask.sum lc).put F.cdClusterStatus_TILE_STATE 0 lc

/-- The control core's start state (05 R210). -/
def coreStart (l : Launch) (t rank : Nat) : Hart :=
  let h := (({ pc := l.entry } : Hart).setX 2 0xF000000000100000#64).setX 10 l.arg
  ((h.setX 11 (w64 t)).setX 12 (w64 rank)).setX 13 (w64 l.tiles.length)

/-- The vector engine at a launch start: registers kept, the rest as 07 R255 states. -/
def Vec.start (v : Vec) : Vec := { v := v.v, m := v.m }

/-- Cycles that the zeroing of a tile takes (05 R191). -/
def zeroCycles : Nat := 512

/-- A cluster zeroes some tile that a launch names: one whose previous launch belonged to another context
(05 R191). -/
def Dev.zeroes (d : Dev) (l : Launch) (lc : Nat) : Bool :=
  l.tiles.any (fun t => t / 8 == lc && (d.tile t).prev != some l.ctx)

/-- A named tile begins: zeroed for a new context (05 R191), then in its start state; the tiles of a cluster
begin in one cycle, after the zeroing (05 R210, R217; 08 R310). No gang was chosen yet, so the round robin
begins at the lowest index (DESIGN CHOICE beside 08 R312; log entry 91). -/
def Dev.startTile (d : Dev) (l : Launch) (e : Nat × Nat) : Dev :=
  let (t, rank) := e
  let zeroing := (d.cluster (t / 8)).zeroing
  let d := if (d.tile t).prev = some l.ctx then d else d.zeroTile t
  let ld := t / 32
  let st := d.pilot.vecStore
  let cfg := (d.get F.cdGangCfg_SLICE ld, d.get F.cdGangCfg_SWAP_HINT ld)
  (d.modTile t (fun x => { x with
    core := if l.gangs then .new else coreStart l t rank
    ecall := false, prev := some l.ctx, vec := x.vec.start
    mat := { x.mat with seq := 0, jobs := [], queue := [] }
    gangs := if l.gangs then (List.range l.g).map (fun i => gangStart i l.entry l.arg t rank l.tiles.length l.g (zeroing.getD 0) (decide (i < 4))) else []
    lastGang := 32, stream := {}, slice := cfg.1, swapHint := cfg.2, icache := []
    sfGen := st.gen, sfVersion := st.version, sfLoaded := st.loaded 0xFFFF })).setTileState t (if zeroing.isSome then 1 else 2)

/-- A launch starts on all its clusters together; its stop time is fixed now (02 R74, R80). -/
def Dev.startLaunch (d : Dev) (l : Launch) (wb : Bool) : Dev :=
  let d := l.clusters.foldl (fun d lc =>
    (d.startCluster l wb lc).modCluster lc (fun c => { c with zeroing := if d.zeroes l lc then some zeroCycles else none })) d
  let d := l.tiles.zipIdx.foldl (fun d e => d.startTile l e) d
  let stop := d.now + cdiv (10 * l.budget) 7 + d.get F.tideOverrunLimit_LIMIT * d.period
  d.modLaunch l.ring l.index (fun l => { l with start := some d.now, stopAt := stop, endNs := d.now })

/-- A released launch whose dies or decks have become unavailable before it started: it fails without
starting on any tile (01 R33, R56). -/
def Dev.dropLaunch (d : Dev) (l : Launch) : Dev :=
  { d.finishAt l.ring l.index 0x13 0 with
    launches := d.launches.filter (fun x => !(x.ring == l.ring && x.index == l.index)) }

/-- LAUNCH_START (02 R74). -/
def execLaunchStart (ring index : Nat) (s : State) : Out :=
  actUp s fun d => match d.launch? ring index with
    | some l =>
      if l.start.isNone && l.status.isNone && !d.clustersUp l.clusters then d.dropLaunch l
      else if d.mayStart l then d.startLaunch l (((d.item? ring index).map Item.wbBefore).getD false) else d
    | none => d

/-! ### TILE_END (05 R211, 08 R332) -/

/-- A tile's program has ended and nothing of it is left to do. -/
def Tile.quiet (x : Tile) : Bool :=
  x.ecall && x.vec.queue.isEmpty && x.mat.queue.isEmpty && x.mat.jobs.all (fun j => j.state == 2)

/-- TILE_END (05 R211, 08 R332, 11 R453): the cluster's dirty lines are written back and the tile has
ended. -/
def execTileEnd (t : Nat) (s : State) : Out :=
  actUp s fun d => match d.launchOn t with
    | some l =>
      if d.tileState t = 2 && (d.tile t).quiet then
        let d := (d.wbCluster (t / 8)).1
        if d.tileState t = 2 then
          (d.setTileState t 3).modLaunch l.ring l.index (fun l => { l with endNs := d.now })
        else d
      else d
    | none => d

/-! ### LAUNCH_COMPLETE (05 R212, 08 R332) -/

/-- Every named tile has ended or been stopped. -/
def Dev.allEnded (d : Dev) (l : Launch) : Bool := l.tiles.all (fun t => d.tileState t = 3 || d.tileState t = 4)

/-- What a tile leaves when its launch completes: the blocks that its outstanding jobs have written, an
interrupted job's last blocks among them (06 R254), and the vector engine's counts. -/
def Dev.tileCounts (d : Dev) (t : Nat) : Dev × Nat × Nat :=
  let open' := (d.tile t).mat.jobs.filter (fun j => j.state ≠ 2)
  let (d, s, f) := d.jobsEnd t
  (d, (open'.map (·.sat)).sum + s + (d.tile t).vec.sat, (open'.map (·.flushed)).sum + f + (d.tile t).vec.flushed)

/-- A cluster is done with a launch: its cache is written back (11 R453), its locks are released
(13 R509), and its overrun is noted (02 R79). -/
def Dev.endCluster (d : Dev) (l : Launch) (lc : Nat) : Dev :=
  let d := (d.wbCluster lc).1
  let beyond := if l.tickAfter.isSome then d.now - l.chargeFrom (l.start.getD d.now) else 0
  (d.modCluster lc (fun c => { c with
    charge := c.charge + beyond, freeSince := d.now, locks := []
    tc := (c.tc.filter (fun x => !x.empty)).map (fun x => { x with locked := false }) })).useCluster lc

/-- A launch completes: its clusters are free, and its item has its status, counts and W3 (05 R212). A tile
that ended becomes IDLE; one that was stopped shows STOPPED until its next launch (05 R217; DESIGN CHOICE: the
manual gives no end of either state). -/
def Dev.completeLaunch (d : Dev) (l : Launch) : Dev :=
  let r := l.tiles.foldl (fun (acc : Dev × Nat × Nat) t =>
    let (d, s, f) := acc.1.tileCounts t
    (d, acc.2.1 + s, acc.2.2 + f)) (d, l.sat, l.flushed)
  let d := l.clusters.foldl (fun d lc => d.endCluster l lc) r.1
  let l := (d.launch? l.ring l.index).getD l
  let d := l.tiles.foldl (fun d t => if d.tileState t = 3 then d.setTileState t 0 else d) d
  let d : Dev := { d with launches := d.launches.filter (fun x => !(x.ring == l.ring && x.index == l.index)) }
  let d := (l.clusters.map (· / 4)).eraseDups.foldl Dev.showVecStore d
  d.modItem l.ring l.index (fun it => { (match l.status with
      | some st => it.finish st l.detail.toNat
      | none => it.finish 0 (refCycles (l.endNs - l.start.getD 0))) with
    sat := min 0xFFFFFFFF r.2.1, flushed := min 0xFFFFFFFF r.2.2 })

/-- LAUNCH_COMPLETE (05 R212, 08 R332). -/
def execLaunchComplete (ring index : Nat) (s : State) : Out :=
  actUp s fun d => match d.launch? ring index with
    | some l => if l.start.isSome && d.allEnded l then d.completeLaunch l else d
    | none => d

/-! ### OVERRUN_STOP (02 R80, R81) -/

/-- The locator of a launch's lowest cluster (02 R78). -/
def Dev.locLaunch (d : Dev) (l : Launch) : Nat := d.locCluster (l.clusters.headD 0)

/-- OVERRUN_STOP (02 R80): a launch that has run to its stop time is stopped on every tile. -/
def execOverrunStop (ring index : Nat) (s : State) : Out :=
  actUp s fun d => match d.launch? ring index with
    | some l => match l.start with
      | some t =>
        if l.status.isNone && !d.allEnded l && decide (l.stopAt ≤ d.now) then
          (d.note 0x7202 (d.locLaunch l)).failLaunch ring index 0x15 (refCycles (d.now - t))
        else d
      | none => d
    | none => d

end Sys2Proof.Machine
end

