-- ==== Sys2Proof/Machine/Vector.lean ====
section
/-! DEFINITION. The vector engine (07 R255 to R288, R304): its registers, active elements, sources,
counts and faults, and the custom-0 instructions. A row carries out the instruction at the head of a
tile's vector queue. -/
namespace Sys2Proof.Machine

/-! ### Registers and elements -/

/-- A vector register's bits. -/
def Vec.reg (v : Vec) (i : Nat) : Nat := (tget 0 v.v i).toNat
/-- Write a vector register. -/
def Vec.setReg (v : Vec) (i n : Nat) : Vec := { v with v := tset 0 v.v i (BitVec.ofNat 8192 n) }
/-- A mask register's bits. -/
def Vec.mask (v : Vec) (i : Nat) : Nat := (tget 0 v.m i).toNat
/-- Write a mask register. -/
def Vec.setMask (v : Vec) (i n : Nat) : Vec := { v with m := tset 0 v.m i (BitVec.ofNat 512 n) }
/-- Element `i` of a register at a width (07 R256). -/
def elemOf (ew r i : Nat) : Nat := r / 2 ^ (ew * i) % 2 ^ ew
/-- VLMAX (07 R256). -/
def vlmax (ew : Nat) : Nat := 8192 / ew
/-- A register's bits from its elements. -/
def packElems (ew : Nat) (f : Nat → Nat) : Nat :=
  (List.range (vlmax ew)).foldl (fun acc i => acc + f i % 2 ^ ew * 2 ^ (ew * i)) 0
/-- An active element (07 R261). -/
def Vec.active (v : Vec) (masked : Bool) (i : Nat) : Bool := decide (i < v.vl) && (!masked || bit (v.mask 0) i)
/-- The active elements, ascending. -/
def Vec.actives (v : Vec) (masked : Bool) : List Nat := (List.range v.vl).filter (v.active masked)
/-- Write the chosen elements of a register and leave the others (07 R261). -/
def Vec.putElems (v : Vec) (r : Nat) (sel : Nat → Bool) (f : Nat → Nat) : Vec :=
  let old := v.reg r
  v.setReg r (packElems v.ew (fun i => if sel i then f i else elemOf v.ew old i))
/-- The float format of the element width (07 R258). -/
def fmtOfEw (ew : Nat) : Nat := if ew = 16 then 10 else if ew = 32 then 11 else 12
/-- The float format of the element width, by its fields. -/
def fpOfEw (ew : Nat) : FpFmt := if ew = 16 then fpH16 else if ew = 32 then fpF32 else fpF64
/-- The rounding of element `i` (07 R269, R270). -/
def Vec.mode (v : Vec) (i : Nat) : Mode :=
  match v.round with
  | 0 => .rne
  | 1 => .rtz
  | _ => .sr (noise v.seed (v.src.toNat * 512 + i))
/-- Write a float result with FLUSH (07 R269, 04 R161). -/
def Vec.enc (v : Vec) (m : Mode) (x : FV) : Enc := encodeFmt (fmtOfEw v.ew) 0 m v.flush x
/-- The value of an element code. -/
def Vec.dec (v : Vec) (c : Nat) : FV := (fpOfEw v.ew).decode c
/-- Add results to the vector counts (07 R272). -/
def Vec.count (v : Vec) (es : List Enc) : Vec :=
  { v with sat := satAdd32 v.sat (es.filter (·.sat)).length, flushed := satAdd32 v.flushed (es.filter (·.flush)).length }
/-- SRC moves on after an instruction that rounds some element under SR (07 R270): one whose results are all
exact or NaN counts as rounding them (DESIGN CHOICE; log entry 81). -/
def Vec.rounded (v : Vec) (any : Bool) : Vec := if v.round = 2 && any then { v with src := v.src + 1 } else v
/-- Write rounded or saturated results to elements, count them and move SRC on. -/
def Vec.putEncs (v : Vec) (r : Nat) (rounds : Bool) (rs : List (Nat × Enc)) : Vec :=
  let w := v.putElems r (fun i => rs.any (fun e => e.1 == i))
    (fun i => ((rs.find? (fun e => e.1 == i)).map (fun e => e.2.code)).getD 0)
  (w.count (rs.map (·.2))).rounded (rounds && !rs.isEmpty)

/-! ### Taking an instruction from the queue -/

/-- Set a tile's vector engine. -/
def Dev.setVec (d : Dev) (t : Nat) (v : Vec) : Dev := d.modTile t (fun x => { x with vec := v })

/-- A memory fault of a vector instruction. -/
def Dev.vecMemFault (d : Dev) (t : Nat) (o : VecOp) (e : TFault) (va : Nat) : Dev :=
  let row := match e with | .misaligned => 2 | .segment => 3 | .page => 4 | .poison => 5 | .hw => 6
  d.vecFault t row e.status va o.pc va

/-- The instruction at the head of a tile's vector queue, when it is the named operation. -/
def Dev.vecHead (d : Dev) (t : Nat) (key : Nat × Nat) : Option VecOp :=
  match d.launchOn t with
  | none => none
  | some l =>
    if l.gangs || !(d.tileState t = 2 || d.tileState t = 5) then none
    else match (d.tile t).vec.queue with
      | [] => none
      | o :: _ => if queueOp o.word = some key then some o else none

/-- A tile base register (07 R257, R268). -/
def tileBase (r : Nat) : Bool := r % 8 == 0

/-- FORM of a custom-0 word: masked in bit 2, source in bits 1 and 0 (07 R264). -/
def formOf (w : W32) : Nat := f3Of w
/-- The masked form. -/
def maskedForm (w : W32) : Bool := bit (f3Of w) 2
/-- SX is 0 outside the VC form (07 R264). -/
def sxOk (w : W32) : Bool := wbits w 25 25 == 0 || wbits w 13 12 == 3

/-- The forms and fixed fields of a custom-0 word (07 R264, R265, R268, R280). -/
def legal0 (w : W32) : Bool :=
  let op := wbits w 31 26
  let f := formOf w
  let vv := f == 0 || f == 4
  let masks := rdOf w < 8 && rs1Of w < 8 && rs2Of w < 8
  sxOk w && (
    if [0x0D, 0x18, 0x19].contains op then rs2Of w == 0
    else if op = 0x0E then decide (f < 4)
    else if 0x20 ≤ op && op ≤ 0x25 then decide (rdOf w < 8)
    else if 0x28 ≤ op && op ≤ 0x2A then f == 0 && masks
    else if op = 0x2B || op = 0x2C then f == 0 && masks && rs2Of w == 0
    else if op = 0x30 || op = 0x31 then vv
    else if op = 0x32 then vv && decide (rs2Of w ≤ 2)
    else if op = 0x34 then vv && tileBase (rs1Of w) && [0, 1, 2, 3, 5, 6, 7, 8, 9].contains (rs2Of w)
    else if op = 0x35 then vv && tileBase (rs1Of w) && [0, 1, 2, 4, 5, 6, 7, 8, 9].contains (rs2Of w)
    else if op = 0x38 || op = 0x39 then f == 1 || f == 2
    else if op = 0x3A || op = 0x3B then f == 1 && decide (rs1Of w < 8)
    else if 0x3C ≤ op then f == 1
    else true)

/-- The forms and fixed fields of a custom-3 word (07 R267, R268). -/
def legal3 (w : W32) : Bool :=
  let f7 := f7Of w
  let plain := !maskedForm w
  if f7 ≤ 3 then true
  else if f7 = 8 || f7 = 9 then plain && decide (rs2Of w ≤ 1)
  else if f7 = 0x11 then plain && rs2Of w == 0 && rdOf w == 0
  else if f7 = 0x18 then rs2Of w == 0 && tileBase (rs1Of w)
  else if f7 = 0x19 || f7 = 0x1A then tileBase (rdOf w) && tileBase (rs1Of w)
  else rs2Of w == 0

/-- A vector word some chapter assigns, whatever the state of the engine (05 R216). -/
def vecLegal (w : W32) : Bool := if opc w = 0x7B then legal3 w else legal0 w

/-- Carry out the head of the queue: an encoding that no chapter assigns is illegal wherever it is issued
(05 R216), and while VL is 0 only V.SETL, V.SETA and V.SEED do anything (07 R260). -/
def Dev.vecRun (d : Dev) (t : Nat) (key : Nat × Nat) (f : Dev → VecOp → Vec → Dev) : Dev :=
  match d.vecHead t key with
  | none => d
  | some o =>
    let d := d.modTile t (fun x => { x with vec := { x.vec with queue := x.vec.queue.drop 1 } })
    let v := (d.tile t).vec
    if !vecLegal o.word then d.vecIllegal t o.pc
    else if v.vl = 0 && !(key = (0, 0x3C) || key = (0, 0x3E) || key = (0, 0x3F)) then d else f d o v

/-- The virtual address of an operand-cache slot (07 R278). -/
def slotVa (k : Nat) : Nat := 15 * 2 ^ 60 + k * 0x400

/-- Read the chosen elements of consecutive memory into a register image; a fault names its VA. -/
def Dev.loadElems (d : Dev) (t ew : Nat) (els : List (Nat × Nat)) : Dev × List (Nat × Nat) × Option (TFault × Nat) :=
  els.foldl (fun acc e =>
    match acc.2.2 with
    | some _ => acc
    | none =>
      match acc.1.tileLoad t e.2 (ew / 8) (ew / 8) 1 with
      | (d, .ok bs) => (d, acc.2.1 ++ [(e.1, leNat bs)], none)
      | (d, .error x) => (d, acc.2.1, some (x, e.2))) (d, [], none)

/-- The source src of a custom-0 instruction as elements (07 R264). -/
def Dev.vecSrc (d : Dev) (t : Nat) (o : VecOp) (v : Vec) : Dev × Except (TFault × Nat) (Nat → Nat) :=
  let w := o.word
  let m := 2 ^ v.ew
  match wbits w 13 12 with
  | 0 => (d, .ok (fun (i : Nat) => elemOf v.ew (v.reg (rs1Of w)) i))
  | 1 => (d, .ok (fun (_ : Nat) => o.rs1.toNat % m))
  | 2 =>
    let c := if v.ew = 64 then o.fs1.toNat
      else if v.ew = 32 then unboxS o.fs1
      else fpH16.rne (fpF32.decode (unboxS o.fs1))
    (d, .ok (fun (_ : Nat) => c))
  | _ =>
    let base := slotVa (32 * wbits w 25 25 + rs1Of w)
    match d.loadElems t v.ew ((v.actives (maskedForm w)).map (fun (i : Nat) => (i, base + i * (v.ew / 8)))) with
    | (d, vs, none) => (d, .ok (fun (i : Nat) => ((vs.find? (fun e => e.1 == i)).map (·.2)).getD 0))
    | (d, _, some f) => (d, .error f)

/-- An element-wise custom-0 instruction: its result from the active elements and the source, none where the
width makes it illegal. -/
def Dev.vecSrcOp (d : Dev) (t op : Nat) (f : VecOp → Vec → Bool → (Nat → Nat) → Option Vec) : Dev :=
  d.vecRun t (0, op) fun d o v =>
    match d.vecSrc t o v with
    | (d, .error e) => d.vecMemFault t o e.1 e.2
    | (d, .ok src) =>
      match f o v (maskedForm o.word) src with
      | none => d.vecIllegal t o.pc
      | some v' => d.setVec t v'

/-- An element-wise integer instruction: wraps modulo 2^EW and counts nothing (07 R271). -/
def Dev.vecInt (d : Dev) (t op : Nat) (f : Nat → Nat → Nat → Nat) : Dev :=
  d.vecSrcOp t op fun o v masked src =>
    some (v.putElems (rdOf o.word) (v.active masked)
      (fun i => f v.ew (elemOf v.ew (v.reg (rs2Of o.word)) i) (src i) % 2 ^ v.ew))

/-- An element-wise float instruction, formed exactly and rounded once (07 R269): its value from vs2, src
and vd. -/
def Dev.vecFloat (d : Dev) (t op : Nat) (f : FV → FV → FV → FV) : Dev :=
  d.vecSrcOp t op fun o v masked src =>
    let a := fun (i : Nat) => v.dec (elemOf v.ew (v.reg (rs2Of o.word)) i)
    let c := fun (i : Nat) => v.dec (elemOf v.ew (v.reg (rdOf o.word)) i)
    some (v.putEncs (rdOf o.word) true
      ((v.actives masked).map (fun i => (i, v.enc (v.mode i) (f (a i) (v.dec (src i)) (c i))))))

/-- An element-wise comparison into a mask register (07 R265); vd names one of m0 to m7. -/
def Dev.vecCmp (d : Dev) (t op : Nat) (f : Vec → Nat → Nat → Bool) : Dev :=
  d.vecSrcOp t op fun o v masked src =>
    some (v.setMask (rdOf o.word) ((v.actives masked).foldl (fun m i =>
      setBits m i i (b2n (f v (elemOf v.ew (v.reg (rs2Of o.word)) i) (src i)))) (v.mask (rdOf o.word))))

/-- A mask instruction on bits 0 to VL − 1 (07 R265). -/
def Dev.vecMask (d : Dev) (t op : Nat) (f : Bool → Bool → Bool) : Dev :=
  d.vecSrcOp t op fun o v _ _ =>
    let w := o.word
    let a := v.mask (rs2Of w)
    let b := v.mask (rs1Of w)
    some (v.setMask (rdOf w) ((List.range v.vl).foldl (fun m i => setBits m i i (b2n (f (bit a i) (bit b i)))) (v.mask (rdOf w))))

/-! ### Integer and logic -/

/-- V.ADD (07 R265). -/
def execVAdd (t : Nat) (s : State) : Out := actUp s fun d => d.vecInt t 0x00 fun _ a b => a + b
/-- V.SUB (07 R265). -/
def execVSub (t : Nat) (s : State) : Out := actUp s fun d => d.vecInt t 0x01 fun ew a b => a + (2 ^ ew - b % 2 ^ ew)
/-- V.MUL (07 R265). -/
def execVMul (t : Nat) (s : State) : Out := actUp s fun d => d.vecInt t 0x02 fun _ a b => a * b
/-- V.MIN (07 R265). -/
def execVMin (t : Nat) (s : State) : Out :=
  actUp s fun d => d.vecInt t 0x03 fun ew a b => if toInt ew b < toInt ew a then b else a
/-- V.MAX (07 R265). -/
def execVMax (t : Nat) (s : State) : Out :=
  actUp s fun d => d.vecInt t 0x04 fun ew a b => if toInt ew a < toInt ew b then b else a
/-- V.MINU (07 R265). -/
def execVMinu (t : Nat) (s : State) : Out := actUp s fun d => d.vecInt t 0x05 fun _ a b => min a b
/-- V.MAXU (07 R265). -/
def execVMaxu (t : Nat) (s : State) : Out := actUp s fun d => d.vecInt t 0x06 fun _ a b => max a b
/-- V.AND (07 R265). -/
def execVAnd (t : Nat) (s : State) : Out := actUp s fun d => d.vecInt t 0x07 fun _ a b => a &&& b
/-- V.OR (07 R265). -/
def execVOr (t : Nat) (s : State) : Out := actUp s fun d => d.vecInt t 0x08 fun _ a b => a ||| b
/-- V.XOR (07 R265). -/
def execVXor (t : Nat) (s : State) : Out := actUp s fun d => d.vecInt t 0x09 fun _ a b => a ^^^ b
/-- V.SLL (07 R265). -/
def execVSll (t : Nat) (s : State) : Out := actUp s fun d => d.vecInt t 0x0A fun ew a b => a * 2 ^ (b % ew)
/-- V.SRL (07 R265). -/
def execVSrl (t : Nat) (s : State) : Out := actUp s fun d => d.vecInt t 0x0B fun ew a b => a / 2 ^ (b % ew)
/-- V.SRA (07 R265). -/
def execVSra (t : Nat) (s : State) : Out :=
  actUp s fun d => d.vecInt t 0x0C fun ew a b => ofInt ew (toInt ew a / (2 ^ (b % ew) : Nat))
/-- V.MOV (07 R265). -/
def execVMov (t : Nat) (s : State) : Out := actUp s fun d => d.vecInt t 0x0D fun _ _ b => b

/-- V.SEL (07 R265): src where m0's bit is 1, vs2 elsewhere. -/
def execVSel (t : Nat) (s : State) : Out :=
  actUp s fun d => d.vecSrcOp t 0x0E fun o v _ src =>
    some (v.putElems (rdOf o.word) (v.active false)
      (fun i => if bit (v.mask 0) i then src i else elemOf v.ew (v.reg (rs2Of o.word)) i))

/-! ### Float -/

/-- V.FADD (07 R269). -/
def execVFadd (t : Nat) (s : State) : Out := actUp s fun d => d.vecFloat t 0x10 fun a b _ => a.add b
/-- V.FSUB (07 R269). -/
def execVFsub (t : Nat) (s : State) : Out := actUp s fun d => d.vecFloat t 0x11 fun a b _ => a.add b.negate
/-- V.FMUL (07 R269). -/
def execVFmul (t : Nat) (s : State) : Out := actUp s fun d => d.vecFloat t 0x12 fun a b _ => a.mul b
/-- V.FMA (07 R269). -/
def execVFma (t : Nat) (s : State) : Out := actUp s fun d => d.vecFloat t 0x13 fun a b c => (a.mul b).add c
/-- V.FNMS (07 R269). -/
def execVFnms (t : Nat) (s : State) : Out := actUp s fun d => d.vecFloat t 0x14 fun a b c => c.add (a.mul b).negate
/-- V.FDIV (07 R269). -/
def execVFdiv (t : Nat) (s : State) : Out := actUp s fun d => d.vecFloat t 0x17 fun a b _ => a.div b

/-- The code of a minimum or maximum: an operand's code, or the canonical NaN (07 R265, 04 R149). -/
def fminmaxCode (v : Vec) (isMax : Bool) (a b : Nat) : Nat :=
  let x := v.dec a
  let y := v.dec b
  match decide (x = .nan), decide (y = .nan) with
  | true, true => (fpOfEw v.ew).nan
  | true, false => b
  | false, true => a
  | false, false =>
    let less := x.lt y || (x.eq y && x.neg? && !y.neg?)
    if less == isMax then b else a

/-- A float code that an instruction selects as its result, with FLUSH (07 R269, 04 R161). -/
def Vec.encCode (v : Vec) (c : Nat) : Enc := v.enc .rne (v.dec c)

/-- V.FMIN and V.FMAX: they round nothing, and flush a subnormal result under FLUSH (07 R269). -/
def Dev.vecFminmax (d : Dev) (t op : Nat) (isMax : Bool) : Dev :=
  d.vecSrcOp t op fun o v masked src =>
    some (v.putEncs (rdOf o.word) false ((v.actives masked).map (fun i =>
      (i, v.encCode (fminmaxCode v isMax (elemOf v.ew (v.reg (rs2Of o.word)) i) (src i))))))

/-- V.FMIN (07 R265). -/
def execVFmin (t : Nat) (s : State) : Out := actUp s fun d => d.vecFminmax t 0x15 false
/-- V.FMAX (07 R265). -/
def execVFmax (t : Nat) (s : State) : Out := actUp s fun d => d.vecFminmax t 0x16 true
/-- V.FABS (07 R265): the sign bit only. -/
def execVFabs (t : Nat) (s : State) : Out := actUp s fun d => d.vecInt t 0x18 fun ew _ b => b % 2 ^ (ew - 1)
/-- V.FNEG (07 R265): the sign bit only. -/
def execVFneg (t : Nat) (s : State) : Out := actUp s fun d => d.vecInt t 0x19 fun ew _ b => b ^^^ 2 ^ (ew - 1)

/-! ### Comparisons and masks -/

/-- V.CMPEQ (07 R265). -/
def execVCmpeq (t : Nat) (s : State) : Out := actUp s fun d => d.vecCmp t 0x20 fun _ a b => a == b
/-- V.CMPLT (07 R265). -/
def execVCmplt (t : Nat) (s : State) : Out := actUp s fun d => d.vecCmp t 0x21 fun v a b => decide (toInt v.ew a < toInt v.ew b)
/-- V.CMPLTU (07 R265). -/
def execVCmpltu (t : Nat) (s : State) : Out := actUp s fun d => d.vecCmp t 0x22 fun _ a b => decide (a < b)
/-- V.FCMPEQ (07 R265). -/
def execVFcmpeq (t : Nat) (s : State) : Out := actUp s fun d => d.vecCmp t 0x23 fun v a b => (v.dec a).eq (v.dec b)
/-- V.FCMPLT (07 R265). -/
def execVFcmplt (t : Nat) (s : State) : Out := actUp s fun d => d.vecCmp t 0x24 fun v a b => (v.dec a).lt (v.dec b)
/-- V.FCMPLE (07 R265). -/
def execVFcmple (t : Nat) (s : State) : Out :=
  actUp s fun d => d.vecCmp t 0x25 fun v a b => (v.dec a).lt (v.dec b) || (v.dec a).eq (v.dec b)
/-- V.MAND (07 R265). -/
def execVMand (t : Nat) (s : State) : Out := actUp s fun d => d.vecMask t 0x28 fun a b => a && b
/-- V.MOR (07 R265). -/
def execVMor (t : Nat) (s : State) : Out := actUp s fun d => d.vecMask t 0x29 fun a b => a || b
/-- V.MXOR (07 R265). -/
def execVMxor (t : Nat) (s : State) : Out := actUp s fun d => d.vecMask t 0x2A fun a b => a != b
/-- V.MNOT (07 R265). -/
def execVMnot (t : Nat) (s : State) : Out := actUp s fun d => d.vecMask t 0x2B fun _ b => !b
/-- V.MMV (07 R265). -/
def execVMmv (t : Nat) (s : State) : Out := actUp s fun d => d.vecMask t 0x2C fun _ b => b

/-! ### Conversions -/

/-- V.CVTIF (07 R265): a signed integer of EW rounded to the float of EW. -/
def execVCvtif (t : Nat) (s : State) : Out :=
  actUp s fun d => d.vecSrcOp t 0x30 fun o v masked src =>
    some (v.putEncs (rdOf o.word) true ((v.actives masked).map (fun i =>
      (i, v.enc (v.mode i) (.of (QR.ofInt (toInt v.ew (src i))))))))

/-- A float as a signed integer of `n` bits, saturating; NaN is 0 and counts saturated (07 R271). -/
def floatToInt (n : Nat) (m : Mode) (x : FV) : Enc :=
  let hi : Int := 2 ^ (n - 1) - 1
  let lo : Int := -(2 ^ (n - 1))
  match x with
  | .nan => ⟨0, true, false⟩
  | .inf neg => ⟨ofInt n (if neg then lo else hi), true, false⟩
  | .fin q _ => intEncode lo hi n q m

/-- V.CVTFI (07 R271). -/
def execVCvtfi (t : Nat) (s : State) : Out :=
  actUp s fun d => d.vecSrcOp t 0x31 fun o v masked src =>
    some (v.putEncs (rdOf o.word) true ((v.actives masked).map (fun i =>
      (i, floatToInt v.ew (v.mode i) (v.dec (src i))))))

/-- V.CVTFF (07 R265, R266): from the float width of vs2[1:0] to that of EW. -/
def execVCvtff (t : Nat) (s : State) : Out :=
  actUp s fun d => d.vecSrcOp t 0x32 fun o v masked _ =>
    let k := rs2Of o.word
    let sw := 16 * 2 ^ k
    if vlmax sw < v.vl then none
    else some (v.putEncs (rdOf o.word) true ((v.actives masked).map (fun i =>
      (i, v.enc (v.mode i) ((fpOfEw sw).decode (elemOf sw (v.reg (rs1Of o.word)) i))))))

/-! ### Reductions (07 R280 to R287) -/

/-- One level of the sum tree: neighbours are added and rounded RNE in the element format. -/
def sumLevel (p : FpFmt) : List FV → List FV
  | a :: b :: rest => p.decode (p.rne (a.add b)) :: sumLevel p rest
  | l => l

/-- The sum tree over a list of a power of two of values (07 R282). -/
def sumTree (p : FpFmt) : Nat → List FV → FV
  | 0, l => l.headD .nan
  | n + 1, l => sumTree p n (sumLevel p l)

/-- Negative zero. -/
def negZero : FV := .fin QR.zero true

/-- FSUM's result as it is written: one whose inputs are finite and whose sum, or two of whose partial sums,
overflowed to infinity counts saturated (07 R282). -/
def Vec.sumEnc (v : Vec) (ins : List FV) (r : FV) : Enc :=
  let e := v.enc .rne r
  let fin := ins.all (fun x => match x with | .fin _ _ => true | _ => false)
  match r with
  | .fin _ _ => e
  | _ => { e with sat := fin }

/-- FSUM over the positions of a register (07 R282). -/
def Vec.fsumRow (v : Vec) (act : Nat → Bool) (f : Nat → Nat) : Enc :=
  let n := vlmax v.ew
  let leaves := (List.range n).map (fun i => if act i then v.dec (f i) else negZero)
  v.sumEnc leaves (sumTree (fpOfEw v.ew) n.log2 leaves)

/-- The tally of finite values at TANCHOR; an infinity or NaN poisons it (07 R284). The elements are added in
ascending order (DESIGN CHOICE: the manual gives none, and 04 R173 makes it matter once a partial sum leaves
the range). -/
def Vec.tsum (v : Vec) (xs : List Nat) : Tal := xs.foldl (fun t c => t.dyadic v.tanchor (v.dec c)) {}

/-- Maximum or minimum of codes ignoring NaN; the canonical NaN when there is none (07 R283). -/
def Vec.fextreme (v : Vec) (isMax : Bool) (xs : List Nat) : Nat :=
  xs.foldl (fminmaxCode v isMax) (fpOfEw v.ew).nan

/-- ARGMAX: the lowest position equal to the maximum; all ones when there is none (07 R283). -/
def Vec.argmax (v : Vec) (xs : List (Nat × Nat)) : Nat :=
  let m := v.fextreme true (xs.map (·.2))
  let vm := v.dec m
  match xs.find? (fun e => (v.dec e.2).eq vm && ((v.dec e.2).neg? == vm.neg?)) with
  | some e => e.1
  | none => 2 ^ v.ew - 1

/-- Signed extreme of codes; with none the result is unstated and `free` stands for it. -/
def Vec.iextreme (v : Vec) (isMax : Bool) (free : Nat) (xs : List Nat) : Nat :=
  match xs with
  | [] => free
  | x :: rest => rest.foldl (fun a b => if decide (toInt v.ew a < toInt v.ew b) == isMax then b else a) x

/-- The exact signed sum of codes. -/
def Vec.isum (v : Vec) (xs : List Nat) : Int := xs.foldl (fun a c => a + toInt v.ew c) 0

/-- A signed integer saturated to `n` bits. -/
def satInt (n : Nat) (x : Int) : Enc := intEncode (-(2 ^ (n - 1))) (2 ^ (n - 1) - 1) n (QR.ofInt x) .rne

/-- A reduction of codes with their positions that yields one element; `i` is its index in the
destination and `fs` the float sum in its tree's order (07 R280). -/
def Vec.reduce (v : Vec) (kind i free : Nat) (fs : Enc) (xs : List (Nat × Nat)) : Enc :=
  let cs := xs.map (·.2)
  match kind with
  | 0 => fs
  | 1 => satInt v.ew (v.isum cs)
  | 2 => (v.tsum cs).evaluate v.tanchor (fmtOfEw v.ew) 0 128 (v.mode i) v.flush
  | 5 => v.encCode (v.fextreme true cs)
  | 6 => v.encCode (v.fextreme false cs)
  | 7 => ⟨v.argmax xs, false, false⟩
  | 8 => ⟨v.iextreme true free cs, false, false⟩
  | _ => ⟨v.iextreme false free cs, false, false⟩

/-- The widths of a reduction kind, and TRAW's VL (07 R280, R286). -/
def redOk (kind ew vl : Nat) : Bool :=
  if kind = 2 then ew ≠ 64 else if kind = 3 then ew == 32 else if kind = 4 then ew == 32 && vl % 4 == 0 else true

/-- TSUMR: the raw sub-sum of each row, and m7's bits (07 R285). -/
def Vec.tsumr (v : Vec) (vd tile : Nat) (masked : Bool) : Vec :=
  let tals := (List.range 8).map (fun r => v.tsum ((v.actives masked).map (fun i => elemOf v.ew (v.reg (tile + r)) i)))
  let word := fun (k : Nat) => ofInt 128 ((tals.getD (k / 4) {}).s0) / 2 ^ (32 * (k % 4)) % 2 ^ 32
  let w := v.putElems vd (fun k => decide (k < 32)) word
  let w := w.setMask 7 ((List.range 8).foldl (fun m r => setBits m r r (b2n (tals.getD r {}).counts)) (w.mask 7))
  { w with sat := satAdd32 w.sat (tals.filter (·.counts)).length }

/-- V.REDROW (07 R281, R285): the results of the eight rows are written whatever VL and the mask are (DESIGN
CHOICE beside 07 R261; log entry 234). A signed extreme of no elements has no stated result. -/
def execVRedrow (t : Nat) (s : State) : Out :=
  actUp s fun d =>
    let free := (Config.freeValue d.fresh).toNat
    let d := if (d.vecHead t (0, 0x34)).any (fun o => vecLegal o.word) && (d.tile t).vec.vl ≠ 0 then d.draw else d
    d.vecSrcOp t 0x34 fun o v masked _ =>
      let kind := rs2Of o.word
      let tile := rs1Of o.word
      if !redOk kind v.ew v.vl then none
      else if kind = 3 then some (v.tsumr (rdOf o.word) tile masked)
      else
        let row := fun (r i : Nat) => elemOf v.ew (v.reg (tile + r)) i
        some (v.putEncs (rdOf o.word) (kind == 2) ((List.range 8).map (fun r =>
          (r, v.reduce kind r (free % 2 ^ v.ew)
            (if kind = 0 then v.fsumRow (v.active masked) (row r) else ⟨0, false, false⟩)
            ((v.actives masked).map (fun i => (i, row r i)))))))

/-- FSUM of a column (07 R282). -/
def Vec.fsumCol (v : Vec) (xs : List Nat) : Enc :=
  let l := xs.map v.dec
  v.sumEnc l (sumTree (fpOfEw v.ew) 3 l)

/-- TRAW: 128-bit additions of the eight rows' groups, row 0 first (DESIGN CHOICE: the manual gives no order,
and 04 R173 makes it matter once a partial sum leaves the range), and m7's bits (07 R286). -/
def Vec.traw (v : Vec) (vd tile : Nat) (masked : Bool) : Vec :=
  let groups := (List.range 64).filter (fun j => v.active masked (4 * j))
  let val := fun (r j : Nat) => toInt 128 (v.reg (tile + r) / 2 ^ (128 * j) % 2 ^ 128)
  let sums := groups.map (fun j => (j, (List.range 8).foldl (fun (t : Tal) r => t.addAt 0 (val r j)) {}))
  let look := fun (j : Nat) => (sums.find? (fun e => e.1 == j)).map (·.2)
  let w := v.putElems vd (fun k => (look (k / 4)).isSome)
    (fun k => ofInt 128 (((look (k / 4)).getD {}).s0) / 2 ^ (32 * (k % 4)) % 2 ^ 32)
  let w := w.setMask 7 (sums.foldl (fun m e => setBits m e.1 e.1 (b2n e.2.overflow)) (w.mask 7))
  { w with sat := satAdd32 w.sat (sums.filter (fun e => e.2.overflow)).length }

/-- V.REDCOL (07 R281). -/
def execVRedcol (t : Nat) (s : State) : Out :=
  actUp s fun d => d.vecSrcOp t 0x35 fun o v masked _ =>
    let kind := rs2Of o.word
    let tile := rs1Of o.word
    if !redOk kind v.ew v.vl then none
    else if kind = 4 then some (v.traw (rdOf o.word) tile masked)
    else
      let col := fun (i : Nat) => (List.range 8).map (fun r => (r, elemOf v.ew (v.reg (tile + r)) i))
      some (v.putEncs (rdOf o.word) (kind == 2) ((v.actives masked).map (fun i =>
        (i, v.reduce kind i 0 (if kind = 0 then v.fsumCol ((col i).map (·.2)) else ⟨0, false, false⟩) (col i)))))

/-! ### Results in scalar registers (07 R287) -/

/-- Write x[rd] of a tile's core. -/
def Dev.vecSetX (d : Dev) (t rd : Nat) (v : W64) : Dev := d.modTile t (fun x => { x with core := x.core.setX rd v })
/-- Write f[rd] of a tile's core with a float of the element width. -/
def Dev.vecSetF (d : Dev) (t rd ew c : Nat) : Dev :=
  let v := if ew = 64 then w64 c else boxS (if ew = 32 then c else fpF32.rne (fpH16.decode c))
  d.modTile t (fun x => { x with core := x.core.setF rd v })

/-- A scalar-result instruction: its result in the VX form as x[rd], in the VF form as f[rd]. -/
def Dev.vecScalar (d : Dev) (t op : Nat) (f : VecOp → Vec → Vec × Nat × Bool) : Dev :=
  d.vecRun t (0, op) fun d o v =>
    match f o v with
    | (v', c, isF) =>
      let d := d.setVec t v'
      if isF then d.vecSetF t (rdOf o.word) v.ew c else d.vecSetX t (rdOf o.word) (w64 c)

/-- V.SUMX (07 R287). -/
def execVSumx (t : Nat) (s : State) : Out :=
  actUp s fun d => d.vecScalar t 0x38 fun o v =>
    let el := fun (i : Nat) => elemOf v.ew (v.reg (rs1Of o.word)) i
    if formOf o.word = 2 then
      let e := v.fsumRow (v.active false) el
      (v.count [e], e.code, true)
    else
      let e := satInt 64 (v.isum ((v.actives false).map el))
      (v.count [e], e.code, false)

/-- V.MAXX (07 R287). -/
def execVMaxx (t : Nat) (s : State) : Out :=
  actUp s fun d => d.vecScalar t 0x39 fun o v =>
    let xs := (v.actives false).map (fun i => elemOf v.ew (v.reg (rs1Of o.word)) i)
    if formOf o.word = 2 then (v, v.fextreme true xs, true)
    else (v, (sext v.ew (v.iextreme true 0 xs)).toNat, false)

/-- V.ANY (07 R265). -/
def execVAny (t : Nat) (s : State) : Out :=
  actUp s fun d => d.vecScalar t 0x3A fun o v =>
    (v, b2n ((List.range v.vl).any (fun i => bit (v.mask (rs1Of o.word)) i)), false)

/-- V.ALL (07 R265). -/
def execVAll (t : Nat) (s : State) : Out :=
  actUp s fun d => d.vecScalar t 0x3B fun o v =>
    (v, b2n ((List.range v.vl).all (fun i => bit (v.mask (rs1Of o.word)) i)), false)

/-- V.CNT (07 R265). -/
def execVCnt (t : Nat) (s : State) : Out :=
  actUp s fun d => d.vecScalar t 0x3D fun _ v => (v, v.sat * 2 ^ 32 + v.flushed, false)

/-- A configuration instruction on x registers (07 R259, R265). -/
def Dev.vecConfig (d : Dev) (t op : Nat) (f : VecOp → Vec → Option Vec) : Dev :=
  d.vecRun t (0, op) fun d o v =>
    match f o v with
    | none => d.vecIllegal t o.pc
    | some v' => d.setVec t v'

/-- V.SETA (07 R265, R266). -/
def execVSeta (t : Nat) (s : State) : Out :=
  actUp s fun d => d.vecConfig t 0x3C fun o v =>
    let a := toInt 64 o.rs1.toNat
    if anchorOk a then some { v with tanchor := a } else none

/-- V.SEED (07 R270). -/
def execVSeed (t : Nat) (s : State) : Out :=
  actUp s fun d => d.vecConfig t 0x3E fun o v => some { v with seed := o.rs1, src := o.rs2 }

/-- What V.SETL sets, or illegal (07 R259). -/
def setlOf (o : VecOp) (v : Vec) : Option Vec :=
  let c := o.rs2.toNat
  if 32 ≤ c || bits c 3 2 = 3 || bits c 1 0 = 3 then none
  else
    let ew := 16 * 2 ^ bits c 1 0
    some { v with vl := min o.rs1.toNat (vlmax ew), ew := ew, round := bits c 3 2, flush := bit c 4 }

/-- V.SETL (07 R259). -/
def execVSetl (t : Nat) (s : State) : Out :=
  actUp s fun d => d.vecRun t (0, 0x3F) fun d o v =>
    match setlOf o v with
    | none => d.vecIllegal t o.pc
    | some v' => (d.setVec t v').vecSetX t (rdOf o.word) (w64 v'.vl)

end Sys2Proof.Machine
end

