-- ==== Sys2Proof/Machine/Special.lean ====
section
/-! DEFINITION. The custom-3 instructions of the vector engine (07 R267 to R302): vector memory, the
operand cache, table lookup, normalisation, the softmax steps and special functions. -/
namespace Sys2Proof.Machine

/-- A custom-3 instruction, illegal where the state of the engine makes it so (07 R294, R296, R298, R302). -/
def Dev.vecRun3 (d : Dev) (t f7 : Nat) (ok : Vec → Bool) (f : Dev → VecOp → Vec → Dev) : Dev :=
  d.vecRun t (3, f7) fun d o v => if ok v then f d o v else d.vecIllegal t o.pc

/-- The widths of the lookup, the normalisation, the softmax steps and the special functions (07 R294, R296,
R298, R302). -/
def Vec.narrow (v : Vec) : Bool := v.ew ≠ 64

/-! ### Memory -/

/-- The addresses of the active elements: strided, or by the unsigned offsets of a register
(07 R273, R274). -/
def Vec.addrs (v : Vec) (o : VecOp) (indexed : Bool) : List (Nat × Nat) :=
  let step := v.ew / 8
  (v.actives (maskedForm o.word)).map (fun i =>
    let off : W64 := if indexed then w64 (elemOf v.ew (v.reg (rs2Of o.word)) i) else o.rs2 * w64 i
    (i, (o.rs1 + off * w64 step).toNat))

/-- Load elements into rd from their addresses: the elements below a faulting one are written (07 R277). -/
def Dev.loadActive (d : Dev) (t : Nat) (o : VecOp) (v : Vec) (els : List (Nat × Nat)) : Dev :=
  match d.loadElems t v.ew els with
  | (d, vs, err) =>
    let d := d.setVec t ((d.tile t).vec.putElems (rdOf o.word) (fun i => vs.any (fun e => e.1 == i))
      (fun i => ((vs.find? (fun e => e.1 == i)).map (·.2)).getD 0))
    match err with
    | none => d
    | some (e, va) => d.vecMemFault t o e va

/-- Store bytes at their addresses, one after another; it stops at one that faults (07 R277). -/
def Dev.storeParts (d : Dev) (t : Nat) (o : VecOp) (parts : List (Nat × List Byte)) : Dev :=
  (parts.foldl (fun (acc : Dev × Bool) p =>
    if acc.2 then acc
    else match acc.1.tileStore t p.1 p.2.length p.2 with
      | (d, .ok ()) => (d, false)
      | (d, .error x) => (d.vecMemFault t o x p.1, true)) (d, false)).1

/-- A vector load (07 R273, R274). -/
def Dev.vecLoad (d : Dev) (t f7 : Nat) (indexed : Bool) : Dev :=
  d.vecRun3 t f7 (fun _ => true) fun d o v => d.loadActive t o v (v.addrs o indexed)

/-- A vector store in ascending element order (07 R273, R274). -/
def Dev.vecStore (d : Dev) (t f7 : Nat) (indexed : Bool) : Dev :=
  d.vecRun3 t f7 (fun _ => true) fun d o v =>
    let data := v.reg (rdOf o.word)
    d.storeParts t o ((v.addrs o indexed).map (fun e => (e.2, leBytes (v.ew / 8) (elemOf v.ew data e.1))))

/-- V.LD (07 R273). -/
def execVLd (t : Nat) (s : State) : Out := actUp s fun d => d.vecLoad t 0x00 false
/-- V.ST (07 R273). -/
def execVSt (t : Nat) (s : State) : Out := actUp s fun d => d.vecStore t 0x01 false
/-- V.LDX (07 R274). -/
def execVLdx (t : Nat) (s : State) : Out := actUp s fun d => d.vecLoad t 0x02 true
/-- V.STX (07 R274). -/
def execVStx (t : Nat) (s : State) : Out := actUp s fun d => d.vecStore t 0x03 true

/-- The slot of an operand-cache instruction, whose rs2 field has only bit 0 (07 R267). -/
def ocSlot (w : W32) : Nat := rs1Of w + 32 * (rs2Of w % 2)

/-- V.OCLD (07 R278): the active elements of a slot, those below a faulting one where one faults (07 R277). -/
def execVOcld (t : Nat) (s : State) : Out :=
  actUp s fun d => d.vecRun3 t 0x08 (fun _ => true) fun d o v =>
    d.loadActive t o v ((v.actives false).map (fun (i : Nat) => (i, slotVa (ocSlot o.word) + i * (v.ew / 8))))

/-- V.OCEV (07 R278): the active elements of the register to a slot, in whole 64-bit words where they
fill them; it stops at a faulting element (07 R277). -/
def execVOcev (t : Nat) (s : State) : Out :=
  actUp s fun d => d.vecRun3 t 0x09 (fun _ => true) fun d o v =>
    let size := v.ew / 8
    let words := v.vl * size / 8
    let bytes := leBytes (v.vl * size) (v.reg (rdOf o.word))
    let base := slotVa (ocSlot o.word)
    let parts := (List.range words).map (fun k => (8 * k, 8)) ++
      (rangeFrom (words * (8 / size)) (v.vl - words * (8 / size))).map (fun i => (i * size, size))
    d.storeParts t o (parts.map (fun p => (base + p.1, (bytes.drop p.1).take p.2)))

/-! ### Lookup table -/

/-- V.LUT (07 R296). -/
def execVLut (t : Nat) (s : State) : Out :=
  actUp s fun d => d.vecRun3 t 0x10 Vec.narrow fun d o v =>
    let size := v.ew / 8
    let last := 4096 / size - 1
    d.setVec t (v.putEncs (rdOf o.word) false ((v.actives (maskedForm o.word)).map (fun i =>
      let j := elemOf v.ew (v.reg (rs1Of o.word)) i
      let k := min j last
      (i, ⟨leNat ((List.range size).map (fun b => tget 0 v.lut (k * size + b))), decide (last < j), false⟩))))

/-- A table of bytes from a list. -/
def byteTable (bs : List Byte) : Tbl Byte := tcanon 0 ((List.range bs.length).zip bs)

/-- V.LUTLD (07 R297): 4 KiB from segment 0xF, 64-byte aligned. -/
def execVLutld (t : Nat) (s : State) : Out :=
  actUp s fun d => d.vecRun3 t 0x11 (fun _ => true) fun d o v =>
    let va := o.rs1.toNat
    if va % 64 ≠ 0 then d.vecMemFault t o .misaligned va
    else if va / 2 ^ 60 ≠ 15 then d.vecMemFault t o .segment va
    else
      match (List.range 64).foldl (fun (acc : Dev × List Byte × Option (TFault × Nat)) i =>
          match acc.2.2 with
          | some _ => acc
          | none =>
            let a := (va + 64 * i) % 2 ^ 64
            match acc.1.tileLoad t a 64 64 1 with
            | (d, .ok bs) => (d, acc.2.1 ++ bs, none)
            | (d, .error e) => (d, acc.2.1, some (e, a))) (d, [], none) with
      | (d, bs, none) => d.setVec t { v with lut := byteTable bs }
      | (d, _, some e) => d.vecMemFault t o e.1 e.2

/-! ### Normalisation (07 R298 to R300) -/

/-- E(y) = ⌊log₂ y⌋ of the greatest magnitude; 0 when every value is zero. -/
def maxExpo (xs : List QR) : Int :=
  let m := xs.foldl (fun (a : QR) x => if a.lt x.abs then x.abs else a) QR.zero
  if m.sign = 0 then 0 else m.expo

/-- ⌊x · 2^k⌋. -/
def floorAt (x : QR) (k : Int) : Int := (x.shift k).floorInt

/-- Mean and variance of a row's active values, as they are written (07 R299). -/
def Vec.norm (v : Vec) (xs : List Nat) : Enc × Enc :=
  let p := fpOfEw v.ew
  let vals := xs.map v.dec
  let n := xs.length
  if n = 0 then (⟨0, false, false⟩, ⟨0, false, false⟩)
  else if vals.any (fun x => match x with | .fin _ _ => false | _ => true) then (⟨p.nan, false, false⟩, ⟨p.nan, false, false⟩)
  else
    let qs := vals.map (fun x => match x with | .fin q _ => q | _ => QR.zero)
    let a1 := maxExpo qs
    let sum := qs.foldl (fun (a : Int) q => a + floorAt q (100 - a1)) 0
    let per (tot : Int) (a : Int) : FV :=
      match b64 (.of (QR.ofInt tot)) with
      | .fin x _ => .of ((x.shift (a - 100)).divRat (QR.ofInt (Int.ofNat n)))
      | f => f
    let mean := per sum a1
    let mu := match p.decode (p.rne mean) with | .fin q _ => q | _ => QR.zero
    let ds := qs.map (fun q => match b64 (.of (q.sub mu)) with | .fin x _ => x | _ => QR.zero)
    let a2 : Int := if ds.all (fun x => x.sign == 0) then 0 else min 160 (max (-160) (2 * maxExpo ds + 1))
    let q := ds.foldl (fun (t : Tal) x => t.addAt 0 (floorAt (x.mul x) (100 - a2))) {}
    let e := v.enc .rne (per q.s0 a2)
    let var : Enc := match p.decode e.code with
      | .fin x nz => if x.sign < 0 || (x.sign == 0 && nz) then { e with code := 0 } else e
      | _ => e
    (v.enc .rne mean, { var with sat := var.sat || q.overflow })

/-- V.NORM (07 R298). -/
def execVNorm (t : Nat) (s : State) : Out :=
  actUp s fun d => d.vecRun3 t 0x18 Vec.narrow fun d o v =>
    let rs := (List.range 8).map (fun r =>
      v.norm ((v.actives (maskedForm o.word)).map (fun i => elemOf v.ew (v.reg (rs1Of o.word + r)) i)))
    d.setVec t (v.putEncs (rdOf o.word) false
      ((List.range 8).map (fun r => (r, (rs.getD r default).1)) ++ (List.range 8).map (fun r => (8 + r, (rs.getD r default).2))))

/-! ### Softmax (07 R301, R302) -/

/-- A special-function result within its bound, written under FLUSH and counted: `finite` says that its
input was finite, and not a zero that a function takes to an infinity, and `zeroExact` that its exact result is zero (07 R290, R293; 04 R161). -/
def Vec.sfEnc (v : Vec) (code : Nat) (finite zeroExact : Bool) : Enc :=
  let p := fpOfEw v.ew
  let c := code % 2 ^ v.ew
  match p.decode c with
  | .nan => ⟨p.nan, false, false⟩
  | .inf _ => ⟨c, finite, false⟩
  | .fin x nz =>
    if x.sign = 0 then ⟨c, false, !zeroExact⟩
    else if v.flush && decide (x.abs.expo < 1 - p.bias) then ⟨signed p.sign (decide (x.sign < 0) || nz) 0, false, true⟩
    else ⟨c, false, false⟩

/-- The softmax exponent of one element (07 R301). -/
def Vec.smexp (v : Vec) (x m : Nat) : Enc :=
  let p := fpOfEw v.ew
  let one := p.rne (.of (QR.ofInt 1))
  match v.dec x, v.dec m with
  | .nan, _ => ⟨p.nan, false, false⟩
  | _, .nan => ⟨p.nan, false, false⟩
  | _, .inf true => ⟨0, false, false⟩
  | .inf false, .inf false => ⟨one, false, false⟩
  | _, .inf false => ⟨0, false, false⟩
  | .inf true, _ => ⟨0, false, false⟩
  | .inf false, _ => ⟨p.rne (.inf false), false, false⟩
  | .fin a _, .fin b _ =>
    v.sfEnc (p.within (fxExp (fxOf (a.sub b))) ((Config.softmaxExp v.ew (w64 x) (w64 m)).toNat % 2 ^ v.ew)) true false

/-- Row results of a tile: each row's active elements, written to the same positions of another tile. -/
def Vec.rows (v : Vec) (vd vs : Nat) (masked rounds : Bool) (f : Nat → Nat → Nat → Enc) : Vec :=
  let rs := (List.range 8).map (fun r =>
    (r, (v.actives masked).map (fun i => (i, f r i (elemOf v.ew (v.reg (vs + r)) i)))))
  let w := rs.foldl (fun (w : Vec) r => w.putEncs (vd + r.1) false r.2) v
  w.rounded (rounds && !(v.actives masked).isEmpty)

/-- V.SMEXP (07 R301). -/
def execVSmexp (t : Nat) (s : State) : Out :=
  actUp s fun d => d.vecRun3 t 0x19 Vec.narrow fun d o v =>
    d.setVec t (v.rows (rdOf o.word) (rs1Of o.word) (maskedForm o.word) false
      (fun r _ x => v.smexp x (elemOf v.ew (v.reg (rs2Of o.word)) r)))

/-- The softmax scale of one element (07 R302). -/
def Vec.smdiv (v : Vec) (m : Mode) (x s : Nat) : Enc :=
  if s = 0 then ⟨0, false, false⟩
  else match v.dec s with
    | .nan => ⟨(fpOfEw v.ew).nan, false, false⟩
    | y => v.enc m ((v.dec x).div y)

/-- V.SMDIV (07 R302): the noise index of row r's element i is r · VLMAX + i. -/
def execVSmdiv (t : Nat) (s : State) : Out :=
  actUp s fun d => d.vecRun3 t 0x1A Vec.narrow fun d o v =>
    d.setVec t (v.rows (rdOf o.word) (rs1Of o.word) (maskedForm o.word) true
      (fun r i x => v.smdiv (v.mode (r * vlmax v.ew + i)) x (elemOf v.ew (v.reg (rs2Of o.word)) r)))

/-! ### Special functions (07 R289 to R295) -/

/-- The special values of the shipped functions; none where the function computes (07 R292). -/
def sfSpecial (p : FpFmt) (slot : Nat) (x : FV) : Option FV :=
  let one := FV.of (QR.ofInt 1)
  let zero := FV.of QR.zero
  let neg := x.neg?
  let lt0 := neg && !x.isZero
  match x with
  | .nan => some .nan
  | _ =>
    let isInf := match x with | .inf _ => true | _ => false
    let z := x.isZero
    match slot with
    | 0 => if isInf then some (if neg then zero else .inf false) else if z then some one else none
    | 10 => if isInf then some (if neg then zero else .inf false) else if z then some one else none
    | 1 => if z then some (.inf true) else if lt0 then some .nan else if isInf then some (.inf false) else none
    | 11 => if z then some (.inf true) else if lt0 then some .nan else if isInf then some (.inf false) else none
    | 2 => if isInf then some (.fin QR.zero neg) else if z then some (.inf neg) else none
    | 3 => if z then some (.inf neg) else if lt0 then some .nan else if isInf then some zero else none
    | 4 => if z then some x else if lt0 then some .nan else if isInf then some (.inf false) else none
    | 5 => if isInf then some .nan else if z then some x else none
    | 14 => if isInf then some .nan else if z then some x else none
    | 6 => if isInf then some .nan else if z then some one else none
    | 15 => if isInf then some .nan else if z then some one else none
    | 7 => if isInf then some (if neg then one.negate else one) else if z then some x else none
    | 9 => if isInf then some (if neg then one.negate else one) else if z then some x else none
    | 8 => if isInf then some (if neg then zero else one) else if z then some (.of (QR.ofRat 1 2)) else none
    | _ =>
      -- GELU and SILU
      if isInf then some (if neg then negZero else .inf false) else if z then some (p.decode (p.rne x)) else none

/-- The exact result of a shipped function is zero: log of 1, sin πx at integers, cos πx at odd
halves. -/
def sfZero (slot : Nat) (x : FV) : Bool :=
  match x with
  | .fin q _ =>
    let whole := fun (y : QR) => ((QR.ofInt y.floorInt).sub y).sign == 0
    match slot with
    | 1 => (q.sub (QR.ofInt 1)).sign == 0
    | 11 => (q.sub (QR.ofInt 1)).sign == 0
    | 14 => whole q
    | 15 => whole (q.sub (QR.ofRat 1 2))
    | _ => false
  | _ => false

/-- One result of V.SF: a special value, or the micro-program's, which for a shipped function lies within
1 ulp of the exact result (07 R290 to R293). Whether a loaded function's zero or infinity is exact is open
with the function itself. -/
def Vec.sf (v : Vec) (version slot c : Nat) : Enc :=
  let p := fpOfEw v.ew
  let x := v.dec c
  let raw := (Config.specialFunction version slot v.ew (w64 c)).toNat
  let free := raw % 2 ^ v.ew
  let fin := match x with | .fin _ _ => true | _ => false
  if slot < 16 then
    match sfSpecial p slot x, x with
    | some r, _ => ⟨p.rne r, false, false⟩
    | none, .fin q _ => v.sfEnc (p.within (sfExact slot (fxOf q)) free) fin (sfZero slot x)
    | none, _ => v.sfEnc free fin false
  else match x with
    | .nan => ⟨p.nan, false, false⟩
    | _ => v.sfEnc free (fin && !x.isZero && bit raw 63) (bit raw 62)

/-- V.SF of a slot; it is illegal at EW 64, on an empty slot, and where the micro-program does not
support the element format (07 R294). -/
def Dev.vecSf (d : Dev) (t slot : Nat) : Dev :=
  let version := (d.tile t).sfVersion
  d.vecRun3 t (0x40 + slot)
    (fun v => v.narrow && bit (d.tile t).sfLoaded slot && (decide (slot < 16) || Config.slotSupports version slot v.ew)) fun d o v =>
    d.setVec t (v.putEncs (rdOf o.word) false ((v.actives (maskedForm o.word)).map (fun i =>
      (i, v.sf version slot (elemOf v.ew (v.reg (rs1Of o.word)) i)))))

/-- V.SF EXP2 (07 R289). -/
def execVSfExp2 (t : Nat) (s : State) : Out := actUp s fun d => d.vecSf t 0
/-- V.SF LOG2 (07 R289). -/
def execVSfLog2 (t : Nat) (s : State) : Out := actUp s fun d => d.vecSf t 1
/-- V.SF RECIP (07 R289). -/
def execVSfRecip (t : Nat) (s : State) : Out := actUp s fun d => d.vecSf t 2
/-- V.SF RSQRT (07 R289). -/
def execVSfRsqrt (t : Nat) (s : State) : Out := actUp s fun d => d.vecSf t 3
/-- V.SF SQRT (07 R289). -/
def execVSfSqrt (t : Nat) (s : State) : Out := actUp s fun d => d.vecSf t 4
/-- V.SF SIN (07 R289). -/
def execVSfSin (t : Nat) (s : State) : Out := actUp s fun d => d.vecSf t 5
/-- V.SF COS (07 R289). -/
def execVSfCos (t : Nat) (s : State) : Out := actUp s fun d => d.vecSf t 6
/-- V.SF TANH (07 R289). -/
def execVSfTanh (t : Nat) (s : State) : Out := actUp s fun d => d.vecSf t 7
/-- V.SF SIGMOID (07 R289). -/
def execVSfSigmoid (t : Nat) (s : State) : Out := actUp s fun d => d.vecSf t 8
/-- V.SF ERF (07 R289). -/
def execVSfErf (t : Nat) (s : State) : Out := actUp s fun d => d.vecSf t 9
/-- V.SF EXP (07 R289). -/
def execVSfExp (t : Nat) (s : State) : Out := actUp s fun d => d.vecSf t 10
/-- V.SF LOG (07 R289). -/
def execVSfLog (t : Nat) (s : State) : Out := actUp s fun d => d.vecSf t 11
/-- V.SF GELU (07 R289). -/
def execVSfGelu (t : Nat) (s : State) : Out := actUp s fun d => d.vecSf t 12
/-- V.SF SILU (07 R289). -/
def execVSfSilu (t : Nat) (s : State) : Out := actUp s fun d => d.vecSf t 13
/-- V.SF SINPI (07 R289). -/
def execVSfSinpi (t : Nat) (s : State) : Out := actUp s fun d => d.vecSf t 14
/-- V.SF COSPI (07 R289). -/
def execVSfCospi (t : Nat) (s : State) : Out := actUp s fun d => d.vecSf t 15

/-- V.SF of a slot loaded from the image, 16 to 63 (07 R289). -/
def execVSfImageSlot (t : Nat) (s : State) : Out :=
  actUp s fun d =>
    match (d.tile t).vec.queue with
    | [] => d
    | o :: _ =>
      let slot := f7Of o.word - 0x40
      if opc o.word = 0x7B && 0x50 ≤ f7Of o.word then d.vecSf t slot else d

end Sys2Proof.Machine
end

