-- ==== Sys2Proof/Machine/Tide.lean ====
section
/-! DEFINITION. The tick (02 R59 to R64, R78) and coupled mode (02 R86 to R91; 14 R561). -/
namespace Sys2Proof.Machine

/-! ### Coupled mode (02 R86 to R91) -/

/-- COUPLED mode is in force. -/
def Dev.coupled (d : Dev) : Bool := d.get F.tideStatus_MODE_ACTIVE == 1

/-- The ports of the coupled set. -/
def Dev.coupledPorts (d : Dev) : List Nat := (List.range 6).filter (bit (d.get F.tideStatus_COUPLED_SET))

/-- The beacon of a coupled tide has arrived from every port of the set, and this node's own is sent
(02 R88). -/
def Dev.beaconsIn (d : Dev) : Bool :=
  d.sentBeacon && d.coupledPorts.all (fun p => (tget .new d.ports p).beacons.contains (d.get F.tideCoupledCount_VALUE))

/-- The timebase has reached the time of the latest tick plus the period in force (02 R59, R87). -/
def Dev.periodOver (d : Dev) : Bool := decide (d.get F.tideLastTickNs_VALUE + d.period ≤ d.now)

/-- A tide-closing item of this tide is complete: its record is written, or its slice has finished (02 R83,
R85). -/
def Dev.closed (d : Dev) (c : Nat × Nat) : Bool :=
  match d.item? c.1 c.2 with
  | none => true
  | some it => it.phase == .between

/-- Enter COUPLED: the ports of COUPLE_MASK that are up, and coupled tide 0 (02 R86). A beacon 0 that has
already arrived counts. -/
def Dev.enterCoupled (d : Dev) : Dev :=
  let set := (List.range 6).filter (fun p => bit (d.get F.tideMode_COUPLE_MASK) p && d.portUp p)
  let d := (((d.flag F.tideStatus_MODE_ACTIVE true).put F.tideStatus_COUPLED_SET ((set.map (2 ^ ·)).sum)).put F.tideCoupledCount_VALUE 0)
  (List.range 6).foldl (fun d p => d.modPort p (fun x =>
    let b := x.beacons.filter (· == 0)
    { x with beacons := b, coupledSince := d.now, joined := !b.isEmpty })) d

/-- Leave COUPLED for FREE. -/
def Dev.enterFree (d : Dev) : Dev :=
  let d := (d.flag F.tideStatus_MODE_ACTIVE false).put F.tideStatus_COUPLED_SET 0
  (List.range 6).foldl (fun d p => d.modPort p (fun x => { x with beacons := [], joined := false })) d

/-- A tick's part in coupled mode: a written TIDE_MODE takes effect, or the coupled tide number advances
(02 R63 action 7, R86). -/
def Dev.tickMode (d : Dev) : Dev :=
  if d.coupledPending then
    let d : Dev := { d with coupledPending := false }
    if d.get F.tideMode_MODE = 1 then d.enterCoupled else d.enterFree
  else if d.coupled then
    let k := d.get F.tideCoupledCount_VALUE
    (List.range 6).foldl (fun d p => d.modPort p (fun x => { x with beacons := x.beacons.filter (· != k) }))
      (d.put F.tideCoupledCount_VALUE (k + 1))
  else d

/-- A held tick is counted once, and logged at most once in 10^9 ns after the latest 0x7204 record (02 R89):
where the last slot takes the record of a full logbook (17 R650), none is written. -/
def Dev.holdTick (d : Dev) : Dev :=
  if d.heldCounted then d else
  let d := ({ d with heldCounted := true } : Dev).addWrap F.tideHeldCount_VALUE 1
  let d := d.flag F.tideStatus_HOLDING true
  let quiet := match d.log.heldLast with | some t => decide (d.now < t + 10 ^ 9) | none => false
  if d.get F.logStatus_FULL = 1 then d.addSat F.logStatus_DROPPED 1
  else if quiet then { d with log := { d.log with heldCount := d.log.heldCount + 1 } }
  else
    let n := d.log.heldCount
    let log := if d.get F.logStatus_COUNT < 4095 then { d.log with heldLast := some d.now, heldCount := 0 }
      else { d.log with heldCount := n + 1 }
    (({ d with log := log } : Dev)).logWrite 0x7204 0 n (payload [])

/-! ### The tick (02 R63) -/

/-- Released launch items without a launch yet become launches, so that their overrun is seen. -/
def Dev.makeLaunches (d : Dev) : Dev :=
  d.items.foldl (fun d it => if d.launchDue it then { d with launches := d.launches ++ [it.launchOf] } else d) d

/-- A launch not complete by the tick after its release overruns (02 R78). -/
def Dev.overrun (d : Dev) (l : Launch) : Dev :=
  if l.overran || d.allEnded l && l.start.isSome || d.get F.tideCount_VALUE ≤ l.relTide then d
  else
    ((d.modLaunch l.ring l.index (fun l => { l with overran := true, tickAfter := some d.now })).note 0x7201 (d.locLaunch l)).addWrap
      F.tideOverrunCount_VALUE 1

/-- The overruns of a tick. -/
def Dev.overruns (d : Dev) : Dev :=
  let d := d.makeLaunches
  d.launches.foldl Dev.overrun d

/-- Collective messages that waited for credit go (14 R547). -/
def Dev.pumpGroups (d : Dev) : Dev :=
  ((d.conns.filter (fun e => decide (4096 ≤ e.1) && !e.2.sendq.isEmpty)).map (·.1)).foldl
    (fun d key => d.pumpKey key ((key - 4096) / 8) 64) d

/-- Action 1: staged tables swap in. -/
def Dev.tickSwaps (d : Dev) : Dev := d.swapReroutes.swapRoutes.stageTick.swapStores.swapVf

/-- Action 4: credits are refreshed and rate windows advance. -/
def Dev.tickCredits (d : Dev) : Dev :=
  let d := d.returnCredits.connTick.pumpGroups
  let d : Dev := { d with log := { d.log with tickAt := d.now } }
  (d.log.windows.map (·.1)).foldl Dev.endWindow d

/-- The tick's new tide: its number, its time and its period (02 R59, R61, R62). -/
def Dev.newTide (d : Dev) : Dev :=
  let d : Dev := { d with period := d.nextPeriod, cutDone := false, heldCounted := false, sentBeacon := false }
  ((d.addWrap F.tideCount_VALUE 1).put F.tideLastTickNs_VALUE d.now).flag F.tideStatus_HOLDING false

/-- The actions of a tick in their order (02 R63). -/
def Dev.tick (d : Dev) (m : Telemetry) : Dev :=
  let d := d.newTide.tickSwaps
  let d := (d.latchTelemetry m).applySteps.overshoot
  let d := d.tickCredits
  let d := d.progressLines
  let d := d.msiTick.overruns.releases
  d.tickMode

/-- TICK (02 R63): the tick occurs once its time has come, after the cut, and in COUPLED mode once every
beacon is there; else a tick whose time has come is held (02 R88, R89). -/
def execTick (m : Telemetry) (s : State) : Out :=
  actUp s fun d =>
    if !(d.periodOver && (d.cutDone || d.reset.isSome)) then d
    else if d.coupled && !d.beaconsIn then d.holdTick
    else d.tick m

/-! ### Beacons -/

/-- BEACON_SEND (02 R87, 14 R561). -/
def execBeaconSend (s : State) : Out :=
  actUp s fun d =>
    if d.coupled && !d.sentBeacon && d.periodOver && d.closing.all d.closed then
      let k := d.get F.tideCoupledCount_VALUE
      let body := MsgBody.beacon k (d.get F.tidePeriodNs_PERIOD) d.node
      d.coupledPorts.foldl (fun d p =>
        d.portSend p { plainMsg (d.neighbour d.node (p / 2) (p % 2 == 1)) 0 0 body with src := d.node }) { d with sentBeacon := true }
    else d

/-- BEACON (02 R88, R91): a beacon arrives on a port that is up. -/
def execBeacon (port k periodNs node : Nat) (s : State) : Out :=
  actUp s fun d =>
    if port < 6 && d.portUp port then
      let d := d.linkReceived port (plainMsg d.node 0 0 (.beacon k periodNs node))
      let d := if periodNs = d.get F.tidePeriodNs_PERIOD then d
        else (d.flag F.tideStatus_PERIOD_MISMATCH true).note 0x7206 (locPort port)
      d.modPort port (fun x => { x with beacons := if x.beacons.contains k then x.beacons else x.beacons ++ [k], joined := true })
    else d

/-- BEACON_TIMEOUT (02 R90): an expected beacon is TIMEOUT periods late. -/
def execBeaconTimeout (port : Nat) (s : State) : Out :=
  actUp s fun d =>
    let x := tget .new d.ports port
    if d.coupled && d.coupledPorts.contains port && x.joined && !x.beacons.contains (d.get F.tideCoupledCount_VALUE) &&
        decide (d.get F.tideLastTickNs_VALUE + d.period + d.get F.tideBeaconCfg_TIMEOUT * d.period ≤ d.now) then
      d.uncouple port
    else d

/-- JOIN_TIMEOUT (02 R90): no first beacon has arrived within JOIN_LIMIT_MS of entering COUPLED. -/
def execJoinTimeout (port : Nat) (s : State) : Out :=
  actUp s fun d =>
    let x := tget .new d.ports port
    if d.coupled && d.coupledPorts.contains port && !x.joined &&
        decide (x.coupledSince + d.get F.tideBeaconCfg_JOIN_LIMIT_MS * 10 ^ 6 ≤ d.now) then
      d.uncouple port
    else d

end Sys2Proof.Machine
end

