-- ==== Sys2Proof/Machine/Dispatch.lean ====
section
/-! DEFINITION. One arm for each command of spec/opcode_table.json. -/
namespace Sys2Proof.Machine

/-- The effect of a command on everything but the queue. -/
def exec (i : Instr) (s : State) : Host.Outcome State Fault Refusal :=
  match i with
  | .tick m => Sys2Proof.Machine.execTick m s
  | .admissionCut => Sys2Proof.Machine.execAdmissionCut s
  | .overrunStop ring index => Sys2Proof.Machine.execOverrunStop ring index s
  | .beaconSend => Sys2Proof.Machine.execBeaconSend s
  | .beacon port k periodNs node => Sys2Proof.Machine.execBeacon port k periodNs node s
  | .beaconTimeout port => Sys2Proof.Machine.execBeaconTimeout port s
  | .joinTimeout port => Sys2Proof.Machine.execJoinTimeout port s
  | .launchStart ring index => Sys2Proof.Machine.execLaunchStart ring index s
  | .tileEnd t => Sys2Proof.Machine.execTileEnd t s
  | .launchComplete ring index => Sys2Proof.Machine.execLaunchComplete ring index s
  | .sliceComplete ring index => Sys2Proof.Machine.execSliceComplete ring index s
  | .recordWrite ring index => Sys2Proof.Machine.execRecordWrite ring index s
  | .bellLineWake ring => Sys2Proof.Machine.execBellLineWake ring s
  | .descriptorFetch ring => Sys2Proof.Machine.execDescriptorFetch ring s
  | .slotRecheck ring => Sys2Proof.Machine.execSlotRecheck ring s
  | .ringEnable hart ring value => Sys2Proof.Machine.execRingEnable hart ring value s
  | .ringDisable hart ring value => Sys2Proof.Machine.execRingDisable hart ring value s
  | .fenceRing ring index => Sys2Proof.Machine.execFenceRing ring index s
  | .fenceContext ring index => Sys2Proof.Machine.execFenceContext ring index s
  | .launchTiles ring index => Sys2Proof.Machine.execLaunchTiles ring index s
  | .launchGangs ring index => Sys2Proof.Machine.execLaunchGangs ring index s
  | .move ring index => Sys2Proof.Machine.execMove ring index s
  | .inlineWrite ring index => Sys2Proof.Machine.execInlineWrite ring index s
  | .signalAdd ring index => Sys2Proof.Machine.execSignalAdd ring index s
  | .signalSet ring index => Sys2Proof.Machine.execSignalSet ring index s
  | .wait ring index => Sys2Proof.Machine.execWait ring index s
  | .hintMatrixHeavy ring index => Sys2Proof.Machine.execHintMatrixHeavy ring index s
  | .hintMemoryHeavy ring index => Sys2Proof.Machine.execHintMemoryHeavy ring index s
  | .hintLinkHeavy ring index => Sys2Proof.Machine.execHintLinkHeavy ring index s
  | .hintIdle ring index => Sys2Proof.Machine.execHintIdle ring index s
  | .segInvalWhole ring index => Sys2Proof.Machine.execSegInvalWhole ring index s
  | .segInvalRange ring index => Sys2Proof.Machine.execSegInvalRange ring index s
  | .segInvalDrained ring index => Sys2Proof.Machine.execSegInvalDrained ring index s
  | .remotePut ring index => Sys2Proof.Machine.execRemotePut ring index s
  | .remoteGet ring index => Sys2Proof.Machine.execRemoteGet ring index s
  | .remoteAtomic ring index => Sys2Proof.Machine.execRemoteAtomic ring index s
  | .allReduce ring index => Sys2Proof.Machine.execAllReduce ring index s
  | .reduceScatter ring index => Sys2Proof.Machine.execReduceScatter ring index s
  | .allGather ring index => Sys2Proof.Machine.execAllGather ring index s
  | .broadcast ring index => Sys2Proof.Machine.execBroadcast ring index s
  | .convert ring index => Sys2Proof.Machine.execConvert ring index s
  | .craneGather ring index => Sys2Proof.Machine.execCraneGather ring index s
  | .craneBagsum ring index => Sys2Proof.Machine.execCraneBagsum ring index s
  | .craneScatterAdd ring index => Sys2Proof.Machine.execCraneScatterAdd ring index s
  | .stream ring index => Sys2Proof.Machine.execStream ring index s
  | .sparse28 ring index => Sys2Proof.Machine.execSparse28 ring index s
  | .sortAsc ring index => Sys2Proof.Machine.execSortAsc ring index s
  | .sortDesc ring index => Sys2Proof.Machine.execSortDesc ring index s
  | .topkMax ring index => Sys2Proof.Machine.execTopkMax ring index s
  | .topkMin ring index => Sys2Proof.Machine.execTopkMin ring index s
  | .fft ring index => Sys2Proof.Machine.execFft ring index s
  | .randomU32 ring index => Sys2Proof.Machine.execRandomU32 ring index s
  | .randomU64 ring index => Sys2Proof.Machine.execRandomU64 ring index s
  | .uniformF32 ring index => Sys2Proof.Machine.execUniformF32 ring index s
  | .uniformF64 ring index => Sys2Proof.Machine.execUniformF64 ring index s
  | .normalF32 ring index => Sys2Proof.Machine.execNormalF32 ring index s
  | .bernoulli ring index => Sys2Proof.Machine.execBernoulli ring index s
  | .sha3256 ring index => Sys2Proof.Machine.execSha3256 ring index s
  | .crc32c ring index => Sys2Proof.Machine.execCrc32c ring index s
  | .blockmax ring index => Sys2Proof.Machine.execBlockmax ring index s
  | .anchor ring index => Sys2Proof.Machine.execAnchor ring index s
  | .hist ring index => Sys2Proof.Machine.execHist ring index s
  | .craneFence deck kind => Sys2Proof.Machine.execCraneFence deck kind s
  | .axpy ring index => Sys2Proof.Machine.execAxpy ring index s
  | .scale ring index => Sys2Proof.Machine.execScale ring index s
  | .reduceAdd ring index => Sys2Proof.Machine.execReduceAdd ring index s
  | .optimMomentum ring index => Sys2Proof.Machine.execOptimMomentum ring index s
  | .optimAdaptive ring index => Sys2Proof.Machine.execOptimAdaptive ring index s
  | .optimFactored ring index => Sys2Proof.Machine.execOptimFactored ring index s
  | .optimLoadedSlot ring index => Sys2Proof.Machine.execOptimLoadedSlot ring index s
  | .wharfGather ring index => Sys2Proof.Machine.execWharfGather ring index s
  | .wharfBagsum ring index => Sys2Proof.Machine.execWharfBagsum ring index s
  | .wharfScatterAdd ring index => Sys2Proof.Machine.execWharfScatterAdd ring index s
  | .fill ring index => Sys2Proof.Machine.execFill ring index s
  | .copy ring index => Sys2Proof.Machine.execCopy ring index s
  | .waveReadPhase ring index stack wave => Sys2Proof.Machine.execWaveReadPhase ring index stack wave s
  | .waveWritePhase ring index stack wave => Sys2Proof.Machine.execWaveWritePhase ring index stack wave s
  | .wharfFence stack => Sys2Proof.Machine.execWharfFence stack s
  | .farAdd a => Sys2Proof.Machine.execFarAdd a s
  | .farFadd a => Sys2Proof.Machine.execFarFadd a s
  | .farMin a => Sys2Proof.Machine.execFarMin a s
  | .farMax a => Sys2Proof.Machine.execFarMax a s
  | .farMinu a => Sys2Proof.Machine.execFarMinu a s
  | .farMaxu a => Sys2Proof.Machine.execFarMaxu a s
  | .farAnd a => Sys2Proof.Machine.execFarAnd a s
  | .farOr a => Sys2Proof.Machine.execFarOr a s
  | .farXor a => Sys2Proof.Machine.execFarXor a s
  | .farSwap a => Sys2Proof.Machine.execFarSwap a s
  | .farCas a => Sys2Proof.Machine.execFarCas a s
  | .warehouseAdd a => Sys2Proof.Machine.execWarehouseAdd a s
  | .warehouseFadd a => Sys2Proof.Machine.execWarehouseFadd a s
  | .warehouseMinMax op a => Sys2Proof.Machine.execWarehouseMinMax op a s
  | .warehouseAndOrXor op a => Sys2Proof.Machine.execWarehouseAndOrXor op a s
  | .warehouseSwap a => Sys2Proof.Machine.execWarehouseSwap a s
  | .warehouseCas a => Sys2Proof.Machine.execWarehouseCas a s
  | .raddH16F32 a => Sys2Proof.Machine.execRaddH16F32 a s
  | .raddT128 a hi lo => Sys2Proof.Machine.execRaddT128 a hi lo s
  | .poolAccess a => Sys2Proof.Machine.execPoolAccess a s
  | .warehouseAccess deck bank cranes a => Sys2Proof.Machine.execWarehouseAccess deck bank cranes a s
  | .localMemoryAccess t bank input a => Sys2Proof.Machine.execLocalMemoryAccess t bank input a s
  | .bankWatchdogReset bank => Sys2Proof.Machine.execBankWatchdogReset bank s
  | .rowSpare row => Sys2Proof.Machine.execRowSpare row s
  | .patrolScrub unit addr ecc => Sys2Proof.Machine.execPatrolScrub unit addr ecc s
  | .scrubPassDone unit => Sys2Proof.Machine.execScrubPassDone unit s
  | .scrubLate unit => Sys2Proof.Machine.execScrubLate unit s
  | .transitFill lc line f => Sys2Proof.Machine.execTransitFill lc line f s
  | .segmentDescriptorLoad holder ctx seg => Sys2Proof.Machine.execSegmentDescriptorLoad holder ctx seg s
  | .pageWalk holder ctx seg page => Sys2Proof.Machine.execPageWalk holder ctx seg page s
  | .teardown hart ctx => Sys2Proof.Machine.execTeardown hart ctx s
  | .ctxTeardownDone ctx => Sys2Proof.Machine.execCtxTeardownDone ctx s
  | .ccLoad t => Sys2Proof.Machine.execCcLoad t s
  | .ccStore t => Sys2Proof.Machine.execCcStore t s
  | .ccAmo t => Sys2Proof.Machine.execCcAmo t s
  | .ccLrSc t => Sys2Proof.Machine.execCcLrSc t s
  | .ccFence t => Sys2Proof.Machine.execCcFence t s
  | .ccFenceI t => Sys2Proof.Machine.execCcFenceI t s
  | .ecall t => Sys2Proof.Machine.execEcall t s
  | .ebreak t => Sys2Proof.Machine.execEbreak t s
  | .xMma t => Sys2Proof.Machine.execXMma t s
  | .matrixJobStart t seq => Sys2Proof.Machine.execMatrixJobStart t seq s
  | .matrixJobComplete t seq => Sys2Proof.Machine.execMatrixJobComplete t seq s
  | .xWait t => Sys2Proof.Machine.execXWait t s
  | .xStatCounts t => Sys2Proof.Machine.execXStatCounts t s
  | .xStatProgress t => Sys2Proof.Machine.execXStatProgress t s
  | .xStatState t => Sys2Proof.Machine.execXStatState t s
  | .vAdd t => Sys2Proof.Machine.execVAdd t s
  | .vSub t => Sys2Proof.Machine.execVSub t s
  | .vMul t => Sys2Proof.Machine.execVMul t s
  | .vMin t => Sys2Proof.Machine.execVMin t s
  | .vMax t => Sys2Proof.Machine.execVMax t s
  | .vMinu t => Sys2Proof.Machine.execVMinu t s
  | .vMaxu t => Sys2Proof.Machine.execVMaxu t s
  | .vAnd t => Sys2Proof.Machine.execVAnd t s
  | .vOr t => Sys2Proof.Machine.execVOr t s
  | .vXor t => Sys2Proof.Machine.execVXor t s
  | .vSll t => Sys2Proof.Machine.execVSll t s
  | .vSrl t => Sys2Proof.Machine.execVSrl t s
  | .vSra t => Sys2Proof.Machine.execVSra t s
  | .vMov t => Sys2Proof.Machine.execVMov t s
  | .vSel t => Sys2Proof.Machine.execVSel t s
  | .vFadd t => Sys2Proof.Machine.execVFadd t s
  | .vFsub t => Sys2Proof.Machine.execVFsub t s
  | .vFmul t => Sys2Proof.Machine.execVFmul t s
  | .vFma t => Sys2Proof.Machine.execVFma t s
  | .vFnms t => Sys2Proof.Machine.execVFnms t s
  | .vFmin t => Sys2Proof.Machine.execVFmin t s
  | .vFmax t => Sys2Proof.Machine.execVFmax t s
  | .vFdiv t => Sys2Proof.Machine.execVFdiv t s
  | .vFabs t => Sys2Proof.Machine.execVFabs t s
  | .vFneg t => Sys2Proof.Machine.execVFneg t s
  | .vCmpeq t => Sys2Proof.Machine.execVCmpeq t s
  | .vCmplt t => Sys2Proof.Machine.execVCmplt t s
  | .vCmpltu t => Sys2Proof.Machine.execVCmpltu t s
  | .vFcmpeq t => Sys2Proof.Machine.execVFcmpeq t s
  | .vFcmplt t => Sys2Proof.Machine.execVFcmplt t s
  | .vFcmple t => Sys2Proof.Machine.execVFcmple t s
  | .vMand t => Sys2Proof.Machine.execVMand t s
  | .vMor t => Sys2Proof.Machine.execVMor t s
  | .vMxor t => Sys2Proof.Machine.execVMxor t s
  | .vMnot t => Sys2Proof.Machine.execVMnot t s
  | .vMmv t => Sys2Proof.Machine.execVMmv t s
  | .vCvtif t => Sys2Proof.Machine.execVCvtif t s
  | .vCvtfi t => Sys2Proof.Machine.execVCvtfi t s
  | .vCvtff t => Sys2Proof.Machine.execVCvtff t s
  | .vRedrow t => Sys2Proof.Machine.execVRedrow t s
  | .vRedcol t => Sys2Proof.Machine.execVRedcol t s
  | .vSumx t => Sys2Proof.Machine.execVSumx t s
  | .vMaxx t => Sys2Proof.Machine.execVMaxx t s
  | .vAny t => Sys2Proof.Machine.execVAny t s
  | .vAll t => Sys2Proof.Machine.execVAll t s
  | .vSeta t => Sys2Proof.Machine.execVSeta t s
  | .vCnt t => Sys2Proof.Machine.execVCnt t s
  | .vSeed t => Sys2Proof.Machine.execVSeed t s
  | .vSetl t => Sys2Proof.Machine.execVSetl t s
  | .vLd t => Sys2Proof.Machine.execVLd t s
  | .vSt t => Sys2Proof.Machine.execVSt t s
  | .vLdx t => Sys2Proof.Machine.execVLdx t s
  | .vStx t => Sys2Proof.Machine.execVStx t s
  | .vOcld t => Sys2Proof.Machine.execVOcld t s
  | .vOcev t => Sys2Proof.Machine.execVOcev t s
  | .vLut t => Sys2Proof.Machine.execVLut t s
  | .vLutld t => Sys2Proof.Machine.execVLutld t s
  | .vNorm t => Sys2Proof.Machine.execVNorm t s
  | .vSmexp t => Sys2Proof.Machine.execVSmexp t s
  | .vSmdiv t => Sys2Proof.Machine.execVSmdiv t s
  | .vSfExp2 t => Sys2Proof.Machine.execVSfExp2 t s
  | .vSfLog2 t => Sys2Proof.Machine.execVSfLog2 t s
  | .vSfRecip t => Sys2Proof.Machine.execVSfRecip t s
  | .vSfRsqrt t => Sys2Proof.Machine.execVSfRsqrt t s
  | .vSfSqrt t => Sys2Proof.Machine.execVSfSqrt t s
  | .vSfSin t => Sys2Proof.Machine.execVSfSin t s
  | .vSfCos t => Sys2Proof.Machine.execVSfCos t s
  | .vSfTanh t => Sys2Proof.Machine.execVSfTanh t s
  | .vSfSigmoid t => Sys2Proof.Machine.execVSfSigmoid t s
  | .vSfErf t => Sys2Proof.Machine.execVSfErf t s
  | .vSfExp t => Sys2Proof.Machine.execVSfExp t s
  | .vSfLog t => Sys2Proof.Machine.execVSfLog t s
  | .vSfGelu t => Sys2Proof.Machine.execVSfGelu t s
  | .vSfSilu t => Sys2Proof.Machine.execVSfSilu t s
  | .vSfSinpi t => Sys2Proof.Machine.execVSfSinpi t s
  | .vSfCospi t => Sys2Proof.Machine.execVSfCospi t s
  | .vSfImageSlot t => Sys2Proof.Machine.execVSfImageSlot t s
  | .gBar t => Sys2Proof.Machine.execGBar t s
  | .gYield t => Sys2Proof.Machine.execGYield t s
  | .gExit t => Sys2Proof.Machine.execGExit t s
  | .gVoteAny t => Sys2Proof.Machine.execGVoteAny t s
  | .gVoteAll t => Sys2Proof.Machine.execGVoteAll t s
  | .gVoteBallot t => Sys2Proof.Machine.execGVoteBallot t s
  | .gShfl t => Sys2Proof.Machine.execGShfl t s
  | .gShflF t => Sys2Proof.Machine.execGShflF t s
  | .uGet t => Sys2Proof.Machine.execUGet t s
  | .uPut t => Sys2Proof.Machine.execUPut t s
  | .uAdd t => Sys2Proof.Machine.execUAdd t s
  | .uSub t => Sys2Proof.Machine.execUSub t s
  | .uAnd t => Sys2Proof.Machine.execUAnd t s
  | .uOr t => Sys2Proof.Machine.execUOr t s
  | .uXor t => Sys2Proof.Machine.execUXor t s
  | .uSll t => Sys2Proof.Machine.execUSll t s
  | .uSrl t => Sys2Proof.Machine.execUSrl t s
  | .uSra t => Sys2Proof.Machine.execUSra t s
  | .uSlt t => Sys2Proof.Machine.execUSlt t s
  | .uSltu t => Sys2Proof.Machine.execUSltu t s
  | .uMul t => Sys2Proof.Machine.execUMul t s
  | .uAddi t => Sys2Proof.Machine.execUAddi t s
  | .uBeq t => Sys2Proof.Machine.execUBeq t s
  | .uBne t => Sys2Proof.Machine.execUBne t s
  | .uBlt t => Sys2Proof.Machine.execUBlt t s
  | .uBge t => Sys2Proof.Machine.execUBge t s
  | .gAmoAdd t => Sys2Proof.Machine.execGAmoAdd t s
  | .gAmoFadd t => Sys2Proof.Machine.execGAmoFadd t s
  | .gAmoMin t => Sys2Proof.Machine.execGAmoMin t s
  | .gAmoMax t => Sys2Proof.Machine.execGAmoMax t s
  | .gAmoMinu t => Sys2Proof.Machine.execGAmoMinu t s
  | .gAmoMaxu t => Sys2Proof.Machine.execGAmoMaxu t s
  | .gAmoAnd t => Sys2Proof.Machine.execGAmoAnd t s
  | .gAmoOr t => Sys2Proof.Machine.execGAmoOr t s
  | .gAmoXor t => Sys2Proof.Machine.execGAmoXor t s
  | .gAmoSwap t => Sys2Proof.Machine.execGAmoSwap t s
  | .gAmoCas t => Sys2Proof.Machine.execGAmoCas t s
  | .threadLrSc t => Sys2Proof.Machine.execThreadLrSc t s
  | .threadMemoryAccess t => Sys2Proof.Machine.execThreadMemoryAccess t s
  | .gangSwapOut t gang => Sys2Proof.Machine.execGangSwapOut t gang s
  | .gangSwapIn t => Sys2Proof.Machine.execGangSwapIn t s
  | .scrub ring index r => Sys2Proof.Machine.execScrub ring index r s
  | .hbmRetrain ring index r => Sys2Proof.Machine.execHbmRetrain ring index r s
  | .d2dRetrain ring index r => Sys2Proof.Machine.execD2dRetrain ring index r s
  | .laneRecal ring index r => Sys2Proof.Machine.execLaneRecal ring index r s
  | .ageing ring index r => Sys2Proof.Machine.execAgeing ring index r s
  | .flashWrite ring index r => Sys2Proof.Machine.execFlashWrite ring index r s
  | .secureErase ring index r => Sys2Proof.Machine.execSecureErase ring index r s
  | .logExport ring index r => Sys2Proof.Machine.execLogExport ring index r s
  | .spareTest ring index r => Sys2Proof.Machine.execSpareTest ring index r s
  | .repair ring index r => Sys2Proof.Machine.execRepair ring index r s
  | .pageRetire ring index r => Sys2Proof.Machine.execPageRetire ring index r s
  | .ledgerClear ring index r => Sys2Proof.Machine.execLedgerClear ring index r s
  | .attest ring index r => Sys2Proof.Machine.execAttest ring index r s
  | .moduleTrainingDone link far module width => Sys2Proof.Machine.execModuleTrainingDone link far module width s
  | .widthExchange link => Sys2Proof.Machine.execWidthExchange link s
  | .d2dLinkDown link => Sys2Proof.Machine.execD2dLinkDown link s
  | .hostLinkTimeout => Sys2Proof.Machine.execHostLinkTimeout s
  | .portTrainingDone port r => Sys2Proof.Machine.execPortTrainingDone port r s
  | .laneSpare port lane => Sys2Proof.Machine.execLaneSpare port lane s
  | .portDown port cause => Sys2Proof.Machine.execPortDown port cause s
  | .laserModuleFault port status => Sys2Proof.Machine.execLaserModuleFault port status s
  | .linkRetry port seq => Sys2Proof.Machine.execLinkRetry port seq s
  | .oeFiltered port kind => Sys2Proof.Machine.execOeFiltered port kind s
  | .messageForward port msg => Sys2Proof.Machine.execMessageForward port msg s
  | .put port msg => Sys2Proof.Machine.execPut port msg s
  | .getReq port msg => Sys2Proof.Machine.execGetReq port msg s
  | .getData port msg => Sys2Proof.Machine.execGetData port msg s
  | .atomicReq port msg => Sys2Proof.Machine.execAtomicReq port msg s
  | .atomicResp port msg => Sys2Proof.Machine.execAtomicResp port msg s
  | .ack port msg => Sys2Proof.Machine.execAck port msg s
  | .openMsg port msg => Sys2Proof.Machine.execOpenMsg port msg s
  | .openAck port msg => Sys2Proof.Machine.execOpenAck port msg s
  | .close port msg => Sys2Proof.Machine.execClose port msg s
  | .collData port msg => Sys2Proof.Machine.execCollData port msg s
  | .collSync port msg => Sys2Proof.Machine.execCollSync port msg s
  | .linkNotice port msg => Sys2Proof.Machine.execLinkNotice port msg s
  | .retransmitTimeout conn => Sys2Proof.Machine.execRetransmitTimeout conn s
  | .collTimeout ring index => Sys2Proof.Machine.execCollTimeout ring index s
  | .connOpen hart conn => Sys2Proof.Machine.execConnOpen hart conn s
  | .connClose hart conn => Sys2Proof.Machine.execConnClose hart conn s
  | .routeSwap hart dims => Sys2Proof.Machine.execRouteSwap hart dims s
  | .retrain hart port laser => Sys2Proof.Machine.execRetrain hart port laser s
  | .disable hart port => Sys2Proof.Machine.execDisable hart port s
  | .lockkeeperDecision d => Sys2Proof.Machine.execLockkeeperDecision d s
  | .pmbAlert rail off status => Sys2Proof.Machine.execPmbAlert rail off status s
  | .droopDetected lc => Sys2Proof.Machine.execDroopDetected lc s
  | .droopRelease lc => Sys2Proof.Machine.execDroopRelease lc s
  | .ageingUpdate offsets => Sys2Proof.Machine.execAgeingUpdate offsets s
  | .thermalTrip locator celsius => Sys2Proof.Machine.execThermalTrip locator celsius s
  | .capNowAssert pulseNs => Sys2Proof.Machine.execCapNowAssert pulseNs s
  | .capNowDeassert => Sys2Proof.Machine.execCapNowDeassert s
  | .pkgPorNAssert => Sys2Proof.Machine.execPkgPorNAssert s
  | .pkgPorNDeassert => Sys2Proof.Machine.execPkgPorNDeassert s
  | .identitySweep r => Sys2Proof.Machine.execIdentitySweep r s
  | .imageVerification readError => Sys2Proof.Machine.execImageVerification readError s
  | .bringUp r => Sys2Proof.Machine.execBringUp r s
  | .hostRelease => Sys2Proof.Machine.execHostRelease s
  | .devWarm => Sys2Proof.Machine.execDevWarm s
  | .pkgCold => Sys2Proof.Machine.execPkgCold s
  | .hubWdtExpiry channel => Sys2Proof.Machine.execHubWdtExpiry channel s
  | .computeDieFence ld cause => Sys2Proof.Machine.execComputeDieFence ld cause s
  | .unitReset hart locator => Sys2Proof.Machine.execUnitReset hart locator s
  | .portReset hart locator slot => Sys2Proof.Machine.execPortReset hart locator slot s
  | .clusterGate lc => Sys2Proof.Machine.execClusterGate lc s
  | .clusterUngate lc => Sys2Proof.Machine.execClusterUngate lc s
  | .deckRetentionEnter deck => Sys2Proof.Machine.execDeckRetentionEnter deck s
  | .deckRetentionExit deck tookUs => Sys2Proof.Machine.execDeckRetentionExit deck tookUs s
  | .pkgIdleEnter => Sys2Proof.Machine.execPkgIdleEnter s
  | .pkgIdleExit cause tookUs => Sys2Proof.Machine.execPkgIdleExit cause tookUs s
  | .hostCmdReset hart => Sys2Proof.Machine.execHostCmdReset hart s
  | .hostDieInternalError => Sys2Proof.Machine.execHostDieInternalError s
  | .hostResetQuiescent => Sys2Proof.Machine.execHostResetQuiescent s
  | .resume hart => Sys2Proof.Machine.execResume hart s
  | .gets agent line => Sys2Proof.Machine.execGets agent line s
  | .getm agent line => Sys2Proof.Machine.execGetm agent line s
  | .claim agent line => Sys2Proof.Machine.execClaim agent line s
  | .look agent line => Sys2Proof.Machine.execLook agent line s
  | .putfull agent line data => Sys2Proof.Machine.execPutfull agent line data s
  | .atomichome agent pa size op operand compare => Sys2Proof.Machine.execAtomichome agent pa size op operand compare s
  | .clean agent line => Sys2Proof.Machine.execClean agent line s
  | .purge agent line => Sys2Proof.Machine.execPurge agent line s
  | .discard agent line => Sys2Proof.Machine.execDiscard agent line s
  | .probeshare agent line => Sys2Proof.Machine.execProbeshare agent line s
  | .probetake agent line => Sys2Proof.Machine.execProbetake agent line s
  | .probeclean agent line => Sys2Proof.Machine.execProbeclean agent line s
  | .probedrop agent line => Sys2Proof.Machine.execProbedrop agent line s
  | .retire agent line => Sys2Proof.Machine.execRetire agent line s
  | .yield agent line => Sys2Proof.Machine.execYield agent line s
  | .snoopResponse agent line => Sys2Proof.Machine.execSnoopResponse agent line s
  | .snoopData agent line => Sys2Proof.Machine.execSnoopData agent line s
  | .cboClean hart pa => Sys2Proof.Machine.execCboClean hart pa s
  | .cboFlush hart pa => Sys2Proof.Machine.execCboFlush hart pa s
  | .cboInval hart pa permitted => Sys2Proof.Machine.execCboInval hart pa permitted s
  | .hostAtomic hart op size cacheable pa operand compare => Sys2Proof.Machine.execHostAtomic hart op size cacheable pa operand compare s
  | .hostLoad hart pa size kind cacheable => Sys2Proof.Machine.execHostLoad hart pa size kind cacheable s
  | .hostStore hart pa size kind cacheable value => Sys2Proof.Machine.execHostStore hart pa size kind cacheable value s
  | .inboundRequest port requester addr len write => Sys2Proof.Machine.execInboundRequest port requester addr len write s
  | .flashAcquire hart => Sys2Proof.Machine.execFlashAcquire hart s
  | .flashRelease hart => Sys2Proof.Machine.execFlashRelease hart s
  | .debugLock hart => Sys2Proof.Machine.execDebugLock hart s
  | .stageMp hart => Sys2Proof.Machine.execStageMp hart s
  | .newNonce hart => Sys2Proof.Machine.execNewNonce hart s
  | .debugUnlock chan token => Sys2Proof.Machine.execDebugUnlock chan token s
  | .logClear chan token => Sys2Proof.Machine.execLogClear chan token s
  | .ownerEnrol chan token => Sys2Proof.Machine.execOwnerEnrol chan token s
  | .ownerRevoke chan token => Sys2Proof.Machine.execOwnerRevoke chan token s
  | .ownerOnly chan token => Sys2Proof.Machine.execOwnerOnly chan token s
  | .getNonce => Sys2Proof.Machine.execGetNonce s
  | .getEvidence nonce => Sys2Proof.Machine.execGetEvidence nonce s
  | .regRead offset => Sys2Proof.Machine.execRegRead offset s
  | .regWrite offset value => Sys2Proof.Machine.execRegWrite offset value s
  | .reset kind => Sys2Proof.Machine.execReset kind s
  | .hostReset => Sys2Proof.Machine.execHostReset s
  | .retry => Sys2Proof.Machine.execRetry s
  | .alertAck => Sys2Proof.Machine.execAlertAck s
  | .ledgerArmExpiry => Sys2Proof.Machine.execLedgerArmExpiry s
  | .logIndexWrite hart value => Sys2Proof.Machine.execLogIndexWrite hart value s
  | .hmEventValueWrite hart value => Sys2Proof.Machine.execHmEventValueWrite hart value s
  | .rateWindowEnd code => Sys2Proof.Machine.execRateWindowEnd code s
  | .vaultMirror ok => Sys2Proof.Machine.execVaultMirror ok s
  | .ledgerFlashWrite ok => Sys2Proof.Machine.execLedgerFlashWrite ok s
  | .registerWrite hart offset value => Sys2Proof.Machine.execRegisterWrite hart offset value s
  | .lossOfPower => Sys2Proof.Machine.execLossOfPower s
  | .controlCoreInstruction turn => Sys2Proof.Machine.execControlCoreInstruction turn s
  | .gangThreadInstruction turn => Sys2Proof.Machine.execGangThreadInstruction turn s
  | .hostDieLeavesReset => Sys2Proof.Machine.execHostDieLeavesReset s

end Sys2Proof.Machine
end

