-- ==== Sys2Proof/Safety.lean ====
section
/-! DEFINITION. The words in which the claims are made: when a unit can take commands, what it is for a
command to complete with a given device, and the tables of commands of one shape with what the manual
gives each. -/
namespace Sys2Proof.Machine

/-! ### Commands and their outcomes -/

/-- The clocks run and the device has been released, so that its units act (15 R572, 16 R593). -/
def Up (s : State) : Prop := s.dev.clocked = true ∧ s.dev.ticking = true

/-- The command completes: it leaves the device `d`, memory in canonical form, and the queue as it was. -/
def Does (c : Instr) (s : State) (d : Dev) : Prop := exec c s = .next { s with dev := d.settle }

/-- The item of a ring and index is in hand: released and not yet ended. -/
def InHand (s : State) (ring index : Nat) (it : Item) : Prop :=
  s.dev.item? ring index = some it ∧ it.phase = .released

/-- Commands that act on the board's pins and supplies, which no clock gates (15 R572, R587; 19 R688). -/
def pinCommand : Instr → Bool
  | .pkgPorNAssert | .pkgPorNDeassert | .lossOfPower | .capNowAssert _ | .capNowDeassert | .thermalTrip _ _ => true
  | _ => false

/-- Commands of the pilot, the board and the links that a device takes before its release (16 R593, R594;
17 R652; 18 R672). -/
def earlyCommand : Instr → Bool
  | .regRead _ | .regWrite _ _ | .reset _ | .alertAck | .identitySweep _ | .imageVerification _ | .bringUp _
  | .hostRelease | .hostReset | .retry | .moduleTrainingDone _ _ _ _ | .widthExchange _ | .droopDetected _
  | .droopRelease _ | .pmbAlert _ _ _ | .hubWdtExpiry _ | .ledgerArmExpiry | .ledgerFlashWrite _ | .rateWindowEnd _
  | .vaultMirror _ | .debugUnlock _ _ | .logClear _ _ | .ownerEnrol _ _ | .ownerRevoke _ _ | .ownerOnly _ _
  | .getNonce | .getEvidence _ => true
  | c => pinCommand c

/-! ### Vector instructions (07) -/

/-- The device once the instruction at the head of a tile's vector queue has been taken. -/
def Dev.vecTaken (d : Dev) (t : Nat) : Dev :=
  d.modTile t (fun x => { x with vec := { x.vec with queue := x.vec.queue.drop 1 } })

/-- The vector engine an instruction acts on. -/
def vecAt (s : State) (t : Nat) : Vec := ((s.dev.vecTaken t).tile t).vec

/-- The instruction `o` of an operation, in an encoding that a chapter assigns (05 R216), is at the head of a
running tile's queue, VL is not 0 and EW is one of its three widths. -/
def VecReady (s : State) (t : Nat) (key : Nat × Nat) (o : VecOp) : Prop :=
  Up s ∧ s.dev.vecHead t key = some o ∧ vecLegal o.word = true ∧ (vecAt s t).vl ≠ 0 ∧ [16, 32, 64].contains (vecAt s t).ew = true

/-- `w` is `v` but for the chosen elements of one vector register, and, in the fields that `put` names,
for counts and rounding state. -/
def Rewrites (v w : Vec) (r : Nat) (sel : Nat → Bool) (f : Nat → Nat) : Prop :=
  (∀ i, i < vlmax v.ew → elemOf v.ew (w.reg r) i = if sel i then f i % 2 ^ v.ew else elemOf v.ew (v.reg r) i) ∧
  (∀ q, q ≠ r → w.reg q = v.reg q) ∧ w.m = v.m

/-- Element-wise integer instructions: the command, its OP, and the element it writes, modulo 2^EW, from the
element width, the element of vs2 and that of src (07 R265). -/
def vecIntOps : List ((Nat → Instr) × Nat × (Nat → Nat → Nat → Nat)) :=
  [(.vAdd, 0x00, fun _ a b => a + b),
   (.vSub, 0x01, fun ew a b => ofInt ew ((a : Int) - (b : Int))),
   (.vMul, 0x02, fun _ a b => a * b),
   (.vMin, 0x03, fun ew a b => ofInt ew (min (toInt ew a) (toInt ew b))),
   (.vMax, 0x04, fun ew a b => ofInt ew (max (toInt ew a) (toInt ew b))),
   (.vMinu, 0x05, fun _ a b => min a b),
   (.vMaxu, 0x06, fun _ a b => max a b),
   (.vAnd, 0x07, fun _ a b => a &&& b),
   (.vOr, 0x08, fun _ a b => a ||| b),
   (.vXor, 0x09, fun _ a b => a ^^^ b),
   (.vSll, 0x0A, fun ew a b => a <<< (b % ew)),
   (.vSrl, 0x0B, fun ew a b => a >>> (b % ew)),
   (.vSra, 0x0C, fun ew a b => ofInt ew (toInt ew a / 2 ^ (b % ew))),
   (.vMov, 0x0D, fun _ _ b => b),
   (.vFabs, 0x18, fun ew _ b => b % 2 ^ (ew - 1)),
   (.vFneg, 0x19, fun ew _ b => b ^^^ 2 ^ (ew - 1))]

/-- Element-wise float instructions: the command, its OP and the exact value that is rounded, from the
values of vs2, src and vd (07 R265, R269). -/
def vecFloatOps : List ((Nat → Instr) × Nat × (FV → FV → FV → FV)) :=
  [(.vFadd, 0x10, fun a b _ => a.add b),
   (.vFsub, 0x11, fun a b _ => a.add b.negate),
   (.vFmul, 0x12, fun a b _ => a.mul b),
   (.vFma, 0x13, fun a b c => (a.mul b).add c),
   (.vFnms, 0x14, fun a b c => c.add (a.mul b).negate),
   (.vFdiv, 0x17, fun a b _ => a.div b)]

/-- Comparisons: the command, its OP and the bit from the engine's width and two elements (07 R265). -/
def vecCmpOps : List ((Nat → Instr) × Nat × (Vec → Nat → Nat → Bool)) :=
  [(.vCmpeq, 0x20, fun _ a b => a == b),
   (.vCmplt, 0x21, fun v a b => decide (toInt v.ew a < toInt v.ew b)),
   (.vCmpltu, 0x22, fun _ a b => decide (a < b)),
   (.vFcmpeq, 0x23, fun v a b => (v.dec a).eq (v.dec b)),
   (.vFcmplt, 0x24, fun v a b => (v.dec a).lt (v.dec b)),
   (.vFcmple, 0x25, fun v a b => (v.dec a).lt (v.dec b) || (v.dec a).eq (v.dec b))]

/-- Mask instructions: the command, its OP, and the bit from those of vs2 and vs1 (07 R265). -/
def vecMaskOps : List ((Nat → Instr) × Nat × (Bool → Bool → Bool)) :=
  [(.vMand, 0x28, fun a b => a && b),
   (.vMor, 0x29, fun a b => a || b),
   (.vMxor, 0x2A, fun a b => xor a b),
   (.vMnot, 0x2B, fun _ b => !b),
   (.vMmv, 0x2C, fun _ b => b)]

/-- The shipped special functions by slot (07 R289). -/
def vecSfOps : List ((Nat → Instr) × Nat) :=
  [(.vSfExp2, 0), (.vSfLog2, 1), (.vSfRecip, 2), (.vSfRsqrt, 3), (.vSfSqrt, 4), (.vSfSin, 5), (.vSfCos, 6),
   (.vSfTanh, 7), (.vSfSigmoid, 8), (.vSfErf, 9), (.vSfExp, 10), (.vSfLog, 11), (.vSfGelu, 12), (.vSfSilu, 13),
   (.vSfSinpi, 14), (.vSfCospi, 15)]

/-- Every vector command but V.SETL, V.SETA, V.SEED and those of image slots, with its space and
operation (07 R265, R267). -/
def vecCommands : List ((Nat → Instr) × Nat × Nat) :=
  vecIntOps.map (fun e => (e.1, 0, e.2.1)) ++ vecFloatOps.map (fun e => (e.1, 0, e.2.1)) ++
  vecCmpOps.map (fun e => (e.1, 0, e.2.1)) ++ vecMaskOps.map (fun e => (e.1, 0, e.2.1)) ++
  [(.vSel, 0, 0x0E), (.vRedrow, 0, 0x34), (.vFmin, 0, 0x15), (.vFmax, 0, 0x16), (.vCvtif, 0, 0x30), (.vCvtfi, 0, 0x31), (.vCvtff, 0, 0x32),
   (.vRedcol, 0, 0x35), (.vSumx, 0, 0x38), (.vMaxx, 0, 0x39), (.vAny, 0, 0x3A), (.vAll, 0, 0x3B), (.vCnt, 0, 0x3D),
   (.vLd, 3, 0x00), (.vSt, 3, 0x01), (.vLdx, 3, 0x02), (.vStx, 3, 0x03), (.vOcld, 3, 0x08), (.vOcev, 3, 0x09),
   (.vLut, 3, 0x10), (.vLutld, 3, 0x11), (.vNorm, 3, 0x18), (.vSmexp, 3, 0x19), (.vSmdiv, 3, 0x1A)] ++
  vecSfOps.map (fun e => (e.1, 3, 0x40 + e.2))

/-- The configuration commands, which act whatever VL is, with their space and operation (07 R260, R265). -/
def vecConfigs : List ((Nat → Instr) × Nat × Nat) := [(.vSeta, 0, 0x3C), (.vSeed, 0, 0x3E), (.vSetl, 0, 0x3F)]

/-- How an engine's counts and rounding state follow from its results: saturated and flushed results are
counted, SRC moves on when some element was rounded under SR, and nothing else but vector registers
changes (07 R270, R272). -/
def Counts (v w : Vec) (es : List Enc) (rounded : Bool) : Prop :=
  w.sat = satAdd32 v.sat (es.filter (·.sat)).length ∧ w.flushed = satAdd32 v.flushed (es.filter (·.flush)).length ∧
  w.src = (if v.round = 2 ∧ rounded = true then v.src + 1 else v.src) ∧
  { w with v := v.v, sat := v.sat, flushed := v.flushed, src := v.src } = v

/-- The chosen bits of one mask register are as given; every other bit of it below 512, every other mask
register and everything else of the engine are as before. -/
def Remasks (v w : Vec) (r : Nat) (sel f : Nat → Bool) : Prop :=
  (∀ i, i < 512 → bit (w.mask r) i = if sel i then f i else bit (v.mask r) i) ∧
  (∀ q, q ≠ r → w.mask q = v.mask q) ∧ { w with m := v.m } = v

/-- A tile's stores of bytes at virtual addresses, each aligned to its size, in order, all succeed and leave
`d'`. -/
def StoredAll (t : Nat) : List (Nat × List Byte) → Dev → Dev → Prop
  | [], d, d' => d' = d
  | w :: rest, d, d' => ∃ d1, d.tileStore t w.1 w.2.length w.2 = (d1, .ok ()) ∧ StoredAll t rest d1 d'

/-- A tile's loads of `len` bytes, aligned to it, at virtual addresses all succeed, give `bs` and leave `d'`. -/
def LoadedAll (t len : Nat) : List Nat → Dev → Dev → List Byte → Prop
  | [], d, d', bs => d' = d ∧ bs = []
  | va :: rest, d, d', bs => ∃ d1 b r, d.tileLoad t va len len 1 = (d1, .ok b) ∧ LoadedAll t len rest d1 d' r ∧ bs = b ++ r

/-- The loaded value of element `i` among (element, value) pairs. -/
def loadedElem (vs : List (Nat × Nat)) (i : Nat) : Nat := ((vs.find? (fun e => e.1 == i)).map (·.2)).getD 0

/-! ### Cranes (09) and wharf complexes (10) -/

/-- Some units of an item are worked through from unit `u`, each computed and written with success, with its
counts added to the item's; `d'` is what they leave. -/
def Carried (it : Item) (f : Nat → EM URes) : Nat → Nat → Dev → Dev → Prop
  | 0, _, d, d' => d' = d
  | n + 1, u, d, d' => ∃ d1 r, (it.eng.unit f u).go d = (d1, .ok r) ∧
      Carried it f n (u + 1) (d1.countItem it.ring it.index r.sat r.flushed) d'

/-- The released CRANE item of a kind and operation whose slice its crane carries out next (09 R346). -/
def CraneNext (s : State) (ring index kind op : Nat) (it : Item) : Prop :=
  Up s ∧ InHand s ring index it ∧ it.typ = tCrane ∧ it.kind = kind ∧ it.cop = op ∧ s.dev.craneBusy it = false

/-- Crane operations that work unit by unit: the command, KIND, OP, the positions of a unit and its work
(09 R354, R357 to R360, R363, R370, R371, R373). -/
def craneUnitOps : List ((Nat → Nat → Instr) × Nat × Nat × Nat × (Item → Nat → EM URes)) :=
  [(.convert, 0, 0, 1, fun it p => it.convertUnit it.eng p),
   (.craneGather, 1, 0, 1, fun it p => it.gatherUnit it.eng p),
   (.craneBagsum, 1, 1, 1, fun it p => it.bagUnit it.eng p),
   (.craneScatterAdd, 1, 2, 1, fun it p => it.scatterUnit it.eng p),
   (.sparse28, 2, 1, 8, fun it g => it.sparseUnit it.eng g),
   (.randomU32, 5, 0, 1, fun it i => pure (it.randUnit 0 i)),
   (.randomU64, 5, 1, 1, fun it i => pure (it.randUnit 1 i)),
   (.uniformF32, 5, 2, 1, fun it i => pure (it.randUnit 2 i)),
   (.uniformF64, 5, 3, 1, fun it i => pure (it.randUnit 3 i)),
   (.normalF32, 5, 4, 1, fun it i => pure (it.randUnit 4 i)),
   (.bernoulli, 5, 5, 8, fun it b => pure (it.bernoulliUnit b)),
   (.blockmax, 7, 0, 1, fun it r => it.blockmaxUnit it.eng r)]

/-- Crane operations whose slice is one piece of work: the command, KIND, OP and the work (09 R362, R365,
R374, R375). -/
def craneSliceOps : List ((Nat → Nat → Instr) × Nat × Nat × (Item → EM URes)) :=
  [(.stream, 2, 0, fun it => it.streamSlice it.eng),
   (.sortAsc, 3, 0, fun it => it.sortSlice it.eng false),
   (.sortDesc, 3, 1, fun it => it.sortSlice it.eng true),
   (.topkMax, 3, 2, fun it => it.topSlice it.eng true),
   (.topkMin, 3, 3, fun it => it.topSlice it.eng false),
   (.anchor, 7, 1, fun it => it.anchorSlice it.eng),
   (.hist, 7, 2, fun it => it.histSlice it.eng)]

/-- The waves of a WHARF slice are carried out one after another, each read on every stack and then written,
with its counts added to the item's; `d'` is what they leave. -/
def Waved (it : Item) (ss : List Nat) : List Nat → Dev → Dev → Prop
  | [], d, d' => d' = d
  | j :: rest, d, d' => ∃ d1 ws d2, (it.wholePhase ss j).go d = (d1, .ok ws) ∧ (it.endsPass1 j = true → d1.facStop it = none) ∧
      d1.writeWaves (ws.map (·.2)) = (d2, none) ∧ Waved it ss rest (d2.countWaves it (ws.map (·.2))) d'

/-- The released WHARF item of an operation, none of whose waves has begun, with every stack it needs free and
no earlier item's waves before it (10 R381, R382). -/
def WharfNext (s : State) (ring index : Nat) (it : Item) : Prop :=
  Up s ∧ InHand s ring index it ∧ it.typ = tWharf ∧ it.wavesRead = [] ∧
  s.dev.waveBlocked it (s.dev.wharfStacks it) = false ∧
  (∀ e ∈ s.dev.hbmStacks, e.1 ∈ s.dev.wharfStacks it → e.2.waves = [])

/-- WHARF operations: the command and the OP, with the micro-program slots it takes (10 R389, R399). -/
def wharfOps : List ((Nat → Nat → Instr) × Nat × (Nat → Bool)) :=
  [(.axpy, 0, fun _ => true), (.scale, 1, fun _ => true), (.reduceAdd, 2, fun _ => true),
   (.optimMomentum, 3, fun k => k == 0), (.optimAdaptive, 3, fun k => k == 1), (.optimFactored, 3, fun k => k == 2),
   (.optimLoadedSlot, 3, fun k => decide (3 ≤ k)), (.wharfGather, 4, fun _ => true), (.wharfBagsum, 5, fun _ => true),
   (.wharfScatterAdd, 6, fun _ => true), (.fill, 7, fun _ => true), (.copy, 8, fun _ => true)]

/-- The complexes of an item's stacks work for its context (10 R409). -/
def Dev.wharfBegun (d : Dev) (it : Item) : Dev :=
  (d.wharfStacks it).foldl (fun d k => d.put F.whfStatus_CONTEXT it.ctx k) d

/-! ### Rings, items and the tide (02, 11, 12) -/

/-- Some elements of a MOVE are copied one after another from position `p`; `d'` is what they leave, and
`o'` what they have overwritten. -/
def Moved (it : Item) : Nat → Nat → Overwritten → Dev → Overwritten → Dev → Prop
  | 0, _, o, d, o', d' => d' = d ∧ o' = o
  | n + 1, p, o, d, o', d' => ∃ d1 o1, d.moveElem it o p = (d1, .ok o1) ∧ Moved it n (p + 1) o1 d1 o' d'

/-- Hints: the command and its PHASE (15 R582, R583). -/
def hintOps : List ((Nat → Nat → Instr) × Nat) :=
  [(.hintMatrixHeavy, 0), (.hintMemoryHeavy, 1), (.hintLinkHeavy, 2), (.hintIdle, 3)]

/-- No cluster has been given more by a cut than cap(c) (02 R72). -/
def Cut.Within (c : Cut) : Prop := ∀ lc, tget 0 c.used lc = 0 ∨ 10 * tget 0 c.used lc ≤ c.d.cap10 lc

/-! ### Control cores, the matrix unit and gangs (05, 06, 08) -/

/-- A control core runs on a tile, its next word `w` has been fetched, and `h` is its register context;
`d` is the device the fetch leaves. -/
def CoreAt (s : State) (t : Nat) (w : W32) (d : Dev) (h : Hart) : Prop :=
  Up s ∧ (s.dev.coreLaunch t).isSome = true ∧ s.dev.tileFetch t (s.dev.tile t).core.pc = (d, .ok w) ∧ h = (d.tile t).core

/-- Register-register instructions of the control core: funct7, funct3 and the result from x[rs1] and
x[rs2] (05 R200). -/
def coreRegOps : List (Nat × Nat × (W64 → W64 → W64)) :=
  [(0x00, 0, fun a b => a + b), (0x20, 0, fun a b => a - b), (0x00, 4, fun a b => a ^^^ b),
   (0x00, 6, fun a b => a ||| b), (0x00, 7, fun a b => a &&& b), (0x00, 1, fun a b => a <<< (b.toNat % 64)),
   (0x00, 5, fun a b => a >>> (b.toNat % 64)), (0x20, 5, fun a b => a.sshiftRight (b.toNat % 64)),
   (0x00, 2, fun a b => if a.slt b then 1 else 0), (0x00, 3, fun a b => if a.ult b then 1 else 0),
   (0x01, 0, fun a b => a * b), (0x10, 2, fun a b => (a <<< 1) + b), (0x10, 4, fun a b => (a <<< 2) + b),
   (0x10, 6, fun a b => (a <<< 3) + b), (0x20, 7, fun a b => a &&& ~~~b), (0x20, 6, fun a b => a ||| ~~~b),
   (0x05, 4, fun a b => if a.slt b then a else b), (0x05, 7, fun a b => if a.ult b then b else a)]

/-- The group a tile's gang processor issues next and its word; `d` is the device once the word has been
fetched and the issue has been noted (08 R312, R317). -/
def GroupAt (s : State) (t : Nat) (i : Issue) (d : Dev) : Prop :=
  Up s ∧ ∃ d', s.dev.gangNext t = (d', .issue i) ∧ d = d'.gangIssued t i

/-- Give thread n of the group, for each of its threads, the register context `f n`, and make it READY. -/
def Dev.setGroup (d : Dev) (t : Nat) (i : Issue) (f : Nat → Hart) : Dev :=
  i.group.foldl (fun d n => d.setThread t i.g.idx n (f n)) d

/-- The register context a thread of the group had. -/
def Issue.hart (i : Issue) (n : Nat) : Hart := (i.g.thread n).hart

/-- Uniform instructions on u[rs1] and u[rs2]: the command, its code and the value of u[rd] (08 R336). -/
def uniformOps : List ((Nat → Instr) × Nat × (W64 → W64 → W64)) :=
  [(.uAdd, 0, fun a b => a + b), (.uSub, 1, fun a b => a - b), (.uAnd, 2, fun a b => a &&& b),
   (.uOr, 3, fun a b => a ||| b), (.uXor, 4, fun a b => a ^^^ b), (.uSll, 5, fun a b => a <<< (b.toNat % 64)),
   (.uSrl, 6, fun a b => a >>> (b.toNat % 64)), (.uSra, 7, fun a b => a.sshiftRight (b.toNat % 64)),
   (.uSlt, 8, fun a b => if a.slt b then 1 else 0), (.uSltu, 9, fun a b => if a.ult b then 1 else 0),
   (.uMul, 10, fun a b => a * b)]

/-- Uniform branches: the command, funct3 and the condition on u[rs1] and u[rs2] (08 R324). -/
def uniformBranches : List ((Nat → Instr) × Nat × (W64 → W64 → Bool)) :=
  [(.uBeq, 4, fun a b => a == b), (.uBne, 5, fun a b => a != b), (.uBlt, 6, fun a b => a.slt b), (.uBge, 7, fun a b => !a.slt b)]

/-- Atomics of a group: the command and its operation (08 R328). -/
def gangAtomicOps : List ((Nat → Instr) × AtomicOp) :=
  [(.gAmoAdd, .add), (.gAmoFadd, .fadd), (.gAmoMin, .min), (.gAmoMax, .max), (.gAmoMinu, .minu), (.gAmoMaxu, .maxu),
   (.gAmoAnd, .and), (.gAmoOr, .or), (.gAmoXor, .xor), (.gAmoSwap, .swap), (.gAmoCas, .cas)]

/-- The threads of a list perform an atomic one after another at the address in x[rs1], with the operand in
x[rs2] and the value CAS compares in x[rd], those of one address as one operation of its home, and each
gets the old value; `d'` is what they leave. -/
def AtomicsDone (t : Nat) (i : Issue) (op : AtomicOp) (wide : Bool) : List Nat → Dev → Dev → Prop
  | [], d, d' => d' = d
  | n :: rest, d, d' => ∃ d1 old, d.tileAtomic t ((i.hart n).getX (rs1Of i.word)).toNat (if wide then 8 else 4)
      (fun old => atomicNew op wide old ((i.hart n).getX (rs2Of i.word)).toNat ((i.hart n).getX (rdOf i.word)).toNat)
      (i.group.any (fun m => m < n && ((i.hart m).getX (rs1Of i.word)).toNat == ((i.hart n).getX (rs1Of i.word)).toNat)) = (d1, .ok old) ∧
      AtomicsDone t i op wide rest (d1.setThread t i.g.idx n
        ((((d1.gang? t i.g.idx).getD i.g).thread n).hart.setX (rdOf i.word) (amoOld wide old)).retire) d'

/-- The threads of a list make their loads or stores one after another, all with success. -/
def ThreadsDone (f : Dev → Nat → Dev × Except (TFault × Nat) Unit) : List Nat → Dev → Dev → Prop
  | [], d, d' => d' = d
  | n :: rest, d, d' => ∃ d1, f d n = (d1, .ok ()) ∧ ThreadsDone f rest d1 d'

/-! ### Memory units (03, 10) -/

/-- Far atomics: the command and its operation (10 R404). -/
def farOps : List ((AtomicReq → Instr) × AtomicOp) :=
  [(.farAdd, .add), (.farFadd, .fadd), (.farMin, .min), (.farMax, .max), (.farMinu, .minu), (.farMaxu, .maxu),
   (.farAnd, .and), (.farOr, .or), (.farXor, .xor), (.farSwap, .swap), (.farCas, .cas)]

/-- Warehouse atomics: the command and the new value from its width, the old one, the operand and the
value CAS compares (03 R107). -/
def warehouseOps : List ((AtomicReq → Instr) × (Bool → Nat → Nat → Nat → Nat)) :=
  [(.warehouseAdd, atomicNew .add), (.warehouseFadd, atomicNew .fadd), (.warehouseMinMax .min, atomicNew .min),
   (.warehouseMinMax .max, atomicNew .max), (.warehouseMinMax .minu, atomicNew .minu), (.warehouseMinMax .maxu, atomicNew .maxu),
   (.warehouseAndOrXor .and, atomicNew .and), (.warehouseAndOrXor .or, atomicNew .or), (.warehouseAndOrXor .xor, atomicNew .xor),
   (.warehouseSwap, atomicNew .swap), (.warehouseCas, atomicNew .cas),
   (.warehouseMinMax .fmin, fun wide old x _ => atomicFloat false wide old (x % 2 ^ (if wide then 64 else 32))),
   (.warehouseMinMax .fmax, fun wide old x _ => atomicFloat true wide old (x % 2 ^ (if wide then 64 else 32)))]

/-- An access command runs one cycle of a bank's arbiter, which leaves `d`: the access is performed there when the
grant is its own, and otherwise the command answers the grant and the hints (05 R192, R198). -/
def Arbitrated (c : Instr) (s : State) (b : BankId) (d : Dev) (mine : ArbRequest → Bool) (a : PhysAccess) : Prop :=
  (∀ r, (d.arb b).grantee = some r → mine r = true → r.req = a.req → r.item = a.item → Does c s (d.access a)) ∧
  (∀ r, (d.arb b).grantee = some r → mine r = false ∨ r.req ≠ a.req ∨ r.item ≠ a.item →
    Does c s (d.answer (.arb (some r.input) (d.arb b).hints))) ∧
  ((d.arb b).grantee = none → Does c s (d.answer (.arb none (d.arb b).hints)))

/-! ### Links, ports, messages and connections (01, 14) -/

/-- A message for this node arrives on a port in service; `d` is the device once it has been received
(14 R523, R531). -/
def Arrives (s : State) (port : Nat) (m : LinkMsg) (d : Dev) : Prop :=
  Up s ∧ port < 6 ∧ s.dev.portUp port = true ∧ m.dest = s.dev.node ∧ d = s.dev.linkReceived port m

/-- A request in sequence on an ESTABLISHED point connection of a live context; `d'` is the device once
RX_SEQ has moved on (14 R546, R548). -/
def InSeq (d : Dev) (m : LinkMsg) (ctx : Nat) (d' : Dev) : Prop :=
  (d.conn m.conn).state = 2 ∧ cwGroup (d.cw0 m.conn) = false ∧ cwNode (d.cw0 m.conn) = m.src ∧
  cwCtx (d.cw0 m.conn) = ctx ∧ m.seq = (d.conn m.conn).rxSeq ∧
  d' = d.modConn m.conn (fun x => { x with rxSeq := (x.rxSeq + 1) % 2 ^ 32 }) ∧ (d'.ctx ctx).state = 0

/-- A wave holds the line of a context's pool address locked, so that an atomic of a pier waits (10 R405). -/
def Dev.vaLocked (d : Dev) (ctx va : Nat) : Bool :=
  match d.peek ctx va with
  | some p => decide (p.2 < 2 ^ 40) && d.lockedLine p.2
  | none => false

/-- REMOTE operations: the command and its ROP (14 R551). -/
def remoteOps : List ((Nat → Nat → Instr) × Nat) := [(.remotePut, 0), (.remoteGet, 1), (.remoteAtomic, 2)]

/-- Collectives: the command and its operation (14 R556). -/
def collOps : List ((Nat → Nat → Instr) × Nat) := [(.allReduce, 0), (.reduceScatter, 1), (.allGather, 2), (.broadcast, 3)]

/-! ### The snoop ring and host accesses (13) -/

/-- A request of an L2 for a line: the command, its kind, and the state codes of the copy it may come with
(13 R497). -/
def L2Request (c : Nat → Nat → Instr) (kind : ReqKind) (ok : Nat → Bool) : Prop :=
  (c = .gets ∧ kind = .getS ∧ ok = fun st => st == 0) ∨ (c = .getm ∧ kind = .getM ∧ ok = fun st => st == 0) ∨
  (c = .claim ∧ kind = .claim ∧ ok = fun st => st == 1 || st == 3) ∨ (c = .clean ∧ kind = .clean ∧ ok = fun _ => true) ∨
  (c = .purge ∧ kind = .purge ∧ ok = fun _ => true) ∨ (c = .discard ∧ kind = .discard ∧ ok = fun _ => true)

/-- A probe of an agent: the command and the probe (13 R497). -/
def ProbeCommand (c : Nat → Nat → Instr) (p : Probe) : Prop :=
  (c = .probeshare ∧ p = .share) ∨ (c = .probetake ∧ p = .take) ∨ (c = .probeclean ∧ p = .clean) ∨ (c = .probedrop ∧ p = .drop)

/-- A hart of the running host makes an access within one line that the hub–host link or its own L2 answers,
`unique` when it needs the line to itself, and a pool access finds the package out of PKG_IDLE (01 R52,
13 R489, 17 R638). -/
def HartAt (s : State) (hart pa size : Nat) (unique cacheable : Bool) : Prop :=
  Up s ∧ s.dev.hartAccess hart pa size unique cacheable = true

/-- The state in which a token's signature and key are judged good (16 R615): nothing occupies the pilot,
the token carries the channel's nonce, and its key may sign it. -/
def TokenGood (d : Dev) (c : Channel) (t : List Byte) : Prop := d.pilotBusy = false ∧ d.tokFault c t = none

/-- A token command: the command and its kind (16 R615). -/
def TokenCommand (c : Channel → List Byte → Instr) (kind : Nat) : Prop :=
  (c = .debugUnlock ∧ kind = 1) ∨ (c = .logClear ∧ kind = 2) ∨ (c = .ownerEnrol ∧ kind = 3) ∨ (c = .ownerRevoke ∧ kind = 4) ∨
  (c = .ownerOnly ∧ kind = 5)
end Sys2Proof.Machine
end

