-- ==== Sys2Proof/Certificates/Slice0/Obligations.lean ====
section
/-! DEFINITION. The statements for the provers. Each names in its docstring the rules of spec/ it rests on;
"model's choice" marks what an entry of the assumption log decides. -/
open Sys2Proof Sys2Proof.Machine

/-- For every command c and state s, the step of s with c at the front of its queue is exec of c on s with
the queue's rest. On an empty queue the block idles (model's choice, log entry 8): the JTAG port takes the
edges the board has driven (log entry 31), and while the clocks run one nanosecond of CKD01 passes, in
which link credits return, and zeroings and crane resets that are over end. While they are stopped nothing
else happens, and with no edge driven nothing at all. (R59, R572) -/
def Obligations.StepTakesTheFrontCommand : Prop :=
  (∀ (c : Instr) (rest : List Instr) (d : Dev), step ⟨c :: rest, d⟩ = exec c ⟨rest, d⟩) ∧
  (∀ (d : Dev), step ⟨[], d⟩ = .next ⟨[], d.idle.settle⟩) ∧
  (∀ (d : Dev), d.clocked = false → d.idle = d.jtagRun) ∧
  (∀ (d : Dev), d.jtag.edges = [] → d.jtagRun = d) ∧
  (∀ (d : Dev), d.clocked = true → d.reset = none →
    d.idle = ({ d.jtagRun with now := d.jtagRun.now + 1 } : Dev).returnCredits.endZeroing.endCraneResets)

/-- Every command, in every state, answers a next state with the same queue and with memory in its canonical
form: a command whose enabling condition does not hold leaves the device as it is instead of stopping
(model's choice, log entry 2). While PKG_POR_N is asserted or a trip has stopped the clocks, every
command but those of the pins and supplies, and after a trip the BMC's reads of the always-on island's
registers, leaves the device as it is. Before the device is released, every command but those and the
ones of the pilot, the board and link training leaves it as it is. (R94, R572, R587, R593, R688, R690) -/
def Obligations.CommandsCompleteOrDoNothing : Prop :=
  (∀ (c : Instr) (s : State), ∃ d, exec c s = .next { s with dev := d } ∧ d.mem.wf = true) ∧
  ((∀ (c : Instr) (s : State), s.dev.clocked = false → pinCommand c = false →
      (∀ off, c = .regRead off → alwaysOnReg (off % 2 ^ 24) = true → s.dev.pins.por = true) → Does c s s.dev) ∧
  (∀ (c : Instr) (s : State), s.dev.ticking = false → earlyCommand c = false → Does c s s.dev))

/-- From every state whose memory is canonical (addresses strictly rising, no listed byte equal to what an
unlisted one reads as), every step, whatever the command, leaves memory canonical, and canonicalising
what a command leaves changes no byte, no poison and no undefined line. (R94, R118, R124) -/
def Obligations.MemoryStaysCanonical : Prop :=
  (∀ (s t : State), s.dev.mem.wf = true → step s = .next t → t.dev.mem.wf = true) ∧
  (∀ (m : Mem) (a : Nat), m.canon.byte a = m.byte a ∧ m.canon.poisonedAt a = m.poisonedAt a ∧ m.canon.undefinedAt a = m.undefinedAt a) ∧
  (∀ (m n : Mem), m.wf = true → n.wf = true → (∀ a, tget Mem.absent m.cells a = tget Mem.absent n.cells a) → m.cells = n.cells)

/-- State.reset has an empty queue, PKG_POR_N asserted, no byte of memory listed, every register at its
reset value (among them TIDE_PERIOD_NS 16,000, TIDE_RESERVE 16, DEV_ERR_COUNT 0 and every ring
DISABLED), no item, launch or event, an empty logbook, and memory in canonical form. What power-on
leaves where the manual gives no value is the model's choice (log entries 1, 5, 6 and 7). (R22, R23,
R423, R627) -/
def Obligations.ResetLeavesTheStatedValues : Prop :=
  State.reset.pending = [] ∧ State.reset.dev.pins.por = true ∧ State.reset.dev.mem = {} ∧ State.reset.dev.mem.wf = true ∧
  (∀ r i, State.reset.dev.reg r i = r.resetVal i) ∧ State.reset.dev.get F.tidePeriodNs_PERIOD = 16000 ∧
  State.reset.dev.get F.tideReserve_RESERVE = 16 ∧ State.reset.dev.get F.devErrCount_COUNT = 0 ∧
  (∀ n, State.reset.dev.ringState n = 0) ∧ State.reset.dev.items = [] ∧ State.reset.dev.launches = [] ∧
  (∀ e, State.reset.dev.event e = 0) ∧ State.reset.dev.log = {} ∧ State.reset.dev.clocked = false

/-- Each integer, logic, shift, move and sign-bit vector instruction at the head of a running tile's queue
completes: every active element of vd is its operation of the elements of vs2 and src modulo 2^EW, every
other element and register is unchanged, and nothing is counted. Shown in every form, where a source in
memory can be read, for V.ADD, V.SUB, V.MUL, V.MIN,
V.MAX, V.MINU, V.MAXU, V.AND, V.OR, V.XOR, V.SLL, V.SRL, V.SRA, V.MOV, V.FABS and V.FNEG. V.FMIN and
V.FMAX write to each active element the lesser or greater operand, a number before a NaN and -0 below
+0, and under FLUSH a zero in place of a subnormal result, which is counted; V.SEL writes src where the bit of m0 is 1 and vs2 elsewhere. Other elements, registers, masks and
counts are unchanged. V.CMPEQ, V.CMPLT, V.CMPLTU, V.FCMPEQ, V.FCMPLT and V.FCMPLE write their truth
value to the mask bits of active elements; V.MAND, V.MOR, V.MXOR, V.MNOT and V.MMV write bits 0 to VL-1
of mask vd from masks vs2 and vs1. Every other bit and everything else is unchanged. (R256, R261, R264,
R265, R271) -/
def Obligations.VectorIntegersSelectsMasks : Prop :=
  (∀ e ∈ vecIntOps, ∀ (s : State) (t : Nat) (o : VecOp) (src : Nat → Nat) (d' : Dev),
    VecReady s t (0, e.2.1) o → (s.dev.vecTaken t).vecSrc t o (vecAt s t) = (d', .ok src) →
    ∃ v', Does (e.1 t) s (d'.setVec t v') ∧ { v' with v := (vecAt s t).v } = vecAt s t ∧
      Rewrites (vecAt s t) v' (rdOf o.word) ((vecAt s t).active (maskedForm o.word))
        (fun i => e.2.2 (vecAt s t).ew (elemOf (vecAt s t).ew ((vecAt s t).reg (rs2Of o.word)) i) (src i))) ∧
  (((∀ e ∈ [((fun t => Instr.vFmin t), 0x15, false), ((fun t => Instr.vFmax t), 0x16, true)],
    ∀ (s : State) (t : Nat) (o : VecOp) (src : Nat → Nat) (d' : Dev) (v : Vec),
    VecReady s t (0, e.2.1) o → v = vecAt s t → (s.dev.vecTaken t).vecSrc t o v = (d', .ok src) →
    ∃ v' enc, Does (e.1 t) s (d'.setVec t v') ∧
      (∀ i, enc i = v.encCode (fminmaxCode v e.2.2 (elemOf v.ew (v.reg (rs2Of o.word)) i) (src i))) ∧
      Rewrites v v' (rdOf o.word) (v.active (maskedForm o.word)) (fun i => (enc i).code) ∧
      Counts v v' ((v.actives (maskedForm o.word)).map enc) false) ∧
  (∀ (s : State) (t : Nat) (o : VecOp) (src : Nat → Nat) (d' : Dev) (v : Vec),
    VecReady s t (0, 0x0E) o → v = vecAt s t → (s.dev.vecTaken t).vecSrc t o v = (d', .ok src) →
    ∃ v', Does (.vSel t) s (d'.setVec t v') ∧ { v' with v := v.v } = v ∧
      Rewrites v v' (rdOf o.word) (fun i => decide (i < v.vl))
        (fun i => if bit (v.mask 0) i then src i else elemOf v.ew (v.reg (rs2Of o.word)) i))) ∧
  ((∀ e ∈ vecCmpOps, ∀ (s : State) (t : Nat) (o : VecOp) (src : Nat → Nat) (d' : Dev) (v : Vec),
    VecReady s t (0, e.2.1) o → v = vecAt s t → (s.dev.vecTaken t).vecSrc t o v = (d', .ok src) →
    ∃ v', Does (e.1 t) s (d'.setVec t v') ∧
      Remasks v v' (rdOf o.word) (v.active (maskedForm o.word))
        (fun i => e.2.2 v (elemOf v.ew (v.reg (rs2Of o.word)) i) (src i))) ∧
  (∀ e ∈ vecMaskOps, ∀ (s : State) (t : Nat) (o : VecOp) (v : Vec),
    VecReady s t (0, e.2.1) o → v = vecAt s t →
    ∃ v', Does (e.1 t) s ((s.dev.vecTaken t).setVec t v') ∧
      Remasks v v' (rdOf o.word) (fun i => decide (i < v.vl))
        (fun i => e.2.2 (bit (v.mask (rs2Of o.word)) i) (bit (v.mask (rs1Of o.word)) i)))))

/-- V.FADD, V.FSUB, V.FMUL, V.FMA, V.FNMS and V.FDIV complete: every active element of vd is the exact value
of the operation rounded once with ROUND and FLUSH; other elements and registers are unchanged;
saturated and flushed results are counted; SRC moves on by 1 when some element was rounded under SR. In
the VV forms, V.CVTIF rounds src as a signed integer to the float of EW, V.CVTFI rounds src to a signed
integer that saturates, with NaN giving 0, and V.CVTFF rounds from the width of code vs2; results are
counted and SRC moves on under SR (that it does so where every result is exact is the model's choice, log
entry 81). A V.CVTFF from a width of which a register holds fewer than VL elements is an illegal
instruction. (R261, R265, R266, R269, R270, R271, R272) -/
def Obligations.VectorFloatsAndConversions : Prop :=
  (∀ e ∈ vecFloatOps, ∀ (s : State) (t : Nat) (o : VecOp) (src : Nat → Nat) (d' : Dev) (v : Vec) (el : Nat → Nat → Nat) (enc : Nat → Enc),
    VecReady s t (0, e.2.1) o → v = vecAt s t → (s.dev.vecTaken t).vecSrc t o v = (d', .ok src) →
    (∀ r i, el r i = elemOf v.ew (v.reg r) i) →
    (∀ i, enc i = encodeFmt (fmtOfEw v.ew) 0 (v.mode i) v.flush
      (e.2.2 (v.dec (el (rs2Of o.word) i)) (v.dec (src i)) (v.dec (el (rdOf o.word) i)))) →
    ∃ v', Does (e.1 t) s (d'.setVec t v') ∧
      Rewrites v v' (rdOf o.word) (v.active (maskedForm o.word)) (fun i => (enc i).code) ∧
      Counts v v' ((v.actives (maskedForm o.word)).map enc) (!(v.actives (maskedForm o.word)).isEmpty)) ∧
  (∀ (s : State) (t : Nat) (o : VecOp) (v : Vec) (enc : Nat → Enc) (c : Nat → Instr) (op : Nat),
    VecReady s t (0, op) o → v = vecAt s t →
    ((c = (fun t => .vCvtif t) ∧ op = 0x30 ∧ ∀ i, enc i = v.enc (v.mode i) (.of (QR.ofInt (toInt v.ew (elemOf v.ew (v.reg (rs1Of o.word)) i))))) ∨
     (c = (fun t => .vCvtfi t) ∧ op = 0x31 ∧ ∀ i, enc i = floatToInt v.ew (v.mode i) (v.dec (elemOf v.ew (v.reg (rs1Of o.word)) i))) ∨
     (c = (fun t => .vCvtff t) ∧ op = 0x32 ∧ v.vl ≤ 8192 / (16 * 2 ^ rs2Of o.word) ∧
       ∀ i, enc i = v.enc (v.mode i) ((fpOfEw (16 * 2 ^ rs2Of o.word)).decode (elemOf (16 * 2 ^ rs2Of o.word) (v.reg (rs1Of o.word)) i)))) →
    ∃ v', Does (c t) s ((s.dev.vecTaken t).setVec t v') ∧
      Rewrites v v' (rdOf o.word) (v.active (maskedForm o.word)) (fun i => (enc i).code) ∧
      Counts v v' ((v.actives (maskedForm o.word)).map enc) (!(v.actives (maskedForm o.word)).isEmpty)) ∧
  (∀ (s : State) (t : Nat) (o : VecOp), VecReady s t (0, 0x32) o → 8192 / (16 * 2 ^ rs2Of o.word) < (vecAt s t).vl →
    Does (.vCvtff t) s ((s.dev.vecTaken t).vecIllegal t o.pc))

/-- V.REDROW writes element r of vd with the reduction of row r's active elements for each of the eight
rows, and raw tally sub-sums for kind TSUMR; V.REDCOL writes each active column's reduction of the eight
rows, and sums of raw sub-sums for kind TRAW. TSUM at EW 64, TSUMR and TRAW at any width but 32, and TRAW
with a VL that is no multiple of 4 are illegal instructions. Model's choices: the extreme of no integers is
a free value (log entry 32), and V.REDROW's eight results are written whatever VL and the mask are (log
entry 234). (R280, R281, R282, R283, R284, R285, R286) -/
def Obligations.VectorReductions : Prop :=
  (∀ (s : State) (t : Nat) (o : VecOp) (v : Vec),
    VecReady s t (0, 0x34) o → v = vecAt s t → redOk (rs2Of o.word) v.ew v.vl = true →
    (rs2Of o.word = 3 → Does (.vRedrow t) s (((s.dev.draw).vecTaken t).setVec t (v.tsumr (rdOf o.word) (rs1Of o.word) (maskedForm o.word)))) ∧
    (rs2Of o.word ≠ 3 → ∀ (enc : Nat → Enc),
      (∀ r, enc r = v.reduce (rs2Of o.word) r ((Config.freeValue s.dev.fresh).toNat % 2 ^ v.ew)
        (if rs2Of o.word = 0 then v.fsumRow (v.active (maskedForm o.word)) (fun i => elemOf v.ew (v.reg (rs1Of o.word + r)) i) else ⟨0, false, false⟩)
        ((v.actives (maskedForm o.word)).map (fun i => (i, elemOf v.ew (v.reg (rs1Of o.word + r)) i)))) →
      ∃ v', Does (.vRedrow t) s (((s.dev.draw).vecTaken t).setVec t v') ∧
        Rewrites v v' (rdOf o.word) (fun i => decide (i < 8)) (fun i => (enc i).code) ∧
        Counts v v' ((List.range 8).map enc) (rs2Of o.word == 2))) ∧
  (∀ (s : State) (t : Nat) (o : VecOp) (v : Vec),
    VecReady s t (0, 0x35) o → v = vecAt s t → redOk (rs2Of o.word) v.ew v.vl = true →
    (rs2Of o.word = 4 → Does (.vRedcol t) s ((s.dev.vecTaken t).setVec t (v.traw (rdOf o.word) (rs1Of o.word) (maskedForm o.word)))) ∧
    (rs2Of o.word ≠ 4 → ∀ (enc : Nat → Enc),
      (∀ i, enc i = v.reduce (rs2Of o.word) i 0
        (if rs2Of o.word = 0 then v.fsumCol ((List.range 8).map (fun r => elemOf v.ew (v.reg (rs1Of o.word + r)) i)) else ⟨0, false, false⟩)
        ((List.range 8).map (fun r => (r, elemOf v.ew (v.reg (rs1Of o.word + r)) i)))) →
      ∃ v', Does (.vRedcol t) s ((s.dev.vecTaken t).setVec t v') ∧
        Rewrites v v' (rdOf o.word) (v.active (maskedForm o.word)) (fun i => (enc i).code) ∧
        Counts v v' ((v.actives (maskedForm o.word)).map enc) (rs2Of o.word == 2 && !(v.actives (maskedForm o.word)).isEmpty))) ∧
  (∀ (s : State) (t : Nat) (o : VecOp), redOk (rs2Of o.word) (vecAt s t).ew (vecAt s t).vl = false →
    (VecReady s t (0, 0x34) o → Does (.vRedrow t) s ((s.dev.draw.vecTaken t).vecIllegal t o.pc)) ∧
    (VecReady s t (0, 0x35) o → Does (.vRedcol t) s ((s.dev.vecTaken t).vecIllegal t o.pc))) ∧
  (∀ (kind ew vl : Nat), redOk kind ew vl = false ↔
    (kind = 2 ∧ ew = 64) ∨ (kind = 3 ∧ ew ≠ 32) ∨ (kind = 4 ∧ (ew ≠ 32 ∨ vl % 4 ≠ 0)))

/-- V.SUMX and V.MAXX write the sum or the greatest active element of vs1 to x[rd] in the VX form and f[rd]
in the VF form; V.ANY and V.ALL write whether any or all of bits 0 to VL-1 of a mask are 1; V.CNT writes
the two vector counts. V.SETL sets VL to the lesser of x[rs1] and VLMAX of the width it selects, writes
VL to rd and sets EW, ROUND and FLUSH from x[rs2]; V.SETA sets TANCHOR; V.SEED sets SEED and SRC. A
reserved bit or code of V.SETL, or a V.SETA value outside -160 to +160, is an illegal instruction, and so
is every vector word whose form or fixed field no chapter assigns. (R216, R259, R260, R265, R266, R272,
R287) -/
def Obligations.VectorScalarsAndConfiguration : Prop :=
  (∀ (s : State) (t : Nat) (o : VecOp) (v : Vec) (el : Nat → Nat), v = vecAt s t →
    (∀ i, el i = elemOf v.ew (v.reg (rs1Of o.word)) i) →
    (VecReady s t (0, 0x38) o → formOf o.word = 1 →
      Does (.vSumx t) s (((s.dev.vecTaken t).setVec t (v.count [satInt 64 (v.isum ((v.actives false).map el))])).vecSetX t (rdOf o.word)
        (w64 (satInt 64 (v.isum ((v.actives false).map el))).code))) ∧
    (VecReady s t (0, 0x38) o → formOf o.word = 2 →
      Does (.vSumx t) s (((s.dev.vecTaken t).setVec t (v.count [v.fsumRow (v.active false) el])).vecSetF t (rdOf o.word) v.ew
        (v.fsumRow (v.active false) el).code)) ∧
    (VecReady s t (0, 0x39) o → formOf o.word = 1 →
      Does (.vMaxx t) s (((s.dev.vecTaken t).setVec t v).vecSetX t (rdOf o.word) (w64 (sext v.ew (v.iextreme true 0 ((v.actives false).map el))).toNat))) ∧
    (VecReady s t (0, 0x39) o → formOf o.word = 2 →
      Does (.vMaxx t) s (((s.dev.vecTaken t).setVec t v).vecSetF t (rdOf o.word) v.ew (v.fextreme true ((v.actives false).map el)))) ∧
    (VecReady s t (0, 0x3A) o →
      Does (.vAny t) s (((s.dev.vecTaken t).setVec t v).vecSetX t (rdOf o.word)
        (if ∃ i, i < v.vl ∧ bit (v.mask (rs1Of o.word)) i = true then 1 else 0))) ∧
    (VecReady s t (0, 0x3B) o →
      Does (.vAll t) s (((s.dev.vecTaken t).setVec t v).vecSetX t (rdOf o.word)
        (if ∀ i, i < v.vl → bit (v.mask (rs1Of o.word)) i = true then 1 else 0))) ∧
    (VecReady s t (0, 0x3D) o →
      Does (.vCnt t) s (((s.dev.vecTaken t).setVec t v).vecSetX t (rdOf o.word) (w64 (v.sat * 2 ^ 32 + v.flushed))))) ∧
  (∀ (s : State) (t : Nat) (o : VecOp) (v : Vec), Up s → v = vecAt s t → vecLegal o.word = true →
    (∀ ew, s.dev.vecHead t (0, 0x3F) = some o → o.rs2.toNat < 32 → bits o.rs2.toNat 3 2 ≠ 3 →
      ((bits o.rs2.toNat 1 0 = 0 ∧ ew = 16) ∨ (bits o.rs2.toNat 1 0 = 1 ∧ ew = 32) ∨ (bits o.rs2.toNat 1 0 = 2 ∧ ew = 64)) →
      Does (.vSetl t) s (((s.dev.vecTaken t).setVec t { v with
        vl := min o.rs1.toNat (8192 / ew), ew := ew, round := bits o.rs2.toNat 3 2, flush := bit o.rs2.toNat 4 }).vecSetX t
        (rdOf o.word) (w64 (min o.rs1.toNat (8192 / ew))))) ∧
    (s.dev.vecHead t (0, 0x3F) = some o → 32 ≤ o.rs2.toNat ∨ bits o.rs2.toNat 3 2 = 3 ∨ bits o.rs2.toNat 1 0 = 3 →
      Does (.vSetl t) s ((s.dev.vecTaken t).vecIllegal t o.pc)) ∧
    (s.dev.vecHead t (0, 0x3C) = some o → -160 ≤ toInt 64 o.rs1.toNat ∧ toInt 64 o.rs1.toNat ≤ 160 →
      Does (.vSeta t) s ((s.dev.vecTaken t).setVec t { v with tanchor := toInt 64 o.rs1.toNat })) ∧
    (s.dev.vecHead t (0, 0x3C) = some o → toInt 64 o.rs1.toNat < -160 ∨ 160 < toInt 64 o.rs1.toNat →
      Does (.vSeta t) s ((s.dev.vecTaken t).vecIllegal t o.pc)) ∧
    (s.dev.vecHead t (0, 0x3E) = some o →
      Does (.vSeed t) s ((s.dev.vecTaken t).setVec t { v with seed := o.rs1, src := o.rs2 }))) ∧
  (∀ (s : State) (t : Nat) (o : VecOp), Up s → vecLegal o.word = false →
    (∀ e ∈ vecCommands ++ vecConfigs, s.dev.vecHead t e.2 = some o → Does (e.1 t) s ((s.dev.vecTaken t).vecIllegal t o.pc)) ∧
    (∀ slot, 16 ≤ slot → slot < 64 → s.dev.vecHead t (3, 0x40 + slot) = some o →
      Does (.vSfImageSlot t) s ((s.dev.vecTaken t).vecIllegal t o.pc)))

/-- V.LD and V.LDX write to each active element the value loaded at x[rs1] plus its strided or indexed
offset; V.ST and V.STX store each active element there in ascending order; V.OCLD loads the active
elements from an operand-cache slot and V.OCEV stores them there, in whole 64-bit words where they fill
them. Shown where every access succeeds. V.LUT writes the table entry of each active
index, clamped to the last entry and then counted saturated; V.LUTLD loads 4 KiB of local memory into
the table; V.NORM writes each row's mean to element r and variance to element 8+r; V.SMEXP and V.SMDIV
write each row's softmax step at its active positions. At EW 64 V.LUT, V.NORM and the softmax steps are
illegal instructions. (R261, R267, R273, R274, R278, R296, R297, R298,
R299, R301, R302) -/
def Obligations.VectorMemoryTablesSoftmax : Prop :=
  ((∀ (s : State) (t : Nat) (o : VecOp) (v : Vec) (indexed : Bool) (vs : List (Nat × Nat)) (d' : Dev), v = vecAt s t →
    VecReady s t (3, if indexed then 0x02 else 0x00) o →
    (s.dev.vecTaken t).loadElems t v.ew (v.addrs o indexed) = (d', vs, none) → (d'.tile t).vec = v →
    ∃ v', Does (if indexed then .vLdx t else .vLd t) s (d'.setVec t v') ∧ { v' with v := v.v } = v ∧
      Rewrites v v' (rdOf o.word) (v.active (maskedForm o.word)) (loadedElem vs)) ∧
  (∀ (s : State) (t : Nat) (o : VecOp) (v : Vec) (indexed : Bool) (d' : Dev), v = vecAt s t →
    VecReady s t (3, if indexed then 0x03 else 0x01) o →
    StoredAll t ((v.addrs o indexed).map (fun e => (e.2, leBytes (v.ew / 8) (elemOf v.ew (v.reg (rdOf o.word)) e.1)))) (s.dev.vecTaken t) d' →
    Does (if indexed then .vStx t else .vSt t) s d') ∧
  (∀ (s : State) (t : Nat) (o : VecOp) (v : Vec) (vs : List (Nat × Nat)) (d' : Dev), v = vecAt s t →
    VecReady s t (3, 0x08) o →
    (s.dev.vecTaken t).loadElems t v.ew ((v.actives false).map (fun i => (i, slotVa (ocSlot o.word) + i * (v.ew / 8)))) = (d', vs, none) →
    ∃ v', Does (.vOcld t) s (d'.setVec t v') ∧ { v' with v := v.v } = v ∧
      Rewrites v v' (rdOf o.word) (v.active false) (loadedElem vs)) ∧
  (∀ (s : State) (t : Nat) (o : VecOp) (v : Vec) (bytes : List Byte) (d' : Dev), v = vecAt s t →
    VecReady s t (3, 0x09) o → bytes = leBytes (v.vl * (v.ew / 8)) (v.reg (rdOf o.word)) →
    StoredAll t (((List.range (bytes.length / 8)).map (fun k => (8 * k, 8)) ++
      (rangeFrom (bytes.length / 8 * (64 / v.ew)) (v.vl - bytes.length / 8 * (64 / v.ew))).map (fun i => (i * (v.ew / 8), v.ew / 8))).map
        (fun (p : Nat × Nat) => (slotVa (ocSlot o.word) + p.1, (bytes.drop p.1).take p.2))) (s.dev.vecTaken t) d' →
    Does (.vOcev t) s d')) ∧
  ((∀ (s : State) (t : Nat) (o : VecOp) (v : Vec) (last : Nat), v = vecAt s t → VecReady s t (3, 0x10) o →
    v.ew ≠ 64 → last = 4096 / (v.ew / 8) - 1 →
    ∃ v', Does (.vLut t) s ((s.dev.vecTaken t).setVec t v') ∧
      Rewrites v v' (rdOf o.word) (v.active (maskedForm o.word)) (fun i =>
        leNat ((List.range (v.ew / 8)).map (fun b => tget 0 v.lut (min (elemOf v.ew (v.reg (rs1Of o.word)) i) last * (v.ew / 8) + b)))) ∧
      v'.sat = satAdd32 v.sat ((v.actives (maskedForm o.word)).filter (fun i => decide (last < elemOf v.ew (v.reg (rs1Of o.word)) i))).length ∧
      v'.flushed = satAdd32 v.flushed 0 ∧ v'.src = v.src) ∧
  (∀ (s : State) (t : Nat) (o : VecOp) (v : Vec) (bs : List Byte) (d' : Dev), v = vecAt s t → VecReady s t (3, 0x11) o →
    o.rs1.toNat % 64 = 0 → o.rs1.toNat / 2 ^ 60 = 15 →
    LoadedAll t 64 ((List.range 64).map (fun i => (o.rs1.toNat + 64 * i) % 2 ^ 64)) (s.dev.vecTaken t) d' bs →
    Does (.vLutld t) s (d'.setVec t { v with lut := byteTable bs })) ∧
  (∀ (s : State) (t : Nat) (o : VecOp) (v : Vec) (row : Nat → Enc × Enc), v = vecAt s t → VecReady s t (3, 0x18) o →
    v.ew ≠ 64 →
    (∀ r, row r = v.norm ((v.actives (maskedForm o.word)).map (fun i => elemOf v.ew (v.reg (rs1Of o.word + r)) i))) →
    ∃ v', Does (.vNorm t) s ((s.dev.vecTaken t).setVec t v') ∧
      Rewrites v v' (rdOf o.word) (fun i => decide (i < 16)) (fun i => if i < 8 then (row i).1.code else (row (i - 8)).2.code) ∧
      Counts v v' ((List.range 8).map (fun r => (row r).1) ++ (List.range 8).map (fun r => (row r).2)) false) ∧
  (∀ (s : State) (t : Nat) (o : VecOp) (v : Vec), v = vecAt s t → v.ew ≠ 64 →
    (VecReady s t (3, 0x19) o → Does (.vSmexp t) s ((s.dev.vecTaken t).setVec t (v.rows (rdOf o.word) (rs1Of o.word) (maskedForm o.word) false
      (fun r _ x => v.smexp x (elemOf v.ew (v.reg (rs2Of o.word)) r))))) ∧
    (VecReady s t (3, 0x1A) o → Does (.vSmdiv t) s ((s.dev.vecTaken t).setVec t (v.rows (rdOf o.word) (rs1Of o.word) (maskedForm o.word) true
      (fun r i x => v.smdiv (v.mode (r * (8192 / v.ew) + i)) x (elemOf v.ew (v.reg (rs2Of o.word)) r)))))) ∧
  (∀ (s : State) (t : Nat) (o : VecOp), (vecAt s t).ew = 64 →
    ∀ e ∈ [((fun t => Instr.vLut t), 0x10), (.vNorm, 0x18), (.vSmexp, 0x19), (.vSmdiv, 0x1A)], VecReady s t (3, e.2) o →
      Does (e.1 t) s ((s.dev.vecTaken t).vecIllegal t o.pc)))

/-- V.SF of each shipped slot 0 to 15, and of a loaded image slot that supports the width, writes to each
active element its special value or the micro-program's result, and counts saturated and flushed
results. An empty slot, EW 64, and a width that the loaded function does not support are illegal
instructions. (R289, R290, R291, R292, R293, R294) -/
def Obligations.VectorSpecialFunctions : Prop :=
  ∀ (c : Nat → Instr) (slot : Nat) (s : State) (t : Nat) (o : VecOp) (v : Vec) (enc : Nat → Enc),
    ((c, slot) ∈ vecSfOps ∨ (c = (fun t => .vSfImageSlot t) ∧ 16 ≤ slot ∧ slot < 64)) →
    v = vecAt s t → VecReady s t (3, 0x40 + slot) o →
    (∀ i, enc i = v.sf (s.dev.tile t).sfVersion slot (elemOf v.ew (v.reg (rs1Of o.word)) i)) →
    (v.ew ≠ 64 → bit (s.dev.tile t).sfLoaded slot = true → (16 ≤ slot → Config.slotSupports (s.dev.tile t).sfVersion slot v.ew = true) →
      ∃ v', Does (c t) s ((s.dev.vecTaken t).setVec t v') ∧
        Rewrites v v' (rdOf o.word) (v.active (maskedForm o.word)) (fun i => (enc i).code) ∧
        Counts v v' ((v.actives (maskedForm o.word)).map enc) false) ∧
    (v.ew = 64 ∨ bit (s.dev.tile t).sfLoaded slot = false ∨
        (16 ≤ slot ∧ Config.slotSupports (s.dev.tile t).sfVersion slot v.ew = false) → Does (c t) s ((s.dev.vecTaken t).vecIllegal t o.pc))

/-- While VL is 0, every vector instruction other than V.SETL, V.SETA and V.SEED accesses no memory, raises
no fault and leaves every register unchanged: the command takes it from the queue and changes nothing
else. (R260) -/
def Obligations.VectorNoOpAtZeroLength : Prop :=
  (∀ e ∈ vecCommands, ∀ (s : State) (t : Nat) (o : VecOp),
    Up s → s.dev.vecHead t e.2 = some o → vecLegal o.word = true → (vecAt s t).vl = 0 → Does (e.1 t) s (s.dev.vecTaken t)) ∧
  (∀ (s : State) (t slot : Nat) (o : VecOp), 16 ≤ slot → slot < 64 →
    Up s → s.dev.vecHead t (3, 0x40 + slot) = some o → vecLegal o.word = true → (vecAt s t).vl = 0 → Does (.vSfImageSlot t) s (s.dev.vecTaken t))

/-- When a V instruction of the integer, float, comparison, mask, selection or conversion tables whose source
is a register completes, every byte of memory reads as before, every other tile is unchanged, its tile
changes only in its vector engine, and every other part of the device is unchanged. (R261, R265) -/
def Obligations.VectorRegisterFrame : Prop :=
  ∀ (e : (Nat → Instr) × Nat × Nat), e ∈ vecIntOps.map (fun e => (e.1, 0, e.2.1)) ++ vecFloatOps.map (fun e => (e.1, 0, e.2.1)) ++
      vecCmpOps.map (fun e => (e.1, 0, e.2.1)) ++ vecMaskOps.map (fun e => (e.1, 0, e.2.1)) ++
      [(.vSel, 0, 0x0E), (.vFmin, 0, 0x15), (.vFmax, 0, 0x16), (.vCvtif, 0, 0x30), (.vCvtfi, 0, 0x31)] →
    ∀ (s u : State) (t : Nat) (o : VecOp), VecReady s t e.2 o → wbits o.word 13 12 ≠ 3 → exec (e.1 t) s = .next u →
    (∀ a, u.dev.mem.byte a = s.dev.mem.byte a) ∧ u.pending = s.pending ∧
    (∀ k, k ≠ t → u.dev.tile k = s.dev.tile k) ∧ { u.dev.tile t with vec := (s.dev.tile t).vec } = s.dev.tile t ∧
    { u.dev with tiles := s.dev.tiles, mem := s.dev.mem } = s.dev

/-- For every crane operation that works unit by unit (CONVERT, GATHER, BAGSUM, SCATTER_ADD, SPARSE28, the
five random outputs, BERNOULLI and BLOCKMAX), when every unit of the released slice is computed and
written with success the command carries out the slice: the device is what the units leave, with the
slice marked as carried out. When the units before unit u of the slice succeed and unit u meets a
segment violation, a non-present page, poison or malformed data, the item ends at the position of u with
the failure's status, and no later unit is worked. (R77, R346, R347, R348, R354, R357, R363, R371, R373,
R472, R474) -/
def Obligations.CraneUnitsAndFailures : Prop :=
  (∀ e ∈ craneUnitOps, ∀ (s : State) (ring index : Nat) (it : Item) (d' : Dev),
    CraneNext s ring index e.2.1 e.2.2.1 it →
    Carried it (e.2.2.2.2 it) (cdiv it.sliceEnd e.2.2.2.1 - it.pos / e.2.2.2.1) (it.pos / e.2.2.2.1) s.dev d' →
    Does (e.1 ring index) s (d'.sliceDone ring index)) ∧
  (∀ e ∈ craneUnitOps, ∀ (s : State) (ring index : Nat) (it : Item) (m : Nat) (d' d1 : Dev) (x : UErr),
    CraneNext s ring index e.2.1 e.2.2.1 it → m < cdiv it.sliceEnd e.2.2.2.1 - it.pos / e.2.2.2.1 →
    Carried it (e.2.2.2.2 it) m (it.pos / e.2.2.2.1) s.dev d' →
    (it.eng.unit (e.2.2.2.2 it) (it.pos / e.2.2.2.1 + m)).go d' = (d1, .error x) →
    Does (e.1 ring index) s (d1.engFail it (e.2.2.2.1 * (it.pos / e.2.2.2.1 + m)) x))

/-- For STREAM, SORT_ASC, SORT_DESC, TOPK_MAX, TOPK_MIN, ANCHOR, HIST and FFT, when the work of the released
slice succeeds the command adds its counts to the item and marks the slice as carried out; when it
fails, the item ends at the position that the work has noted as reached. The FFT's results are free values within the manual's bound (log
entry 12). A digest item reads the KiB of its slice; a slice that is not the last is then carried out;
the last slice reads the rest of the message and writes its SHA3-256 or CRC-32C digest at the
destination. (R346, R347, R362, R365, R366, R367, R369, R372, R374, R375) -/
def Obligations.CraneSlicesAndDigests : Prop :=
  ((∀ e ∈ craneSliceOps, ∀ (s : State) (ring index : Nat) (it : Item) (d' : Dev),
    CraneNext s ring index e.2.1 e.2.2.1 it →
    (∀ r, (e.2.2.2 it).go s.dev = (d', .ok r) → Does (e.1 ring index) s ((d'.countItem ring index r.sat r.flushed).sliceDone ring index)) ∧
    (∀ x, (e.2.2.2 it).go s.dev = (d', .error x) →
      Does (e.1 ring index) s (d'.engFail it (((d'.item? ring index).map (·.pos)).getD it.pos) x))) ∧
  (∀ (s : State) (ring index : Nat) (it : Item) (d' : Dev),
    CraneNext s ring index 4 it.cop it →
    (∀ r, (it.fftSlice it.eng).go s.dev = (d', .ok r) → Does (.fft ring index) s ((d'.countItem ring index r.sat r.flushed).sliceDone ring index)) ∧
    (∀ x, (it.fftSlice it.eng).go s.dev = (d', .error x) →
      Does (.fft ring index) s (d'.engFail it (((d'.item? ring index).map (·.pos)).getD it.pos) x)))) ∧
  (∀ e ∈ [((fun r i => Instr.sha3256 r i), 0, false), ((fun r i => Instr.crc32c r i), 1, true)],
    ∀ (s : State) (ring index : Nat) (it : Item) (d1 : Dev), CraneNext s ring index 6 e.2.1 it →
    Carried it (it.digestUnit it.eng) (it.sliceEnd - it.pos) it.pos s.dev d1 →
    (it.sliceEnd < it.last → Does (e.1 ring index) s (d1.sliceDone ring index)) ∧
    (it.last ≤ it.sliceEnd → ∀ d2 d3 bs, (it.readMsg it.eng (1024 * it.sliceEnd) (it.msgLen - 1024 * it.sliceEnd)).go d1 = (d2, .ok ()) →
      bs = ((d2.item? ring index).map (·.bytes)).getD [] →
      (it.eng.commit ⟨[(it.w 3, if e.2.2 then leBytes 4 (crc32c bs).toNat else sha3 bs)], 0, 0⟩).go d2 = (d3, .ok ()) →
      Does (e.1 ring index) s ((d3.countItem ring index 0 0).sliceDone ring index)))

/-- For every key K1:K0 and every 64-bit position, RAND is the stated sequence of a multiplication and
addition, two xor-shift-multiplications and the final xor-shift, computed modulo 2^64. (R370) -/
def Obligations.CraneRandGenerator : Prop :=
  ∀ (k0 k1 pos : W64) (z1 z2 z3 z4 : Nat),
    z1 = (pos.toNat * 0xD6E8FEB86659FD93 + k0.toNat) % 2 ^ 64 →
    z2 = (z1 ^^^ (z1 / 2 ^ 32)) * 0xA3B195354A39B70D % 2 ^ 64 →
    z3 = z2 ^^^ k1.toNat →
    z4 = (z3 ^^^ (z3 / 2 ^ 29)) * 0x5DEECE66D1CE4E5B % 2 ^ 64 →
    (craneRand k0 k1 pos).toNat = z4 ^^^ (z4 / 2 ^ 32)

/-- U32 and U64 write RAND's low 4 or all 8 bytes, UNIFORM_F32 and UNIFORM_F64 write RAND[63:40] x 2^-24 and
RAND[63:11] x 2^-53, and a byte of BERNOULLI has bit i mod 8 set exactly when i is below n and
RAND[31:0] of position P0 + i is less than p. For one index of GATHER: when the index is below R the
unit's one write is the table row of that index at the destination row, and nothing is counted; an index
of R or more writes a row of zeros and counts once as saturated. SCATTER_ADD skips such an index and
counts it once. (R357, R358, R371) -/
def Obligations.CraneUnitResults : Prop :=
  (∀ (it : Item) (i r : Nat), r = (craneRand (BitVec.ofNat 64 (it.w 2)) (BitVec.ofNat 64 (it.w 4)) (BitVec.ofNat 64 (it.w 6 + i))).toNat →
    it.randUnit 0 i = ⟨[(vaAdd (it.w 3) (i * 4 : Nat), leBytes 4 (r % 2 ^ 32))], 0, 0⟩ ∧
    it.randUnit 1 i = ⟨[(vaAdd (it.w 3) (i * 8 : Nat), leBytes 8 r)], 0, 0⟩ ∧
    it.randUnit 2 i = ⟨[(vaAdd (it.w 3) (i * 4 : Nat), leBytes 4 (fpF32.rne (.of (QR.ofRat (r / 2 ^ 40 % 2 ^ 24) (2 ^ 24)))))], 0, 0⟩ ∧
    it.randUnit 3 i = ⟨[(vaAdd (it.w 3) (i * 8 : Nat), leBytes 8 (fpF64.rne (.of (QR.ofRat (r / 2 ^ 11 % 2 ^ 53) (2 ^ 53)))))], 0, 0⟩ ∧
    (∃ b, b < 256 ∧ it.bernoulliUnit (i / 8) = ⟨[(vaAdd (it.w 3) (i / 8 : Nat), leBytes 1 b)], 0, 0⟩ ∧
      b.testBit (i % 8) = (decide (i < it.f 5 31 0) && decide (r % 2 ^ 32 < it.f 7 31 0)))) ∧
  (∀ (it : Item) (e : Eng) (p i : Nat) (d d1 : Dev), (it.gIndex e p).go d = (d1, .ok i) →
    (∀ d2 bs, i < it.gR → (e.rd (vaAdd (it.w 2) (i * it.rowBytes : Nat)) it.rowBytes).go d1 = (d2, .ok bs) →
      (it.gatherUnit e p).go d = (d2, .ok ⟨[(vaAdd (it.w 3) (p * it.rowBytes : Nat), bs)], 0, 0⟩)) ∧
    (it.gR ≤ i → (it.gatherUnit e p).go d = (d1, .ok ⟨[(vaAdd (it.w 3) (p * it.rowBytes : Nat), List.replicate it.rowBytes 0)], 1, 0⟩) ∧
      (it.scatterUnit e p).go d = (d1, .ok ⟨[], 1, 0⟩)))

/-- CRANE_FENCE marks the crane FENCED, counts the fault and logs code 0x9310 with its locator. The item whose
slice it holds ends FAIL_HW at the position reached. Its queued items under ANY go to the crane of the
same kind on the nearest deck, but a sort or FFT that has run a slice and has its scratch elsewhere ends
FAIL_INVALID at position 0; its other queued items, and all of them where no other deck's crane is left,
end FAIL_HW. A crane already fenced is left as it is. WHARF_FENCE of a complex not yet fenced leaves
WHF_STATUS.STATE FENCED with FALLBACK set and no wave on the stack, logs code 0x9320 with the stack's
locator, ends FAIL_HW every checked WHARF item without a status that has a part on the stack, and changes
no item that shares no ring and index with such a one; with no wave in hand on any stack, nothing but
items, registers and the log changes. Which lines a wave in progress leaves written is free (log entry
15). A complex already fenced is left as it is. (R341, R349, R376, R408, R409) -/
def Obligations.EnginesAreFenced : Prop :=
  (∀ (s : State) (deck kind : Nat), Up s → deck < 8 → kind < 8 →
    ((tget Crane.new s.dev.cranes (8 * deck + kind)).fenced = true → Does (.craneFence deck kind) s s.dev) ∧
    ((tget Crane.new s.dev.cranes (8 * deck + kind)).fenced = false → ∃ d' n, Does (.craneFence deck kind) s d' ∧
      n = ((((s.dev.modCrane (8 * deck + kind) (fun c => { c with fenced := true, resetUntil := none })).put
        F.dckCraneStatus_STATE 2 (8 * deck + kind)).addSat F.dckCraneStatus_FAULTS 1 (8 * deck + kind)).note 0x9310 (locCrane deck kind)) ∧
      { d' with items := n.items, regs := n.regs } = n ∧ d'.get F.dckCraneStatus_STATE (8 * deck + kind) = 2 ∧
      d'.items.length = n.items.length ∧
      ∀ (k : Nat) (it it' : Item), n.items[k]? = some it → d'.items[k]? = some it' →
        (it.typ ≠ tCrane ∨ it.assigned = false ∨ it.engine ≠ 8 * deck + kind ∨ it.status.isSome = true → it' = it) ∧
        (it.typ = tCrane → it.assigned = true → it.engine = 8 * deck + kind → it.status = none →
          (n.craneHolds (8 * deck + kind) = some (it.ring, it.index) → it'.status = some 0x13 ∧ it'.pos = it.reached ∧ it'.phase = .finished) ∧
          (n.craneHolds (8 * deck + kind) ≠ some (it.ring, it.index) →
            (it.cdeck ≠ 15 ∨ n.nearestCrane deck kind = none → it'.status = some 0x13 ∧ it'.phase = .finished) ∧
            (∀ j, it.cdeck = 15 → n.nearestCrane deck kind = some j →
              (it.started = true ∧ n.scratchLost { it with engine := 8 * j + kind } = true →
                it'.status = some 0x16 ∧ it'.pos = 0 ∧ it'.phase = .finished) ∧
              (it.started = false ∨ n.scratchLost { it with engine := 8 * j + kind } = false → it' = { it with engine := 8 * j + kind })))))) ∧
  (∀ (s : State) (stack : Nat), Up s → stack < 16 →
    ((tget Stack.new s.dev.hbmStacks stack).fenced = true → Does (.wharfFence stack) s s.dev) ∧
    ((tget Stack.new s.dev.hbmStacks stack).fenced = false → ∃ d', Does (.wharfFence stack) s d' ∧
      (tget Stack.new d'.hbmStacks stack).waves = [] ∧ (tget Stack.new d'.hbmStacks stack).fenced = true ∧
      d'.get F.whfStatus_STATE stack = 2 ∧ d'.get F.whfStatus_FALLBACK stack = 1 ∧
      (∃ m : Dev, d'.log = (m.note 0x9320 (locStack stack)).log) ∧ d'.items.length = s.dev.items.length ∧
      (∀ (k : Nat) (it it' : Item), s.dev.items[k]? = some it → d'.items[k]? = some it' →
        (it.typ = tWharf → it.checked = true → it.status = none → stack ∈ s.dev.wharfStacks it → it'.status = some 0x13 ∧ it'.phase = .finished) ∧
        ((∀ o ∈ s.dev.items, o.ring = it.ring → o.index = it.index →
          o.typ ≠ tWharf ∨ o.checked = false ∨ o.status.isSome = true ∨ stack ∉ s.dev.wharfStacks o) → it' = it)) ∧
      ((∀ e ∈ s.dev.hbmStacks, e.2.waves = []) → { d' with items := s.dev.items, regs := s.dev.regs, log := s.dev.log, hbmStacks := s.dev.hbmStacks } = s.dev)))

/-- For AXPY, SCALE, REDUCE_ADD, the four optimizers, GATHER, BAGSUM, SCATTER_ADD, FILL and COPY: when the
waves of the released slice are read and written with success one after another, the command carries out
the slice, with the complexes of the item's stacks working for its context. When the waves before wave j
are carried out and the read phase of wave j fails, the item ends at the first position of wave j with
the failure's status; so it does when a write of wave j fails. A FACTORED item that meets an infinite or
NaN g ends as soon as pass 1 has, with what it has counted. (R380, R381, R383, R389, R394, R395, R397,
R398, R399, R400, R401, R409) -/
def Obligations.WharfWavesAndFaults : Prop :=
  (∀ e ∈ wharfOps, ∀ (s : State) (ring index : Nat) (it : Item) (d' : Dev),
    WharfNext s ring index it → it.wop = e.2.1 → e.2.2 it.slot = true →
    Waved it (s.dev.wharfStacks it) it.sliceWaves (s.dev.wharfBegun it) d' →
    Does (e.1 ring index) s (d'.wharfSliceDone it)) ∧
  (∀ e ∈ wharfOps, ∀ (s : State) (ring index : Nat) (it : Item) (before after : List Nat) (j : Nat) (d1 d2 : Dev),
    WharfNext s ring index it → it.wop = e.2.1 → e.2.2 it.slot = true →
    it.sliceWaves = before ++ j :: after → Waved it (s.dev.wharfStacks it) before (s.dev.wharfBegun it) d1 →
    (∀ x, (it.wholePhase (s.dev.wharfStacks it) j).go d1 = (d2, .error x) →
      Does (e.1 ring index) s (d2.engFail it (max it.pos (j * it.waveLen)) x)) ∧
    (∀ ws, (it.wholePhase (s.dev.wharfStacks it) j).go d1 = (d2, .ok ws) →
      (∀ d3, it.endsPass1 j = true → d2.facStop it = some d3 → Does (e.1 ring index) s d3) ∧
      (∀ d3 x, (it.endsPass1 j = true → d2.facStop it = none) → d2.writeWaves (ws.map (·.2)) = (d3, some x) →
        Does (e.1 ring index) s (d3.engFail it (max it.pos (j * it.waveLen)) (.acc (accFail x) it.primary.1)))))

/-- For finite y and x of any format and a finite scalar a, the element AXPY writes is the exact a*x + y
rounded once by the mode and FLUSH, SCALE's is a*y, and a float REDUCE_ADD's is y + x. A complex of the
item's stacks that has read every earlier wave, with no earlier item's wave before it, reads its part of
the wave: the wave, with its lines locked and its results staged, is in hand on the stack, and the
complex is BUSY for the item's context. Where another wave holds one of the lines it waits, with nothing
changed, and a fault it meets is noted as the item's. FACTORED items read a wave on every complex once
each has reached it, those of pass 3 once the wave that ends pass 2 is written. While some complex of the
item has not finished the read phase of this wave or an earlier one without a fault, WAVE_WRITE_PHASE
does nothing. Once all have, the complex's wave leaves its stack, its staged results are written, its
counts are added, its locks are released, and the wave counts as written on that stack. (R380, R381,
R382, R383, R394, R395, R401, R409) -/
def Obligations.WavesAndTheirElements : Prop :=
  (∀ (yf xf a y x : Nat) (m : Mode) (fl : Bool) (qa qy qx : QR) (za zy zx : Bool),
    fpF32.decode a = .fin qa za → decodeFmt yf 7 y = .fin qy zy → decodeFmt xf 7 x = .fin qx zx →
    (∃ z, axpyElem 0 yf xf a m fl y x = encodeFmt yf 7 m fl (.fin ((qa.mul qx).add qy) z)) ∧
    (∃ z, axpyElem 1 yf xf a m fl y x = encodeFmt yf 7 m fl (.fin (qa.mul qy) z)) ∧
    (∃ z, axpyElem 2 yf xf a m fl y x = encodeFmt yf 7 m fl (.fin (qy.add qx) z))) ∧
  ((∀ (s : State) (ring index stack wave : Nat) (it : Item) (seen : Dev),
    Up s → InHand s ring index it → it.typ = tWharf → stack < 16 → stack ∈ s.dev.wharfStacks it → wave ∈ it.sliceWaves →
    (stack, wave) ∉ it.wavesRead → (∀ j ∈ it.sliceWaves, j < wave → (stack, j) ∈ it.wavesRead) →
    s.dev.waveBlocked it [stack] = false → (tget Stack.new s.dev.hbmStacks stack).fenced = false →
    seen = s.dev.waveSeen it stack wave →
    (it.factored = false → ∀ d1,
      (∀ w, (it.readPhase stack wave).go s.dev = (d1, .ok w) →
        (d1.linesHeld w = false → Does (.waveReadPhase ring index stack wave) s
          ((d1.waveSeen it stack wave).modStack stack (fun x => { x with waves := x.waves ++ [w] }))) ∧
        (d1.linesHeld w = true → Does (.waveReadPhase ring index stack wave) s s.dev)) ∧
      (∀ x va, (it.readPhase stack wave).go s.dev = (d1, .error (.acc x va)) → Does (.waveReadPhase ring index stack wave) s
        (((d1.waveSeen it stack wave).modItem ring index (fun i => i.noteFault wave x.status va)).waveSettle ring index)) ∧
      ((it.readPhase stack wave).go s.dev = (d1, .error .invalid) → Does (.waveReadPhase ring index stack wave) s
        (((d1.waveSeen it stack wave).modItem ring index (fun i => i.noteFault wave 0x16 0)).waveSettle ring index))) ∧
    (it.factored = true →
      (it.pass2Wave < wave → (∃ j ∈ it.sliceWaves, j ≤ it.pass2Wave ∧ ∃ k ∈ s.dev.wharfStacks it, (k, j) ∉ it.wavesDone) →
        Does (.waveReadPhase ring index stack wave) s s.dev) ∧
      (wave ≤ it.pass2Wave ∨ (∀ j ∈ it.sliceWaves, j ≤ it.pass2Wave → ∀ k ∈ s.dev.wharfStacks it, (k, j) ∈ it.wavesDone) →
        ((∃ k ∈ seen.wharfStacks it, k ≠ stack ∧ (k, wave) ∉ it.wavesRead) →
          Does (.waveReadPhase ring index stack wave) s (seen.waveSettle ring index)) ∧
        ((∀ k ∈ seen.wharfStacks it, k = stack ∨ (k, wave) ∈ it.wavesRead) → ∀ d1 ws,
          (it.facPhase (seen.wharfStacks it) wave).go seen = (d1, .ok ws) → (it.endsPass1 wave = true → d1.facStop it = none) →
          ((∀ w ∈ ws, d1.linesHeld w.2 = false) → Does (.waveReadPhase ring index stack wave) s
            ((ws.foldl (fun d w => d.modStack w.1 (fun x => { x with waves := x.waves ++ [w.2] })) d1).waveSettle ring index)) ∧
          ((∃ w ∈ ws, d1.linesHeld w.2 = true) → Does (.waveReadPhase ring index stack wave) s s.dev))))) ∧
  (∀ (s : State) (ring index stack wave : Nat) (it : Item), Up s → InHand s ring index it → it.typ = tWharf → wave ∈ it.sliceWaves →
    ((∃ k j, k ∈ s.dev.wharfStacks it ∧ j ∈ it.sliceWaves ∧ j ≤ wave ∧ (k, j) ∉ it.wavesRead) ∨ (∃ f, it.waveFault = some f ∧ f.1 ≤ wave) →
      Does (.waveWritePhase ring index stack wave) s s.dev) ∧
    (∀ (w : Wave) (d1 d2 : Dev), stack ∈ s.dev.wharfStacks it → (stack, wave) ∉ it.wavesDone → (∀ f, it.waveFault = some f → wave < f.1) →
      (∀ k ∈ s.dev.wharfStacks it, ∀ j ∈ it.sliceWaves, j ≤ wave → (k, j) ∈ it.wavesRead) →
      (tget Stack.new s.dev.hbmStacks stack).waves.filter (fun w => w.ring == ring && w.index == index && w.wave == wave) = [w] →
      d1 = (s.dev.modStack stack (fun x => { x with waves := x.waves.filter (fun w => !(w.ring == ring && w.index == index && w.wave == wave)) })).modItem
        ring index (fun i => if (s.dev.wharfStacks it).all (fun k => (i.wavesDone ++ [(stack, wave)]).contains (k, wave)) = true
          then { i with wavesDone := i.wavesDone ++ [(stack, wave)], waved := min i.sliceEnd ((wave + 1) * i.waveLen) }
          else { i with wavesDone := i.wavesDone ++ [(stack, wave)] }) →
      d1.writeWave w = (d2, none) →
      Does (.waveWritePhase ring index stack wave) s (((d2.countItem ring index w.sat w.flushed).unlock [w]).waveSettle ring index))))

/-- A released FENCE of either scope and a released WAIT complete OK. SIGNAL ADD adds VALUE to its event
modulo 2^64 and SIGNAL SET writes it; both then complete OK. No other event, no other item and nothing
else changes. Each of the four hint commands completes its released HINT OK and leaves exactly one hint
of its context: its phase, from tide n + OFFSET + 1 for DURATION tides, or until replaced when DURATION
is 0. Hints of other contexts stay. SLICE_COMPLETE advances the position to the slice's end, or ends the
item OK at its last position. RECORD_WRITE of a finished item writes its record at CQ_PI with INDEX,
TAG, POSITION, PHASE, TYPE, STATUS, both counts and DETAIL in their words: in a ring that is not HELD the
record of an item of a type without an engine, connection or interrupt of its own moves CQ_PI on, is
counted, and takes the item out of hand. It does nothing for an item that is not finished. DETAIL of an
item that succeeded and is no launch counts reference cycles in whole ones (model's choice, log entry
36). (R76, R428, R430, R431, R437, R442, R444, R452, R582, R583) -/
def Obligations.ItemsTakeEffectAndRecord : Prop :=
  ((∀ (s : State) (ring index : Nat) (it : Item), Up s → InHand s ring index it →
    (it.typ = tFence → it.f 1 0 0 = 0 → Does (.fenceRing ring index) s (s.dev.finish ring index 0)) ∧
    (it.typ = tFence → it.f 1 0 0 = 1 → Does (.fenceContext ring index) s (s.dev.finish ring index 0)) ∧
    (it.typ = tWait → Does (.wait ring index) s (s.dev.finish ring index 0)) ∧
    (∀ c v, it.typ = tSignal →
      ((it.f 1 16 16 = 0 ∧ c = Instr.signalAdd ring index ∧ v = s.dev.event it.event + BitVec.ofNat 64 (it.w 2)) ∨
       (it.f 1 16 16 = 1 ∧ c = Instr.signalSet ring index ∧ v = BitVec.ofNat 64 (it.w 2))) →
      ∃ d', Does c s d' ∧ d'.event it.event = v ∧ (∀ e, e ≠ it.event → d'.event e = s.dev.event e) ∧
        d'.item? ring index = some (it.finish 0) ∧ (∀ r i, (r, i) ≠ (ring, index) → d'.item? r i = s.dev.item? r i) ∧
        { d' with events := s.dev.events, items := s.dev.items } = s.dev)) ∧
  (∀ e ∈ hintOps, ∀ (s : State) (ring index : Nat) (it : Item) (n : Nat), Up s → InHand s ring index it → it.typ = tHint → it.f 1 3 0 = e.2 →
    n = s.dev.get F.tideCount_VALUE →
    Does (e.1 ring index) s (({ s.dev with power := { s.dev.power with hints := s.dev.power.hints.filter (fun h => h.ctx != it.ctx) ++
      [{ ctx := it.ctx, kind := e.2, first := n + it.f 1 15 8 + 1,
         last := if it.f 1 31 16 = 0 then none else some (n + it.f 1 15 8 + it.f 1 31 16) }] } } : Dev).finish ring index 0))) ∧
  ((∀ (s : State) (ring index : Nat) (it : Item), Up s → s.dev.item? ring index = some it → it.phase = .sliceDone →
    (it.last ≤ it.sliceEnd → Does (.sliceComplete ring index) s ((s.dev.finishAt ring index 0 it.last).craneIdle it)) ∧
    (it.sliceEnd < it.last → Does (.sliceComplete ring index) s
      ((s.dev.modItem ring index (fun x => { x with pos := x.sliceEnd, phase := .between })).craneIdle it))) ∧
  (∀ (s : State) (ring index : Nat) (it : Item), Up s → s.dev.item? ring index = some it →
    (it.phase = .finished → s.dev.launch? ring index = none → Does (.recordWrite ring index) s (s.dev.writeRecord it).1) ∧
    (it.phase ≠ .finished → Does (.recordWrite ring index) s s.dev)) ∧
  (∀ (d : Dev) (it : Item) (j st : Nat), it.index < 2 ^ 32 → it.pos < 2 ^ 32 → it.sat < 2 ^ 32 → it.flushed < 2 ^ 32 → it.status = some st → st < 256 →
    leNat ((d.recordBytes it j).take 8) = it.index * 2 ^ 32 + it.tag ∧
    leNat (((d.recordBytes it j).drop 8).take 8) = (if it.sliced then it.pos else 0) * 2 ^ 32 + phaseOf j (d.cqLog it.ring) * 2 ^ 16 + it.typ * 2 ^ 8 + st ∧
    leNat (((d.recordBytes it j).drop 16).take 8) = it.sat * 2 ^ 32 + it.flushed ∧
    leNat (((d.recordBytes it j).drop 24).take 8) =
      (if st = 0 ∧ it.isLaunch = false then (d.now - it.relNs) * 7 / 10 else it.detail.toNat) % 2 ^ 64) ∧
  (∀ (d d1 : Dev) (it : Item), d.ringState it.ring ≠ 3 → it.irq = false →
    (d.get F.hmRingMsi_ERR_IRQ it.ring = 0 ∨ it.status = some 0 ∨ it.status = some 1) →
    it.typ ≠ tCrane → it.typ ≠ tMaint → it.typ ≠ tRemote → it.typ ≠ tCollective →
    d.hubWrite (d.cqBase it.ring + d.cqPi it.ring % 2 ^ d.cqLog it.ring * 32) (d.recordBytes it (d.cqPi it.ring)) = .ok d1 →
    d.writeRecord it = (((({ ((d1.addWrap F.hmRecordCount_RECORDS 1).put F.hmRingIndex_CQ_PI (d.cqPi it.ring + 1) it.ring) with
      items := d1.items.filter (fun o => !(o.ring == it.ring && o.index == it.index))
      closing := d1.closing.filter (fun c => c != (it.ring, it.index)) } : Dev).writeShadow it.ring).drained it.ring), true)))

/-- When every element of the released slice is copied with success the slice is carried out, and what the
item has overwritten is kept for its next slice (log entry 57); when element p
is the first whose source cannot be read or destination cannot be written, the item ends at position p
with the failure and its VA. For position p of a MOVE with index vector i0 to i4, dimension 0 fastest,
the source VA is W2 plus the element size times the sum of i_d x source stride_d, and the destination VA
is W3 plus the same with the destination strides, modulo 2^64. A released INLINE_WRITE writes the first
LENGTH of its data bytes at its VA in one access; when that succeeds it completes OK, and when it fails
the item ends at position 0 with the failure. (R77, R433, R434, R436, R438, R444,
R472, R474) -/
def Obligations.MovesAndInlineWrites : Prop :=
  (∀ (s : State) (ring index : Nat) (it : Item) (d1 : Dev) (o : Overwritten), Up s → InHand s ring index it → it.typ = tMove →
    (Moved it (it.sliceEnd - it.pos) it.pos it.overwritten s.dev o d1 → Does (.move ring index) s (d1.moveSliced ring index o)) ∧
    (∀ m d2 x va, m < it.sliceEnd - it.pos → Moved it m it.pos it.overwritten s.dev o d1 → d1.moveElem it o (it.pos + m) = (d2, .error (x, va)) →
      Does (.move ring index) s (d2.xfail ring index (it.pos + m) x va))) ∧
  (∀ (it : Item) (n0 n1 n2 n3 n4 i0 i1 i2 i3 i4 : Nat), it.dims = [n0, n1, n2, n3, n4] →
    i0 < n0 → i1 < n1 → i2 < n2 → i3 < n3 → i4 < n4 →
    it.moveAddr (i0 + n0 * (i1 + n1 * (i2 + n2 * (i3 + n3 * i4)))) =
      (((((it.w 2 : Int) + it.elemSize * (i0 * it.stride 3 + i1 * it.stride 4 + i2 * it.stride 5 + i3 * it.stride 6 + i4 * it.stride 7)) % 2 ^ 64).toNat),
       ((((it.w 3 : Int) + it.elemSize * (i0 * it.stride 8 + i1 * it.stride 9 + i2 * it.stride 10 + i3 * it.stride 11 + i4 * it.stride 12)) % 2 ^ 64).toNat))) ∧
  (∀ (s : State) (ring index : Nat) (it : Item) (d' : Dev), Up s → InHand s ring index it → it.typ = tInline →
    it.inlineData = (leBytes 8 (it.w 3) ++ leBytes 8 (it.w 4) ++ leBytes 8 (it.w 5) ++ leBytes 8 (it.w 6) ++ leBytes 8 (it.w 7)).take (it.w 2 % 64) ∧
    (s.dev.dmaWrite .harbourmaster it.ctx (BitVec.ofNat 64 (it.w 1)) it.inlineData = (d', .ok ()) →
      Does (.inlineWrite ring index) s (d'.finish ring index 0)) ∧
    (∀ x, s.dev.dmaWrite .harbourmaster it.ctx (BitVec.ofNat 64 (it.w 1)) it.inlineData = (d', .error x) →
      Does (.inlineWrite ring index) s (d'.xfail ring index 0 x (it.w 1))))

/-- The WHOLE and RANGE commands mark every covered descriptor and page entry of every translation cache
stale and begin to drain; SEG_INVAL_DRAINED does nothing while a wave of the context is in flight, and
then removes the stale entries it covers, counts the invalidation and completes OK. A TEARDOWN of
context 0, or of a context being torn down, is an error response. Otherwise the context's state becomes
TEARDOWN, its rings are STOPPED, its running items end and its running launches fail
FAIL_CONTEXT_KILLED, and the other items end FAIL_CANCELLED. Once no launch of it remains, its cache lines and translations are removed, its
connections close, its fault record is cleared, it is LIVE again and code 0x6211 is logged. (R476, R477,
R481, R482) -/
def Obligations.ContextWithdrawal : Prop :=
  (∀ (s : State) (ring index : Nat) (it : Item), Up s → InHand s ring index it → it.typ = tSegInval →
    (∀ whole, it.b 1 22 = whole → (ring, index) ∉ s.dev.draining →
      Does (if whole then .segInvalWhole ring index else .segInvalRange ring index) s ({ s.dev with
        xlat := s.dev.xlat.map (fun e => (e.1, ⟨e.2.segs.map (fun x => if it.coversSeg x then { x with stale := true } else x),
          e.2.pages.map (fun p => if it.coversPage p then { p with stale := true } else p)⟩))
        draining := s.dev.draining ++ [(ring, index)] } : Dev)) ∧
    ((ring, index) ∈ s.dev.draining →
      ((∃ k ∈ s.dev.hbmStacks, ∃ w ∈ k.2.waves, ∃ o, s.dev.item? w.ring w.index = some o ∧ o.ctx = it.invCtx) → Does (.segInvalDrained ring index) s s.dev) ∧
      ((∀ k ∈ s.dev.hbmStacks, ∀ w ∈ k.2.waves, ∀ o, s.dev.item? w.ring w.index = some o → o.ctx ≠ it.invCtx) →
        Does (.segInvalDrained ring index) s ((({ s.dev with
          xlat := (s.dev.xlat.map (fun e => (e.1, (⟨e.2.segs.filter (fun x => !(x.stale && it.coversSeg x)),
            e.2.pages.filter (fun p => !(p.stale && it.coversPage p))⟩ : Xlat)))).filter (fun e => e.2 != .new)
          draining := s.dev.draining.filter (fun r => r != (ring, index)) } : Dev).addSat F.segWalkStatus_INVALS 1).finish ring index 0)))) ∧
  ((∀ (s : State) (hart ctx : Nat), Up s → s.dev.hartUp hart = true → ctx < 256 →
    (ctx = 0 ∨ (s.dev.ctx ctx).state = 2 → Does (.teardown hart ctx) s (s.dev.refuse hart (Reg.offset .segCtxCmd 0))) ∧
    (ctx ≠ 0 → (s.dev.ctx ctx).state ≠ 2 → ∀ d1 d2 n m, d1 = s.dev.modCtx ctx (fun c => { c with state := 2 }) →
      d2 = d1.liveRings.foldl (fun d r => if d.ringCtx r = ctx then d.setRing r 4 else d) d1 →
      n = (d2.items.filter (fun it => it.ctx = ctx && it.status = some 0x14)).length →
      m = ((d2.endItems ctx 0x12 0x14).items.filter (fun it => it.ctx = ctx && it.status = some 0x14)).length →
      Does (.teardown hart ctx) s (((d2.endItems ctx 0x12 0x14).modCtx ctx (fun c => { c with cancelled := m - n })).accepted))) ∧
  (∀ (d : Dev) (ctx k : Nat) (it it' : Item), d.items[k]? = some it → (d.endItems ctx 0x12 0x14).items[k]? = some it' →
    it.ctx = ctx → it.phase ≠ .finished → it.status = none → (∀ l, d.launch? it.ring it.index = some l → l.start = none) →
    it'.phase = .finished ∧ it'.status = some (if it.started then 0x12 else 0x14)) ∧
  (∀ (d : Dev) (ctx : Nat) (l : Launch), l ∈ d.launches → l.ctx = ctx → l.start.isSome = true → l.status = none →
    ∃ l' ∈ (d.endItems ctx 0x12 0x14).launches, l'.ring = l.ring ∧ l'.index = l.index ∧ l'.status = some 0x12) ∧
  (∀ (s : State) (ctx : Nat) (d1 d2 : Dev), Up s → ctx < 256 → (s.dev.ctx ctx).state = 2 → (∀ l ∈ s.dev.launches, l.ctx ≠ ctx) →
    d1 = (s.dev.invalOwner ctx).dropXlat (fun _ => true) ctx → d2 = (d1.ctxConns ctx).foldl Dev.connClose d1 →
    Does (.ctxTeardownDone ctx) s ((d2.modCtx ctx (fun c => { c with state := 0, faultVa := 0, faultInfo := 0, cancelled := 0 })).note 0x6211 0
      [(1, ctx), (4, (d2.ctx ctx).cancelled)])))

/-- A write of ENABLE 1 with valid sizes to a DISABLED ring makes it ACTIVE with its indices and counts 0
and its fetcher woken; to an ACTIVE or BELL_AHEAD ring it is accepted without effect. To a STOPPED, ERROR,
HELD or DRAINING ring it is an error response without effect. A write of ENABLE 0 that changes no field
takes a ring that is not DISABLED to DRAINING, and on to DISABLED when no item of it is in hand; to a
DISABLED ring it writes the fields. A write that changes a field of a ring that is not DISABLED, and a size
outside 4 to 16, are error responses. BELL_LINE_WAKE marks the fetcher awake and returns a BELL_AHEAD ring
to ACTIVE. DESCRIPTOR_FETCH of an awake ACTIVE ring reads the bell line, where more descriptors than the
ring holds are an invalid bell and logged with code 0x7102, and fetches from FI. One fetch takes the slot
at FI as an item exactly when its sequence is i mod 256 and its phase matches, and advances FI; it stops
at PI, at a full completion ring and at a failed check, and a slot that cannot be read is a ring fault.
SLOT_RECHECK of an ACTIVE ring reads the failing slot again: a slot that now passes is fetched; one that
still fails leaves the ring as it is before 2,000 ns and afterwards puts it in BELL_AHEAD, counted in SW2
and HM_RING_STATUS and logged with code 0x7101. (R413, R416, R417, R418, R419, R420, R422, R423, R424) -/
def Obligations.RingsEnableAndFetch : Prop :=
  (∀ (s : State) (hart n : Nat) (v w : W64), Up s → n < 1024 → s.dev.hartUp hart = true →
    (bits v.toNat 20 16 < 4 ∨ 16 < bits v.toNat 20 16 ∨ bits v.toNat 28 24 < 4 ∨ 16 < bits v.toNat 28 24 ∨
      (s.dev.ringState n ≠ 0 ∧ (bits v.toNat 39 32 ≠ s.dev.ringCtx n ∨ bits v.toNat 20 16 ≠ s.dev.sqLog n ∨ bits v.toNat 28 24 ≠ s.dev.cqLog n)) →
      Does (.ringEnable hart n v) s (s.dev.refuse hart (Reg.offset .hmRingCfg n)) ∧
      Does (.ringDisable hart n v) s (s.dev.refuse hart (Reg.offset .hmRingCfg n))) ∧
    (4 ≤ bits v.toNat 20 16 → bits v.toNat 20 16 ≤ 16 → 4 ≤ bits v.toNat 28 24 → bits v.toNat 28 24 ≤ 16 →
      w = BitVec.ofNat 64 (bits v.toNat 39 32 * 2 ^ 32 + bits v.toNat 28 24 * 2 ^ 24 + bits v.toNat 20 16 * 2 ^ 16) →
      (s.dev.ringState n = 0 →
        Does (.ringEnable hart n v) s (((s.dev.setReg .hmRingCfg n (w + 0x8000000000000000#64)).enableRing n).accepted) ∧
        Does (.ringDisable hart n v) s ((s.dev.setReg .hmRingCfg n w).accepted)) ∧
      (s.dev.ringState n ≠ 0 → bits v.toNat 39 32 = s.dev.ringCtx n → bits v.toNat 20 16 = s.dev.sqLog n → bits v.toNat 28 24 = s.dev.cqLog n →
        (s.dev.ringState n = 1 ∨ s.dev.ringState n = 2 → Does (.ringEnable hart n v) s s.dev.accepted) ∧
        (s.dev.ringState n ≠ 1 → s.dev.ringState n ≠ 2 → Does (.ringEnable hart n v) s (s.dev.refuse hart (Reg.offset .hmRingCfg n))) ∧
        Does (.ringDisable hart n v) s (((((s.dev.setReg .hmRingCfg n w).setRing n 6).unpin n).drained n).accepted))) ∧
    ((s.dev.enableRing n).ringState n = 1 ∧ (s.dev.enableRing n).fi n = 0 ∧ (s.dev.enableRing n).cqPi n = 0 ∧ ((s.dev.enableRing n).ring n).awake = true)) ∧
  (((∀ (s : State) (n : Nat) (d1 : Dev), Up s → (s.dev.ring n).bellHit = true →
    d1 = s.dev.modRing n (fun r => { r with bellHit := false, awake := true, failing := none }) →
    Does (.bellLineWake n) s (if s.dev.ringState n = 2 then d1.setRing n 1 else d1)) ∧
  (∀ (s : State) (n : Nat), Up s → n < 1024 → s.dev.ringState n = 1 → (s.dev.ring n).awake = true → s.dev.mayFetch = true →
    Does (.descriptorFetch n) s (s.dev.fetch n)) ∧
  (∀ (d d1 : Dev) (n : Nat), d1 = (d.modRing n (fun r => { r with awake := false, failing := none })).look (d.ctrlBase n) 64 →
    (∀ e, d1.hubRead (d1.ctrlBase n) 64 = .error e → d.fetch n = d1.ringFault n 0 (d1.ctrlBase n) e) ∧
    (∀ bs pi, d1.hubRead (d1.ctrlBase n) 64 = .ok bs → pi = leNat (bs.take 8) % 2 ^ 32 →
      (2 ^ d1.sqLog n < (pi + 2 ^ 32 - d1.fi n) % 2 ^ 32 → d.fetch n = d1.note 0x7102 0 [(2, n), (4, pi), (4, d1.fi n)]) ∧
      ((pi + 2 ^ 32 - d1.fi n) % 2 ^ 32 ≤ 2 ^ d1.sqLog n → ∀ d2, d2 = d1.modRing n (fun r => { r with
          bellSeq := leNat (bs.take 8) / 2 ^ 32, pi := pi, cqCi := leNat ((bs.drop 8).take 8) % 2 ^ 32 }) →
        d.fetch n = (d2.fetchLoop n (d2.published n)).writeShadow n))) ∧
  (∀ (d d1 : Dev) (n k : Nat), d1 = d.look (d.slotPa n (d.fi n)) 64 →
    d.fi n ≠ (d.ring n).pi → (d.fi n + 2 ^ 32 - (d.ring n).cqCi) % 2 ^ 32 < 2 ^ d.cqLog n →
    (∀ e, d1.hubRead (d1.slotPa n (d.fi n)) 64 = .error e → d.fetchLoop n (k + 1) = d1.ringFault n (d.fi n) (d1.slotPa n (d.fi n)) e) ∧
    (∀ bs, d1.hubRead (d1.slotPa n (d.fi n)) 64 = .ok bs →
    (bits (leNat (bs.take 8)) 23 16 = d.fi n % 256 → bits (leNat (bs.take 8)) 24 24 = phaseOf (d.fi n) (d1.sqLog n) →
      d.fetchLoop n (k + 1) = (d1.takeSlot n (d.fi n) (bytesWords 8 bs)).fetchLoop n k) ∧
    (bits (leNat (bs.take 8)) 23 16 ≠ d.fi n % 256 ∨ bits (leNat (bs.take 8)) 24 24 ≠ phaseOf (d.fi n) (d1.sqLog n) →
      d.fetchLoop n (k + 1) = d1.modRing n (fun r => { r with failing := some d1.now })))) ∧
  (∀ (d : Dev) (n k : Nat), d.fi n = (d.ring n).pi ∨ 2 ^ d.cqLog n ≤ (d.fi n + 2 ^ 32 - (d.ring n).cqCi) % 2 ^ 32 → d.fetchLoop n k = d)) ∧
  (∀ (s : State) (n t0 : Nat) (d1 : Dev), Up s → n < 1024 → s.dev.ringState n = 1 → s.dev.mayFetch = true → (s.dev.ring n).failing = some t0 →
    d1 = s.dev.look (s.dev.slotPa n (s.dev.fi n)) 64 →
    (∀ ws, d1.readSlot n (s.dev.fi n) = .ok ws → Does (.slotRecheck n) s
      (((d1.modRing n (fun r => { r with failing := none })).fetchLoop n (d1.published n)).writeShadow n)) ∧
    (∀ e, d1.readSlot n (s.dev.fi n) = .failed e → Does (.slotRecheck n) s (d1.ringFault n (s.dev.fi n) (d1.slotPa n (s.dev.fi n)) e)) ∧
    (d1.readSlot n (s.dev.fi n) = .stale → d1.now < t0 + 2000 → Does (.slotRecheck n) s d1) ∧
    (d1.readSlot n (s.dev.fi n) = .stale → t0 + 2000 ≤ d1.now → Does (.slotRecheck n) s
      (((((d1.modRing n (fun r => { r with failing := none, ahead := min 0xFFFFFFFF (r.ahead + 1) })).addSat F.hmRingStatus_BELL_AHEAD_COUNT 1 n).setRing
        n 2).note 0x7101 0 [(2, n), (4, s.dev.fi n)]).writeShadow n))))

/-- For a period of k thousand nanoseconds and a reserve of r 256ths, TC = 700k reference cycles and CAP is
the greatest whole number not above TC x (256 - r) / 256. (R66) -/
def Obligations.TideCapacity : Prop :=
  (∀ k r, r ≤ 256 → 256 * capOf (1000 * k) r ≤ 700 * k * (256 - r) ∧ 700 * k * (256 - r) < 256 * (capOf (1000 * k) r + 1)) ∧
  capOf 4000 16 = 2625 ∧ capOf 16000 16 = 10500 ∧ capOf 64000 16 = 42000 ∧ capOf 256000 16 = 168000

/-- Whatever the rings hold, when no cluster has been given more than cap(c) before a pass works on a ring,
none has afterwards: the budgets admitted on each cluster stay within CAP less its carry. Pass 0 keeps
this too, and the cut starts with nothing used. (R66, R72, R79) -/
def Obligations.CutStaysWithinCapacity : Prop :=
  (∀ (d : Dev), Cut.Within { d := d }) ∧
  (∀ (c : Cut) (n : Nat), c.Within → (c.promotedRing n).Within) ∧
  (∀ (c : Cut) (n fuel : Nat) (share : Option Nat), c.Within → (Cut.ring n share fuel c).Within)

/-- From 15/16 of the tide on, once in each tide and while no reset is pending, ADMISSION_CUT makes the cut
with the period and reserve then set and marks it made; at any other time it does nothing. Once the
period in force has passed and the cut is made, or a reset is pending, a tick counts the tide, notes its time and takes the
period decided at the cut; then tables swap, telemetry is latched, operating points are applied, credits
are refreshed, progress lines are written, items are released and coupled mode advances, in that order.
In COUPLED mode without every beacon the tick is held; before its time nothing happens. BEACON_SEND of a
coupled node whose period is over and whose tide-closing items are complete sends beacon k on every
coupled port once. A beacon that arrives on a port that is up is noted; a different period sets
PERIOD_MISMATCH and is logged with code 0x7206. A beacon TIMEOUT periods late, or a first beacon later
than JOIN_LIMIT_MS, takes its port out of the set. (R59, R62, R63, R67, R72, R87, R88, R89, R90, R91) -/
def Obligations.CutsTicksAndBeacons : Prop :=
  ((∀ (s : State), Up s →
    (s.dev.cutDone = false → s.dev.reset = none → 15 * s.dev.period ≤ 16 * (s.dev.now - s.dev.get F.tideLastTickNs_VALUE) →
      Does .admissionCut s s.dev.cut ∧ s.dev.cut.cutDone = true ∧ s.dev.cut.nextPeriod = s.dev.get F.tidePeriodNs_PERIOD ∧
      s.dev.cut.reserve = s.dev.get F.tideReserve_RESERVE) ∧
    (s.dev.cutDone = true ∨ s.dev.reset ≠ none ∨ 16 * (s.dev.now - s.dev.get F.tideLastTickNs_VALUE) < 15 * s.dev.period →
      Does .admissionCut s s.dev)) ∧
  ((∀ (s : State) (m : Telemetry), Up s → s.dev.periodOver = true → s.dev.cutDone = true ∨ s.dev.reset ≠ none →
    (s.dev.coupled = false ∨ s.dev.beaconsIn = true → Does (.tick m) s
      (((((((s.dev.newTide.tickSwaps).latchTelemetry m).applySteps.overshoot).tickCredits).progressLines).msiTick.overruns.releases).tickMode)) ∧
    (s.dev.coupled = true → s.dev.beaconsIn = false → Does (.tick m) s s.dev.holdTick)) ∧
  (∀ (s : State) (m : Telemetry), Up s → s.dev.periodOver = false ∨ (s.dev.cutDone = false ∧ s.dev.reset = none) → Does (.tick m) s s.dev) ∧
  (∀ (d : Dev), d.newTide.period = d.nextPeriod ∧ d.newTide.cutDone = false ∧
    d.newTide.get F.tideCount_VALUE = (d.get F.tideCount_VALUE + 1) % 2 ^ 64 ∧ d.newTide.get F.tideLastTickNs_VALUE = d.now % 2 ^ 64) ∧
  (∀ (d : Dev), d.heldCounted = true → d.holdTick = d) ∧
  (∀ (d : Dev), d.heldCounted = false → d.holdTick.heldCounted = true))) ∧
  (∀ (s : State), Up s →
    (s.dev.coupled = true → s.dev.sentBeacon = false → s.dev.periodOver = true → (∀ c ∈ s.dev.closing, s.dev.closed c = true) →
      Does .beaconSend s (s.dev.coupledPorts.foldl (fun d p => d.portSend p { plainMsg (d.neighbour d.node (p / 2) (p % 2 == 1)) 0 0
        (MsgBody.beacon (s.dev.get F.tideCoupledCount_VALUE) (s.dev.get F.tidePeriodNs_PERIOD) s.dev.node) with src := d.node }) { s.dev with sentBeacon := true })) ∧
    (∀ port k per node d1, port < 6 → s.dev.portUp port = true → d1 = s.dev.linkReceived port (plainMsg s.dev.node 0 0 (.beacon k per node)) →
      Does (.beacon port k per node) s ((if per = d1.get F.tidePeriodNs_PERIOD then d1
        else (d1.flag F.tideStatus_PERIOD_MISMATCH true).note 0x7206 (locPort port)).modPort port (fun x =>
          { x with beacons := if x.beacons.contains k then x.beacons else x.beacons ++ [k], joined := true }))) ∧
    (∀ port, s.dev.coupled = true → port ∈ s.dev.coupledPorts → (tget Port.new s.dev.ports port).joined = true →
      s.dev.get F.tideCoupledCount_VALUE ∉ (tget Port.new s.dev.ports port).beacons →
      s.dev.get F.tideLastTickNs_VALUE + s.dev.period + s.dev.get F.tideBeaconCfg_TIMEOUT * s.dev.period ≤ s.dev.now →
      Does (.beaconTimeout port) s ((s.dev.putBit F.tideStatus_COUPLED_SET port false).note 0x7205 (locPort port) [(1, port)])) ∧
    (∀ port, s.dev.coupled = true → port ∈ s.dev.coupledPorts → (tget Port.new s.dev.ports port).joined = false →
      (tget Port.new s.dev.ports port).coupledSince + s.dev.get F.tideBeaconCfg_JOIN_LIMIT_MS * 10 ^ 6 ≤ s.dev.now →
      Does (.joinTimeout port) s ((s.dev.putBit F.tideStatus_COUPLED_SET port false).note 0x7205 (locPort port) [(1, port)])))

/-- The control core of a named tile starts with pc at ENTRY, x2 at the top of local memory in segment 0xF,
x10 the argument, x11 the logical tile, x12 its rank, x13 the number of tiles and every other register
0; the launch's stop time is fixed at its start from the budget and the limit and period in force. A
released launch item becomes a launch with its tiles, clusters, entry, argument and budget. It starts
once every cluster it names is free of launches admitted before it, a cluster with a tile of another
context's last launch first zeroing its named tiles; its stop time is then its start plus b reference
cycles and TIDE_OVERRUN_LIMIT periods. A launch not started that names an unavailable die or
an isolated deck completes FAIL_HW without starting. At that time a launch still running fails
FAIL_TIDE_OVERRUN with the reference cycles used, in whole ones (model's choice, log
entry 36), and code 0x7202; before it nothing happens. TILE_END of
a RUNNING tile whose program has ended, with empty queues and every job complete, writes its cluster's
dirty lines back and marks the tile ENDED. LAUNCH_COMPLETE of a started launch whose tiles have all
ended or been stopped finishes its item; before that it does nothing. (R33, R74, R80, R81, R191, R210, R211,
R212, R332, R432, R453) -/
def Obligations.LaunchesFromStartToEnd : Prop :=
  ((∀ (l : Launch) (t rank : Nat), (coreStart l t rank).pc = l.entry ∧ (coreStart l t rank).getX 2 = 0xF000000000100000#64 ∧
    (coreStart l t rank).getX 10 = l.arg ∧ (coreStart l t rank).getX 11 = BitVec.ofNat 64 t ∧ (coreStart l t rank).getX 12 = BitVec.ofNat 64 rank ∧
    (coreStart l t rank).getX 13 = BitVec.ofNat 64 l.tiles.length ∧
    (∀ r, r < 32 → r ∉ [2, 10, 11, 12, 13] → (coreStart l t rank).getX r = 0) ∧ (∀ r, (coreStart l t rank).getF r = 0) ∧
    (coreStart l t rank).fcsr = 0) ∧
  (∀ (d d1 : Dev) (l : Launch) (wb : Bool),
    d1 = l.tiles.zipIdx.foldl (fun d e => d.startTile l e) (l.clusters.foldl (fun d lc =>
      (d.startCluster l wb lc).modCluster lc (fun c => { c with zeroing := if d.zeroes l lc then some 512 else none })) d) →
    d.startLaunch l wb = d1.modLaunch l.ring l.index (fun x => { x with
      start := some d1.now, stopAt := d1.now + cdiv (10 * l.budget) 7 + d1.get F.tideOverrunLimit_LIMIT * d1.period, endNs := d1.now })) ∧
  (∀ (d : Dev) (l o : Launch), d.mayStart l = true → o ∈ d.launches → (∃ lc, lc ∈ l.clusters ∧ lc ∈ o.clusters) →
    o.start = none ∧ l.order ≤ o.order)) ∧
  ((∀ (s : State) (ring index : Nat), Up s →
    (∀ it, InHand s ring index it → s.dev.launch? ring index = none →
      (it.typ = tLaunchTiles → Does (.launchTiles ring index) s { s.dev with launches := s.dev.launches ++ [it.launchOf] }) ∧
      (it.typ = tLaunchGangs → Does (.launchGangs ring index) s { s.dev with launches := s.dev.launches ++ [it.launchOf] }) ∧
      it.launchOf.budget = it.w 3 % 2 ^ 32 ∧ it.launchOf.clusters = (List.range 176).filter (fun lc => bit (it.w (4 + lc / 64)) (lc % 64)) ∧
      it.launchOf.tiles = it.launchOf.clusters.flatMap (fun lc => ((List.range 8).filter (fun i => bit (it.w 3) (32 + i))).map (8 * lc + ·)) ∧
      it.launchOf.entry = BitVec.ofNat 64 (it.w 1) ∧ it.launchOf.arg = BitVec.ofNat 64 (it.w 2)) ∧
    (∀ l wb, s.dev.launch? ring index = some l → wb = (((s.dev.item? ring index).map Item.wbBefore).getD false) →
      (s.dev.clustersUp l.clusters = true →
        (s.dev.mayStart l = true → Does (.launchStart ring index) s (s.dev.startLaunch l wb)) ∧
        (s.dev.mayStart l = false → Does (.launchStart ring index) s s.dev)) ∧
      (s.dev.clustersUp l.clusters = false → l.start = none → l.status = none →
        Does (.launchStart ring index) s { s.dev.finishAt l.ring l.index 0x13 0 with
          launches := s.dev.launches.filter (fun x => !(x.ring == l.ring && x.index == l.index)) })) ∧
    (∀ l t, s.dev.launch? ring index = some l → l.start = some t → l.status = none → s.dev.allEnded l = false →
      (l.stopAt ≤ s.dev.now → Does (.overrunStop ring index) s
        ((s.dev.note 0x7202 (s.dev.locCluster (l.clusters.headD 0))).failLaunch ring index 0x15 ((s.dev.now - t) * 7 / 10))) ∧
      (s.dev.now < l.stopAt → Does (.overrunStop ring index) s s.dev))) ∧
  ((∀ (s : State) (t : Nat) (l : Launch) (d1 : Dev), Up s → s.dev.launchOn t = some l → s.dev.tileState t = 2 → (s.dev.tile t).quiet = true →
    d1 = (s.dev.wbCluster (t / 8)).1 → d1.tileState t = 2 →
    Does (.tileEnd t) s ((d1.setTileState t 3).modLaunch l.ring l.index (fun x => { x with endNs := d1.now }))) ∧
  (∀ (s : State) (ring index : Nat) (l : Launch), Up s → s.dev.launch? ring index = some l →
    (l.start.isSome = true → s.dev.allEnded l = true → ∃ d', Does (.launchComplete ring index) s d' ∧ d' = s.dev.completeLaunch l ∧
      ∀ it ∈ d'.items, it.ring = ring → it.index = index → it.phase = .finished ∧ it.status ≠ none) ∧
    (l.start = none ∨ s.dev.allEnded l = false → Does (.launchComplete ring index) s s.dev))))

/-- When a running control core has fetched a word and nothing stalls it: each register-register instruction
of the table (ADD, SUB, XOR, OR, AND, SLL, SRL, SRA, SLT, SLTU, MUL, SH1ADD, SH2ADD, SH3ADD, ANDN, ORN,
MIN, MAXU), ADDI, LUI and AUIPC write their result to x[rd], where a write to x0 has no effect, and move
pc on by 4; JAL and taken BEQ move pc to an aligned target; a word of the vector or matrix queues enters
its queue with its scalar operands; FENCE moves on, and FENCE.I also empties the instruction cache.
Everything else is as the fetch left it. A load reads its bytes at x[rs1] + immediate, aligned to its
size, and writes them to x[rd], sign-extended for LB to LD and zero-extended for LBU to LWU; FLW
writes f[rd] with its value boxed and FLD whole. A store writes the low bytes of x[rs2], of f[rs2] for FSW
and FSD. An AMO is performed at the home of its address and gives x[rd] the old value, 32-bit values
sign-extended; it waits where a wave holds its line. LR reads own local memory and holds a reservation; SC writes and
gives 0 if the reservation of its address and size holds, gives 1 and writes nothing otherwise, and ends
it. An access that fails is a trap with its address. A parity error in a register file traps at the pc,
whatever the core would do next, with W3 a free value (log entry 236). (R200, R201, R203, R204, R205,
R207, R213, R215, R511) -/
def Obligations.ControlCoreInstructions : Prop :=
  (∀ (s : State) (t : Nat) (w : W32) (d : Dev) (h : Hart), CoreAt s t w d h →
    (s.dev.coreStalls t w false = false →
      (∀ e ∈ coreRegOps, opc w = 0x33 → f7Of w = e.1 → f3Of w = e.2.1 → Does (.controlCoreInstruction ⟨t, false⟩) s
        (d.setCore t (h.setX (rdOf w) (e.2.2 (h.getX (rs1Of w)) (h.getX (rs2Of w)))).retire)) ∧
      (opc w = 0x13 → f3Of w = 0 → Does (.controlCoreInstruction ⟨t, false⟩) s (d.setCore t (h.setX (rdOf w) (h.getX (rs1Of w) + immI w)).retire)) ∧
      (opc w = 0x37 → Does (.controlCoreInstruction ⟨t, false⟩) s (d.setCore t (h.setX (rdOf w) (immU w)).retire)) ∧
      (opc w = 0x17 → Does (.controlCoreInstruction ⟨t, false⟩) s (d.setCore t (h.setX (rdOf w) (h.pc + immU w)).retire)) ∧
      (opc w = 0x6F → (h.pc + immJ w).toNat % 4 = 0 → Does (.controlCoreInstruction ⟨t, false⟩) s
        (d.setCore t ((h.setX (rdOf w) (h.pc + 4)).jump (h.pc + immJ w)))) ∧
      (opc w = 0x63 → f3Of w = 0 → (h.pc + immB w).toNat % 4 = 0 → Does (.controlCoreInstruction ⟨t, false⟩) s
        (d.setCore t (if h.getX (rs1Of w) = h.getX (rs2Of w) then h.jump (h.pc + immB w) else h.retire))) ∧
      ((queueOp w).isSome = true → Does (.controlCoreInstruction ⟨t, false⟩) s (d.coreEnqueue t w))) ∧
    (s.dev.coreStalls t w true = false → opc w = 0x0F →
      (f3Of w = 0 → Does (.ccFence t) s (d.setCore t h.retire)) ∧
      (f3Of w = 1 → Does (.ccFenceI t) s (d.modTile t (fun x => { x with core := h.retire, icache := [] }))))) ∧
  (∀ (s : State) (t : Nat) (w : W32) (d : Dev) (h : Hart), CoreAt s t w d h → s.dev.coreStalls t w true = false →
    (∀ (size : Nat) (va : W64), opc w = 0x03 → f3Of w ≠ 7 → size = 2 ^ (f3Of w % 4) → va = h.getX (rs1Of w) + immI w →
      (∀ d2 bs, d.tileLoad t va.toNat size size 1 = (d2, .ok bs) → Does (.ccLoad t) s (d2.setCore t
        ((d2.tile t).core.setX (rdOf w) (if f3Of w < 4 then sext (8 * size) (leNat bs) else w64 (leNat bs))).retire)) ∧
      (∀ d2 e, d.tileLoad t va.toNat size size 1 = (d2, .error e) →
        Does (.ccLoad t) s (d2.coreFault t (s.dev.tile t).core.pc e va.toNat))) ∧
    (∀ (size : Nat) (va : W64), opc w = 0x07 → (f3Of w = 2 ∧ size = 4 ∨ f3Of w = 3 ∧ size = 8) → va = h.getX (rs1Of w) + immI w →
      (∀ d2 bs, d.tileLoad t va.toNat size size 1 = (d2, .ok bs) → Does (.ccLoad t) s (d2.setCore t
        ((d2.tile t).core.setF (rdOf w) (if size = 8 then w64 (leNat bs) else boxS (leNat bs))).retire)) ∧
      (∀ d2 e, d.tileLoad t va.toNat size size 1 = (d2, .error e) →
        Does (.ccLoad t) s (d2.coreFault t (s.dev.tile t).core.pc e va.toNat))) ∧
    (∀ (size : Nat) (va x : W64), (opc w = 0x23 ∧ f3Of w < 4 ∧ x = h.getX (rs2Of w) ∨ opc w = 0x27 ∧ (f3Of w = 2 ∨ f3Of w = 3) ∧ x = h.getF (rs2Of w)) →
      size = 2 ^ f3Of w → va = h.getX (rs1Of w) + immS w →
      (∀ d2, d.tileStore t va.toNat size (leBytes size (x.toNat % 2 ^ (8 * size))) = (d2, .ok ()) →
        Does (.ccStore t) s (d2.setCore t (d2.tile t).core.retire)) ∧
      (∀ d2 e, d.tileStore t va.toNat size (leBytes size (x.toNat % 2 ^ (8 * size))) = (d2, .error e) →
        Does (.ccStore t) s (d2.coreFault t (s.dev.tile t).core.pc e va.toNat))) ∧
    (∀ (wide : Bool) (op : AtomicOp) (f : Nat → Nat), opc w = 0x2F → f3Of w = (if wide then 3 else 2) → amoOp? (wbits w 31 27) = some op →
      f = (fun old => atomicNew op wide old (h.getX (rs2Of w)).toNat 0) →
      (∀ d2 old, d.tileAtomic t (h.getX (rs1Of w)).toNat (if wide then 8 else 4) f = (d2, .ok old) → Does (.ccAmo t) s
        (d2.setCore t ((d2.tile t).core.setX (rdOf w) (if wide then w64 old else sext 32 old)).retire)) ∧
      (∀ d2 e, d.tileAtomic t (h.getX (rs1Of w)).toNat (if wide then 8 else 4) f = (d2, .fail e) →
        Does (.ccAmo t) s (d2.coreFault t (s.dev.tile t).core.pc e (h.getX (rs1Of w)).toNat)) ∧
      (∀ d2, d.tileAtomic t (h.getX (rs1Of w)).toNat (if wide then 8 else 4) f = (d2, .wait) → Does (.ccAmo t) s s.dev)) ∧
    (∀ (size : Nat) (e : TFault), opc w = 0x2F → (f3Of w = 2 ∧ size = 4 ∨ f3Of w = 3 ∧ size = 8) →
      (wbits w 31 27 = 2 ∧ rs2Of w = 0 ∨ wbits w 31 27 = 3) → resvAddr t (h.getX (rs1Of w)).toNat size = .error e →
      Does (.ccLrSc t) s (d.coreFault t (s.dev.tile t).core.pc e (h.getX (rs1Of w)).toNat)) ∧
    (∀ (size pa : Nat), opc w = 0x2F → (f3Of w = 2 ∧ size = 4 ∨ f3Of w = 3 ∧ size = 8) →
      resvAddr t (h.getX (rs1Of w)).toNat size = .ok pa →
      (wbits w 31 27 = 2 → rs2Of w = 0 → ∀ bs, d.readPa pa size = .ok bs → Does (.ccLrSc t) s (d.setCore t
        { (h.setX (rdOf w) (if size = 8 then w64 (leNat bs) else sext 32 (leNat bs))).retire with resv := some (pa, size) })) ∧
      (wbits w 31 27 = 2 → rs2Of w = 0 → ∀ e, d.readPa pa size = .error e → Does (.ccLrSc t) s
        ((d.tileErr t e).coreFault t (s.dev.tile t).core.pc (accTFault e) (h.getX (rs1Of w)).toNat)) ∧
      (wbits w 31 27 = 3 → h.resv = some (pa, size) →
        ∀ e, d.writePa pa (leBytes size ((h.getX (rs2Of w)).toNat % 2 ^ (8 * size))) = .error e → Does (.ccLrSc t) s
        ((d.tileErr t e).coreFault t (s.dev.tile t).core.pc (accTFault e) (h.getX (rs1Of w)).toNat)) ∧
      (wbits w 31 27 = 3 → h.resv = some (pa, size) →
        ∀ d2, d.writePa pa (leBytes size ((h.getX (rs2Of w)).toNat % 2 ^ (8 * size))) = .ok d2 →
        Does (.ccLrSc t) s (d2.setCore t { ((d2.tile t).core.setX (rdOf w) 0).retire with resv := none })) ∧
      (wbits w 31 27 = 3 → h.resv ≠ some (pa, size) →
        Does (.ccLrSc t) s (d.setCore t { (h.setX (rdOf w) 1).retire with resv := none })))) ∧
  (∀ (s : State) (t : Nat), Up s → (s.dev.coreLaunch t).isSome = true →
    Does (.controlCoreInstruction ⟨t, true⟩) s (s.dev.draw.coreTrap t 7 0x18 (s.dev.tile t).core.pc (Config.freeValue s.dev.fresh).toNat))

/-- On a control core that is not stalled, ECALL marks the tile program ended and EBREAK halts the tile under
authorised debug and otherwise traps with its pc. A word that decodes to no instruction traps, whatever
the queues hold; an unassigned word of the vector unit's opcodes waits until the vector queue is empty. A
trap of a tile whose launch runs gives the launch its status and W3, unless an earlier one stands, logs
code 0x6101 with the cause, pc, address and tile, and kills the context. W3 of an illegal instruction
and of EBREAK is the pc, and the address such a trap logs is a free value (log entry 61). In a group,
ECALL ends its threads, and EBREAK halts them under authorised debug and otherwise faults. (R211, R213,
R214, R216, R304, R332, R334) -/
def Obligations.ProgramEndsAndTraps : Prop :=
  (∀ (s : State) (t : Nat) (w : W32) (d : Dev) (h : Hart), CoreAt s t w d h →
    (s.dev.coreStalls t w false = false →
      (w = 0x00000073#32 → Does (.ecall t) s (d.modTile t (fun x => { x with core := { x.core with instret := x.core.instret + 1 }, ecall := true }))) ∧
      (w = 0x00100073#32 → s.dev.tileDebug = true → Does (.ebreak t) s (d.setTileState t 5)) ∧
      (w = 0x00100073#32 → s.dev.tileDebug = false → Does (.ebreak t) s (d.coreTrap t 3 0x12 (s.dev.tile t).core.pc 0))) ∧
    (∀ l, s.dev.coreLaunch t = some l → rvDecode (d.coreCfg t l) h w = .illegal →
      Does (.controlCoreInstruction ⟨t, false⟩) s (d.coreTrap t 1 0x12 (s.dev.tile t).core.pc 0)) ∧
    (opc w = 0x5B ∨ opc w = 0x2B ∧ queueOp w = none ∨ opc w = 0x33 ∧ f7Of w = 0x7F →
      Does (.controlCoreInstruction ⟨t, false⟩) s (d.coreTrap t 1 0x12 (s.dev.tile t).core.pc 0)) ∧
    (opc w = 0x0B ∨ opc w = 0x7B → queueOp w = none →
      ((d.tile t).vec.queue = [] → Does (.controlCoreInstruction ⟨t, false⟩) s (d.vecIllegal t (s.dev.tile t).core.pc)) ∧
      ((d.tile t).vec.queue ≠ [] → Does (.controlCoreInstruction ⟨t, false⟩) s s.dev))) ∧
  (∀ (d : Dev) (t row status va : Nat) (pc : W64) (l : Launch), d.launchOn t = some l →
    (row ≠ 1 → row ≠ 3 →
      d.coreTrap t row status pc va = ((d.draw.note 0x6101 (d.locTile t) [(1, Config.causeCode 0x6101 row), (8, pc.toNat), (8, va), (2, d.locTile t)]).failLaunch
        l.ring l.index status va).killCtx l.ctx 0x6101) ∧
    (row = 1 ∨ row = 3 →
      d.coreTrap t row status pc va = ((d.draw.note 0x6101 (d.locTile t)
        [(1, Config.causeCode 0x6101 row), (8, pc.toNat), (8, (Config.freeValue d.fresh).toNat), (2, d.locTile t)]).failLaunch
        l.ring l.index status pc.toNat).killCtx l.ctx 0x6101)) ∧
  (∀ (s : State) (t : Nat) (i : Issue) (d : Dev), GroupAt s t i d →
    (i.word = 0x00000073#32 → Does (.ecall t) s ((d.gangExit t i).gangSettle t i.g.idx)) ∧
    (i.word = 0x00100073#32 → d.tileDebug = true → Does (.ebreak t) s (d.modGang t i.g.idx (fun g => { g with
      threads := g.threads.zipIdx.map (fun e => if i.group.contains e.2 then { e.1 with state := 4 } else e.1) }))) ∧
    (i.word = 0x00100073#32 → d.tileDebug = false → Does (.ebreak t) s (d.gangTrap t 4 i.pc i.low i.g.idx)))

/-- With 8 jobs outstanding X.MMA waits; a VA that is not 64-byte aligned, or not in segment 0xF, is a
fault. Otherwise the job descriptor is read and, where its three descriptor offsets are multiples of 32,
the operand descriptors are; a job that breaks conditions is refused with the number of the lowest one,
of those the job descriptor alone breaks where an offset is misaligned, and gets no token; any other job
joins the tile's jobs with the next sequence number, which is written to rd. A group's X.MMA does the
same once for its threads, with u[rs1] and u[rd]; the one that has waited longest for a slot comes first.
(R223, R225, R229, R234, R235, R325) -/
def Obligations.MatrixJobAdmission : Prop :=
  (∀ (s : State) (t : Nat) (o : MatOp), Up s → s.dev.runsGangs t = false → s.dev.matHead t 0 = some o →
    (8 ≤ (s.dev.tile t).mat.outstanding → Does (.xMma t) s s.dev) ∧
    (∀ d n, s.dev.mma t o.rs1 = (d, .token n) → Does (.xMma t) s (d.modTile t (fun x => { x with
      core := x.core.setX (rdOf o.word) (w64 n), mat := { x.mat with queue := x.mat.queue.drop 1 } }))) ∧
    (∀ d, s.dev.mma t o.rs1 = (d, .ended) → Does (.xMma t) s d) ∧
    (∀ d e va, s.dev.mma t o.rs1 = (d, .fault e va) → Does (.xMma t) s (d.coreFault t o.pc e va))) ∧
  (∀ (s : State) (t : Nat) (i : Issue) (d d1 : Dev) (va : W64),
    (GroupAt s t i d ∧ s.dev.heldIssue t true = none ∧ queueOp i.word = some (1, 0) ∧ va = i.g.getU (rs1Of i.word) ∨
      Up s ∧ s.dev.runsGangs t = true ∧ s.dev.heldIssue t true = some (i, va) ∧ d = s.dev) →
    (d.mma t va = (d1, .wait) → Does (.xMma t) s (d.gangWaits t i true va)) ∧
    (∀ n, d.mma t va = (d1, .token n) → Does (.xMma t) s ((d1.gangRetire t i).setU t i.g.idx (rdOf i.word) (w64 n))) ∧
    (d.mma t va = (d1, .ended) → Does (.xMma t) s d1) ∧
    (∀ e w, d.mma t va = (d1, .fault e w) → Does (.xMma t) s (d1.gangFault t (gangRow e) e.status w i.pc w i.low i.g.idx))) ∧
  (∀ (d : Dev) (t : Nat) (va : W64),
    (8 ≤ (d.tile t).mat.outstanding → d.mma t va = (d, .wait)) ∧
    ((d.tile t).mat.outstanding < 8 →
    (va.toNat % 64 ≠ 0 → d.mma t va = (d, .fault .misaligned va.toNat)) ∧
    (va.toNat % 64 = 0 → ¬ (va.toNat / 2 ^ 60 = 15 ∧ va.toNat % 2 ^ 60 < 2 ^ 20) → d.mma t va = (d, .fault .segment va.toNat)) ∧
    (∀ jw, va.toNat % 64 = 0 → va.toNat / 2 ^ 60 = 15 → va.toNat % 2 ^ 60 < 2 ^ 20 → d.mmaWords t (va.toNat % 2 ^ 20) 8 = .ok jw →
      (bits (jw.getD 2 0) 19 0 % 32 ≠ 0 ∨ bits (jw.getD 2 0) 39 20 % 32 ≠ 0 ∨ bits (jw.getD 2 0) 59 40 % 32 ≠ 0 →
        (∀ n, n ∈ [1, 2, 8, 9] → jobCond n jw = true → (∀ k, k ∈ [1, 2, 8, 9] → k < n → jobCond k jw = false) →
          d.mma t va = (d.mmaRefused t n va, .ended)) ∧
        ((∀ k, k ∈ [1, 2, 8, 9] → jobCond k jw = false) → d.mma t va = (d.mmaRefused t 7 va, .ended))) ∧
      (∀ a b c, bits (jw.getD 2 0) 19 0 % 32 = 0 → bits (jw.getD 2 0) 39 20 % 32 = 0 → bits (jw.getD 2 0) 59 40 % 32 = 0 →
      d.mmaWords t (bits (jw.getD 2 0) 19 0) 4 = .ok a → d.mmaWords t (bits (jw.getD 2 0) 39 20) 4 = .ok b →
      d.mmaWords t (bits (jw.getD 2 0) 59 40) 4 = .ok c →
      (∀ n, 1 ≤ n → n ≤ 9 → jobBreaks n jw [a, b, c] (jobOf ((d.tile t).mat.seq + 1) jw a b c) = true →
        (∀ k, 1 ≤ k → k < n → jobBreaks k jw [a, b, c] (jobOf ((d.tile t).mat.seq + 1) jw a b c) = false) →
        d.mma t va = (d.mmaRefused t n va, .ended)) ∧
      ((∀ n, 1 ≤ n → n ≤ 9 → jobBreaks n jw [a, b, c] (jobOf ((d.tile t).mat.seq + 1) jw a b c) = false) →
        ∃ j, (d.mma t va).2 = .token ((d.tile t).mat.seq + 1) ∧
          { j with start := 0, state := 0 } = jobOf ((d.tile t).mat.seq + 1) jw a b c ∧
          (d.mma t va).1 = d.modTile t (fun x => { x with mat := { x.mat with seq := x.mat.seq + 1, jobs := keepJobs (j :: x.mat.jobs) } }))))))

/-- MATRIX_JOB_START of a queued job of a running tile makes it RUNNING from this cycle with its blocks computed
in order, up to the first fault. It can start once every earlier job has completed or, without SERIAL,
has run to the end of its reduction or computes nothing; until then nothing happens. A job completes only
once every earlier job has and its cycles, 8 for a job that computes nothing, have passed: its remaining
blocks are written, and it is COMPLETE with its time noted and its counts added to its launch's, or a
fault it met is raised. For an accepted token among the 8 most recently issued, X.WAIT of a completed job
writes its cycles from start to completion to rd and leaves the queue, and waits while the job has not
completed; of an older job it writes 0. X.STAT writes the state, or the counts or the output blocks
written, and for an older job RETIRED or 0; how many blocks a running job has written by then is free (log
entry 70). A group's X.WAIT and X.STAT do the same once for its threads. (R226, R227, R244, R245, R246,
R250, R251, R252, R253, R325) -/
def Obligations.MatrixJobsRunAndReport : Prop :=
  (∀ (s : State) (t seq : Nat) (l : Launch) (j : Job), Up s → s.dev.launchOn t = some l → (s.dev.tile t).mat.job? seq = some j →
    s.dev.tileState t = 2 ∨ s.dev.tileState t = 5 →
    (∀ d blocks err, (s.dev.tile t).mat.canStart (s.dev.cycles (t / 8)) j = true → s.dev.jobCompute t j = (d, blocks, err) →
      Does (.matrixJobStart t seq) s (d.modJob t seq (fun j => { j with state := 1, start := s.dev.cycles (t / 8), todo := blocks, fault := err.map (fun e => (e.1.row, e.1.status, e.2)) }))) ∧
    ((s.dev.tile t).mat.canStart (s.dev.cycles (t / 8)) j = false → Does (.matrixJobStart t seq) s s.dev) ∧
    ((∃ k ∈ (s.dev.tile t).mat.jobs, k.seq < seq ∧ k.state ≠ 2) → Does (.matrixJobComplete t seq) s s.dev) ∧
    (j.state ≠ 1 ∨ s.dev.cycles (t / 8) < j.start + (if j.idle then 8 else j.cycles) → Does (.matrixJobComplete t seq) s s.dev) ∧
    (∀ d, (∀ k ∈ (s.dev.tile t).mat.jobs, k.seq < seq → k.state = 2) → j.state = 1 →
      j.start + (if j.idle then 8 else j.cycles) ≤ s.dev.cycles (t / 8) →
      (s.dev.jobAdvance t seq j.todo.length = (d, false) → Does (.matrixJobComplete t seq) s d) ∧
      (s.dev.jobAdvance t seq j.todo.length = (d, true) →
        (∀ row status va, j.fault = some (row, status, va) → Does (.matrixJobComplete t seq) s (d.jobFault t row status seq va)) ∧
        (j.fault = none → Does (.matrixJobComplete t seq) s
          (((d.modJob t seq (fun j => { j with state := 2, stop := s.dev.cycles (t / 8) })).modTile t
            (fun x => { x with mat := { x.mat with jobs := keepJobs x.mat.jobs } })).modLaunch l.ring l.index (fun l => { l with
              sat := satAdd32 l.sat (((d.tile t).mat.job? seq).getD j).sat, flushed := satAdd32 l.flushed (((d.tile t).mat.job? seq).getD j).flushed })))))) ∧
  (∀ (m : Matrix) (now : Nat) (j : Job), m.canStart now j = true ↔ j.state = 0 ∧ ∀ k ∈ m.jobs, k.seq < j.seq →
    k.state = 2 ∨ (j.serial = false ∧ k.state = 1 ∧ (k.idle = true ∨ k.start + (k.cycles - 56) ≤ now))) ∧
  (∀ (s : State) (t n : Nat) (o : MatOp), Up s → s.dev.runsGangs t = false → n = o.rs1.toNat → 0 < n → n < 2 ^ 32 → n ≤ (s.dev.tile t).mat.seq →
    (s.dev.matHead t 1 = some o →
      (∀ j, (s.dev.tile t).mat.seq < n + 8 → (s.dev.tile t).mat.job? n = some j → j.state = 2 → Does (.xWait t) s (s.dev.matRetire t o (j.stop - j.start))) ∧
      (∀ j, (s.dev.tile t).mat.seq < n + 8 → (s.dev.tile t).mat.job? n = some j → j.state ≠ 2 → Does (.xWait t) s s.dev) ∧
      (n + 8 ≤ (s.dev.tile t).mat.seq → Does (.xWait t) s (s.dev.matRetire t o 0))) ∧
    (n + 8 ≤ (s.dev.tile t).mat.seq → (s.dev.matHead t 4 = some o → Does (.xStatState t) s (s.dev.matRetire t o 3)) ∧
      ((∀ j, (s.dev.tile t).mat.job? n = some j → j.state ≠ 1) →
        (s.dev.matHead t 2 = some o → Does (.xStatCounts t) s (s.dev.matRetire t o 0)) ∧
        (s.dev.matHead t 3 = some o → Does (.xStatProgress t) s (s.dev.matRetire t o 0)))) ∧
    (∀ j, (s.dev.tile t).mat.seq < n + 8 → (s.dev.tile t).mat.job? n = some j →
      (s.dev.matHead t 4 = some o → Does (.xStatState t) s (s.dev.matRetire t o j.state)) ∧
      (j.state ≠ 1 → s.dev.matHead t 2 = some o → Does (.xStatCounts t) s (s.dev.matRetire t o (j.sat * 2 ^ 32 + j.flushed))) ∧
      (j.state ≠ 1 → s.dev.matHead t 3 = some o → Does (.xStatProgress t) s (s.dev.matRetire t o j.blocks)) ∧
      (∀ d1, s.dev.jobProgress t n = (d1, true) →
        (s.dev.matHead t 2 = some o → Does (.xStatCounts t) s (d1.matRetire t o ((d1.tile t).mat.statValue 0 n))) ∧
        (s.dev.matHead t 3 = some o → Does (.xStatProgress t) s (d1.matRetire t o ((d1.tile t).mat.statValue 1 n)))) ∧
      (∀ d1, s.dev.jobProgress t n = (d1, false) →
        (s.dev.matHead t 2 = some o → Does (.xStatCounts t) s d1) ∧ (s.dev.matHead t 3 = some o → Does (.xStatProgress t) s d1)))) ∧
  (∀ (s : State) (t : Nat) (i : Issue) (d : Dev) (tok : W64) (m : Matrix), m = (d.tile t).mat → m.tokenOk tok = true →
    ((GroupAt s t i d ∧ s.dev.heldIssue t false = none ∧ queueOp i.word = some (1, 1) ∧ tok = i.g.getU (rs1Of i.word) ∨
      Up s ∧ s.dev.runsGangs t = true ∧ s.dev.heldIssue t false = some (i, tok) ∧ d = s.dev) →
      (m.waitValue tok.toNat = none → Does (.xWait t) s (d.gangWaits t i false tok)) ∧
      (∀ v, m.waitValue tok.toNat = some v → Does (.xWait t) s ((d.gangRetire t i).setU t i.g.idx (rdOf i.word) (w64 v)))) ∧
    (GroupAt s t i d → tok = i.g.getU (rs1Of i.word) →
      (queueOp i.word = some (1, 4) → Does (.xStatState t) s ((d.gangRetire t i).setU t i.g.idx (rdOf i.word) (w64 (m.statValue 2 tok.toNat)))) ∧
      (∀ d1, d.jobProgress t tok.toNat = (d1, true) →
        (queueOp i.word = some (1, 2) → Does (.xStatCounts t) s
          ((d1.gangRetire t i).setU t i.g.idx (rdOf i.word) (w64 ((d1.tile t).mat.statValue 0 tok.toNat)))) ∧
        (queueOp i.word = some (1, 3) → Does (.xStatProgress t) s
          ((d1.gangRetire t i).setU t i.g.idx (rdOf i.word) (w64 ((d1.tile t).mat.statValue 1 tok.toNat))))) ∧
      (∀ d1, d.jobProgress t tok.toNat = (d1, false) →
        (queueOp i.word = some (1, 2) → Does (.xStatCounts t) s d1) ∧ (queueOp i.word = some (1, 3) → Does (.xStatProgress t) s d1))))

/-- An X.WAIT or X.STAT, from the control core's matrix queue or a group's uniform path, whose token has a
non-zero bit in [63:32], has sequence number 0, or is greater than the latest issued on the tile in the
launch, is an illegal instruction. (R228) -/
def Obligations.TokenFormsThatTrap : Prop :=
  ∀ e ∈ [((fun t => Instr.xWait t), 1), ((fun t => .xStatCounts t), 2), ((fun t => .xStatProgress t), 3), ((fun t => .xStatState t), 4)],
    ∀ (s : State) (t : Nat) (tok : W64), tok.toNat / 2 ^ 32 ≠ 0 ∨ tok.toNat = 0 ∨ (s.dev.tile t).mat.seq < tok.toNat →
      (∀ o, Up s → s.dev.runsGangs t = false → s.dev.matHead t e.2 = some o → o.rs1 = tok → Does (e.1 t) s (s.dev.coreIllegal t o.pc)) ∧
      (∀ i d, GroupAt s t i d → s.dev.runsGangs t = true → (e.2 = 1 → s.dev.heldIssue t false = none) → queueOp i.word = some (1, e.2) → i.g.getU (rs1Of i.word) = tok →
        (d.tile t).mat.seq = (s.dev.tile t).mat.seq → Does (e.1 t) s (d.gangIllegal t i i.low))

/-- When the group that issues next holds the word: U.ADD, U.SUB, U.AND, U.OR, U.XOR, U.SLL, U.SRL, U.SRA,
U.SLT, U.SLTU, U.MUL and U.ADDI write u[rd] from u[rs1] and u[rs2] or the immediate, u0 reading 0 and
staying so; U.GET copies x[rs1] of the lowest thread to u[rd]; U.PUT copies u[rs1] to x[rd] of every
thread; each moves the group on by 4. A uniform branch moves every thread of the group to an aligned
target when its condition holds, and on by 4 otherwise; a misaligned target is a fault of the lowest
thread. Completed barriers and ends are then settled.
G.VOTE.ANY, G.VOTE.ALL and G.VOTE.BALLOT write u[rd] with whether some thread, or every thread, of the
group has a non-zero x[rs1], or with the mask of those that have. G.SHFL and G.SHFL.F write x[rd] or
f[rd] of each thread with x[rs1] or f[rs1] of the thread its x[rs2] names modulo 32, or with its own
where that thread is not in the group, all read before any is written. (R307, R323, R324, R336) -/
def Obligations.GangUniformVotesAndShuffles : Prop :=
  (∀ (s : State) (t : Nat) (i : Issue) (d : Dev), GroupAt s t i d →
    (∀ e ∈ uniformOps, gangOp i.word = some (2, e.2.1) → Does (e.1 t) s
      (((d.setGroup t i (fun n => (i.hart n).retire)).setU t i.g.idx (rdOf i.word)
        (e.2.2 (i.g.getU (rs1Of i.word)) (i.g.getU (rs2Of i.word)))).gangSettle t i.g.idx)) ∧
    (gangOp i.word = some (3, 0) → Does (.uAddi t) s
      (((d.setGroup t i (fun n => (i.hart n).retire)).setU t i.g.idx (rdOf i.word) (i.g.getU (rs1Of i.word) + immI i.word)).gangSettle t i.g.idx)) ∧
    (∀ e ∈ uniformBranches, gangOp i.word = some (e.2.1, 0) → (i.pc + immB i.word).toNat % 4 = 0 → Does (e.1 t) s
      ((d.setGroup t i (fun n => if e.2.2 (i.g.getU (rs1Of i.word)) (i.g.getU (rs2Of i.word)) then (i.hart n).jump (i.pc + immB i.word)
        else (i.hart n).retire)).gangSettle t i.g.idx)) ∧
    (∀ e ∈ uniformBranches, gangOp i.word = some (e.2.1, 0) → (i.pc + immB i.word).toNat % 4 ≠ 0 →
      e.2.2 (i.g.getU (rs1Of i.word)) (i.g.getU (rs2Of i.word)) = true → Does (e.1 t) s
      ((d.gangMemFault t i i.low .misaligned (i.pc + immB i.word).toNat).gangSettle t i.g.idx)) ∧
    (gangOp i.word = some (0, 0x18) → Does (.uGet t) s
      (((d.setGroup t i (fun n => (i.hart n).retire)).setU t i.g.idx (rdOf i.word) ((i.hart i.low).getX (rs1Of i.word))).gangSettle t i.g.idx)) ∧
    (gangOp i.word = some (0, 0x19) → Does (.uPut t) s
      ((d.setGroup t i (fun n => ((i.hart n).setX (rdOf i.word) (i.g.getU (rs1Of i.word))).retire)).gangSettle t i.g.idx))) ∧
  (∀ (s : State) (t : Nat) (i : Issue) (d : Dev) (nz : Nat → Bool) (from' : Nat → Nat), GroupAt s t i d →
    (∀ n, nz n = decide ((i.hart n).getX (rs1Of i.word) ≠ 0)) →
    (∀ n, from' n = if i.group.contains (((i.hart n).getX (rs2Of i.word)).toNat % 32) then ((i.hart n).getX (rs2Of i.word)).toNat % 32 else n) →
    (gangOp i.word = some (0, 0x08) → Does (.gVoteAny t) s (((d.setGroup t i (fun n => (i.hart n).retire)).setU t i.g.idx (rdOf i.word)
      (if i.group.any nz then 1 else 0)).gangSettle t i.g.idx)) ∧
    (gangOp i.word = some (0, 0x09) → Does (.gVoteAll t) s (((d.setGroup t i (fun n => (i.hart n).retire)).setU t i.g.idx (rdOf i.word)
      (if i.group.all nz then 1 else 0)).gangSettle t i.g.idx)) ∧
    (gangOp i.word = some (0, 0x0A) → Does (.gVoteBallot t) s (((d.setGroup t i (fun n => (i.hart n).retire)).setU t i.g.idx (rdOf i.word)
      (w64 (((i.group.filter nz).map (fun n => 2 ^ n)).sum))).gangSettle t i.g.idx)) ∧
    (gangOp i.word = some (0, 0x10) → Does (.gShfl t) s
      ((d.setGroup t i (fun n => ((i.hart n).setX (rdOf i.word) ((i.hart (from' n)).getX (rs1Of i.word))).retire)).gangSettle t i.g.idx)) ∧
    (gangOp i.word = some (0, 0x11) → Does (.gShflF t) s
      ((d.setGroup t i (fun n => ((i.hart n).setF (rdOf i.word) ((i.hart (from' n)).getF (rs1Of i.word))).retire)).gangSettle t i.g.idx)))

/-- G.BAR puts the group's threads at barrier rs1; G.YIELD moves the group on and marks the gang as
yielding; G.EXIT ends the threads of the group and their reservations. When every live thread of the
gang waits at one barrier they all move on; with no live thread left the gang ends, and with the last
gang the tile program. An ordinary instruction without memory access gives every thread of the group its
own result; an illegal one is a fault of the lowest thread for which it is illegal, and so is a parity
error of a register file it reads, for the lowest of the group (its address is free, log entry 236).
GANG_SWAP_OUT of an active gang whose swap condition holds, while a pending gang is ready,
writes its 17,408-byte frame at PEND + index x 17,408 of its tile's local memory, parks it and counts
the swap; otherwise nothing happens. GANG_SWAP_IN, while fewer than four gangs are active, makes the
earliest ready pending gang active with its registers from its frame, or with its start state if it has
not run. (R309, R311, R312, R313, R314, R315, R317, R319, R320, R332, R511) -/
def Obligations.GangSchedulingAndSwaps : Prop :=
  ((∀ (s : State) (t : Nat) (i : Issue) (d : Dev) (put : (Thread → Thread) → Gang → Gang), GroupAt s t i d →
    put = (fun f g => { g with threads := g.threads.zipIdx.map (fun e => if i.group.contains e.2 then f e.1 else e.1) }) →
    (gangOp i.word = some (0, 0) → Does (.gBar t) s
      ((d.modGang t i.g.idx (put (fun th => { th with state := 1, barrier := rs1Of i.word }))).gangSettle t i.g.idx)) ∧
    (gangOp i.word = some (0, 1) → Does (.gYield t) s
      (((d.setGroup t i (fun n => (i.hart n).retire)).modGang t i.g.idx (fun g => { g with yielded := true })).gangSettle t i.g.idx)) ∧
    (gangOp i.word = some (0, 2) → Does (.gExit t) s ((d.modGang t i.g.idx (put (fun th => { th with
      state := 3, hart := { th.hart with instret := th.hart.instret + 1, resv := none } }))).gangSettle t i.g.idx)) ∧
    (∀ f : Nat → Hart, i.group ≠ [] → (∀ d', s.dev.gangNext t = (d', .issue i) → ∀ n ∈ i.group, d'.threadAct t i n = .next (f n)) →
      Does (.gangThreadInstruction ⟨t, false⟩) s (d.setGroup t i f)) ∧
    (∀ n before after, i.group = before ++ n :: after → (∀ d', s.dev.gangNext t = (d', .issue i) →
        d'.threadAct t i n = .illegal ∧ ∀ m ∈ before, d'.threadAct t i m ≠ .illegal ∧ ∀ va, d'.threadAct t i m ≠ .misaligned va) →
      Does (.gangThreadInstruction ⟨t, false⟩) s (d.gangTrap t 1 i.pc n i.g.idx)) ∧
    Does (.gangThreadInstruction ⟨t, true⟩) s (s.dev.draw.gangFault t 7 0x18 (Config.freeValue s.dev.fresh).toNat i.pc
      (Config.freeValue s.dev.fresh).toNat i.low i.g.idx)) ∧
  (∀ (d : Dev) (t k b : Nat) (g : Gang), d.gang? t k = some g → g.alive ≠ [] → (∀ n ∈ g.alive, (g.thread n).state = 1) →
    g.barriers = [b] → d.gangSettle t k = d.modGang t k (fun g => { g with threads := g.threads.map (fun th =>
      if th.state == 1 then { th with state := 0, hart := th.hart.retire } else th) })) ∧
  (∀ (d : Dev) (t k : Nat) (g : Gang), d.gang? t k = some g → g.alive = [] → (∀ h ∈ (d.tile t).gangs, h.idx = k) →
    d.gangSettle t k = (d.modTile t (fun x => { x with gangs := [] })).modTile t (fun x => { x with ecall := true }))) ∧
  (∀ (s : State) (t : Nat) (l : Launch), Up s → s.dev.gangLaunch t = some l →
    (∀ k g, s.dev.gang? t k = some g →
      (∀ d, g.active = true → (s.dev.tile t).readyPending ≠ [] → s.dev.swapDue t g = true →
        s.dev.writePa (localBase t + l.pend + k * 17408) g.frame = .ok d → Does (.gangSwapOut t k) s
          ((d.modGang t k (fun g => g.park (d.tile t).nextPlace)).addSat F.cdGangStatus_SWAPS 1 (t / 32))) ∧
      (g.active = false ∨ (s.dev.tile t).readyPending = [] ∨ s.dev.swapDue t g = false → Does (.gangSwapOut t k) s s.dev)) ∧
    (∀ g rest, (s.dev.tile t).readyPending = g :: rest → ((s.dev.tile t).gangs.filter (·.active)).length < 4 →
      (g.started = false → Does (.gangSwapIn t) s (s.dev.modGang t g.idx (fun g => { g with
        active := true, started := true, activeSince := s.dev.cycles (t / 8) }))) ∧
      (∀ bs, g.started = true → s.dev.readPa (localBase t + l.pend + g.idx * 17408) 17408 = .ok bs →
        Does (.gangSwapIn t) s (s.dev.modGang t g.idx (fun g => { g.fromFrame bs with active := true, activeSince := s.dev.cycles (t / 8) })))) ∧
    (4 ≤ ((s.dev.tile t).gangs.filter (·.active)).length ∨ (s.dev.tile t).readyPending = [] → Does (.gangSwapIn t) s s.dev)) ∧
  (∀ (x : Tile) (g : Gang) (rest : List Gang), x.readyPending = g :: rest → g ∈ x.gangs ∧ g.active = false ∧ g.readyLanes x.mat ≠ [] ∧
    ∀ h ∈ x.gangs, h.active = false → h.readyLanes x.mat ≠ [] → g.pendSince ≤ h.pendSince)

/-- A group's loads and stores are made for each of its threads in ascending order, and so are LR and SC;
when all succeed every thread has its result. A G.AMO or AMO of a group performs its atomic for each
thread in ascending order, each thread getting the old value; while a wave holds a line locked the whole
instruction waits. (R326, R327, R328, R329, R330, R331) -/
def Obligations.GangMemoryAndAtomics : Prop :=
  (∀ (s : State) (t : Nat) (i : Issue) (d d1 d2 : Dev), Up s → s.dev.gangNext t = (d1, .issue i) → d = d1.gangIssued t i →
    (∀ rd fp size sg va, d1.threadAct t i i.low = .load rd fp size sg va → ThreadsDone (fun d n => d.threadMem t i n) i.group d d2 →
      Does (.threadMemoryAccess t) s d2) ∧
    (∀ size va val, d1.threadAct t i i.low = .store size va val → ThreadsDone (fun d n => d.threadMem t i n) i.group d d2 →
      Does (.threadMemoryAccess t) s d2) ∧
    (∀ rd size va, d1.threadAct t i i.low = .lr rd size va → ThreadsDone (fun d n => d.threadResv t i n) i.group d d2 →
      Does (.threadLrSc t) s d2) ∧
    (∀ rd size va val, d1.threadAct t i i.low = .sc rd size va val → ThreadsDone (fun d n => d.threadResv t i n) i.group d d2 →
      Does (.threadLrSc t) s d2) ∧
    (∀ e ∈ gangAtomicOps, ∀ wide, d1.groupAmo t i = some (e.2, wide) →
      (AtomicsDone t i e.2 wide i.group d d2 → Does (e.1 t) s d2) ∧
      (d.groupAtomics t i e.2 wide = none → Does (e.1 t) s s.dev))) ∧
  (∀ (d : Dev) (t n : Nat) (i : Issue) (size : Nat) (va : W64) (val : Nat), d.threadAct t i n = .store size va val →
    ∀ d1, d.tileStore t va.toNat size (leBytes size val) = (d1, .ok ()) →
      d.threadMem t i n = (d1.modGang t i.g.idx (fun g => g.modThread n (fun th => { th with hart := th.hart.retire })), .ok ()))

/-- At its pseudo-channel, warehouse bank or local-memory bank an access is performed in the cycle in which its
requester holds the grant, and otherwise answers the grant and the hints; one that no unit answers fails
at once. A cycle in which no burst goes on grants the request chosen in the cycle before while its
requester keeps it, and one that ends a grant chooses the highest-numbered input that requests; the
cranes of a deck have an arbiter of their own in front of input 1. A pool write that succeeds stores its bytes: no byte
outside its range changes, but for a watched line's dirty copy that goes to memory first and unless it
wakes a gated cluster; a line that a wave holds locked keeps the write waiting. A read answers its bytes when its
check is clean, counts and logs a corrected error, and of an uncorrectable pool line poisons it and delivers
nothing. (R99, R105, R106, R118, R119, R120, R192, R193, R195, R198, R343, R378) -/
def Obligations.PhysicalAccesses : Prop :=
  ((∀ (s : State) (cranes : List ArbRequest) (a : PhysAccess), Up s →
    (a.pa < 2 ^ 40 → s.dev.paErr a.pa a.len = none → ∀ b, b = .pool (s.dev.stackOfPa a.pa) (pcOf (stackOf s.dev.interleave a.pa).2) →
      Arbitrated (.poolAccess a) s b (s.dev.arbCycle b (s.dev.poolRequests (s.dev.stackOfPa a.pa)
        (pcOf (stackOf s.dev.interleave a.pa).2) a.keeps a.reqs) a.keeps) (fun r => r.input != 3) a) ∧
    (∀ k b d1 still, k < 8 → b < 64 → inWarehouseBank k b a.pa = true → s.dev.paErr a.pa a.len = none →
      (still = true ↔ ∃ r, (s.dev.arb (.cranes k b)).chosen = some r ∧ ∃ q ∈ cranes.filter (craneInput k), q.input = r.input) →
      d1 = s.dev.arbCycle (.cranes k b) (cranes.filter (craneInput k)) still →
      ∀ first, first = ((d1.arb (.cranes k b)).grantee.map (fun r => { r with input := 1 })).toList →
      Arbitrated (.warehouseAccess k b cranes a) s (.warehouse k b) (d1.arbCycle (.warehouse k b)
        (first ++ a.reqs.filter (fun r => r.input != 1 && decide (d1.warehouseInput k r.req = r.input))) a.keeps) (fun _ => true) a) ∧
    (∀ t b i, t < 1408 → b < 32 → localInput t a.req i = true → inLocalBank t b a.pa = true → s.dev.paErr a.pa a.len = none →
      Arbitrated (.localMemoryAccess t b i a) s (.localMem t b)
        (s.dev.arbCycle (.localMem t b) (a.reqs.filter (fun r => localInput t r.req r.input)) a.keeps) (fun r => r.input == i) a) ∧
    (ownSpace a.req a.pa = false → (s.dev.paErr a.pa a.len).isSome = true →
      Does (.poolAccess a) s (s.dev.access a) ∧
      (∀ k b, k < 8 → b < 64 → inWarehouseBank k b a.pa = false → Does (.warehouseAccess k b cranes a) s (s.dev.access a)) ∧
      (∀ t b i, t < 1408 → b < 32 → localInput t a.req i = true → Does (.localMemoryAccess t b i a) s (s.dev.access a)))) ∧
  (∀ (x : Arb) (reqs : List ArbRequest) (keeps : Bool),
    (x.grantee = none ∨ x.left = some 0 → (x.cycle reqs keeps).grantee = if keeps = true then x.chosen else none) ∧
    ((x.cycle reqs keeps).left = some 0 → (x.cycle reqs keeps).chosen = topRequest reqs) ∧
    (x.cycle reqs keeps).hints = hintsOf (x.cycle reqs keeps).grantee (x.cycle reqs keeps).left reqs) ∧
  (∀ (reqs : List ArbRequest) (r : ArbRequest), topRequest reqs = some r → r ∈ reqs ∧ ∀ q ∈ reqs, q.input ≤ r.input)) ∧
  ((∀ (d : Dev) (a : PhysAccess) (bs : List Byte) (d1 : Dev), a.write = some bs → d1 = (d.touch a.pa).meetWrite a.pa bs.length →
    (∀ d', d1.writePa a.pa bs = .ok d' → d.access a = d'.answer (.ok 0)) ∧
    (∀ e, d1.writePa a.pa bs = .error e →
      d.access a = (d1.logAcc e (d1.locReq a.req)).failReq a.req a.item a.va e (accCode a.pa e) true)) ∧
  (∀ (d : Dev) (a : PhysAccess) (d0 : Dev), a.write = none → d0 = d.reach a.pa a.len → d0.paErr a.pa a.len = none →
    (∀ d1 bs, (a.ecc = .clean ∧ d1 = d0 ∨ a.ecc = .corrected ∧ d1 = d0.noteCorrected a.pa) → d1.readPa a.pa a.len = .ok bs →
      d.access a = d1.answer (.data bs)) ∧
    (a.pa < 2 ^ 40 → 0 < a.len → a.ecc = .uncorrectable → (d0.notePoison a.pa).mem.poisonedAt a.pa = true ∧
      d.access a = (d0.notePoison a.pa).failReq a.req a.item a.va .poison 0x2002 false)) ∧
  (∀ (d d' : Dev) (pa : Nat) (bs : List Byte), d.writePa pa bs = .ok d' → d.lockedLine pa = true → d' = d.holdWrite pa bs false) ∧
  (∀ (d d' : Dev) (pa : Nat) (bs : List Byte), d.writePa pa bs = .ok d' → d.lockedLine pa = false →
    (∀ t off, space pa = .localMem t off → d.gated (t / 8) = false) →
    (∀ a, a < pa ∨ pa + bs.length ≤ a → d'.mem.byte a = (d.bellDrop pa bs.length).mem.byte a) ∧
    (∀ i (h : i < bs.length), d'.mem.byte (pa + i) = bs[i])))

/-- Every far atomic on an unlocked pool address and every warehouse atomic or reduce operation, aligned and
with a clean or corrected check, replaces its operand with the operation's result and answers the old value
(RADD answers none), or fails with what its access meets; a far atomic on a line a wave holds locked
waits. (R107, R109, R116, R382, R404, R405) -/
def Obligations.AtomicUnits : Prop :=
  (∀ (s : State) (a : AtomicReq) (size : Nat) (d0 d1 : Dev), Up s → a.pa % size = 0 → d0 = s.dev.reach a.pa size →
    (a.ecc = .clean ∧ d1 = d0 ∨ a.ecc = .corrected ∧ d0.paErr a.pa size = none ∧ d1 = d0.noteCorrected a.pa) →
    (∀ e ∈ farOps, a.pa < 2 ^ 40 → s.dev.lockedLine a.pa = false → size = (if a.wide then 8 else 4) → ∀ f,
      f = (fun old => atomicNew e.2 a.wide old a.operand.toNat a.compare.toNat) →
      (∀ d' old, d1.atomicAt a.pa size a.shared f = .ok (d', old) → Does (e.1 a) s (d'.answer (.ok (w64 old)))) ∧
      (∀ x, d1.atomicAt a.pa size a.shared f = .error x →
        Does (e.1 a) s ((d1.logAcc x (d1.locReq a.req)).failReq a.req a.item a.va x (accCode a.pa x) true))) ∧
    (inWarehouse a.pa = true →
      (∀ e ∈ warehouseOps, size = (if a.wide then 8 else 4) → ∀ f, f = (fun old => e.2 a.wide old a.operand.toNat a.compare.toNat) →
        (∀ d' old, d1.atomicAt a.pa size a.shared f = .ok (d', old) → Does (e.1 a) s (d'.answer (.ok (w64 old)))) ∧
        (∀ x, d1.atomicAt a.pa size a.shared f = .error x →
          Does (e.1 a) s ((d1.logAcc x (d1.locReq a.req)).failReq a.req a.item a.va x (accCode a.pa x) true))) ∧
      (size = (if a.h16 then 2 else 4) → ∀ f, f = (fun old => raddNew a.h16 old a.operand.toNat) →
        (∀ d' old, d1.atomicAt a.pa size a.shared f = .ok (d', old) → Does (.raddH16F32 a) s (d'.answer (.ok 0))) ∧
        (∀ x, d1.atomicAt a.pa size a.shared f = .error x →
          Does (.raddH16F32 a) s ((d1.logAcc x (d1.locReq a.req)).failReq a.req a.item a.va x (accCode a.pa x) true))) ∧
      (∀ (hi lo : W64), size = 16 → ∀ f, f = (fun old => ofInt 128 (max (-2 ^ 127) (min (2 ^ 127 - 1) (toInt 128 old + toInt 128 (hi ++ lo).toNat)))) →
        (∀ d' old, d1.atomicAt a.pa size a.shared f = .ok (d', old) → Does (.raddT128 a hi lo) s (d'.answer (.ok 0))) ∧
        (∀ x, d1.atomicAt a.pa size a.shared f = .error x →
          Does (.raddT128 a hi lo) s ((d1.logAcc x (d1.locReq a.req)).failReq a.req a.item a.va x (accCode a.pa x) true))))) ∧
  (∀ e ∈ farOps, ∀ (s : State) (a : AtomicReq), Up s → a.pa < 2 ^ 40 → s.dev.lockedLine a.pa = true → Does (e.1 a) s s.dev) ∧
  (∀ (d d' : Dev) (pa size old : Nat) (f : Nat → Nat), d.atomicAt pa size false f = .ok (d', old) →
    ∃ bs d1, d.readPa pa size = .ok bs ∧ leNat bs = old ∧ d.writePa pa (leBytes size (f old)) = .ok d1 ∧ d'.mem = d1.mem)

/-- Every warehouse atomic and reduce operation whose address is not a multiple of its operand's size is
answered with an error response and changes nothing else. (R108) -/
def Obligations.MisalignedAtomicsRefused : Prop :=
  (∀ e ∈ warehouseOps, ∀ (s : State) (a : AtomicReq), Up s → inWarehouse a.pa = true → a.pa % (if a.wide then 8 else 4) ≠ 0 →
    Does (e.1 a) s (s.dev.answer .error)) ∧
  (∀ (s : State) (a : AtomicReq), Up s → inWarehouse a.pa = true → a.pa % (if a.h16 then 2 else 4) ≠ 0 →
    Does (.raddH16F32 a) s (s.dev.answer .error)) ∧
  (∀ (s : State) (a : AtomicReq) (hi lo : W64), Up s → inWarehouse a.pa = true → a.pa % 16 ≠ 0 →
    Does (.raddT128 a hi lo) s (s.dev.answer .error))

/-- PATROL_SCRUB of an address of a unit whose scrub runs moves the patrol on, and a corrected or
uncorrectable finding is counted and poisoned as a read's is. SCRUB_PASS_DONE begins the next pass, and
counts and logs an HBM one; SCRUB_LATE logs once a pass not finished within twice its period, counted
from the pass's start or the release. ROW_SPARE takes a spare row where one is left and otherwise retires
the HBM row's pages, or counts a warehouse row as unspared. BANK_WATCHDOG_RESET logs the requester of the
ended grant, kills the context of its work and resets its unit; a host core takes an access fault. (R116,
R118, R122, R123, R125, R126, R127, R196) -/
def Obligations.ScrubSparingAndWatchdog : Prop :=
  (∀ (s : State), Up s →
    (∀ u pa d1, s.dev.scrubRuns u = true → s.dev.inScrub u pa = true →
      d1 = s.dev.modScrub u (fun x => { x with next := unitOf pa + unitSize pa }) →
      Does (.patrolScrub u pa .clean) s d1 ∧
      Does (.patrolScrub u pa .corrected) s (d1.noteCorrected (unitOf pa)) ∧
      (pa < 2 ^ 40 → Does (.patrolScrub u pa .uncorrectable) s
        ((d1.notePoison (unitOf pa)).passError ((d1.notePoison (unitOf pa)).stackOfPa (unitOf pa)) (unitOf pa))) ∧
      (2 ^ 40 ≤ pa → Does (.patrolScrub u pa .uncorrectable) s (d1.notePoison (unitOf pa)))) ∧
    (∀ u d1, scrubUnitIs u = true → s.dev.scrubRuns u = true → d1 = s.dev.modScrub u (fun _ => { start := some s.dev.now }) →
      (∀ k, u = .stack k → Does (.scrubPassDone u) s
        (((d1.modStack k (fun x => { x with passErrors := [] })).addWrap F.hbmScrubCfg_PASSES 1 k).note 0x2030 (locStack k))) ∧
      ((∀ k, u ≠ .stack k) → Does (.scrubPassDone u) s d1)) ∧
    (∀ u t0, scrubUnitIs u = true → s.dev.scrubRuns u = true → t0 = (s.dev.scrub u).start.getD s.dev.pilot.releasedAt →
      ((s.dev.scrub u).late = false → t0 + 2 * s.dev.scrubNs u ≤ s.dev.now →
        Does (.scrubLate u) s ((s.dev.modScrub u (fun x => { x with late := true })).note 0x2031 (s.dev.locScrub u))) ∧
      ((s.dev.scrub u).late = true ∨ s.dev.now < t0 + 2 * s.dev.scrubNs u → Does (.scrubLate u) s s.dev))) ∧
  (∀ (s : State), Up s →
    (∀ st r left first d1, st < 16 → first < 2 ^ 40 →
      needsSparing s.dev.now (fun u => Config.rowOf u == r) (tget .new s.dev.hbmStacks st).marks (tget .new s.dev.hbmStacks st).corrected = true →
      d1 = s.dev.modStack st (fun x => { x with
        marks := x.marks.filter (fun u => Config.rowOf u != r), corrected := x.corrected.filter (fun e => Config.rowOf e.1 != r) }) →
      (0 < left → Does (.rowSpare (.hbm st r left first)) s ((d1.addSat F.hbmErrCount_ROWS_SPARED 1 st).note 0x2010 (locStack st) [(4, left - 1)])) ∧
      (left = 0 → Does (.rowSpare (.hbm st r left first)) s
        ((rowPages st r first).foldl (fun d p => d.retire { pending := false, reason := 1, count := 1, first := p }) d1))) ∧
    (∀ k b r mine used d1, k < 8 → b < 64 → mine = (fun u => inWarehouseBank k b u && Config.rowOf u == r) →
      needsSparing s.dev.now mine (tget .new s.dev.decks k).marks (tget .new s.dev.decks k).corrected = true →
      used = (s.dev.ledger.data.whRows.filter (fun x => x.1 == 64 * k + b)).length →
      d1 = s.dev.modDeck k (fun x => { x with marks := x.marks.filter (fun u => !mine u), corrected := x.corrected.filter (fun e => !mine e.1) }) →
      (used < 8 → Does (.rowSpare (.warehouse k b r)) s (((d1.ledgerChange (fun l => { l with whRows := l.whRows ++ [(64 * k + b, r)] })).addSat
        F.dckWhStatus_ROWS_SPARED 1 k).note 0x2010 (locDeck k) [(4, 7 - used)])) ∧
      (8 ≤ used → Does (.rowSpare (.warehouse k b r)) s (d1.addSat F.dckWhStatus_ROWS_UNSPARED 1 k))) ∧
    (∀ bank r d1 d2 d3, (s.dev.arb bank).due = some r → d1 = { s.dev with arbs := tset .new s.dev.arbs (bankKey bank) { s.dev.arb bank with due := none } } →
      ((∀ t b, bank ≠ .localMem t b) ∧ d2 = d1 ∨ (∃ t b d0, bank = .localMem t b ∧
        d0 = (d1.addSat F.cdWatchdogCount_COUNT 1 (t / 32)).put F.cdWatchdogCount_LAST_BANK b (t / 32) ∧
        d2 = d0.put F.cdWatchdogCount_LAST_LOCATOR (d0.locTile t) (t / 32))) →
      d3 = d2.note 0x6102 (d2.locReq r.req) [(2, d2.locReq r.req)] →
      (∀ h, r.req = .hart h → Does (.bankWatchdogReset bank) s (d3.answer (if r.write then .storeFault else .loadFault))) ∧
      ((∀ h, r.req ≠ .hart h) →
        (∀ c, d3.ctxOfWork r.req r.item = some c → Does (.bankWatchdogReset bank) s ((d3.killCtx c 0x6102).watchdogUnit r.req)) ∧
        (d3.ctxOfWork r.req r.item = none → Does (.bankWatchdogReset bank) s (d3.watchdogUnit r.req)))) ∧
    (∀ bank, (s.dev.arb bank).due = none → Does (.bankWatchdogReset bank) s s.dev))

/-- SEGMENT_DESCRIPTOR_LOAD of a descriptor not held reads its 32 bytes at BASE + 512 x context + 32 x
segment and holds it; one held already changes nothing. PAGE_WALK loads the entry of a page below LIMIT of
a valid paged segment, logs a check that the descriptor or the entry fails, and changes nothing more where
the segment has no such page. TRANSIT_FILL of a line not held fetches both halves and allocates the line,
and holds nothing when its first half fails; one held already changes nothing. With an error found, a clean
line and a side-buffer line are dropped, counted, logged with code 0x2005 and fetched again; a dirty line,
or one with an uncorrectable tag, is dropped, counted, logged with code 0x2006 and its owner killed.
(R461, R462, R468, R469, R472, R505, R511) -/
def Obligations.TranslationAndFills : Prop :=
  ((∀ (s : State) (h : Holder) (ctx seg : Nat), Up s → ctx < 256 → seg < 14 →
    (∀ e, (s.dev.xl h).segs.find? (fun e => e.ctx == ctx && e.seg == seg && !e.stale) = some e → Does (.segmentDescriptorLoad h ctx seg) s s.dev) ∧
    ((s.dev.xl h).segs.find? (fun e => e.ctx == ctx && e.seg == seg && !e.stale) = none →
      (∀ d e, s.dev.loadSeg h ctx seg = (d, .ok e) → Does (.segmentDescriptorLoad h ctx seg) s d) ∧
      (∀ d x, s.dev.loadSeg h ctx seg = (d, .error x) → Does (.segmentDescriptorLoad h ctx seg) s
        (d.checkFailed ctx (w64 (seg * 2 ^ 60)) (d.locHolder h) 1 x))) ∧
    (∀ page d x, s.dev.segOf h ctx seg = (d, .error x) → Does (.pageWalk h ctx seg page) s
      (d.checkFailed ctx (w64 (seg * 2 ^ 60 + page * 2 ^ 21)) (d.locHolder h) 1 x)) ∧
    (∀ page d e, s.dev.segOf h ctx seg = (d, .ok e) →
      (e.valid = false ∨ e.paged = false ∨ e.limit ≤ page → Does (.pageWalk h ctx seg page) s d) ∧
      (e.valid = true → e.paged = true → page < e.limit →
        (∀ d1 w, d.pageOf h e page = (d1, .ok w) → Does (.pageWalk h ctx seg page) s d1) ∧
        (∀ d1 x, d.pageOf h e page = (d1, .error x) → Does (.pageWalk h ctx seg page) s
          (d1.checkFailed ctx (w64 (seg * 2 ^ 60 + page * 2 ^ 21)) (d1.locHolder h) 1 x))))) ∧
  (∀ (d d1 : Dev) (h : Holder) (ctx seg : Nat) (e : SegEntry), d.loadSeg h ctx seg = (d1, .ok e) →
    e.ctx = ctx ∧ e.seg = seg ∧ e ∈ (d1.xl h).segs ∧
    ∃ bs, (d.look (d.get F.segCtxTableBase_BASE * 4096 + 512 * ctx + 32 * seg) 32).hubRead
      (d.get F.segCtxTableBase_BASE * 4096 + 512 * ctx + 32 * seg) 32 = .ok bs ∧
      ∀ i, i < 4 → e.w i = leNat ((bs.drop (8 * i)).take 8) % 2 ^ 64)) ∧
  ((∀ (s : State) (lc line ctx : Nat) (shared stream : Bool), Up s → lc < 176 → line < 2 ^ 33 → ctx < 256 →
    (∀ l, (s.dev.cluster lc).line? line = some l → Does (.transitFill lc line ⟨ctx, shared, stream, none⟩) s s.dev) ∧
    ((s.dev.cluster lc).line? line = none →
      Does (.transitFill lc line ⟨ctx, shared, stream, none⟩) s (s.dev.fill lc ctx 0 (line * 128) shared stream).1 ∧
      (∀ e, ((s.dev.cluster lc).side.any (fun x => x.line == line) = true →
          Does (.transitFill lc line ⟨ctx, shared, stream, some e⟩) s ((s.dev.parityClean lc line).fill lc ctx 0 (line * 128) shared stream).1) ∧
        ((s.dev.cluster lc).side.any (fun x => x.line == line) = false → Does (.transitFill lc line ⟨ctx, shared, stream, some e⟩) s s.dev))) ∧
    (∀ l e, (s.dev.cluster lc).line? line = some l →
      (l.dirty = 0 → e.tag = false → Does (.transitFill lc line ⟨ctx, shared, stream, some e⟩) s
        ((s.dev.parityClean lc line).fill lc ctx 0 (line * 128) l.shared l.next).1) ∧
      (l.dirty ≠ 0 ∨ e.tag = true → Does (.transitFill lc line ⟨ctx, shared, stream, some e⟩) s (s.dev.parityDirty lc l e)))) ∧
  (∀ (d d1 : Dev) (lc line ctx : Nat) (shared stream : Bool), d.ringLine line = false →
    d1 = (if shared then d.look (line * 128) 128 else d.meet (line * 128) 128) →
    (∀ a b, d1.fillHalf shared (line * 128) = .ok a → d1.fillHalf shared (line * 128 + 64) = .ok b →
      d.fill lc ctx 0 (line * 128) shared stream = (d1.allocate lc ctx 0
        { line := line, way := 0, data := a ++ b, owner := ctx, shared := shared, next := stream }, .done)) ∧
    (∀ e, d1.fillHalf shared (line * 128) = .error e → d.fill lc ctx 0 (line * 128) shared stream = (d1, .failed e))) ∧
  (∀ (d : Dev) (lc line : Nat), ∃ d1 : Dev, (∀ x : TcLine, x ∈ (d1.cluster lc).tc ∨ x ∈ (d1.cluster lc).side → x.line ≠ line) ∧
    d.parityClean lc line = (d1.note 0x2005 (d.locCluster lc) [(8, line * 128), (2, d.locCluster lc)]).addSat F.cdTcStatus_PARITY_CLEAN 1 lc) ∧
  (∀ (d : Dev) (lc : Nat) (l : TcLine) (e : TcErr), ∃ (d1 : Dev) (rest : List Nat), (∀ x : TcLine, x ∈ (d1.cluster lc).tc → x.line ≠ l.line) ∧
    d.parityDirty lc l e = (l.owner :: rest).foldl (fun d c => (d.failOwner c).killCtx c 0x2006)
      ((d1.note 0x2006 (d1.locCluster lc) [(8, l.line * 128), (2, d1.locCluster lc), (1, l.owner)]).addSat F.cdTcStatus_PARITY_DIRTY 1 lc) ∧
    (e.tag = false → rest = [])))

/-- On the released slice of its MAINT item: SCRUB of a stack or of a deck treats the positions found
corrected and uncorrectable as reads, and a stack's pass is counted and logged at the end; HBM_RETRAIN
fences each pseudo-channel of the slice that fails; D2D_RETRAIN gives an ACTIVE link's modules of the slice
their new widths, logs code 0x3001 and takes the link out of ACTIVE when fewer than half are left, and
changes no width on a link that is not ACTIVE; LANE_RECAL with a free spare and no failure completes its
slice and otherwise fails FAIL_HW; AGEING completes its slices and at the end takes the remeasured offset.
FLASH_WRITE reads its slice's bytes from memory and writes them at the same offset of the flash image
region, then fails FAIL_HW at a position that does not read back; SECURE_ERASE waits while a wave holds a
line of its slice, and else works through its pages, each translated, in the pool and zeroed; LOG_EXPORT
copies one 64-byte record per position, and fails FAIL_HW at a vault position that fails; ATTEST writes the
evidence of its nonce and completes, fails FAIL_HW when the pilot fails, or FAIL_DENIED while the pilot
refuses. (R128, R382, R407, R579, R617, R646) -/
def Obligations.MaintActivities : Prop :=
  (∀ (s : State) (ring index : Nat) (it : Item) (r : MaintResult), Up s → InHand s ring index it → it.typ = tMaint →
    (∀ k d1 d2, it.activity = 1 → stackAt it.target = some k →
      d1 = (it.inSlice r.values).foldl (fun d p => d.scrubbed (poolAddr s.dev.interleave k (64 * p)) .corrected) s.dev →
      d2 = (it.inSlice r.failed).foldl (fun d p => d.scrubbed (poolAddr s.dev.interleave k (64 * p)) .uncorrectable) d1 →
      (it.sliceEnd < it.last → Does (.scrub ring index r) s (d2.sliceDone ring index)) ∧
      (it.last ≤ it.sliceEnd → Does (.scrub ring index r) s
        ((((d2.modStack k (fun x => { x with passErrors := [] })).addWrap F.hbmScrubCfg_PASSES 1 k).note 0x2030 (locStack k)).sliceDone ring index))) ∧
    (∀ k d1 d2, it.activity = 1 → stackAt it.target = none → deckAt it.target = some k →
      d1 = (it.inSlice r.values).foldl (fun d p => d.scrubbed (s.dev.deckScrubPa k p) .corrected) s.dev →
      d2 = (it.inSlice r.failed).foldl (fun d p => d.scrubbed (s.dev.deckScrubPa k p) .uncorrectable) d1 →
      Does (.scrub ring index r) s (d2.sliceDone ring index)) ∧
    (∀ k, it.activity = 2 → stackAt it.target = some k →
      Does (.hbmRetrain ring index r) s (((it.inSlice r.failed).foldl (fun d p => d.fencePc k p) s.dev).sliceDone ring index)) ∧
    (∀ k key d1, it.activity = 3 → deckAt it.target = some k → key = linkKey (.deck k (it.w 2)) →
      d1 = Dev.showWidths ((rangeFrom it.pos (it.sliceEnd - it.pos)).foldl (fun (d : Dev) m => d.modLink key (fun l => { l with
        near := tset 0 l.near m (min 2 (r.values.getD (m - it.pos) 2))
        far := tset 0 l.far m (min 2 (r.values.getD (m - it.pos) 2)) })) s.dev) key →
      (s.dev.linkState key ≠ 4 → Does (.d2dRetrain ring index r) s (s.dev.sliceDone ring index)) ∧
      (s.dev.linkState key = 4 →
        (modulesOf key ≤ 2 * ((List.range (modulesOf key)).filter (fun i => tget 0 (d1.link key).near i != 0)).length →
          Does (.d2dRetrain ring index r) s (d1.sliceDone ring index)) ∧
        (2 * ((List.range (modulesOf key)).filter (fun i => tget 0 (d1.link key).near i != 0)).length < modulesOf key →
          Does (.d2dRetrain ring index r) s
            ((((d1.note 0x3001 (locDeck k) [(1, it.w 2)]).setLinkState key 6).linkLost key).sliceDone ring index)))) ∧
    (∀ p, it.activity = 4 → portAt it.target = some p →
      (25 ≤ (tget .new s.dev.ports p).good → it.inSlice r.failed = [] → Does (.laneRecal ring index r) s (s.dev.sliceDone ring index)) ∧
      ((tget .new s.dev.ports p).good < 25 ∨ it.inSlice r.failed ≠ [] → Does (.laneRecal ring index r) s (s.dev.finishAt ring index 0x13 0))) ∧
    (∀ ld, it.activity = 5 → s.dev.dieAt it.target = some ld →
      (it.sliceEnd < it.last → Does (.ageing ring index r) s (s.dev.sliceDone ring index)) ∧
      (∀ mv rest, it.last ≤ it.sliceEnd → r.values = mv :: rest → Does (.ageing ring index r) s ((s.dev.ageDie ld mv).sliceDone ring index)))) ∧
  ((∀ (s : State) (ring index : Nat) (it : Item) (r : MaintResult), Up s → InHand s ring index it → it.typ = tMaint →
    (∀ d1 d2 bs, it.activity = 6 → d2 = d1.writeFlash (it.pos * 1024) bs →
      s.dev.dmaReadN .harbourmaster it.ctx (it.w 2 + it.pos * 1024) (min (it.w 3) (it.sliceEnd * 1024) - it.pos * 1024) = (d1, .ok bs) →
      (it.inSlice r.failed = [] → Does (.flashWrite ring index r) s (d2.sliceDone ring index)) ∧
      (∀ p ps, it.inSlice r.failed = p :: ps → Does (.flashWrite ring index r) s (d2.finishAt ring index 0x13 p))) ∧
    (∀ d1 x va, it.activity = 6 →
      s.dev.dmaReadN .harbourmaster it.ctx (it.w 2 + it.pos * 1024) (min (it.w 3) (it.sliceEnd * 1024) - it.pos * 1024) = (d1, .error (x, va)) →
      Does (.flashWrite ring index r) s (d1.xfail ring index it.pos x va)) ∧
    (it.activity = 7 → (s.dev.eraseWaits it = true → Does (.secureErase ring index r) s s.dev) ∧
      (s.dev.eraseWaits it = false → Does (.secureErase ring index r) s (s.dev.eraseLoop it r.failed (it.sliceEnd - it.pos) it.pos))) ∧
    (it.activity = 8 → (it.inSlice r.failed = [] ∨ it.w 3 = 0 →
        Does (.logExport ring index r) s (s.dev.exportLoop it (it.sliceEnd - it.pos) it.pos)) ∧
      (∀ p ps, it.inSlice r.failed = p :: ps → it.w 3 ≠ 0 → Does (.logExport ring index r) s (s.dev.finishAt ring index 0x13 p))) ∧
    (it.activity = 13 → s.dev.mayAttest = false → Does (.attest ring index r) s (s.dev.finishAt ring index 0x19 0)) ∧
    (it.activity = 13 → s.dev.mayAttest = true → r.ok = false → Does (.attest ring index r) s (s.dev.finishAt ring index 0x13 0)) ∧
    (∀ d1, it.activity = 13 → s.dev.mayAttest = true → r.ok = true →
      (s.dev.dmaPut .harbourmaster it.ctx (it.w 2) (s.dev.evidence ((rangeFrom 3 4).flatMap (fun k => leBytes 8 (it.w k)))) = (d1, .ok ()) →
        Does (.attest ring index r) s (d1.sliceDone ring index)) ∧
      (∀ x va, s.dev.dmaPut .harbourmaster it.ctx (it.w 2) (s.dev.evidence ((rangeFrom 3 4).flatMap (fun k => leBytes 8 (it.w k)))) =
        (d1, .error (x, va)) → Does (.attest ring index r) s (d1.xfail ring index 0 x va)))) ∧
  (∀ (d d1 : Dev) (it : Item) (n p : Nat), d.dmaPut .harbourmaster it.ctx (it.w 2 + 64 * p) (d.exportRecord (it.w 3) p) = (d1, .ok ()) →
    d.exportLoop it (n + 1) p = d1.exportLoop it n (p + 1)) ∧
  (∀ (d d1 : Dev) (it : Item) (x : XOk) (a n : Nat), d.xlate .harbourmaster it.ctx (w64 a) n 2 = (d1, .ok x) → x.pa < 2 ^ 40 → x.hostShared = false →
    (d1.stacksOf x.pa).any (fun s => d1.get F.whfStatus_STATE s == 2) = false →
    d.eraseRange it [] (a, n) = ({ d1 with mem := d1.mem.erase x.pa n }, .ok ())) ∧
  (∀ (m : Mem) (a n b : Nat), a ≤ b → b < a + n → a % 64 = 0 → n % 64 = 0 → a + n ≤ 2 ^ 40 → (m.erase a n).byte b = 0))

/-- SPARE_TEST marks its deck's spare for test at the next DEV_WARM. REPAIR fuses a record of the die and
the chosen spare, and fails FAIL_HW with no spare or four records; a free spare that passed its self-test
on the die's own deck is the one chosen. PAGE_RETIRE adds one entry with REASON 5. Each of the three, and
LEDGER_CLEAR, fails FAIL_HW when its operation fails. LEDGER_CLEAR without the arm is FAIL_DENIED with code 0x9404; with it, it consumes the arm and
marks the named entry, or under ALL every entry, for removal at the next DEV_WARM. LEDGER_ARM_EXPIRY clears an arm 10 s old and
no younger one. LEDGER_FLASH_WRITE writes a changed ledger to the older copy with the next sequence
number, or sets LOG_VAULT_STATUS.ERROR and logs 0xF003 when the write fails. VAULT_MIRROR copies the
next record of slots 0 to 255 into the current vault slot. RATE_WINDOW_END ends a window that is over,
with a summary record of what it counted. None acts on flash while it is released. (R34, R138, R642,
R643, R646, R652, R656) -/
def Obligations.RepairsLedgerAndVault : Prop :=
  (∀ (s : State) (ring index : Nat) (it : Item) (r : MaintResult), Up s → InHand s ring index it → it.typ = tMaint →
    (r.ok = false →
      (it.activity = 9 → Does (.spareTest ring index r) s (s.dev.finishAt ring index 0x13 0)) ∧
      (it.activity = 10 → Does (.repair ring index r) s (s.dev.finishAt ring index 0x13 0)) ∧
      (it.activity = 11 → Does (.pageRetire ring index r) s (s.dev.finishAt ring index 0x13 0)) ∧
      (it.activity = 12 → s.dev.ledgerArmed = true → Does (.ledgerClear ring index r) s (s.dev.finishAt ring index 0x13 0)))) ∧
  (∀ (s : State) (ring index : Nat) (it : Item) (r : MaintResult), Up s → InHand s ring index it → it.typ = tMaint → r.ok = true →
    (∀ k, it.activity = 9 → deckAt it.target = some k → Does (.spareTest ring index r) s
      ((s.dev.modPilot (fun p => { p with spareTests := if p.spareTests.contains k then p.spareTests else p.spareTests ++ [k] })).sliceDone ring index)) ∧
    (∀ ld, it.activity = 10 → s.dev.dieAt it.target = some ld →
      (s.dev.chooseSpare (s.dev.deckOfDie ld) = none ∨ 4 ≤ s.dev.fuses.repairs.length → Does (.repair ring index r) s (s.dev.finishAt ring index 0x13 0)) ∧
      (∀ k, s.dev.chooseSpare (s.dev.deckOfDie ld) = some k → s.dev.fuses.repairs.length < 4 → Does (.repair ring index r) s
        (({ s.dev with fuses := { s.dev.fuses with repairs := s.dev.fuses.repairs ++ [(ld, 6 * k + s.dev.get F.dckSpareStatus_SITE k)] } } : Dev).sliceDone ring index))) ∧
    (it.activity = 11 → Does (.pageRetire ring index r) s
      ((s.dev.retire { pending := false, reason := 5, count := it.w 3, first := it.w 2 / 2 ^ 21 }).sliceDone ring index)) ∧
    (it.activity = 12 →
      (s.dev.ledgerArmed = false → Does (.ledgerClear ring index r) s ((s.dev.note 0x9404 0).finishAt ring index 0x19 0)) ∧
      (s.dev.ledgerArmed = true → it.b 2 63 = false → Does (.ledgerClear ring index r) s
        ((((s.dev.flag F.mntLedgerArm_ARMED false).ledgerChange (fun l => { l with removals := it.f 2 11 0 :: l.removals })).note
          0x9402 0 [(4, 1)]).sliceDone ring index)) ∧
      (s.dev.ledgerArmed = true → it.b 2 63 = true → Does (.ledgerClear ring index r) s
        ((((s.dev.flag F.mntLedgerArm_ARMED false).ledgerChange (fun l => { l with removeAll := true })).note
          0x9402 0 [(4, s.dev.ledger.data.retired.length)]).sliceDone ring index)))) ∧
  (∀ (d : Dev) (k : Nat), k < 8 → d.get F.dckSpareStatus_PRESENT k = 1 → d.get F.dckSpareStatus_RESULT k = 1 →
    inService d.fuses (6 * k + d.get F.dckSpareStatus_SITE k) = false → d.chooseSpare k = some k) ∧
  ((∀ (s : State), s.dev.clocked = true → s.dev.get F.mntLedgerArm_ARMED = 1 →
    (s.dev.ledger.armedAt + 10 ^ 10 ≤ s.dev.now → Does .ledgerArmExpiry s (s.dev.flag F.mntLedgerArm_ARMED false)) ∧
    (s.dev.now < s.dev.ledger.armedAt + 10 ^ 10 → Does .ledgerArmExpiry s s.dev)) ∧
  (∀ (s : State) (ok : Bool) (l : Ledger), s.dev.clocked = true → l = { s.dev.ledger with seq := s.dev.ledger.seq + 1, dirty := false } →
    (s.dev.ledger.dirty = false ∨ s.dev.get F.pilStatus_FLASH_RELEASED = 1 → Does (.ledgerFlashWrite ok) s s.dev) ∧
    (s.dev.ledger.dirty = true → s.dev.get F.pilStatus_FLASH_RELEASED = 0 →
      (s.dev.ledger.copy0 = none ∨ (∃ a b, s.dev.ledger.copy0 = some a ∧ s.dev.ledger.copy1 = some b ∧ a.1 ≤ b.1) →
        Does (.ledgerFlashWrite true) s (({ s.dev with ledger := { l with copy0 := some (l.seq, l.data) } } : Dev).note 0x9401 0 [(1, 0), (4, l.seq)]) ∧
        Does (.ledgerFlashWrite false) s ((s.dev.flag F.logVaultStatus_ERROR true).note 0xF003 0 [(4, 0x0FC20000)])) ∧
      (∀ a, s.dev.ledger.copy0 = some a → s.dev.ledger.copy1 = none ∨ (∃ b, s.dev.ledger.copy1 = some b ∧ b.1 < a.1) →
        Does (.ledgerFlashWrite true) s (({ s.dev with ledger := { l with copy1 := some (l.seq, l.data) } } : Dev).note 0x9401 0 [(1, 1), (4, l.seq)]) ∧
        Does (.ledgerFlashWrite false) s ((s.dev.flag F.logVaultStatus_ERROR true).note 0xF003 0 [(4, 0x0FC60000)])))) ∧
  (∀ (s : State) (n a : Nat), s.dev.clocked = true → n = s.dev.get F.logVaultStatus_MIRRORED →
    a = 0x0FC01000 + 0x10000 * s.dev.get F.logVaultStatus_SLOT + 64 * n →
    (256 ≤ n ∨ s.dev.get F.logVaultStatus_GENERATION = 0 ∨ s.dev.get F.pilStatus_FLASH_RELEASED = 1 ∨ s.dev.get F.logStatus_COUNT ≤ n → ∀ ok, Does (.vaultMirror ok) s s.dev) ∧
    (0 < s.dev.get F.logVaultStatus_GENERATION → n < 256 → s.dev.get F.pilStatus_FLASH_RELEASED = 0 → n < s.dev.get F.logStatus_COUNT →
      Does (.vaultMirror true) s ((s.dev.writeFlash a (s.dev.logBytes n)).put F.logVaultStatus_MIRRORED (n + 1)) ∧
      (∀ i (h : i < (s.dev.logBytes n).length), tget 0xFF (s.dev.writeFlash a (s.dev.logBytes n)).pilot.flash (a + i) = (s.dev.logBytes n)[i]) ∧
      (∀ j, j < a ∨ a + (s.dev.logBytes n).length ≤ j → tget 0xFF (s.dev.writeFlash a (s.dev.logBytes n)).pilot.flash j = tget 0xFF s.dev.pilot.flash j) ∧
      Does (.vaultMirror false) s ((s.dev.flag F.logVaultStatus_ERROR true).note 0xF003 0 [(4, a)]))) ∧
  (∀ (s : State) (code : Nat) (w : RateWindow) (d1 : Dev), s.dev.clocked = true → s.dev.log.windows.find? (fun e => e.1 == code) = some (code, w) →
    d1 = { s.dev with log := { s.dev.log with windows := s.dev.log.windows.filter (fun e => e.1 != code) } } →
    (s.dev.windowOver w = false → Does (.rateWindowEnd code) s s.dev) ∧
    (s.dev.windowOver w = true → w.counted = 0 → Does (.rateWindowEnd code) s d1) ∧
    (s.dev.windowOver w = true → 0 < w.counted → Does (.rateWindowEnd code) s (d1.logWrite code 0 w.counted (payload [])))))

/-- MODULE_TRAINING_DONE records a module's width at its end, and the widths are exchanged once both ends
have trained every module. WIDTH_EXCHANGE settles equal vectors, ACTIVE with at least half the modules
and DOWN otherwise, narrows vectors that differ to the lower width of each module, and at the third
exchange that differs is a dispute. D2D_LINK_DOWN of an ACTIVE link logs it and trains it from scratch; a
link between decks or to the hub stages its detour, an optical attachment takes its port DOWN, and one that
is not ACTIVE changes nothing. A hub-host link out of ACTIVE for 750 us begins a HOST_ONLY reset, before
that nothing. (R48, R49, R50, R51, R52, R53, R55, R57, R512) -/
def Obligations.LinkTrainingAndLoss : Prop :=
  (∀ (s : State) (l : LinkId) (far atFar : Bool) (m w key : Nat), s.dev.clocked = true → linkOk l = true → key = linkKey l → m < modulesOf key →
    s.dev.linkState key = 2 ∨ s.dev.linkState key = 3 ∨ s.dev.linkState key = 5 →
    atFar = (far != (match l with | .deck k slot => decide (slot < 2 ∧ k ≠ key / 4) | .hubHost => false)) →
    (atFar = false → Does (.moduleTrainingDone l far m w) s ((s.dev.modLink key (fun x => { x with
      near := tset 0 x.near m (min 2 w), nearDone := if x.nearDone.contains m then x.nearDone else x.nearDone ++ [m] })).trainedAll key)) ∧
    (atFar = true → Does (.moduleTrainingDone l far m w) s ((s.dev.modLink key (fun x => { x with
      far := tset 0 x.far m (min 2 w), farDone := if x.farDone.contains m then x.farDone else x.farDone ++ [m] })).trainedAll key))) ∧
  (∀ (d : Dev) (key : Nat), d.linkState key ≠ 3 →
    d.trainedAll key = if modulesOf key ≤ (d.link key).nearDone.length ∧ modulesOf key ≤ (d.link key).farDone.length then d.setLinkState key 3 else d) ∧
  (∀ (s : State) (l : LinkId) (key e : Nat) (d1 : Dev), s.dev.clocked = true → linkOk l = true → key = linkKey l → s.dev.linkState key = 3 →
    e = s.dev.linkGet F.dckD2dStatus_EXCHANGES F.mntHostLinkStatus_EXCHANGES key + 1 → d1 = s.dev.setExchanges key (min 3 e) →
    ((s.dev.link key).near = (s.dev.link key).far → Does (.widthExchange l) s (d1.settleLink key)) ∧
    ((s.dev.link key).near ≠ (s.dev.link key).far → e < 3 → Does (.widthExchange l) s (d1.modLink key (fun x => { x with
      near := narrower (modulesOf key) (s.dev.link key).near (s.dev.link key).far, far := narrower (modulesOf key) (s.dev.link key).near (s.dev.link key).far }))) ∧
    ((s.dev.link key).near ≠ (s.dev.link key).far → 3 ≤ e → Does (.widthExchange l) s (d1.dispute key))) ∧
  (∀ (d : Dev) (key : Nat), d.settleLink key =
    if modulesOf key ≤ 2 * ((List.range (modulesOf key)).filter (fun i => tget 0 (d.link key).near i ≠ 0)).length
    then ((d.showWidths key).setLinkState key 4).linkBack key else (d.showWidths key).setLinkState key 6) ∧
  (∀ (s : State) (l : LinkId), Up s → linkOk l = true →
    (s.dev.linkState (linkKey l) = 4 →
      (∀ k slot, l = .deck k slot → Does (.d2dLinkDown l) s (((s.dev.note 0x3001 (locDeck k) [(1, slot)]).scratch (linkKey l) 2).linkLost (linkKey l))) ∧
      (l = .hubHost → Does (.d2dLinkDown l) s (((s.dev.note 0x3001 locHub [(1, 0)]).scratch 32 2).linkLost 32))) ∧
    (s.dev.linkState (linkKey l) ≠ 4 → Does (.d2dLinkDown l) s s.dev)) ∧
  (∀ (d d1 : Dev) (key : Nat), d1 = d.modLink key (fun l => { l with downSince := some d.now }) →
    (key ≠ 32 → key % 4 ≠ 3 →
      d.linkLost key = (d1.stageRoutes (if d1.detours.contains key then d1.detours else d1.detours ++ [key])).isolate) ∧
    (∀ p, p < 6 → key = 4 * portDeck p + 3 → d.linkLost key = d1.portDown p (Config.causeCode 0x4002 6)) ∧
    (key = 32 → d.linkLost key = d1)) ∧
  (∀ (s : State) (t : Nat), Up s → (s.dev.link 32).downSince = some t → s.dev.linkState 32 ≠ 4 → s.dev.mayHostReset = true →
    (t + 750000 ≤ s.dev.now → Does .hostLinkTimeout s (s.dev.hostReset 3)) ∧
    (s.dev.now < t + 750000 → Does .hostLinkTimeout s s.dev))

/-- PORT_TRAINING_DONE changes nothing before the port's optical attachment is ACTIVE; then a TRAINING port
whose optical engine is not capable stays at reset with code 0x4006, one with a wrong neighbour is MISWIRED,
and one with the expected neighbour becomes ACTIVE with 24 or more good lanes, DEGRADED with 12 to 23 and
DOWN with fewer. A lane fault uses a spare, degrades an ACTIVE port without one, and with fewer than 12 good
lanes takes the port DOWN. PORT_DOWN takes a port in service DOWN with no active lanes; a laser fault is
logged, takes a port in service DOWN and leaves one in training in NO_LASER. A retry is counted, a filtered
message logged. RETRAIN, DISABLE and ROUTE_SWAP of a hart that runs act on the port and stage tables.
(R521, R523, R525, R526, R528, R529, R530, R531, R540, R542) -/
def Obligations.PortsTrainSpareAndFail : Prop :=
  (∀ (s : State) (p : Nat) (r : PortTraining) (d1 d2 : Dev), Up s → p < 6 → s.dev.portState p = 3 →
    (s.dev.oeActive p = false ∨ r.flitMode = false → Does (.portTrainingDone p r) s s.dev) ∧
    (s.dev.oeActive p = true → r.flitMode = true → capable r = false →
      Does (.portTrainingDone p r) s ((s.dev.portOut p 2).note 0x4006 (locOe p) [(16, r.capability)])) ∧
    (s.dev.oeActive p = true → r.flitMode = true → capable r = true →
      d1 = (s.dev.put F.hawPortStatus_PEER_NODE r.peerNode p).put F.hawPortStatus_PROGRESS 10000 p →
      (d1.wiredRight p r.peerNode = false → Does (.portTrainingDone p r) s ((d1.portOut p 6).note 0x4005 (locPort p) [(1, p), (2, r.peerNode)])) ∧
      (d1.wiredRight p r.peerNode = true →
        d2 = ({ (d1.modPort p (fun x => { x with good := min 26 r.goodLanes, linkSeq := 0, rxLinkSeq := 0, credits := [], retry := [] })).put
          F.hawPortStatus_SPARES_USED (26 - max 24 (min 26 r.goodLanes)) p with broken := d1.broken.filter (fun b => b != (d1.node, p)) } : Dev) →
        (24 ≤ r.goodLanes → Does (.portTrainingDone p r) s ((((d2.put F.hawPortStatus_STATE 4 p).put F.hawPortStatus_ACTIVE_LANES 24 p).note 0x4001 (locPort p)
          [(1, p), (2, r.peerNode)]).drainPort p)) ∧
        (12 ≤ r.goodLanes → r.goodLanes < 24 → Does (.portTrainingDone p r) s
          ((((d2.put F.hawPortStatus_STATE 5 p).put F.hawPortStatus_ACTIVE_LANES 12 p).note 0x4004 (locPort p)).drainPort p)) ∧
        (r.goodLanes < 12 → Does (.portTrainingDone p r) s (d2.portOut p 7))))) ∧
  (∀ (s : State) (p lane g : Nat) (d1 : Dev), Up s → p < 6 → s.dev.portUp p = true → g = (tget .new s.dev.ports p).good - 1 →
    d1 = (s.dev.addSat F.hawPortCounts_LANE_FAULTS 1 p).modPort p (fun x => { x with good := x.good - 1 }) →
    (24 ≤ g → Does (.laneSpare p lane) s ((d1.put F.hawPortStatus_SPARES_USED (26 - g) p).note 0x4003 (locPort p) [(1, p), (1, lane), (1, 49 - g)])) ∧
    (12 ≤ g → g < 24 → (d1.portState p = 4 → Does (.laneSpare p lane) s
      (((d1.put F.hawPortStatus_STATE 5 p).put F.hawPortStatus_ACTIVE_LANES 12 p).note 0x4004 (locPort p))) ∧
      (d1.portState p ≠ 4 → Does (.laneSpare p lane) s d1)) ∧
    (g < 12 → Does (.laneSpare p lane) s (d1.portDown p (Config.causeCode 0x4002 1)))) ∧
  (∀ (s : State) (p c : Nat) (d1 : Dev), Up s → p < 6 →
    (s.dev.portUp p = true → Does (.portDown p c) s (s.dev.portDown p c) ∧ (s.dev.portDown p c).portState p = 7 ∧
      (s.dev.portDown p c).get F.hawPortStatus_ACTIVE_LANES p = 0) ∧
    (s.dev.portUp p = false → Does (.portDown p c) s s.dev) ∧
    (d1 = ((s.dev.put F.hawPortStatus_LASER_CLASS 0 p).note 0x4008 (locPort p) [(1, p), (2, c)]).modPilot (fun x => { x with
        lasers := tset 0 x.lasers p 0 }) →
      (d1.portUp p = true → Does (.laserModuleFault p c) s (d1.portDown p (Config.causeCode 0x4002 2))) ∧
      (d1.portState p = 3 → Does (.laserModuleFault p c) s (d1.portOut p 1)) ∧
      (d1.portUp p = false → d1.portState p ≠ 3 → Does (.laserModuleFault p c) s d1)) ∧
    (∀ m ∈ (tget Port.new s.dev.ports p).retry, m.1 ≤ c → c < m.1 + msgFlits m.2.body → s.dev.portUp p = true →
      Does (.linkRetry p c) s (s.dev.addSat F.hawPortCounts_RETRIES 1 p)) ∧
    Does (.oeFiltered p c) s (s.dev.note 0x4007 (locOe p) [(1, p), (1, c)])) ∧
  (∀ (s : State) (h p laser : Nat) (d1 : Dev), Up s → s.dev.hartUp h = true → p < 6 →
    d1 = s.dev.modPilot (fun x => { x with lasers := tset 0 x.lasers p (min 4 laser) }) →
    (d1.get F.hawPortCmd_DISABLE p = 1 → Does (.retrain h p laser) s (d1.answer (.ok 0))) ∧
    (d1.get F.hawPortCmd_DISABLE p ≠ 1 → d1.portUp p = false → Does (.retrain h p laser) s
      (((d1.modPort p (fun x => { x with out := [], retry := [] })).trainPort p (min 4 laser)).answer (.ok 0))) ∧
    (d1.get F.hawPortCmd_DISABLE p ≠ 1 → d1.portUp p = true → Does (.retrain h p laser) s
      ((((d1.discards p (tget Port.new d1.ports p).out.length).modPort p (fun x => { x with out := [], retry := [] })).trainPort p
        (min 4 laser)).answer (.ok 0))) ∧
    Does (.disable h p) s (((((s.dev.discards p (tget Port.new s.dev.ports p).out.length).modPort p (fun x => { x with out := [], retry := [] })).flag
      F.hawPortCmd_DISABLE true p).portOut p 8).answer (.ok 0)) ∧
    Does (.routeSwap h laser) s ((s.dev.put F.hawRouteCtrl_STAGED (s.dev.get F.hawRouteCtrl_STAGED ||| laser % 8)).answer (.ok 0)))

/-- A message for another node goes on by its routed port, or is discarded and counted where its destination
is unreachable, its table is gone or its way is broken. A link notice is logged, remembered, passed on and
answered by a detour table. On an ESTABLISHED connection, in sequence, PUT writes its data and is
acknowledged, GET_REQ returns the bytes, ATOMIC_REQ performs its operation and returns the old value, each
with the check's status and address where it fails; ATOMIC_REQ waits while a wave holds its line locked, and
a request out of sequence is answered as before when its answer is kept and else discarded. OPEN of a
mirrored OPENING entry establishes it and is accepted, and any other is not; CLOSE of an ESTABLISHED
connection loses it with cause 3. (R405, R536, R538, R539, R540, R541, R546, R548, R549, R551, R552) -/
def Obligations.MessagesAreServed : Prop :=
  (∀ (s : State) (p : Nat) (m : LinkMsg) (d : Dev), Up s → p < 6 → s.dev.portUp p = true → m.dest ≠ s.dev.node → d = s.dev.linkReceived p m →
    (∀ q m', d.route (some p) m = .out q m' → Does (.messageForward p m) s (d.draw.portSend q m')) ∧
    (d.route (some p) m = .here → Does (.messageForward p m) s d) ∧
    (d.route (some p) m = .unreachable → Does (.messageForward p m) s (d.draw.discards p 1)) ∧
    (d.route (some p) m = .stale → Does (.messageForward p m) s ((d.draw.discards p 1).note 0x4012 (locPort p))) ∧
    (∀ q, d.route (some p) m = .broken q → Does (.messageForward p m) s (d.draw.discards q 1))) ∧
  (∀ (s : State) (p node bp other : Nat) (m : LinkMsg) (d d1 : Dev), Up s → p < 6 → s.dev.portUp p = true → m.body = .linkNotice node bp →
    d = (s.dev.linkReceived p m).note 0x4010 (locPort p) [(2, node), (1, bp)] → other = p / 2 * 2 + (1 - p % 2) →
    d1 = { d with broken := if d.broken.contains (node, bp) then d.broken else (node, bp) :: d.broken } →
    Does (.linkNotice p m) s ((if d1.portUp other then d1.portSend other { m with hops := min 127 (m.hops + 1) } else d1).stageDetour (bp / 2))) ∧
  (∀ (s : State) (p ctx : Nat) (m : LinkMsg) (d d1 : Dev), Arrives s p m d → InSeq d m ctx d1 →
    (∀ va data, m.body = .put va data →
      (∀ d2, d1.dmaPut (.pier p) ctx va data = (d2, .ok ()) → Does (.put p m) s (d2.respond m.conn m.seq (.ack ((m.seq + 1) % 2 ^ 32) 0 0))) ∧
      (∀ d2 x a, d1.dmaPut (.pier p) ctx va data = (d2, .error (x, a)) →
        Does (.put p m) s (d2.respond m.conn m.seq (.ack ((m.seq + 1) % 2 ^ 32) x.status a)))) ∧
    (∀ va len d2, m.body = .getReq va len →
      (∀ bs, d1.dmaReadN (.pier p) ctx va (min len 4096) = (d2, .ok bs) → Does (.getReq p m) s (d2.respond m.conn m.seq (.getData bs 0 0))) ∧
      (∀ x a, d1.dmaReadN (.pier p) ctx va (min len 4096) = (d2, .error (x, a)) → Does (.getReq p m) s (d2.respond m.conn m.seq (.getData [] x.status a)))) ∧
    (∀ op wide va x c, m.body = .atomicReq op wide va x c →
      (s.dev.vaLocked ctx va = true → Does (.atomicReq p m) s s.dev) ∧
      (s.dev.vaLocked ctx va = false →
        (∀ d2 old, d1.pierAtomic p ctx op wide va x c = (d2, .ok old) → Does (.atomicReq p m) s (d2.respond m.conn m.seq (.atomicResp (w64 old) 0 0))) ∧
        (∀ d2 e, d1.pierAtomic p ctx op wide va x c = (d2, .error e) → Does (.atomicReq p m) s (d2.respond m.conn m.seq (.atomicResp 0 e.status va)))))) ∧
  (∀ (s : State) (p : Nat) (m : LinkMsg) (d : Dev), Arrives s p m d → (d.conn m.conn).state = 2 → cwGroup (d.cw0 m.conn) = false →
    cwNode (d.cw0 m.conn) = m.src → m.seq ≠ (d.conn m.conn).rxSeq →
    (∀ r, (d.conn m.conn).responses.find? (fun r => r.1 == m.seq) = some r →
      (∀ va data, m.body = .put va data → Does (.put p m) s (d.sendOr m.conn r.2)) ∧
      (∀ va len, m.body = .getReq va len → Does (.getReq p m) s (d.sendOr m.conn r.2))) ∧
    ((d.conn m.conn).responses.find? (fun r => r.1 == m.seq) = none →
      (∀ va data, m.body = .put va data → Does (.put p m) s d) ∧ (∀ va len, m.body = .getReq va len → Does (.getReq p m) s d))) ∧
  (∀ (s : State) (p : Nat) (m : LinkMsg) (d : Dev), Arrives s p m d →
    (∀ ctx rctx rconn mirror, m.body = .openReq ctx rctx rconn →
      mirror = (cwValid (d.cw0 m.conn) && !cwGroup (d.cw0 m.conn) && cwNode (d.cw0 m.conn) == m.src && cwRemoteConn (d.cw0 m.conn) == rconn &&
        cwCtx (d.cw0 m.conn) == rctx && cwRemoteCtx (d.cw0 m.conn) == ctx && (d.conn m.conn).state == 1) →
      (mirror = true → Does (.openMsg p m) s ((d.establish m.conn).inject (plainMsg m.src rconn 0 (.openAck true))).1) ∧
      (mirror = false → Does (.openMsg p m) s (d.inject (plainMsg m.src rconn 0 (.openAck false))).1)) ∧
    (m.body = .close → (d.conn m.conn).state = 2 → cwNode (d.cw0 m.conn) = m.src → Does (.close p m) s (d.connLost m.conn 3)))

/-- CONN_OPEN of a valid CLOSED entry establishes a group, sends OPEN for a point, and loses a point whose
node is outside the torus with cause 5; CONN_CLOSE of an open entry tells the far end of a point, loses it
with cause 6 and closes it once its items have their records. OPEN_ACK establishes an OPENING entry or
counts NOT_READY up to the limit; an acknowledgement takes messages out of the retransmission set and
advances PUT items, and one with a status fails the item of its last message; GET_DATA and ATOMIC_RESP
write their data at the local address and advance their item, or fail it. A sequence without progress for
RTO_US is sent again and after RETRY_LIMIT timeouts lost with cause 1, and before RTO_US nothing. A REMOTE
slice on an ESTABLISHED connection sends its messages; on any other it fails FAIL_LINK. (R545, R546,
R547, R548, R549, R550, R551, R554) -/
def Obligations.ConnectionsAndRemoteItems : Prop :=
  (∀ (s : State) (h c : Nat), Up s → s.dev.hartUp h = true → c < 4096 →
    ((s.dev.conn c).state ≠ 0 ∨ cwValid (s.dev.cw0 c) = false → Does (.connOpen h c) s (s.dev.answer (.ok 0))) ∧
    ((s.dev.conn c).state = 0 → cwValid (s.dev.cw0 c) = true →
      (cwGroup (s.dev.cw0 c) = true → Does (.connOpen h c) s ((s.dev.establish c).answer (.ok 0))) ∧
      (cwGroup (s.dev.cw0 c) = false → s.dev.inTorus (cwNode (s.dev.cw0 c)) = false → Does (.connOpen h c) s ((s.dev.connLost c 5).answer (.ok 0))) ∧
      (cwGroup (s.dev.cw0 c) = false → s.dev.inTorus (cwNode (s.dev.cw0 c)) = true →
        Does (.connOpen h c) s ((((s.dev.modConn c (fun _ => { state := 1, lastProgress := s.dev.now })).writeConn c).sendOpen c).answer (.ok 0)))) ∧
    ((s.dev.conn c).state = 0 → Does (.connClose h c) s (s.dev.answer (.ok 0))) ∧
    (∀ d1, (s.dev.conn c).state ≠ 0 → d1 = (if cwGroup (s.dev.cw0 c) then s.dev else s.dev.sendPlain c .close) → Does (.connClose h c) s
      ((((d1.connLost c 6).modConn c (fun x => { x with closing := true })).connSettled c).answer (.ok 0)))) ∧
  (∀ (s : State) (p : Nat) (m : LinkMsg) (d : Dev), Arrives s p m d →
    (m.body = .openAck true → (d.conn m.conn).state = 1 → cwNode (d.cw0 m.conn) = m.src → Does (.openAck p m) s (d.establish m.conn)) ∧
    (∀ d1, m.body = .openAck false → (d.conn m.conn).state = 1 → cwNode (d.cw0 m.conn) = m.src →
      d1 = d.modConn m.conn (fun x => { x with notReady := x.notReady + 1, timeouts := 0 }) →
      Does (.openAck p m) s (if d.get F.hawConnCfg_RETRY_LIMIT ≤ (d.conn m.conn).notReady + 1 then d1.connLost m.conn 5 else d1)) ∧
    (∀ upTo code va d1 done, m.body = .ack upTo code va → (d.conn m.conn).state = 2 → cwGroup (d.cw0 m.conn) = false → cwNode (d.cw0 m.conn) = m.src →
      d.acknowledge m.conn upTo = (d1, done) →
      (code = 0 → Does (.ack p m) s ((done.foldl Dev.putAcked d1).pump m.conn 64)) ∧
      (code ≠ 0 → Does (.ack p m) s
        (((done.dropLast.foldl Dev.putAcked d1).remoteFailed m.conn ((done.getLast?).bind (·.item)) code va).pump m.conn 64))) ∧
    (∀ upTo code va key, m.body = .ack upTo code va → (d.conn m.conn).state = 2 → cwGroup (d.cw0 m.conn) = true → d.nbKeyOf m.conn m.src = some key →
      Does (.ack p m) s ((d.acknowledge key upTo).1.pumpKey key m.conn 64)) ∧
    (∀ data code va, m.body = .getData data code va → Does (.getData p m) s (d.answered m code va fun d it =>
      match d.dmaPut (.pier p) it.ctx ((it.w 2 + it.pos) % 2 ^ 64) data with
      | (d, .ok ()) => d.modItem it.ring it.index (fun it => { it with pos := it.pos + data.length })
      | (d, .error (x, a)) => d.xfail it.ring it.index it.pos x a)) ∧
    (∀ old code va, m.body = .atomicResp old code va → Does (.atomicResp p m) s (d.answered m code va fun d it =>
      match d.dmaPut (.pier p) it.ctx (it.w 2) (leBytes it.asize old.toNat) with
      | (d, .ok ()) => d.modItem it.ring it.index (fun it => { it with pos := 1 })
      | (d, .error (x, a)) => d.xfail it.ring it.index it.pos x a))) ∧
  (∀ (s : State) (c : Nat), Up s → c < 4096 →
    Does (.retransmitTimeout c) s ((s.dev.connKeys c).foldl (fun d key => d.retransmit c key) s.dev)) ∧
  (∀ (d d1 : Dev) (c key : Nat), d1 = d.modConn key (fun x => { x with timeouts := x.timeouts + 1 }) →
    (d.now < (d.conn key).lastProgress + d.get F.hawConnCfg_RTO_US * 1000 → d.retransmit c key = d) ∧
    ((d.conn key).lastProgress + d.get F.hawConnCfg_RTO_US * 1000 ≤ d.now →
      ((d.conn c).state = 1 → key = c → d.retransmit c key = if d.get F.hawConnCfg_RETRY_LIMIT ≤ (d.conn key).timeouts + 1 then d1.connLost c 1
        else (d1.modConn key (fun x => { x with lastProgress := d.now })).sendOpen c) ∧
      ((d.conn c).state = 2 → (d.conn key).unacked ≠ [] → d.retransmit c key =
        if d.get F.hawConnCfg_RETRY_LIMIT ≤ (d.conn key).timeouts + 1 then d1.connLost c 1 else d1.resend key c))) ∧
  (∀ e ∈ remoteOps, ∀ (s : State) (ring index : Nat) (it : Item), Up s → InHand s ring index it → it.typ = tRemote → it.rop = e.2 → it.begunTo ≠ it.sliceEnd →
    ((s.dev.conn it.connOf).state ≠ 2 → Does (e.1 ring index) s (s.dev.finishAt ring index 0x17 it.pos)) ∧
    ((s.dev.conn it.connOf).state = 2 → Does (e.1 ring index) s
      ((s.dev.modItem ring index (fun it => { it with carry := [w64 it.pos, 0, 0, w64 it.sliceEnd] })).pump it.connOf 64)))

/-- The released slice of a COLLECTIVE on an ESTABLISHED group sends its sync to every neighbour, unless an
earlier collective of the group is at work, and then goes as far as the messages received allow; on a group
that is not ESTABLISHED it fails FAIL_LINK. A collective message in sequence from a neighbour is
acknowledged and kept, and its collective moves on; one already received is acknowledged again and any other
discarded. A sync that matches in every field is noted, one that differs ends the item FAIL_INVALID and
tells the neighbours, and an abort ends it with the status it carries. A participant that has waited
COLL_TIMEOUT_MS aborts with FAIL_LINK. The sum of two elements rounds to nearest even and counts an
overflow from finite values. (R548, R549, R556, R557, R558, R559) -/
def Obligations.Collectives : Prop :=
  (∀ e ∈ collOps, ∀ (s : State) (ring index : Nat) (it : Item) (d1 : Dev), Up s → InHand s ring index it → it.typ = tCollective → it.collOp = e.2 →
    ((s.dev.conn it.connOf).state ≠ 2 → Does (e.1 ring index) s (s.dev.finishAt ring index 0x17 it.pos)) ∧
    ((s.dev.conn it.connOf).state = 2 →
      (∀ g, s.dev.coll? it = some g → Does (e.1 ring index) s (s.dev.collGo it)) ∧
      (s.dev.coll? it = none → s.dev.groupBusy it = true → Does (e.1 ring index) s s.dev) ∧
      (s.dev.coll? it = none → s.dev.groupBusy it = false →
        d1 = { s.dev with colls := s.dev.colls ++ [{ ring := ring, index := index, since := s.dev.now }] } →
        Does (e.1 ring index) s (((d1.nbs it).foldl (fun d nb => d.sendNb it.connOf nb (it.syncBody false it.collN)) d1).collGo it)))) ∧
  (∀ (s : State) (p key : Nat) (m : LinkMsg) (d d1 d2 : Dev) (c : Nat → LinkMsg → Instr), Arrives s p m d → d.nbKeyOf m.conn m.src = some key →
    (d.conn m.conn).state = 2 → cwGroup (d.cw0 m.conn) = true →
    ((∃ i k c t g a b, m.body = .collData i k c t g a b) ∧ c = .collData) ∨ ((∃ i o f ds ph n r a, m.body = .collSync i o f ds ph n r a) ∧ c = .collSync) →
    (m.seq = (d.conn key).rxSeq →
      d1 = ((d.modConn key (fun x => { x with rxSeq := (m.seq + 1) % 2 ^ 32 })).inject (plainMsg m.src m.conn m.seq (.ack ((m.seq + 1) % 2 ^ 32) 0 0))).1 →
      d2 = { d1 with collIn := d1.collIn ++ [m] } →
      (∀ it, d2.items.find? (fun it => it.typ == tCollective && some it.collId == msgColl m.body && (d2.coll? it).isSome) = some it →
        Does (c p m) s (d2.collGo it)) ∧
      (d2.items.find? (fun it => it.typ == tCollective && some it.collId == msgColl m.body && (d2.coll? it).isSome) = none → Does (c p m) s d2)) ∧
    (m.seq ≠ (d.conn key).rxSeq →
      (seqBefore m.seq (d.conn key).rxSeq = true → Does (c p m) s (d.inject (plainMsg m.src m.conn m.seq (.ack (d.conn key).rxSeq 0 0))).1) ∧
      (seqBefore m.seq (d.conn key).rxSeq = false → Does (c p m) s d))) ∧
  (∀ (d : Dev) (it : Item) (m : LinkMsg) (i op f ds n r key : Nat) (ph abort : Bool), m.body = .collSync i op f ds ph n r abort →
    d.nbKeyOf it.connOf m.src = some key →
    (abort = true → d.collSynced it m = d.collFail it n true) ∧
    (abort = false → op ≠ it.collOp ∨ f ≠ it.collFmt ∨ ds ≠ it.collDims ∨ ph ≠ it.collPh1 ∨ n ≠ it.collN ∨ r ≠ it.collRoot →
      d.collSynced it m = (d.note 0x4030 0).collFail it 0x16 true) ∧
    (abort = false → m.body = it.syncBody false it.collN → i = it.collId →
      d.collSynced it m = d.modColl it (fun g => { g with synced := key :: g.synced.filter (· != key), since := d.now }))) ∧
  (∀ (s : State) (ring index : Nat) (it : Item) (g : Coll), Up s → InHand s ring index it → it.typ = tCollective → s.dev.coll? it = some g →
    (g.since + s.dev.get F.hawConnCfg_COLL_TIMEOUT_MS * 1000000 ≤ s.dev.now → Does (.collTimeout ring index) s ((s.dev.note 0x4031 0).collFail it 0x17 true)) ∧
    (s.dev.now < g.since + s.dev.get F.hawConnCfg_COLL_TIMEOUT_MS * 1000000 → Does (.collTimeout ring index) s s.dev)) ∧
  (∀ e ∈ [(10, 2, fpH16), (11, 4, fpF32)], ∀ (v x r : Nat), v < 2 ^ (8 * e.2.1) → x < 2 ^ (8 * e.2.1) →
    r = e.2.2.rne ((e.2.2.decode v).add (e.2.2.decode x)) →
    (collAdd e.1 false (leBytes e.2.1 v) (leBytes e.2.1 x)).1 = leBytes e.2.1 r ∧
    ((collAdd e.1 false (leBytes e.2.1 v) (leBytes e.2.1 x)).2 = 1 ↔
      (∃ q k, e.2.2.decode v = .fin q k) ∧ (∃ q k, e.2.2.decode x = .fin q k) ∧ (∃ q, e.2.2.decode r = .inf q)))

/-- Sharing a budget that covers the floors gives every class at least its floor, no more than its demand
asks, nothing to a class while one before it is short, and accounts for the whole budget. A lower
operating point is due at once, a higher one once its voltage has settled; the common step is the
highest that fits the allocation. LOCKKEEPER_DECISION decides once a tide from 7/8 of it and otherwise
does nothing; AGEING_UPDATE remeasures every live die; COMPUTE_DIE_FENCE of an active die leaves it
out of service and remembered as bad, and ends its lighters' items, and of another does nothing. (R567, R568, R574,
R575, R579, R626) -/
def Obligations.PowerIsSharedAndStepsDecided : Prop :=
  (∀ (floors dem : List Nat) (b : Nat), floors.length = 5 → floors.sum ≤ b →
    (shareBudget floors dem b).1.length = 5 ∧ (shareBudget floors dem b).1.sum + (shareBudget floors dem b).2 = b ∧
    ∀ k, k < 5 → floors.getD k 0 ≤ (shareBudget floors dem b).1.getD k 0 ∧
      (shareBudget floors dem b).1.getD k 0 ≤ max (floors.getD k 0) (dem.getD k 0) ∧
      ∀ j, k < j → j < 5 → (shareBudget floors dem b).1.getD k 0 < dem.getD k 0 → (shareBudget floors dem b).1.getD j 0 = floors.getD j 0) ∧
  (∀ (d : Dev) (q : Prediction) (ceil : Nat → Nat) (alloc f : Nat),
    d.commonStep q ceil alloc f ≤ f ∧
    (0 < d.commonStep q ceil alloc f → (d.liveDies.map (fun ld => d.diePower q ld (min (d.commonStep q ceil alloc f) (ceil ld)))).sum ≤ alloc) ∧
    ∀ g, d.commonStep q ceil alloc f < g → g ≤ f → alloc < (d.liveDies.map (fun ld => d.diePower q ld (min g (ceil ld)))).sum) ∧
  (∀ (d : Dev) (q : Prediction) (ld f : Nat),
    (f = d.get F.lkpDie_FREQ ld → (tget .new (d.setDecision q ld f).dies ld).target = none) ∧
    (f < d.get F.lkpDie_FREQ ld → (tget .new (d.setDecision q ld f).dies ld).target = some (f, d.now)) ∧
    (d.get F.lkpDie_FREQ ld < f → d.get F.lkpDie_VOLTAGE_MV ld < d.vf ld f → (tget .new d.dies ld).target = none →
      (tget .new (d.setDecision q ld f).dies ld).target = some (f, d.now + q.settleNs.getD ld 0))) ∧
  (∀ (s : State) (q : Prediction), Up s →
    (s.dev.power.decided = false → s.dev.get F.tideLastTickNs_VALUE + s.dev.period * 7 / 8 ≤ s.dev.now →
      Does (.lockkeeperDecision q) s (s.dev.lockkeeper q)) ∧
    (s.dev.power.decided = true ∨ s.dev.now < s.dev.get F.tideLastTickNs_VALUE + s.dev.period * 7 / 8 → Does (.lockkeeperDecision q) s s.dev)) ∧
  (∀ (s : State) (offsets : List Nat), Up s →
    Does (.ageingUpdate offsets) s (s.dev.liveDies.foldl (fun d ld => d.ageDie ld (offsets.getD ld (d.get F.lkpDie_AGEING_MV ld))) s.dev)) ∧
  (∀ (s : State) (ld cause : Nat), Up s →
    (s.dev.dieActive ld = false ∨ 44 ≤ ld → Does (.computeDieFence ld cause) s s.dev) ∧
    (ld < 44 → s.dev.dieActive ld = true → ∃ d, Does (.computeDieFence ld cause) s d ∧ d.dieActive ld = false ∧ d.pilot.deadDies = s.dev.pilot.deadDies ++ [s.dev.physDie ld] ∧
      (∀ it ∈ d.items, it.typ = tMove → it.started = true → it.phase ≠ .finished → it.engine / 4 ≠ ld)))

/-- DROOP_DETECTED of an unstretched cluster of an active die counts its cycles so far, stretches its clock,
counts the stretch and abandons a raise in its ramp, and of any other cluster does nothing; DROOP_RELEASE
ends the stretch. CAP_NOW_N asserted for 1 us sets CAP_NOW, logs it and puts every die at 350 MHz, a pulse
below 100 ns does nothing (between them the model draws a free value, log entry 21), nor does one while the
pin is asserted, and its release clears it. THERMAL_TRIP at 115 degrees or more asserts THERMTRIP_N and
DEV_ALERT_N, logs 0x5510 and stops every clock; below it does nothing. PMB_ALERT slows every die for a
warning; a rail that is off costs the compute die, the stack or the port it serves, and stops the device
where no single unit uses it. (R571, R572, R580, R581, R587, R588, R692) -/
def Obligations.DroopCapTripAndRailEvents : Prop :=
  (∀ (s : State) (lc : Nat) (d1 : Dev), s.dev.clocked = true →
    (176 ≤ lc ∨ (tget .new s.dev.clusters lc).stretched = true ∨ s.dev.dieActive (lc / 4) = false → Does (.droopDetected lc) s s.dev) ∧
    (lc < 176 → (tget .new s.dev.clusters lc).stretched = false → s.dev.dieActive (lc / 4) = true →
      d1 = (((s.dev.syncCycles lc).modCluster lc (fun c => { c with stretched := true })).addSat F.lkpDroop_STRETCHES 1).modDie (lc / 4)
        (fun x => { x with stretchedTide := true }) →
      ((tget .new d1.dies (lc / 4)).target = none → Does (.droopDetected lc) s d1) ∧
      (∀ f ready, (tget .new d1.dies (lc / 4)).target = some (f, ready) →
        (d1.get F.lkpDie_FREQ (lc / 4) < f → d1.now < ready →
          Does (.droopDetected lc) s ((d1.modDie (lc / 4) (fun x => { x with target := none, deferred := false })).addSat F.lkpDroop_ABANDONED 1)) ∧
        (f ≤ d1.get F.lkpDie_FREQ (lc / 4) ∨ ready ≤ d1.now → Does (.droopDetected lc) s d1)))) ∧
  (∀ (s : State) (lc : Nat), s.dev.clocked = true → lc < 176 →
    ((tget .new s.dev.clusters lc).stretched = true → Does (.droopRelease lc) s ((s.dev.syncCycles lc).modCluster lc (fun c => { c with stretched := false }))) ∧
    ((tget .new s.dev.clusters lc).stretched = false → Does (.droopRelease lc) s s.dev)) ∧
  (∀ (d : Dev) (lc : Nat), (d.syncCycles lc).cycles lc = d.cycles lc ∧ ((d.syncCycles lc).cluster lc).stretched = (d.cluster lc).stretched) ∧
  (∀ (s : State) (ns : Nat) (d1 : Dev),
    (s.dev.pins.capNow = true ∨ ns < 100 → Does (.capNowAssert ns) s s.dev) ∧
    (s.dev.pins.capNow = false → 1000 ≤ ns → d1 = { s.dev with pins := { s.dev.pins with capNow := true } } →
      (s.dev.clocked = true → Does (.capNowAssert ns) s (((d1.flag F.lkpStatus_CAP_NOW true).note 0x5201 0 [(1, Config.causeCode 0x5201 1)]).slowDies)) ∧
      (s.dev.clocked = false → Does (.capNowAssert ns) s d1))) ∧
  (∀ (s : State) (d1 : Dev), s.dev.pins.capNow = true → d1 = { s.dev with pins := { s.dev.pins with capNow := false } } →
    (s.dev.clocked = true → Does .capNowDeassert s ((d1.flag F.lkpStatus_CAP_NOW false).note 0x5201 0 [(1, Config.causeCode 0x5201 0)])) ∧
    (s.dev.clocked = false → Does .capNowDeassert s d1)) ∧
  (∀ (s : State) (loc c : Nat), s.dev.pins.thermtrip = false →
    (c < 115 → Does (.thermalTrip loc c) s s.dev) ∧
    (115 ≤ c → ∃ d, Does (.thermalTrip loc c) s d ∧ d.clocked = false ∧ d.pins.thermtrip = true ∧ d.pins.alert = true ∧
      d.items = s.dev.items ∧ d.mem = s.dev.mem ∧
      d = ((({ s.dev with pins := { s.dev.pins with thermtrip := true, alert := true } } : Dev).note 0x5510 loc [(2, loc), (2, c)]).stopClocks))) ∧
  (∀ (s : State) (rail st : Nat) (d1 : Dev), s.dev.clocked = true → rail < 100 →
    d1 = { s.dev with power := { s.dev.power with cdRails := s.dev.power.cdRails.filter (· != rail) } } →
    Does (.pmbAlert rail false st) s ((s.dev.note 0x5204 (locModule 2 rail) [(1, rail), (2, st)]).slowDies) ∧
    (rail < 48 → (∀ ld, d1.logicalOf rail = some ld → Does (.pmbAlert rail true st) s
        ((d1.note 0x5205 (locPhys rail) [(1, rail), (2, st), (2, locPhys rail)]).fenceDie ld (Config.causeCode 0x9301 4))) ∧
      (d1.logicalOf rail = none → ∃ d, Does (.pmbAlert rail true st) s d ∧
        (d = d1.note 0x5205 (locPhys rail) [(1, rail), (2, st), (2, locPhys rail)] ∨
          d = (d1.note 0x5205 (locPhys rail) [(1, rail), (2, st), (2, locPhys rail)]).put F.dckSpareStatus_RESULT 2 (rail / 6)))) ∧
    (58 ≤ rail → rail < 90 → Does (.pmbAlert rail true st) s
      ((d1.note 0x5205 (locStack ((rail - 58) % 16)) [(1, rail), (2, st), (2, locStack ((rail - 58) % 16))]).fenceStack ((rail - 58) % 16))) ∧
    (91 ≤ rail → rail < 97 → ∃ d, Does (.pmbAlert rail true st) s d ∧ d.portState (rail - 91) = 7) ∧
    (48 ≤ rail → rail < 58 ∨ rail = 90 ∨ 97 ≤ rail → ∃ d, Does (.pmbAlert rail true st) s d ∧ d.clocked = false ∧ d.pins.alert = true))

/-- PKG_POR_N asserted leaves only fuses, flash, ledger copies and pins; its release restarts the timebase
and begins start-up, or stops the clocks while a trip is latched; either edge twice does nothing. IDENTITY_SWEEP, IMAGE_VERIFICATION,
BRING_UP and HOST_RELEASE act only in P1, P2, P3 and P4: each does its phase's work and begins the next
(the last opens the host), or halts with the stated cause. A halt holds the host die in reset, asserts
DEV_ALERT_N and gives the flash up. RETRY goes on at P1 from HALTED, repeats a failed host step, and is
otherwise refused. (R593, R594, R596, R601, R603, R605, R607, R610, R633, R639, R688) -/
def Obligations.StartUpPhases : Prop :=
  (∀ (s : State), ∃ d d', Does .lossOfPower s d ∧ d.pins.por = true ∧ d.clocked = false ∧ d.regs = [] ∧ d.items = [] ∧ d.mem = {} ∧ d.log = {} ∧
    d.fuses = s.dev.fuses ∧ d.pilot.flash = s.dev.pilot.flash ∧ d.ledger.copy0 = s.dev.ledger.copy0 ∧ d.ledger.copy1 = s.dev.ledger.copy1 ∧
    (s.dev.pins.por = false → Does .pkgPorNAssert s d' ∧ d'.pins.por = true ∧ d'.pins.thermtrip = false ∧ d'.pins.alert = false ∧
      d'.regs = [] ∧ d'.items = [] ∧ d'.mem = {} ∧ d'.fuses = s.dev.fuses ∧ d'.pilot.flash = s.dev.pilot.flash) ∧
    (s.dev.pins.por = true → Does .pkgPorNAssert s s.dev) ∧ (s.dev.pins.por = false → Does .pkgPorNDeassert s s.dev)) ∧
  (∀ (s : State) (d1 : Dev), s.dev.pins.por = true → d1 = { s.dev with pins := { s.dev.pins with por := false }, now := 0 } →
    (s.dev.pins.thermtrip = true → Does .pkgPorNDeassert s d1.stopClocks) ∧
    (s.dev.pins.thermtrip = false → Does .pkgPorNDeassert s (d1.startUp 0) ∧
      (s.dev.fuses.ok = false → d1.startUp 0 = ((d1.modPilot (fun p => { p with startKind := 0, startedAt := 0 })).beginPhase 0).halt 1))) ∧
  (∀ (s : State), s.dev.clocked = true →
    (∀ r, s.dev.phase ≠ 1 → Does (.identitySweep r) s s.dev) ∧ (∀ e, s.dev.phase ≠ 2 → Does (.imageVerification e) s s.dev) ∧
    (∀ r, s.dev.phase ≠ 3 → Does (.bringUp r) s s.dev) ∧ (s.dev.phase ≠ 4 → Does .hostRelease s s.dev)) ∧
  (∀ (s : State) (r : Sweep) (x : Swept), s.dev.clocked = true → s.dev.phase = 1 →
    x = ((s.dev.sweepBoard r.board).on (fun d => d.sweepFlash r.flash)).on (fun d => d.sweepVrms r.vrms) →
    (∀ c, x.2 = some c → Does (.identitySweep r) s (x.1.halt c) ∧ c ∈ [2, 3, 4]) ∧
    (x.2 = none → Does (.identitySweep r) s ((((x.1.sweepLasers r.lasers).sweepStacks r.hbm)).loadLedger.beginPhase 2))) ∧
  (∀ (s : State) (e : Bool), s.dev.clocked = true → s.dev.phase = 2 →
    (∀ m, s.dev.verifyImage e = .ok m → Does (.imageVerification e) s ((s.dev.loadImage m).beginPhase 3)) ∧
    (∀ c, s.dev.verifyImage e = .error c → Does (.imageVerification e) s ((if c = 3 then s.dev else s.dev.note 0x8002 0 [(1, c)]).halt c) ∧ c ∈ [3, 5, 6, 7, 8])) ∧
  (∀ (s : State) (r : BringUp) (d1 : Dev), s.dev.clocked = true → s.dev.phase = 3 →
    d1 = (((((s.dev.trainLinks r.links).zeroMemory).relocate).trainStacks r).testDies r.badDies).enableRails →
    (r.hubOk = false → Does (.bringUp r) s (d1.halt 11)) ∧ (r.hubOk = true → d1.linkState 32 ≠ 4 → Does (.bringUp r) s (d1.halt 10)) ∧
    (r.hubOk = true → d1.linkState 32 = 4 → Does (.bringUp r) s (d1.beginPhase 4))) ∧
  (∀ (s : State) (d1 : Dev), s.dev.clocked = true → s.dev.phase = 4 → d1 = s.dev.fixInterleave →
    (∀ c, d1.hostFw = some c → d1.placeable c.load c.length = true → Does .hostRelease s (((d1.placeFw c).advanceSvn).openHost)) ∧
    (∀ c, d1.hostFw = some c → d1.placeable c.load c.length = false → Does .hostRelease s (d1.halt 9)) ∧
    (d1.hostFw = none → Does .hostRelease s (d1.halt 9))) ∧
  (∀ (d : Dev) (c : Nat), c < 256 → (d.halt c).host.running = false ∧ (d.halt c).pins.alert = true ∧ (d.halt c).pilot.flashOut = true ∧ (d.halt c).fuses = d.fuses) ∧
  (∀ (s : State), s.dev.clocked = true →
    (s.dev.phase = 0xFF → Does .retry s ((((s.dev.put F.pilStatus_HALT_CAUSE 0).flag F.pilStatus_FLASH_RELEASED false).beginPhase 1).answer (.ok 0))) ∧
    (s.dev.ticking = true → s.dev.host.resetStep = 5 → s.dev.reset = none → Does .retry s
      (({ s.dev with host := { s.dev.host with resetStep := 4 } } : Dev).answer (.ok 0))) ∧
    (s.dev.phase ≠ 0xFF → s.dev.ticking = false ∨ s.dev.host.resetStep ≠ 5 ∨ s.dev.reset.isSome = true → Does .retry s (s.dev.regError .bmc true 0 3)))

/-- DEV_WARM and PKG_COLD, a hart's or the BMC's, and an armed watchdog's expiry request their reset; a
second request merges with the first, the stronger kind in force. A stopped pilot (channel 3) stops no
work and takes 10 us; otherwise the reset is due 200 us after the request, and takes effect when the
block idles then. An item that had started ends FAIL_HW at the position reached, another FAIL_CANCELLED
at its START. DEV_WARM keeps pool bytes, the ledger and the logbook; PKG_COLD keeps the logbook and
empties memory (its registers: log entry 6). (R628, R629, R631, R632, R639) -/
def Obligations.ResetsAccountForItems : Prop :=
  (∀ (s : State), Up s →
    Does .devWarm s ((s.dev.requestReset 2 1 false).answer (.ok 0)) ∧ Does .pkgCold s ((s.dev.requestReset 1 1 false).answer (.ok 0))) ∧
  (∀ (s : State), s.dev.clocked = true →
    Does (.reset 1) s ((s.dev.requestReset 2 2 false).answer (.ok 0)) ∧ Does (.reset 2) s ((s.dev.requestReset 1 2 false).answer (.ok 0)) ∧
    (∀ k, k ≠ 1 → k ≠ 2 → Does (.reset k) s (s.dev.regError .bmc true 0 3))) ∧
  (∀ (s : State) (ch : Nat) (d1 : Dev), s.dev.clocked = true →
    (s.dev.pilot.wdtArmed = false ∨ ch = 0 ∨ 3 < ch → Does (.hubWdtExpiry ch) s s.dev) ∧
    (s.dev.pilot.wdtArmed = true → d1 = ((s.dev.put F.mntHubWdt_LAST_CHANNEL ch).addSat F.mntHubWdt_EXPIRIES 1).note 0x1012 0 [(1, ch)] →
      (ch = 1 → Does (.hubWdtExpiry ch) s (d1.requestReset 2 3 false)) ∧ (ch = 2 → Does (.hubWdtExpiry ch) s (d1.slowDies.requestReset 2 3 false)) ∧
      (ch = 3 → Does (.hubWdtExpiry ch) s (d1.requestReset 2 3 true)))) ∧
  (∀ (d : Dev) (r : PendingReset) (kind src : Nat) (skip : Bool), d.reset = some r →
    d.requestReset kind src skip = { d with reset := some { r with kind := min r.kind kind, skip := r.skip || skip } }) ∧
  (∀ (d : Dev) (kind src : Nat), d.reset = none → (d.requestReset kind src true).reset.map (fun r => (r.kind, r.source, r.skip)) = some (kind, src, true)) ∧
  (∀ (d d1 : Dev) (r : PendingReset), d.jtagRun.clocked = true →
    d1 = ({ d.jtagRun with now := d.jtagRun.now + 1 } : Dev).returnCredits.endZeroing.endCraneResets → d1.reset = some r →
    (r.since + (if r.skip then 10000 else 200000) ≤ d1.now → d.idle = d1.resetEffect r) ∧
    (d1.now < r.since + (if r.skip then 10000 else 200000) → d.idle = d1)) ∧
  (∀ (it : Item), it.phase ≠ .finished →
    (it.started = true → it.cutOff.status = some 0x13 ∧ it.cutOff.pos = it.reached ∧ it.cutOff.phase = .finished) ∧
    (it.started = false → it.cutOff.status = some 0x14 ∧ it.cutOff.pos = it.startPos ∧ it.cutOff.phase = .finished)) ∧
  (∀ (d : Dev), d.afterWarm.log = d.log ∧ d.afterWarm.ledger = d.ledger ∧ d.afterWarm.items = [] ∧ d.afterWarm.launches = [] ∧
    (∀ a, a < 2 ^ 40 → d.afterWarm.mem.byte a = d.mem.byte a) ∧ (∀ a, 2 ^ 40 ≤ a → d.afterWarm.mem.byte a = Mem.absent) ∧
    d.afterCold.log = d.log ∧ d.afterCold.mem = {} ∧ d.afterCold.items = [] ∧ d.afterCold.conns = [] ∧ d.afterCold.fuses = d.fuses)

/-- UNIT_RESET of a tile or cluster without a launch writes its cluster's caches back and zeroes the tiles
it names; of a crane it resets the crane; with a launch, or of another locator, it is refused.
PORT_RESET logs 0x9102 and resets the port or link named, or is refused. A cluster gates once idle long
enough, loses its tiles' content without RETAIN, and is woken; a deck enters and leaves DECK_RETENTION
and the package PKG_IDLE when they may, counted and logged. Else each does nothing. (R634, R635, R636,
R637, R638) -/
def Obligations.UnitPortResetsAndLowPower : Prop :=
  (∀ (s : State) (h loc : Nat), Up s → s.dev.hartUp h = true → loc < 2 ^ 16 →
    (∀ deck kind, deck < 8 → kind < 8 → loc = locCrane deck kind → Does (.unitReset h loc) s ((s.dev.resetCrane (8 * deck + kind)).answer (.ok 0))) ∧
    ((∀ deck kind, loc ≠ locCrane deck kind) →
      (s.dev.unitTiles loc = none → Does (.unitReset h loc) s (s.dev.refuse h (Reg.offset .mntUnitReset 0))) ∧
      (∀ lc ts, s.dev.unitTiles loc = some (lc, ts) →
        ((s.dev.launchOnCluster lc).isSome = true → Does (.unitReset h loc) s (s.dev.refuse h (Reg.offset .mntUnitReset 0))) ∧
        (s.dev.launchOnCluster lc = none → Does (.unitReset h loc) s
          (((ts.foldl (fun d t => (d.zeroTile t).setTileState t 0) (s.dev.dropCluster lc)).note 0x9101 loc [(2, loc)]).answer (.ok 0)))))) ∧
  (∀ (s : State) (h k slot loc : Nat), Up s → s.dev.hartUp h = true →
    (∀ p, p < 6 → Does (.portReset h (locPort p) 0) s (((s.dev.note 0x9102 (locPort p) [(2, locPort p), (1, 0)]).resetPort p).answer (.ok 0))) ∧
    (k < 8 → slot < 3 → hasSlot k slot = true → Does (.portReset h (locDeck k) slot) s
      (((s.dev.note 0x9102 (locDeck k) [(2, locDeck k), (1, slot)]).resetLink (linkKey (.deck k slot))).answer (.ok 0))) ∧
    (k < 8 → slot < 3 → hasSlot k slot = false → Does (.portReset h (locDeck k) slot) s (s.dev.refuse h (Reg.offset .mntPortReset 0))) ∧
    (∀ p, p < 6 → Does (.portReset h (locDeck (portDeck p)) 3) s
      (((s.dev.note 0x9102 (locDeck (portDeck p)) [(2, locDeck (portDeck p)), (1, 3)]).resetPort p).answer (.ok 0))) ∧
    (k < 8 → hasSlot k 3 = false → Does (.portReset h (locDeck k) 3) s (s.dev.refuse h (Reg.offset .mntPortReset 0))) ∧
    (loc < 2 ^ 16 → slot < 4 → (∀ p, p < 6 → loc = locPort p → slot ≠ 0) → (∀ j, j < 8 → loc ≠ locDeck j) →
      Does (.portReset h loc slot) s (s.dev.refuse h (Reg.offset .mntPortReset 0)))) ∧
  (∀ (s : State) (lc : Nat) (d1 : Dev), Up s → lc < 176 → d1 = (s.dev.dropCluster lc).putBit F.cdGateCfg_GATED (lc % 4) true (lc / 4) →
    (s.dev.mayGate lc = true → d1.get F.cdGateCfg_RETAIN (lc / 4) ≠ 0 → Does (.clusterGate lc) s d1) ∧
    (s.dev.mayGate lc = true → d1.get F.cdGateCfg_RETAIN (lc / 4) = 0 → Does (.clusterGate lc) s ((rangeFrom (8 * lc) 8).foldl Dev.zeroTile d1)) ∧
    (s.dev.mayGate lc = false → Does (.clusterGate lc) s s.dev) ∧
    (s.dev.gated lc = true → Does (.clusterUngate lc) s ((s.dev.wakeCluster lc).useCluster lc)) ∧ (s.dev.gated lc = false → Does (.clusterUngate lc) s s.dev)) ∧
  (∀ (s : State) (k us : Nat) (d1 : Dev), Up s → k < 8 →
    d1 = { s.dev with xlat := (rangeFrom (8 * k) 8).foldl (fun t c => tset .new t (holderKey (.crane k (c % 8))) .new) s.dev.xlat } →
    (bit (s.dev.get F.mntPowerCmd_DECK_RETAIN) k = true → s.dev.deckRetained k = false → s.dev.deckGated k = true → s.dev.craneOn k = false →
      Does (.deckRetentionEnter k) s ((d1.putBit F.mntPowerStatus_RETAINED k true).note 0x5601 (locDeck k) [(1, Config.causeCode 0x5601 0), (2, locDeck k)])) ∧
    (bit (s.dev.get F.mntPowerCmd_DECK_RETAIN) k = false ∨ s.dev.deckRetained k = true ∨ s.dev.deckGated k = false ∨ s.dev.craneOn k = true →
      Does (.deckRetentionEnter k) s s.dev) ∧
    (s.dev.deckRetained k = true → Does (.deckRetentionExit k us) s (((s.dev.putBit F.mntPowerStatus_RETAINED k false).addSat F.mntPowerStatus_EXITS 1).note
      0x5602 (locDeck k) [(1, Config.causeCode 0x5601 0), (1, Config.causeCode 0x5602 (s.dev.retentionCause k)), (4, us)])) ∧
    (s.dev.deckRetained k = false → Does (.deckRetentionExit k us) s s.dev)) ∧
  (∀ (s : State), Up s →
    (s.dev.mayIdle = true → ∃ d, Does .pkgIdleEnter s d ∧ d.tiles = [] ∧ d.xlat = [] ∧ (∀ c ∈ d.clusters, c.2.tc = []) ∧
      (∀ a, 0x10100000000 ≤ a → d.mem.byte a = Mem.absent)) ∧
    (s.dev.mayIdle = false → Does .pkgIdleEnter s s.dev) ∧
    (∀ c us, s.dev.get F.mntPowerStatus_IN_PKG_IDLE = 1 → Does (.pkgIdleExit c us) s
      (((((s.dev.flag F.mntPowerStatus_IN_PKG_IDLE false).flag F.mntPowerCmd_PKG_IDLE false).addSat F.mntPowerStatus_EXITS 1).enableRails).note 0x5602 0
        [(1, Config.causeCode 0x5601 1), (1, Config.causeCode 0x5602 (4 + c)), (4, us)])) ∧
    (∀ c us, s.dev.get F.mntPowerStatus_IN_PKG_IDLE = 0 → Does (.pkgIdleExit c us) s s.dev))

/-- Each cause begins the reset with its number while the host runs and no other reset is under way;
otherwise a hart's or the host die's is ignored and the BMC's refused. ACTIVE and BELL_AHEAD rings
become HELD, the host die stops, its L2s are empty, no transaction is left and its interrupts and IOMMU are as at reset. Quiescence is recorded
once every admitted item has its record. The host die leaves reset once the link is back, the image
verifies and its firmware can be placed; otherwise it stays with the cause and RETRY repeats the step.
(R512, R513, R514, R610) -/
def Obligations.HostOnlyReset : Prop :=
  (∀ (s : State), Up s →
    (s.dev.mayHostReset = true →
      (∀ h, s.dev.hartUp h = true → Does (.hostCmdReset h) s ((s.dev.hostReset 1).answer (.ok 0))) ∧ Does .hostReset s ((s.dev.hostReset 2).answer (.ok 0)) ∧
      Does .hostDieInternalError s (s.dev.hostReset 4)) ∧
    (s.dev.mayHostReset = false →
      (∀ h, Does (.hostCmdReset h) s s.dev) ∧ Does .hostReset s (s.dev.regError .bmc true 0 3) ∧ Does .hostDieInternalError s s.dev)) ∧
  (∀ (d : Dev) (n cause : Nat), n ∈ d.liveRings → d.ringState n = 1 ∨ d.ringState n = 2 → (d.preserve cause).ringState n = 3) ∧
  (∀ (d : Dev) (cause : Nat), (d.hostReset cause).host.running = false ∧ (d.hostReset cause).host.resetStep = 4 ∧
    (d.hostReset cause).coh.l2 = [] ∧ (d.hostReset cause).coh.txns = [] ∧ (d.hostReset cause).coh.resv = [] ∧
    (d.hostReset cause).host.irqs = [] ∧ (d.hostReset cause).host.aplic = [] ∧ (d.hostReset cause).host.iommu = []) ∧
  (∀ (s : State), Up s →
    (s.dev.psrValid = true → bit (s.dev.psr 0) 17 = false → s.dev.items.all (fun it => it.phase == .fetched) = true →
      Does .hostResetQuiescent s ((s.dev.setPsr 0 17 17 1).note 0x1402 0 [(4, bits (s.dev.psr 3) 63 32)])) ∧
    (s.dev.psrValid = false ∨ bit (s.dev.psr 0) 17 = true ∨ (∃ it ∈ s.dev.items, it.phase ≠ .fetched) → Does .hostResetQuiescent s s.dev)) ∧
  (∀ (s : State), Up s →
    (s.dev.host.running = true ∨ s.dev.host.resetStep ≠ 4 ∨ s.dev.reset.isSome = true ∨ s.dev.linkState 32 ≠ 4 → Does .hostDieLeavesReset s s.dev) ∧
    (s.dev.host.running = false → s.dev.host.resetStep = 4 → s.dev.reset = none → s.dev.linkState 32 = 4 →
      (∀ c, s.dev.verifyImage false = .error c → Does .hostDieLeavesReset s (s.dev.hostStays c)) ∧
      (∀ m, s.dev.verifyImage false = .ok m → m.comps.find? (fun c => c.typ == 7) = none → Does .hostDieLeavesReset s (s.dev.hostStays 9)) ∧
      (∀ m c, s.dev.verifyImage false = .ok m → m.comps.find? (fun c => c.typ == 7) = some c →
        (s.dev.placeable c.load c.length = false → Does .hostDieLeavesReset s (s.dev.hostStays 9)) ∧
        (s.dev.placeable c.load c.length = true → ∃ d, Does .hostDieLeavesReset s d ∧ d.host.running = true ∧ d.host.resetStep = 0 ∧ d.host.entry = c.load ∧
          d = { (s.dev.placeHostFw c).put F.pilStatus_HALT_CAUSE 0 with host := { (s.dev.placeHostFw c).host with running := true, resetStep := 0 } })))) ∧
  (∀ (d : Dev) (c : Nat), (d.hostStays c).host.running = d.host.running ∧ (d.hostStays c).host.resetStep = 5)

/-- RESUME with VALID 1 resumes every ring, sends one MSI for each ring marked pending, sets VALID to 0 and
logs 0x1403; a pending ring that has no MSI address sends none, and one whose window's MSI is spent sends it
in the next. A HELD ring enters ACTIVE, or ERROR if it lost a record while HELD; a ring in any other
state, STOPPED among them, is left as it is. With VALID 0 it is answered with an error, logged, and has
no other effect. (R516) -/
def Obligations.ResumeReactivatesHeldRings : Prop :=
  (∀ (s : State) (hart : Nat) (d1 : Dev), Up s → s.dev.hartUp hart = true → d1 = s.dev.liveRings.foldl Dev.resumeRing s.dev →
    (s.dev.psrValid = true → Does (.resume hart) s ((((d1.pendingRings.foldl Dev.raiseMsi d1).setPsr 0 16 16 0).note 0x1403 0).answer (.ok 0))) ∧
    (s.dev.psrValid = false → Does (.resume hart) s (s.dev.regError (.host hart) true (Reg.offset .mntHostCmd 0) 3))) ∧
  (∀ (d : Dev) (n : Nat), n ∈ d.liveRings →
    (d.ringState n = 3 → (d.liveRings.foldl Dev.resumeRing d).ringState n = if (d.ring n).lostHeld then 5 else 1) ∧
    (d.ringState n ≠ 3 → (d.liveRings.foldl Dev.resumeRing d).ringState n = d.ringState n)) ∧
  (∀ (d : Dev) (n : Nat),
    (d.get F.hmRingMsiAddr_ADDR n ≠ 0 → d.ringState n ≠ 3 → d.msiSpent n = false → d.raiseMsi n = d.sendMsi n) ∧
    (d.get F.hmRingMsiAddr_ADDR n ≠ 0 → d.ringState n ≠ 3 → d.msiSpent n = true → d.raiseMsi n = d.modRing n (fun r => { r with msiPending := true })) ∧
    (d.get F.hmRingMsiAddr_ADDR n = 0 → d.raiseMsi n = d.modRing n (fun r => { r with msiPending := false }))) ∧
  (∀ (d : Dev) (n : Nat), n ∈ d.pendingRings ↔ n < 1024 ∧ bit (d.psr (20 + n / 64)) (n % 64) = true) ∧
  (∀ (d : Dev), (d.setPsr 0 16 16 0).psrValid = false)

/-- An L2's request is sent when its copy of the line allows it and otherwise not; LOOK, PUTFULL and
ATOMICHOME come from the agents that may send them. A request of a line in transaction waits behind it.
A probe of the current transaction is handled once: a take or drop leaves the agent no copy, a share no
unique one, a clean no dirty one. RETIRE and YIELD give up an M or O, and an E copy. A response is taken
from an agent that has handled its probe, and the requester's grant ends the transaction when all are
in. (R496, R497, R498, R499, R501) -/
def Obligations.SnoopRingTransactions : Prop :=
  (∀ (c : Nat → Nat → Instr) (kind : ReqKind) (ok : Nat → Bool), L2Request c kind ok → ∀ (s : State) (agent line : Nat), Up s → agent < 12 → line < poolLines → s.dev.hostUp = true →
    (ok (s.dev.coh.st agent line) = true → Does (c agent line) s (s.dev.request { kind := kind, agent := agent, line := line })) ∧
    (ok (s.dev.coh.st agent line) = false → Does (c agent line) s s.dev)) ∧
  (∀ (s : State) (agent line : Nat), Up s → line < poolLines →
    (agent = 14 ∨ (agent < 13 ∧ s.dev.hostUp = true) → Does (.look agent line) s (s.dev.request { kind := .look, agent := agent, line := line })) ∧
    (∀ bs, bs.length = 64 → agent = 14 ∨ (agent = 12 ∧ s.dev.hostUp = true) →
      Does (.putfull agent line bs) s (s.dev.request { kind := .putFull, agent := agent, line := line, data := bs })) ∧
    (∀ off size op x y, off < 64 → amoOk op size (64 * line + off) = true → agent = 14 ∨ (agent < 13 ∧ s.dev.hostUp = true) →
      Does (.atomichome agent (64 * line + off) size op x y) s (s.dev.request
        { kind := .atomicHome, agent := agent, line := line, op := op, off := off, size := size, operand := x, compare := y }))) ∧
  (∀ (d : Dev) (t u : Txn) (l : Nat), d.coh.txn l = some u → (d.request t).coh.txn l = some u) ∧
  (∀ (c : Nat → Nat → Instr) (p : Probe), ProbeCommand c p → ∀ (s : State) (agent line : Nat) (t : Txn), Up s → s.dev.coh.txn line = some t →
    (t.probes.contains agent = true → t.kind.probe = p → Does (c agent line) s (s.dev.probe agent line p)) ∧
    (t.probes.contains agent = false → Does (c agent line) s s.dev)) ∧
  (∀ (d : Dev) (k line : Nat), k < 12 → (d.probe k line .take).coh.st k line = 0 ∧ (d.probe k line .drop).coh.st k line = 0 ∧
    (d.probe k line .share).coh.st k line ≠ 2 ∧ (d.probe k line .share).coh.st k line ≠ 4 ∧
    (d.coh.st k line < 5 → (d.probe k line .clean).coh.st k line < 3)) ∧
  (∀ (s : State) (agent line : Nat), Up s →
    (s.dev.coh.txn line = none → Does (.probedrop agent line) s (s.dev.evict agent line)) ∧
    (∀ l, s.dev.coh.held agent line = some l →
      (3 ≤ l.st → Does (.retire agent line) s (s.dev.modCoh (fun c => (c.dropHeld agent line).setSys
        { line := line, data := l.data, dirty := true, poisoned := l.poisoned }))) ∧
      (l.st < 3 → Does (.retire agent line) s s.dev)) ∧
    (s.dev.coh.st agent line = 2 → Does (.yield agent line) s (s.dev.modCoh (fun c => c.dropHeld agent line))) ∧
    (s.dev.coh.st agent line ≠ 2 → Does (.yield agent line) s s.dev)) ∧
  (∀ (s : State) (agent line : Nat) (t : Txn), Up s → s.dev.coh.txn line = some t →
    (t.waiting.contains agent = true → t.probes.contains agent = false → Does (.snoopResponse agent line) s
      (s.dev.modTxn line (fun t => { t with waiting := t.waiting.filter (· != agent) }))) ∧
    (t.waiting.contains agent = true → t.probes.contains agent = true → Does (.snoopResponse agent line) s s.dev) ∧
    (t.waiting ≠ [] → (t.waiting.contains agent = false → Does (.snoopResponse agent line) s s.dev) ∧ Does (.snoopData agent line) s s.dev) ∧
    (t.waiting = [] → t.agent = agent →
      (t.kind.answersData = false → Does (.snoopResponse agent line) s ((s.dev.finishTxn t).1.answer (s.dev.finishTxn t).2)) ∧
      (t.kind.answersData = true → Does (.snoopData agent line) s ((s.dev.finishTxn t).1.answer (s.dev.finishTxn t).2))))

/-- A cacheable pool load that its L2 holds answers the held bytes, and one that reserves records its
reservation when the copy is unique; a cacheable store to a unique copy makes it M, a store-conditional
with its reservation stores and answers 0, and one without it stores nothing and answers 1. Uncached pool
accesses go to the unit; a scalar 8-byte access of the register window is a register access; an unmapped
address is logged and faults; a 4-byte IMSIC store is an interrupt message. Cache-block operations of pool
lines run at the home; an atomic is performed in an L2 that holds its pool line in E or M and else at the
home, one of an uncached pool address or a warehouse at its unit, and one of a local memory at its bank. A
PCIe request that is not untranslated, or that the IOMMU faults, is unsupported, and in Bare mode an address
is its own translation. A 4-byte aligned write into an IMSIC file is an interrupt message; a read or write
that an enabled window allows for its port and direction reaches the pool; a denied read gets Completer
Abort and a denied write is dropped, with the denial counted, recorded if the record is clear, and logged
with 0x8201. (R487, R489, R490, R491, R493, R494, R500, R502) -/
def Obligations.HostAndInboundAccesses : Prop :=
  ((∀ (s : State) (h pa size : Nat) (k : AccessKind) (l : L2Line), HartAt s h pa size (decide (k = .loadReserved)) true → space pa = .pool →
    s.dev.paErr pa size = none → s.dev.coh.held (h / 8) (pa / 64) = some l → l.poisoned = false → 0 < l.st →
    (k ≠ .loadReserved → Does (.hostLoad h pa size k true) s (s.dev.answer (loadResp ((l.data.drop (pa % 64)).take size)))) ∧
    (k = .loadReserved → l.st = 2 ∨ l.st = 4 → Does (.hostLoad h pa size k true) s
      ((s.dev.modCoh (fun c => { c with resv := c.resv.filter (fun r => r.1 != h) ++ [(h, pa, size)] })).answer (loadResp ((l.data.drop (pa % 64)).take size))))) ∧
  (∀ (s : State) (h pa size : Nat) (v : W64) (l : L2Line) (d1 : Dev), HartAt s h pa size true true → space pa = .pool → size ≤ 8 →
    s.dev.paErr pa size = none → s.dev.coh.held (h / 8) (pa / 64) = some l → l.poisoned = false → l.st = 2 ∨ l.st = 4 →
    d1 = s.dev.modCoh (fun c => { c with resv := c.resv.filter (fun r => r.1 != h) }) →
    Does (.hostStore h pa size .scalar true v) s ((s.dev.storeHeld h pa size (leNat (leBytes size v.toNat)) l).answer (.ok 0)) ∧
    ((h, pa, size) ∈ s.dev.coh.resv → Does (.hostStore h pa size .storeConditional true v) s
      ((d1.storeHeld h pa size (leNat (leBytes size v.toNat)) l).answer (.ok 0))) ∧
    ((h, pa, size) ∉ s.dev.coh.resv → Does (.hostStore h pa size .storeConditional true v) s (d1.answer (.ok 1)))) ∧
  (∀ (d : Dev) (h pa size v : Nat) (l : L2Line), l.line = pa / 64 → (d.storeHeld h pa size v l).coh.st (h / 8) (pa / 64) = 4 ∧ (d.storeHeld h pa size v l).mem = d.mem) ∧
  (∀ (s : State) (h pa size : Nat) (d1 : Dev), HartAt s h pa size false false →
    (∀ bs, space pa = .pool → d1 = s.dev.reach pa size → d1.readPa pa size = .ok bs → Does (.hostLoad h pa size .scalar false) s (d1.answer (loadResp bs))) ∧
    (∀ e, space pa = .pool → d1 = s.dev.reach pa size → d1.readPa pa size = .error e →
      Does (.hostLoad h pa size .scalar false) s ((d1.logAcc e (locHart h)).answer .loadFault)) ∧
    (∀ off, space pa = .regs off → size = 8 → Does (.hostLoad h pa 8 .scalar false) s (s.dev.hostRead h off)) ∧
    (∀ k, k ≠ .loadReserved → space pa = .unmapped → Does (.hostLoad h pa size k false) s ((s.dev.logAcc .unmapped (locHart h)).answer (loadFaultOf k)))) ∧
  (∀ (s : State) (h pa size : Nat) (v : W64) (d1 : Dev), HartAt s h pa size true false → size ≤ 8 →
    (∀ d', space pa = .pool → d1 = s.dev.meetWrite pa size → d1.writePa pa (leBytes size v.toNat) = .ok d' →
      Does (.hostStore h pa size .scalar false v) s (d'.answer (.ok 0))) ∧
    (∀ e, space pa = .pool → d1 = s.dev.meetWrite pa size → d1.writePa pa (leBytes size v.toNat) = .error e →
      Does (.hostStore h pa size .scalar false v) s ((d1.logAcc e (locHart h)).answer .storeFault)) ∧
    (∀ off, space pa = .regs off → size = 8 → Does (.hostStore h pa 8 .scalar false v) s (s.dev.hostWrite h off v)) ∧
    (∀ k, space pa = .unmapped → Does (.hostStore h pa size k false v) s ((s.dev.logAcc .unmapped (locHart h)).answer .storeFault)) ∧
    (space pa = .host → inImsic pa = true → size = 4 → pa % 4 = 0 → Does (.hostStore h pa 4 .scalar false v) s
      ((s.dev.hostMsi pa (v.toNat % 2 ^ 32)).answer (.ok 0)))) ∧
  (∀ (s : State) (h pa : Nat), Up s → s.dev.hartUp h = true →
    (space pa = .pool → s.dev.paErr pa 1 = none → ∀ d' r,
      (s.dev.serve { kind := .clean, agent := h / 8, line := pa / 64 } = (d', r) → Does (.cboClean h pa) s (d'.answer r)) ∧
      (s.dev.serve { kind := .purge, agent := h / 8, line := pa / 64 } = (d', r) → Does (.cboFlush h pa) s (d'.answer r) ∧ Does (.cboInval h pa false) s (d'.answer r)) ∧
      (s.dev.serve { kind := .discard, agent := h / 8, line := pa / 64 } = (d', r) → Does (.cboInval h pa true) s (d'.answer r))) ∧
    (∀ e, space pa = .pool → s.dev.paErr pa 1 = some e → ∀ p, ∃ d, d = (s.dev.logAcc e (locHart h)).answer .storeFault ∧
      Does (.cboClean h pa) s d ∧ Does (.cboFlush h pa) s d ∧ Does (.cboInval h pa p) s d)) ∧
  (∀ (s : State) (h pa size x y : Nat) (op : AtomicOp), Up s → s.dev.hartUp h = true → amoOk op size pa = true → op ≠ .fadd →
    (size = 4 ∨ size = 8 → space pa = .pool → Does (.hostAtomic h op size false pa x y) s (s.dev.farOp (hostReq h pa size x y) op)) ∧
    (size = 4 ∨ size = 8 → inWarehouse pa = true → ∀ ca, Does (.hostAtomic h op size ca pa x y) s (s.dev.whOp (hostReq h pa size x y) op)) ∧
    (∀ t o ca, size ≠ 16 → space pa = .localMem t o → Does (.hostAtomic h op size ca pa x y) s (s.dev.atomicLocal h pa size op x y)) ∧
    (space pa = .pool → s.dev.paErr pa size = none →
      (∀ l, s.dev.coh.held (h / 8) (pa / 64) = some l → l.st = 2 ∨ l.st = 4 → l.poisoned = false → Does (.hostAtomic h op size true pa x y) s
        ((s.dev.storeHeld h pa size (amoNew op size (leNat ((l.data.drop (pa % 64)).take size)) x y) l).answer
          (.data (leBytes size (leNat ((l.data.drop (pa % 64)).take size)))))) ∧
      (∀ d' r, s.dev.coh.st (h / 8) (pa / 64) ≠ 2 → s.dev.coh.st (h / 8) (pa / 64) ≠ 4 →
        s.dev.serve { kind := .atomicHome, agent := h / 8, line := pa / 64, op := op, off := pa % 64, size := size, operand := x, compare := y } = (d', r) →
        Does (.hostAtomic h op size true pa x y) s (d'.answer r))))) ∧
  ((∀ (s : State) (port rq addr len n : Nat) (kind : InboundKind) (wr : Option (List Byte)) (d1 : Dev), Up s → port < 4 → s.dev.hostUp = true →
    n = (wr.map List.length).getD len → 0 < n → addr % 4096 + n ≤ 4096 →
    (kind ≠ .untranslated → Does (.inboundRequest port rq ⟨kind, addr⟩ len wr) s (s.dev.answer .unsupported)) ∧
    (kind = .untranslated → s.dev.poolWaits 0 = false →
      (s.dev.translateInbound port rq addr wr.isSome = (d1, none) → Does (.inboundRequest port rq ⟨kind, addr⟩ len wr) s (d1.answer .unsupported)) ∧
      (∀ pa, s.dev.translateInbound port rq addr wr.isSome = (d1, some pa) → d1.poolWaits pa = false →
        Does (.inboundRequest port rq ⟨kind, addr⟩ len wr) s (d1.inbound port rq pa n wr)))) ∧
  (∀ (d : Dev) (port rq addr : Nat) (wr : Bool), d.ioWord 16 % 16 = 1 → d.translateInbound port rq addr wr = (d, some addr)) ∧
  (∀ (d d1 : Dev) (port rq pa len : Nat),
    ((∀ w, w < 16 → d.windowAllows w port pa len false = false) → (d.inbound port rq pa len none).resp = .completerAbort ∧
      (d.inbound port rq pa len none).mem = d.mem ∧
      (d.inbound port rq pa len none).get F.bwfDeniedCount_COUNT = min F.bwfDeniedCount_COUNT.max (d.get F.bwfDeniedCount_COUNT + 1)) ∧
    (∀ w bs, w < 16 → d.windowAllows w port pa len false = true → d1 = d.look pa len → d1.hubRead pa len = .ok bs →
      d.inbound port rq pa len none = d1.answer (.data bs))) ∧
  (∀ (d : Dev) (port rq pa len : Nat) (bs : List Byte),
    (inImsic pa = true → bs.length = 4 → pa % 4 = 0 → d.inbound port rq pa len (some bs) = (d.hostMsi pa (leNat bs)).answer (.ok 0)) ∧
    (inImsic pa = false ∨ bs.length ≠ 4 ∨ pa % 4 ≠ 0 → (∀ w, w < 16 → d.windowAllows w port pa len true = false) →
      (d.inbound port rq pa len (some bs)).resp = .dropped ∧ (d.inbound port rq pa len (some bs)).mem = d.mem ∧
      (d.inbound port rq pa len (some bs)).get F.bwfDeniedCount_COUNT = min F.bwfDeniedCount_COUNT.max (d.get F.bwfDeniedCount_COUNT + 1)) ∧
    (∀ w d', w < 16 → inImsic pa = false → d.windowAllows w port pa len true = true → (d.meetWrite pa bs.length).hubWrite pa bs = .ok d' →
      d.inbound port rq pa len (some bs) = d'.answer (.ok 0))) ∧
  (∀ (d : Dev) (port rq pa kind : Nat) (d1 : Dev),
    (d.get F.bwfDeniedInfo_VALID ≠ 0 → d1 = d.addSat F.bwfDeniedCount_COUNT 1) →
    (d.get F.bwfDeniedInfo_VALID = 0 → d1 = ((d.addSat F.bwfDeniedCount_COUNT 1).setReg .bwfDeniedAddr 0 (BitVec.ofNat 64 pa)).setReg .bwfDeniedInfo 0
      (BitVec.ofNat 64 (2 ^ 63 + rq % 2 ^ 16 * 2 ^ 8 + port % 4 * 2 ^ 6 + kind))) →
    d.denyInbound port rq pa kind =
      (d1.note 0x8201 locHub [(8, pa), (2, rq), (1, port), (1, kind)]).answer (if kind = 1 then .completerAbort else .dropped)) ∧
  (∀ (d : Dev) (w port pa len : Nat) (wr : Bool), d.windowAllows w port pa len wr = true →
    d.get F.bwfWinCfg_ENABLE w = 1 ∧ bit (d.get F.bwfWinCfg_PORTS w) port = true ∧ d.get F.bwfWinBase_BASE w * 2 ^ 21 ≤ pa ∧
    pa + len ≤ (d.get F.bwfWinBase_BASE w + d.get F.bwfWinCfg_LIMIT w) * 2 ^ 21))

/-- Each token command submits its token on its channel, the BMC's from the message and the host's from
PIL_TOKEN_ADDR; a malformed token may come as any kind. While the pilot is occupied it gets BUSY and
keeps its nonce. Otherwise the nonce is consumed; a rejection is logged with 0x8011 and its reason, an
acceptance takes the kind's effect and is logged with 0x8010. A token that passes every check has the
device's serial, the channel's nonce, and a signature by a key in use. Whether the fuse write of kinds 3
to 5 fails is a free value (log entry 24). (R611, R613, R614, R615, R616) -/
def Obligations.TokensAreJudged : Prop :=
  (∀ (c : Channel → List Byte → Instr) (kind : Nat), TokenCommand c kind → ∀ (s : State) (t : List Byte),
    (s.dev.clocked = true → tokKind t = kind ∨ tokOk t = false → Does (c .bmc t) s (s.dev.judge .bmc t)) ∧
    (s.dev.clocked = true → tokKind t ≠ kind → tokOk t = true → Does (c .bmc t) s s.dev) ∧
    (Up s → ∀ d1 u, d1 = s.dev.meetToken .host → u = d1.tokenOf .host t →
      (tokKind u = kind ∨ tokOk u = false → Does (c .host t) s (d1.judge .host u)) ∧
      (tokKind u ≠ kind → tokOk u = true → Does (c .host t) s d1))) ∧
  (∀ (d : Dev) (c : Channel) (t : List Byte), d.pilotBusy = true → (d.judge c t).resp = .token 7 ∧ (d.judge c t).nonceOf c = d.nonceOf c ∧ (d.judge c t).fuses = d.fuses) ∧
  (∀ (d : Dev) (c : Channel) (t : List Byte), d.pilotBusy = false → (d.judge c t).nonceOf c = none) ∧
  (∀ (d d1 : Dev) (c : Channel) (t : List Byte) (r : Nat), d.pilotBusy = false → d.tokFault c t = some r →
    d1 = (if 3 ≤ tokKind t then d.draw else d).useNonce c → (d.judge c t).resp = .token r ∧ (d.judge c t).fuses = d.fuses ∧
    d.judge c t = (d1.note 0x8011 0 [(2, tokKind t), (1, chanNo c), (1, r)]).tokResult c (tokKind t) r true) ∧
  (∀ (d : Dev) (c : Channel) (t : List Byte), TokenGood d c t →
    (tokKind t < 3 → d.judge c t = (((d.useNonce c).tokEffect c t).note 0x8010 0 [(2, tokKind t), (1, chanNo c)]).tokResult c (tokKind t) 1 true) ∧
    (3 ≤ tokKind t → (d.judge c t).resp = .token 1 ∨ ((d.judge c t).resp = .token 8 ∧ (d.judge c t).fuses = d.fuses)) ∧
    tok t 0x10 16 = fit 16 d.fuses.serial ∧ d.nonceOf c = some (tok t 0x20 32) ∧ d.keyMatches (tokNat t 0xA 1) (tok t 0x80 1312) = true ∧
    maySign (tokNat t 0xA 1) (tokKind t) (tokArg t) = true)

/-- NEW_NONCE and GET_NONCE replace their channel's nonce by the next free value and leave the other's.
GET_EVIDENCE answers the evidence for its nonce with the device certificate, or an error while PIL_DEBUG
scope bit 3 is set. STAGE_MP stages the verified stores, waits for a flash write, or is refused while a
stage is in progress; a failure logs 0x8002 and changes no store. FLASH_RELEASE sets FLASH_RELEASED
unless a stage or flash write is running or queued, FLASH_ACQUIRE clears it, and DEBUG_LOCK clears SCOPE
and logs 0x8021. (R606, R608, R609, R613, R617, R618) -/
def Obligations.NoncesEvidenceStagesAndFlash : Prop :=
  (∀ (s : State) (h : Nat), Up s → s.dev.hartUp h = true → ∃ d, Does (.newNonce h) s d ∧ d.pilot.nonceHost = some (fit 32 (Config.nonce s.dev.fresh)) ∧
    d.pilot.nonceBmc = s.dev.pilot.nonceBmc ∧ d.fresh = s.dev.fresh + 1 ∧ d.resp = .ok 0) ∧
  (∀ (s : State), s.dev.clocked = true → ∃ d, Does .getNonce s d ∧ d.resp = .data (fit 32 (Config.nonce s.dev.fresh)) ∧
    d.pilot.nonceBmc = some (fit 32 (Config.nonce s.dev.fresh)) ∧ d.pilot.nonceHost = s.dev.pilot.nonceHost ∧ d.regs = s.dev.regs) ∧
  (∀ (s : State) (n : List Byte), s.dev.clocked = true →
    (bit (s.dev.get F.pilDebug_SCOPE) 3 = false → Does (.getEvidence n) s (s.dev.answer (.data (s.dev.evidence n ++ Config.deviceCertificate)))) ∧
    (bit (s.dev.get F.pilDebug_SCOPE) 3 = true → Does (.getEvidence n) s (s.dev.answer .error))) ∧
  (∀ (d : Dev) (n : List Byte), (d.evidence n).length = 4096 ∧ (d.evidence n).take 8 = ascii "OLHXEVD1") ∧
  (∀ (s : State) (h : Nat), Up s → s.dev.hartUp h = true →
    (s.dev.get F.pilStatus_STAGING = 1 → Does (.stageMp h) s (s.dev.refuse h pilCmdOff) ∧ Does (.flashRelease h) s (s.dev.refuse h pilCmdOff)) ∧
    (s.dev.get F.pilStatus_STAGING = 0 →
      (s.dev.flashWriting = true → Does (.stageMp h) s ((s.dev.flag F.pilStatus_STAGING true).answer (.ok 0))) ∧
      (s.dev.flashWriting = false → Does (.stageMp h) s (s.dev.stage.answer (.ok 0))) ∧
      ((∀ it ∈ s.dev.items, it.typ = tMaint → it.activity = 6 → it.phase = .finished) → Does (.flashRelease h) s
        (((s.dev.flag F.pilStatus_FLASH_RELEASED true).modPilot (fun p => { p with flashOut := true })).answer (.ok 0)))) ∧
    (∀ it ∈ s.dev.items, it.typ = tMaint → it.activity = 6 → it.phase ≠ .finished → Does (.flashRelease h) s (s.dev.refuse h pilCmdOff)) ∧
    Does (.flashAcquire h) s ((s.dev.flag F.pilStatus_FLASH_RELEASED false).answer (.ok 0)) ∧
    Does (.debugLock h) s (((s.dev.put F.pilDebug_SCOPE 0).note 0x8021 0).answer (.ok 0))) ∧
  (∀ (d d1 : Dev), d1 = d.flag F.pilStatus_STAGING false →
    (∀ c, d1.verifyImage false = .error c → d.stage = d1.note 0x8002 0 [(1, c)]) ∧
    (∀ m, d1.verifyImage false = .ok m → ∃ v w, d.stage.pilot.vecNext = some v ∧ d.stage.pilot.wharfNext = some w ∧
      v.version = m.mpVersion ∧ w.version = m.mpVersion ∧ v.slots = m.slots 8 ∧ w.slots = m.slots 9 ∧ d.stage.pilot.vecStore = d.pilot.vecStore))

/-- REGISTER_WRITE and REG_READ of a misaligned or unassigned offset, and a BMC read that is not open before
release, get an error response with its cause. A read answers with reserved and write-only bits 0. A
write sets RW fields, clears the W1C bits and sets the W1S bits written as 1, and leaves RO fields; a
refused value changes none. The BMC writes only the fields opened to it. An error response counts, fills
DEV_ERR_INFO only while it is free, and answers a load or store fault or a NACK. ALERT_ACK releases
DEV_ALERT_N unless a newer cause has arisen. (R14, R15, R22, R570, R661, R662, R663, R664, R665, R673,
R676, R691) -/
def Obligations.RegisterWindowReadsAndWrites : Prop :=
  (∀ (s : State) (h off : Nat) (v : W64), Up s → s.dev.hartUp h = true → off < 2 ^ 24 →
    (off % 8 ≠ 0 → Does (.registerWrite h off v) s (s.dev.regError (.host h) true off 1)) ∧
    (off % 8 = 0 → Reg.at? off = none → reservedReg off = false → Does (.registerWrite h off v) s (s.dev.regError (.host h) true off 2)) ∧
    (off % 8 = 0 → Reg.at? off = none → reservedReg off = true → Does (.registerWrite h off v) s (s.dev.answer (.ok 0))) ∧
    (off % 8 = 0 → ∀ r i, Reg.at? off = some (r, i) → Does (.registerWrite h off v) s (s.dev.writeReg h r i v)) ∧
    Does (.hmEventValueWrite h v) s ((s.dev.setEvent (s.dev.get F.hmEventSelect_EVENT) v).answer (.ok 0))) ∧
  (∀ (s : State) (off : Nat), s.dev.clocked = true → off < 2 ^ 24 →
    (off % 8 ≠ 0 → Does (.regRead off) s (s.dev.regError .bmc false off 1)) ∧
    (off % 8 = 0 → Reg.at? off = none → reservedReg off = false → Does (.regRead off) s (s.dev.regError .bmc false off 2)) ∧
    (off % 8 = 0 → ∀ r i, Reg.at? off = some (r, i) →
      (s.dev.ticking = false → earlyReg off = false → Does (.regRead off) s (s.dev.regError .bmc false off 5)) ∧
      (s.dev.ticking = true ∨ earlyReg off = true → r ≠ .logData → Does (.regRead off) s (s.dev.answer (.ok (s.dev.readReg r i)))))) ∧
  (∀ (d : Dev) (r : Reg) (i k : Nat), bit r.readMask k = false → bit (d.readReg r i).toNat k = false) ∧
  (∀ (d : Dev) (r : Reg) (i : Nat) (w : W64), ∀ f ∈ r.fields,
    (f.typ = .rw → bits ((d.writeFields r i w).reg r i).toNat f.fld.hi f.fld.lo = bits w.toNat f.fld.hi f.fld.lo) ∧
    (f.typ = .ro → bits ((d.writeFields r i w).reg r i).toNat f.fld.hi f.fld.lo = bits (d.reg r i).toNat f.fld.hi f.fld.lo) ∧
    (f.typ = .w1c → bits ((d.writeFields r i w).reg r i).toNat f.fld.hi f.fld.lo =
      bits (d.reg r i).toNat f.fld.hi f.fld.lo - (bits (d.reg r i).toNat f.fld.hi f.fld.lo &&& bits w.toNat f.fld.hi f.fld.lo)) ∧
    (f.typ = .w1s → bits ((d.writeFields r i w).reg r i).toNat f.fld.hi f.fld.lo = bits (d.reg r i).toNat f.fld.hi f.fld.lo ||| bits w.toNat f.fld.hi f.fld.lo)) ∧
  (∀ (s : State) (w : W64) (x : Nat), s.dev.clocked = true → x = bits w.toNat F.lkpCap_BOARD_CAP_W.hi F.lkpCap_BOARD_CAP_W.lo →
    (x < 3600 ∨ 7200 < x → Does (.regWrite (Reg.offset .lkpCap 0) w) s (s.dev.regError .bmc true (Reg.offset .lkpCap 0) 3)) ∧
    (3600 ≤ x → x ≤ 7200 → 1 < s.dev.phase → Does (.regWrite (Reg.offset .lkpCap 0) w) s ((s.dev.setBoardCap x).answer (.ok 0))) ∧
    (3600 ≤ x → x ≤ 7200 → s.dev.phase ≤ 1 → Does (.regWrite (Reg.offset .lkpCap 0) w) s
      ((s.dev.modPilot (fun p => { p with boardCap := some x })).answer (.ok 0))) ∧
    (∀ off r i, off < 2 ^ 24 → off % 8 = 0 → Reg.at? off = some (r, i) → r ∉ [Reg.lkpCap, .lkpCoolant, .hawNode, .mntLedgerArm, .devAssetTag] →
      Does (.regWrite off w) s (s.dev.regError .bmc true off 5)) ∧
    Does (.regWrite (Reg.offset .lkpCoolant 0) w) s ((s.dev.put F.lkpCoolant_INLET_C (w.toNat % 256)).answer (.ok 0))) ∧
  (∀ (d : Dev) (h : Nat) (r : Reg) (i : Nat) (w : W64), r ∈ [Reg.tidePeriodNs, .tideReserve, .lkpCap, .bwfWinBase, .bwfWinCfg] →
    (d.refuses r i w = true → d.writeReg h r i w = d.regError (.host h) true (r.offset i) 3) ∧
    (d.refuses r i w = false → d.writeReg h r i w = (d.writeFields r i w).answer (.ok 0))) ∧
  (∀ (d : Dev) (src : RegSrc) (wr : Bool) (off c : Nat),
    (d.regError src wr off c).resp = (match src with | .bmc => .nack | .host _ => if wr then .storeFault else .loadFault) ∧
    (d.regError src wr off c).get F.devErrCount_COUNT = min F.devErrCount_COUNT.max (d.get F.devErrCount_COUNT + 1) ∧
    (d.get F.devErrInfo_VALID = 1 → (d.regError src wr off c).reg .devErrInfo = d.reg .devErrInfo) ∧
    (d.get F.devErrInfo_VALID = 0 → (d.regError src wr off c).reg .devErrInfo = BitVec.ofNat 64 (errWord src wr off c)) ∧
    (d.regError src wr off c).mem = d.mem ∧ (d.regError src wr off c).items = d.items) ∧
  (∀ (s : State), s.dev.clocked = true →
    (s.dev.log.alertCause ≤ s.dev.log.bmcRead → ∃ d, Does .alertAck s d ∧ d.pins.alert = false) ∧
    (s.dev.log.bmcRead < s.dev.log.alertCause → Does .alertAck s (s.dev.answer (.ok 0))))

/-- After a LOG_INDEX write of i, LOG_DATA_k reads as bytes 8k to 8k+7 of record i; a slot not yet written
reads as zeros. The BMC's read of LOG_DATA_k answers the same value, also when a trip has stopped the
clocks. (R653) -/
def Obligations.LogRecordsReadThroughTheWindow : Prop :=
  (∀ (s : State) (h : Nat) (w : W64), Up s → s.dev.hartUp h = true → Does (.logIndexWrite h w) s ((s.dev.latchLog (w.toNat % 4096)).answer (.ok 0))) ∧
  (∀ (d : Dev) (i k : Nat), i < 4096 → k < 8 →
    (d.latchLog i).readReg .logData k = BitVec.ofNat 64 (leNat (((d.logBytes i).drop (8 * k)).take 8)) ∧
    (d.log.recs[i]? = none → (d.latchLog i).readReg .logData k = 0) ∧ (d.latchLog i).log = d.log) ∧
  (∀ (s : State) (k : Nat), s.dev.pins.por = false → k < 8 → ∃ d, Does (.regRead (Reg.offset .logData k)) s d ∧
    d.resp = .ok (s.dev.readReg .logData k) ∧ d.regs = s.dev.regs ∧ d.log.recs = s.dev.log.recs)
end

