-- ==== Sys2Proof/Laws/Tbl.lean ====
section
/-! SUPPORT. Sparse tables: what a key reads as after a write, and that writing keeps the canonical form. -/
namespace Sys2Proof.Machine

variable {α : Type} {d : α}

theorem tget_tins_same (t : List (Nat × α)) (k : Nat) (v : α) : tget d (tins t k v) k = v := by
  induction t with
  | nil => simp [tins, tget]
  | cons e rest ih =>
    obtain ⟨j, w⟩ := e
    simp only [tins]
    split
    · simp [tget]
    · split
      · simp [tget]
      · rename_i h; simp [tget, h, ih]

theorem tget_tins_other (t : List (Nat × α)) {k q : Nat} (v : α) (h : q ≠ k) :
    tget d (tins t k v) q = tget d t q := by
  induction t with
  | nil => simp [tins, tget, h.symm]
  | cons e rest ih =>
    obtain ⟨j, w⟩ := e
    simp only [tins]
    split
    · simp [tget, h.symm]
    · split
      · rename_i hj; subst hj; simp [tget, h.symm]
      · simp [tget, ih]

theorem tget_filter_same (t : List (Nat × α)) (k : Nat) : tget d (t.filter (fun e => !(e.1 == k))) k = d := by
  induction t with
  | nil => simp [tget]
  | cons e rest ih =>
    obtain ⟨j, w⟩ := e
    by_cases h : j = k
    · simp [h, ih]
    · simp [h, tget, ih]

theorem tget_filter_other (t : List (Nat × α)) {k q : Nat} (h : q ≠ k) :
    tget d (t.filter (fun e => !(e.1 == k))) q = tget d t q := by
  induction t with
  | nil => simp [tget]
  | cons e rest ih =>
    obtain ⟨j, w⟩ := e
    by_cases hj : j = k
    · subst hj; simp [tget, h.symm, ih]
    · simp [hj, tget, ih]

variable [DecidableEq α]

/-- A written key reads as what was written. -/
@[simp] theorem tget_tset_same (t : List (Nat × α)) (k : Nat) (v : α) : tget d (tset d t k v) k = v := by
  unfold tset
  split
  · rename_i h; rw [h, tget_filter_same]
  · exact tget_tins_same t k v

/-- Every other key reads as before. -/
theorem tget_tset_other (t : List (Nat × α)) {k q : Nat} {e : α} (v : α) (h : q ≠ k) :
    tget e (tset d t k v) q = tget e t q := by
  unfold tset
  split
  · exact tget_filter_other t h
  · exact tget_tins_other t v h

/-- Every key of a table lies above `lo` and rises. -/
theorem twf_cons {j : Nat} {v : α} {t : List (Nat × α)} :
    twf d ((j, v) :: t) = true ↔ v ≠ d ∧ (∀ e ∈ t.head?, j < e.1) ∧ twf d t = true := by
  cases t with
  | nil => simp [twf]
  | cons e rest =>
    obtain ⟨k, w⟩ := e
    simp [twf, and_assoc, and_comm]

theorem twf_lt {j : Nat} {v : α} {t : List (Nat × α)} (h : twf d ((j, v) :: t) = true) :
    ∀ e ∈ t, j < e.1 := by
  induction t generalizing j v with
  | nil => simp
  | cons e rest ih =>
    obtain ⟨k, w⟩ := e
    obtain ⟨-, h2, h3⟩ := twf_cons.1 h
    intro x hx
    have hk : j < k := h2 (k, w) (by simp)
    rcases List.mem_cons.1 hx with rfl | hx
    · exact hk
    · exact Nat.lt_trans hk (ih h3 x hx)

omit [DecidableEq α] in
theorem tins_head (t : List (Nat × α)) (k : Nat) (v : α) :
    ∀ e ∈ (tins t k v).head?, e.1 = k ∨ ∃ f ∈ t.head?, e.1 = f.1 := by
  cases t with
  | nil => simp [tins]
  | cons e rest =>
    obtain ⟨j, w⟩ := e
    simp only [tins]
    split
    · simp
    · split
      · simp
      · simp

theorem twf_tins {t : List (Nat × α)} (h : twf d t = true) (k : Nat) {v : α} (hv : v ≠ d) :
    twf d (tins t k v) = true := by
  induction t with
  | nil => simp [tins, twf, hv]
  | cons e rest ih =>
    obtain ⟨j, w⟩ := e
    obtain ⟨h1, h2, h3⟩ := twf_cons.1 h
    simp only [tins]
    split
    · rename_i hk; exact twf_cons.2 ⟨hv, by simp [hk], h⟩
    · split
      · rename_i hj; subst hj; exact twf_cons.2 ⟨hv, h2, h3⟩
      · rename_i hk hj
        refine twf_cons.2 ⟨h1, fun e he => ?_, ih h3⟩
        rcases tins_head rest k v e he with h | ⟨f, hf, h⟩
        · omega
        · have := h2 f hf; omega

theorem twf_filter {t : List (Nat × α)} (h : twf d t = true) (p : Nat × α → Bool) : twf d (t.filter p) = true := by
  induction t with
  | nil => simp [twf]
  | cons e rest ih =>
    obtain ⟨j, w⟩ := e
    obtain ⟨h1, -, h3⟩ := twf_cons.1 h
    have hlt := twf_lt h
    rw [List.filter_cons]
    split
    · refine twf_cons.2 ⟨h1, fun e he => hlt e ?_, ih h3⟩
      exact (List.mem_filter.1 (List.mem_of_mem_head? he)).1
    · exact ih h3

/-- A write keeps the canonical form. -/
theorem twf_tset {t : List (Nat × α)} (h : twf d t = true) (k : Nat) (v : α) : twf d (tset d t k v) = true := by
  unfold tset
  split
  · exact twf_filter h _
  · rename_i hv; exact twf_tins h k hv

theorem twf_foldr_tset (t : List (Nat × α)) : twf d (t.foldr (fun e acc => tset d acc e.1 e.2) []) = true := by
  induction t with
  | nil => simp [twf]
  | cons e rest ih => exact twf_tset ih _ _

theorem tget_foldr_tset (t : List (Nat × α)) (k : Nat) :
    tget d (t.foldr (fun e acc => tset d acc e.1 e.2) []) k = tget d t k := by
  induction t with
  | nil => rfl
  | cons e rest ih =>
    obtain ⟨j, w⟩ := e
    simp only [List.foldr_cons, tget]
    split
    · rename_i h; subst h; simp
    · rename_i h; rw [tget_tset_other _ _ (fun h' => h h'.symm), ih]

/-- Canonicalising reaches the canonical form. -/
theorem twf_tcanon (t : List (Nat × α)) : twf d (tcanon d t) = true := by
  unfold tcanon
  split
  · assumption
  · exact twf_foldr_tset t

/-- Canonicalising changes no reading. -/
@[simp] theorem tget_tcanon (t : List (Nat × α)) (k : Nat) : tget d (tcanon d t) k = tget d t k := by
  unfold tcanon
  split
  · rfl
  · exact tget_foldr_tset t k

/-- A canonical table is left as it is. -/
@[simp] theorem tcanon_of_twf {t : List (Nat × α)} (h : twf d t = true) : tcanon d t = t := by
  simp [tcanon, h]

end Sys2Proof.Machine
end

