-- ==== Sys2Proof/Laws/Mem.lean ====
section
/-! SUPPORT. Memory: every operation keeps the canonical form, and what a byte reads as after a write. -/
namespace Sys2Proof.Machine

/-- Memory in canonical form has the canonical form. -/
@[simp] theorem Mem.canon_wf (m : Mem) : m.canon.wf = true := twf_tcanon m.cells

@[simp] theorem Mem.canon_poison (m : Mem) : m.canon.poison = m.poison := rfl
@[simp] theorem Mem.canon_cold (m : Mem) : m.canon.cold = m.cold := rfl
@[simp] theorem Mem.canon_written (m : Mem) : m.canon.written = m.written := rfl
@[simp] theorem Mem.canon_fresh (m : Mem) : m.canon.fresh = m.fresh := rfl
@[simp] theorem Mem.canon_undefinedAt (m : Mem) (a : Nat) : m.canon.undefinedAt a = m.undefinedAt a := by
  unfold Mem.undefinedAt Mem.freshAt; rfl

/-- Putting memory in canonical form changes no byte. -/
@[simp] theorem Mem.canon_byte (m : Mem) (a : Nat) : m.canon.byte a = m.byte a := by
  unfold Mem.byte
  rw [Mem.canon_undefinedAt, Mem.canon_cold]
  cases m.cold <;> simp [Mem.canon]

/-- Memory already in canonical form is left as it is. -/
@[simp] theorem Mem.canon_of_wf {m : Mem} (h : m.wf = true) : m.canon = m := by
  unfold Mem.canon; rw [tcanon_of_twf h]

theorem Mem.poke_wf {m : Mem} (h : m.wf = true) (a : Nat) (bs : List Byte) : (m.poke a bs).wf = true := by
  induction bs generalizing m a with
  | nil => exact h
  | cons b bs ih =>
    exact ih (m := { m with cells := tset Mem.absent m.cells a b }) (twf_tset (t := m.cells) h a b) (a + 1)

theorem Mem.settleLine_wf {m : Mem} (h : m.wf = true) (l : Nat) : (m.settleLine l).wf = true := by
  unfold Mem.settleLine
  split
  · exact Mem.poke_wf h l _
  · exact h

theorem Mem.settleLines_wf {m : Mem} (h : m.wf = true) (us : List Nat) : (us.foldl Mem.settleLine m).wf = true := by
  induction us generalizing m with
  | nil => exact h
  | cons u us ih => exact ih (Mem.settleLine_wf h u)

/-- A write keeps the canonical form. -/
theorem Mem.write_wf {m : Mem} (h : m.wf = true) (a : Nat) (bs : List Byte) : (m.write a bs).wf = true := by
  unfold Mem.write
  simp only
  split
  · exact Mem.poke_wf (Mem.settleLines_wf h _) a bs
  · exact Mem.poke_wf h a bs

theorem Mem.zero_wf {m : Mem} (h : m.wf = true) (a len : Nat) : (m.zero a len).wf = true := twf_filter h _

theorem Mem.erase_wf {m : Mem} (h : m.wf = true) (a len : Nat) : (m.erase a len).wf = true := by
  have hz := Mem.zero_wf h a len
  unfold Mem.erase
  dsimp only
  split <;> exact hz

theorem Mem.poisonUnit_wf {m : Mem} (h : m.wf = true) (u : Nat) : (m.poisonUnit u).wf = true := h

/-- A cell outside the bytes put reads as before. -/
theorem Mem.poke_outside (m : Mem) (a : Nat) (bs : List Byte) {b : Nat} (h : b < a ∨ a + bs.length ≤ b) :
    tget Mem.absent (m.poke a bs).cells b = tget Mem.absent m.cells b := by
  induction bs generalizing m a with
  | nil => rfl
  | cons x bs ih =>
    simp only [List.length_cons] at h
    rw [Mem.poke, ih _ _ (by omega), tget_tset_other _ _ (by omega)]

/-- A byte put reads as what was put. -/
theorem Mem.poke_inside (m : Mem) (a : Nat) (bs : List Byte) {i : Nat} (h : i < bs.length) :
    tget Mem.absent (m.poke a bs).cells (a + i) = bs[i] := by
  induction bs generalizing m a i with
  | nil => simp at h
  | cons x bs ih =>
    cases i with
    | zero => rw [Mem.poke, Nat.add_zero, Mem.poke_outside _ _ _ (by omega)]; simp
    | succ i =>
      have := ih { m with cells := tset Mem.absent m.cells a x } (a + 1) (i := i) (by simpa using h)
      rw [Mem.poke]
      simpa [Nat.add_assoc, Nat.add_comm 1 i] using this

end Sys2Proof.Machine
end

