-- ==== Sys2Proof/Laws/State.lean ====
section
/-! SUPPORT. The small lemmas of State's updates: what each leaves of every part of the device that a claim
reads, true by unfolding the update once. -/
namespace Sys2Proof.Machine

variable (d : Dev)

/-! ### settle -/
@[simp] theorem Dev.settle_fresh  : (d.settle).fresh = d.fresh := rfl
@[simp] theorem Dev.settle_resp  : (d.settle).resp = d.resp := rfl
@[simp] theorem Dev.settle_now  : (d.settle).now = d.now := rfl
@[simp] theorem Dev.settle_pins  : (d.settle).pins = d.pins := rfl
@[simp] theorem Dev.settle_stopped  : (d.settle).stopped = d.stopped := rfl
@[simp] theorem Dev.settle_regs  : (d.settle).regs = d.regs := rfl
@[simp] theorem Dev.settle_fuses  : (d.settle).fuses = d.fuses := rfl
@[simp] theorem Dev.settle_dieMap  : (d.settle).dieMap = d.dieMap := rfl
@[simp] theorem Dev.settle_log  : (d.settle).log = d.log := rfl
@[simp] theorem Dev.settle_pilot  : (d.settle).pilot = d.pilot := rfl
@[simp] theorem Dev.settle_reset  : (d.settle).reset = d.reset := rfl
@[simp] theorem Dev.settle_period  : (d.settle).period = d.period := rfl
@[simp] theorem Dev.settle_nextPeriod  : (d.settle).nextPeriod = d.nextPeriod := rfl
@[simp] theorem Dev.settle_cutDone  : (d.settle).cutDone = d.cutDone := rfl
@[simp] theorem Dev.settle_reserve  : (d.settle).reserve = d.reserve := rfl
@[simp] theorem Dev.settle_orders  : (d.settle).orders = d.orders := rfl
@[simp] theorem Dev.settle_passStart  : (d.settle).passStart = d.passStart := rfl
@[simp] theorem Dev.settle_coupledPending  : (d.settle).coupledPending = d.coupledPending := rfl
@[simp] theorem Dev.settle_sentBeacon  : (d.settle).sentBeacon = d.sentBeacon := rfl
@[simp] theorem Dev.settle_heldCounted  : (d.settle).heldCounted = d.heldCounted := rfl
@[simp] theorem Dev.settle_closing  : (d.settle).closing = d.closing := rfl
@[simp] theorem Dev.settle_rings  : (d.settle).rings = d.rings := rfl
@[simp] theorem Dev.settle_items  : (d.settle).items = d.items := rfl
@[simp] theorem Dev.settle_launches  : (d.settle).launches = d.launches := rfl
@[simp] theorem Dev.settle_events  : (d.settle).events = d.events := rfl
@[simp] theorem Dev.settle_ctxs  : (d.settle).ctxs = d.ctxs := rfl
@[simp] theorem Dev.settle_xlat  : (d.settle).xlat = d.xlat := rfl
@[simp] theorem Dev.settle_draining  : (d.settle).draining = d.draining := rfl
@[simp] theorem Dev.settle_clusters  : (d.settle).clusters = d.clusters := rfl
@[simp] theorem Dev.settle_tiles  : (d.settle).tiles = d.tiles := rfl
@[simp] theorem Dev.settle_dies  : (d.settle).dies = d.dies := rfl
@[simp] theorem Dev.settle_arbs  : (d.settle).arbs = d.arbs := rfl
@[simp] theorem Dev.settle_cranes  : (d.settle).cranes = d.cranes := rfl
@[simp] theorem Dev.settle_stacks  : (d.settle).hbmStacks = d.hbmStacks := rfl
@[simp] theorem Dev.settle_decks  : (d.settle).decks = d.decks := rfl
@[simp] theorem Dev.settle_scrubs  : (d.settle).scrubs = d.scrubs := rfl
@[simp] theorem Dev.settle_links  : (d.settle).links = d.links := rfl
@[simp] theorem Dev.settle_rerouted  : (d.settle).rerouted = d.rerouted := rfl
@[simp] theorem Dev.settle_rerouteStaged  : (d.settle).rerouteStaged = d.rerouteStaged := rfl
@[simp] theorem Dev.settle_ports  : (d.settle).ports = d.ports := rfl
@[simp] theorem Dev.settle_conns  : (d.settle).conns = d.conns := rfl
@[simp] theorem Dev.settle_colls  : (d.settle).colls = d.colls := rfl
@[simp] theorem Dev.settle_collIn  : (d.settle).collIn = d.collIn := rfl
@[simp] theorem Dev.settle_routeSwaps  : (d.settle).routeSwaps = d.routeSwaps := rfl
@[simp] theorem Dev.settle_broken  : (d.settle).broken = d.broken := rfl
@[simp] theorem Dev.settle_prevRoute  : (d.settle).prevRoute = d.prevRoute := rfl
@[simp] theorem Dev.settle_power  : (d.settle).power = d.power := rfl
@[simp] theorem Dev.settle_coh  : (d.settle).coh = d.coh := rfl
@[simp] theorem Dev.settle_host  : (d.settle).host = d.host := rfl
@[simp] theorem Dev.settle_ledger  : (d.settle).ledger = d.ledger := rfl
@[simp] theorem Dev.settle_jtag  : (d.settle).jtag = d.jtag := rfl

@[simp] theorem Dev.settle_mem : d.settle.mem = d.mem.canon := rfl

/-! ### modTile -/
@[simp] theorem Dev.modTile_fresh (t : Nat) (f : Tile → Tile) : (d.modTile t f).fresh = d.fresh := rfl
@[simp] theorem Dev.modTile_resp (t : Nat) (f : Tile → Tile) : (d.modTile t f).resp = d.resp := rfl
@[simp] theorem Dev.modTile_now (t : Nat) (f : Tile → Tile) : (d.modTile t f).now = d.now := rfl
@[simp] theorem Dev.modTile_pins (t : Nat) (f : Tile → Tile) : (d.modTile t f).pins = d.pins := rfl
@[simp] theorem Dev.modTile_stopped (t : Nat) (f : Tile → Tile) : (d.modTile t f).stopped = d.stopped := rfl
@[simp] theorem Dev.modTile_mem (t : Nat) (f : Tile → Tile) : (d.modTile t f).mem = d.mem := rfl
@[simp] theorem Dev.modTile_regs (t : Nat) (f : Tile → Tile) : (d.modTile t f).regs = d.regs := rfl
@[simp] theorem Dev.modTile_fuses (t : Nat) (f : Tile → Tile) : (d.modTile t f).fuses = d.fuses := rfl
@[simp] theorem Dev.modTile_dieMap (t : Nat) (f : Tile → Tile) : (d.modTile t f).dieMap = d.dieMap := rfl
@[simp] theorem Dev.modTile_log (t : Nat) (f : Tile → Tile) : (d.modTile t f).log = d.log := rfl
@[simp] theorem Dev.modTile_pilot (t : Nat) (f : Tile → Tile) : (d.modTile t f).pilot = d.pilot := rfl
@[simp] theorem Dev.modTile_reset (t : Nat) (f : Tile → Tile) : (d.modTile t f).reset = d.reset := rfl
@[simp] theorem Dev.modTile_period (t : Nat) (f : Tile → Tile) : (d.modTile t f).period = d.period := rfl
@[simp] theorem Dev.modTile_nextPeriod (t : Nat) (f : Tile → Tile) : (d.modTile t f).nextPeriod = d.nextPeriod := rfl
@[simp] theorem Dev.modTile_cutDone (t : Nat) (f : Tile → Tile) : (d.modTile t f).cutDone = d.cutDone := rfl
@[simp] theorem Dev.modTile_reserve (t : Nat) (f : Tile → Tile) : (d.modTile t f).reserve = d.reserve := rfl
@[simp] theorem Dev.modTile_orders (t : Nat) (f : Tile → Tile) : (d.modTile t f).orders = d.orders := rfl
@[simp] theorem Dev.modTile_passStart (t : Nat) (f : Tile → Tile) : (d.modTile t f).passStart = d.passStart := rfl
@[simp] theorem Dev.modTile_coupledPending (t : Nat) (f : Tile → Tile) : (d.modTile t f).coupledPending = d.coupledPending := rfl
@[simp] theorem Dev.modTile_sentBeacon (t : Nat) (f : Tile → Tile) : (d.modTile t f).sentBeacon = d.sentBeacon := rfl
@[simp] theorem Dev.modTile_heldCounted (t : Nat) (f : Tile → Tile) : (d.modTile t f).heldCounted = d.heldCounted := rfl
@[simp] theorem Dev.modTile_closing (t : Nat) (f : Tile → Tile) : (d.modTile t f).closing = d.closing := rfl
@[simp] theorem Dev.modTile_rings (t : Nat) (f : Tile → Tile) : (d.modTile t f).rings = d.rings := rfl
@[simp] theorem Dev.modTile_items (t : Nat) (f : Tile → Tile) : (d.modTile t f).items = d.items := rfl
@[simp] theorem Dev.modTile_launches (t : Nat) (f : Tile → Tile) : (d.modTile t f).launches = d.launches := rfl
@[simp] theorem Dev.modTile_events (t : Nat) (f : Tile → Tile) : (d.modTile t f).events = d.events := rfl
@[simp] theorem Dev.modTile_ctxs (t : Nat) (f : Tile → Tile) : (d.modTile t f).ctxs = d.ctxs := rfl
@[simp] theorem Dev.modTile_xlat (t : Nat) (f : Tile → Tile) : (d.modTile t f).xlat = d.xlat := rfl
@[simp] theorem Dev.modTile_draining (t : Nat) (f : Tile → Tile) : (d.modTile t f).draining = d.draining := rfl
@[simp] theorem Dev.modTile_clusters (t : Nat) (f : Tile → Tile) : (d.modTile t f).clusters = d.clusters := rfl
@[simp] theorem Dev.modTile_dies (t : Nat) (f : Tile → Tile) : (d.modTile t f).dies = d.dies := rfl
@[simp] theorem Dev.modTile_arbs (t : Nat) (f : Tile → Tile) : (d.modTile t f).arbs = d.arbs := rfl
@[simp] theorem Dev.modTile_cranes (t : Nat) (f : Tile → Tile) : (d.modTile t f).cranes = d.cranes := rfl
@[simp] theorem Dev.modTile_stacks (t : Nat) (f : Tile → Tile) : (d.modTile t f).hbmStacks = d.hbmStacks := rfl
@[simp] theorem Dev.modTile_decks (t : Nat) (f : Tile → Tile) : (d.modTile t f).decks = d.decks := rfl
@[simp] theorem Dev.modTile_scrubs (t : Nat) (f : Tile → Tile) : (d.modTile t f).scrubs = d.scrubs := rfl
@[simp] theorem Dev.modTile_links (t : Nat) (f : Tile → Tile) : (d.modTile t f).links = d.links := rfl
@[simp] theorem Dev.modTile_rerouted (t : Nat) (f : Tile → Tile) : (d.modTile t f).rerouted = d.rerouted := rfl
@[simp] theorem Dev.modTile_rerouteStaged (t : Nat) (f : Tile → Tile) : (d.modTile t f).rerouteStaged = d.rerouteStaged := rfl
@[simp] theorem Dev.modTile_ports (t : Nat) (f : Tile → Tile) : (d.modTile t f).ports = d.ports := rfl
@[simp] theorem Dev.modTile_conns (t : Nat) (f : Tile → Tile) : (d.modTile t f).conns = d.conns := rfl
@[simp] theorem Dev.modTile_colls (t : Nat) (f : Tile → Tile) : (d.modTile t f).colls = d.colls := rfl
@[simp] theorem Dev.modTile_collIn (t : Nat) (f : Tile → Tile) : (d.modTile t f).collIn = d.collIn := rfl
@[simp] theorem Dev.modTile_routeSwaps (t : Nat) (f : Tile → Tile) : (d.modTile t f).routeSwaps = d.routeSwaps := rfl
@[simp] theorem Dev.modTile_broken (t : Nat) (f : Tile → Tile) : (d.modTile t f).broken = d.broken := rfl
@[simp] theorem Dev.modTile_prevRoute (t : Nat) (f : Tile → Tile) : (d.modTile t f).prevRoute = d.prevRoute := rfl
@[simp] theorem Dev.modTile_power (t : Nat) (f : Tile → Tile) : (d.modTile t f).power = d.power := rfl
@[simp] theorem Dev.modTile_coh (t : Nat) (f : Tile → Tile) : (d.modTile t f).coh = d.coh := rfl
@[simp] theorem Dev.modTile_host (t : Nat) (f : Tile → Tile) : (d.modTile t f).host = d.host := rfl
@[simp] theorem Dev.modTile_ledger (t : Nat) (f : Tile → Tile) : (d.modTile t f).ledger = d.ledger := rfl
@[simp] theorem Dev.modTile_jtag (t : Nat) (f : Tile → Tile) : (d.modTile t f).jtag = d.jtag := rfl

/-! ### modItem -/
@[simp] theorem Dev.modItem_fresh (r i : Nat) (f : Item → Item) : (d.modItem r i f).fresh = d.fresh := rfl
@[simp] theorem Dev.modItem_resp (r i : Nat) (f : Item → Item) : (d.modItem r i f).resp = d.resp := rfl
@[simp] theorem Dev.modItem_now (r i : Nat) (f : Item → Item) : (d.modItem r i f).now = d.now := rfl
@[simp] theorem Dev.modItem_pins (r i : Nat) (f : Item → Item) : (d.modItem r i f).pins = d.pins := rfl
@[simp] theorem Dev.modItem_stopped (r i : Nat) (f : Item → Item) : (d.modItem r i f).stopped = d.stopped := rfl
@[simp] theorem Dev.modItem_mem (r i : Nat) (f : Item → Item) : (d.modItem r i f).mem = d.mem := rfl
@[simp] theorem Dev.modItem_regs (r i : Nat) (f : Item → Item) : (d.modItem r i f).regs = d.regs := rfl
@[simp] theorem Dev.modItem_fuses (r i : Nat) (f : Item → Item) : (d.modItem r i f).fuses = d.fuses := rfl
@[simp] theorem Dev.modItem_dieMap (r i : Nat) (f : Item → Item) : (d.modItem r i f).dieMap = d.dieMap := rfl
@[simp] theorem Dev.modItem_log (r i : Nat) (f : Item → Item) : (d.modItem r i f).log = d.log := rfl
@[simp] theorem Dev.modItem_pilot (r i : Nat) (f : Item → Item) : (d.modItem r i f).pilot = d.pilot := rfl
@[simp] theorem Dev.modItem_reset (r i : Nat) (f : Item → Item) : (d.modItem r i f).reset = d.reset := rfl
@[simp] theorem Dev.modItem_period (r i : Nat) (f : Item → Item) : (d.modItem r i f).period = d.period := rfl
@[simp] theorem Dev.modItem_nextPeriod (r i : Nat) (f : Item → Item) : (d.modItem r i f).nextPeriod = d.nextPeriod := rfl
@[simp] theorem Dev.modItem_cutDone (r i : Nat) (f : Item → Item) : (d.modItem r i f).cutDone = d.cutDone := rfl
@[simp] theorem Dev.modItem_reserve (r i : Nat) (f : Item → Item) : (d.modItem r i f).reserve = d.reserve := rfl
@[simp] theorem Dev.modItem_orders (r i : Nat) (f : Item → Item) : (d.modItem r i f).orders = d.orders := rfl
@[simp] theorem Dev.modItem_passStart (r i : Nat) (f : Item → Item) : (d.modItem r i f).passStart = d.passStart := rfl
@[simp] theorem Dev.modItem_coupledPending (r i : Nat) (f : Item → Item) : (d.modItem r i f).coupledPending = d.coupledPending := rfl
@[simp] theorem Dev.modItem_sentBeacon (r i : Nat) (f : Item → Item) : (d.modItem r i f).sentBeacon = d.sentBeacon := rfl
@[simp] theorem Dev.modItem_heldCounted (r i : Nat) (f : Item → Item) : (d.modItem r i f).heldCounted = d.heldCounted := rfl
@[simp] theorem Dev.modItem_closing (r i : Nat) (f : Item → Item) : (d.modItem r i f).closing = d.closing := rfl
@[simp] theorem Dev.modItem_rings (r i : Nat) (f : Item → Item) : (d.modItem r i f).rings = d.rings := rfl
@[simp] theorem Dev.modItem_launches (r i : Nat) (f : Item → Item) : (d.modItem r i f).launches = d.launches := rfl
@[simp] theorem Dev.modItem_events (r i : Nat) (f : Item → Item) : (d.modItem r i f).events = d.events := rfl
@[simp] theorem Dev.modItem_ctxs (r i : Nat) (f : Item → Item) : (d.modItem r i f).ctxs = d.ctxs := rfl
@[simp] theorem Dev.modItem_xlat (r i : Nat) (f : Item → Item) : (d.modItem r i f).xlat = d.xlat := rfl
@[simp] theorem Dev.modItem_draining (r i : Nat) (f : Item → Item) : (d.modItem r i f).draining = d.draining := rfl
@[simp] theorem Dev.modItem_clusters (r i : Nat) (f : Item → Item) : (d.modItem r i f).clusters = d.clusters := rfl
@[simp] theorem Dev.modItem_tiles (r i : Nat) (f : Item → Item) : (d.modItem r i f).tiles = d.tiles := rfl
@[simp] theorem Dev.modItem_dies (r i : Nat) (f : Item → Item) : (d.modItem r i f).dies = d.dies := rfl
@[simp] theorem Dev.modItem_arbs (r i : Nat) (f : Item → Item) : (d.modItem r i f).arbs = d.arbs := rfl
@[simp] theorem Dev.modItem_cranes (r i : Nat) (f : Item → Item) : (d.modItem r i f).cranes = d.cranes := rfl
@[simp] theorem Dev.modItem_stacks (r i : Nat) (f : Item → Item) : (d.modItem r i f).hbmStacks = d.hbmStacks := rfl
@[simp] theorem Dev.modItem_decks (r i : Nat) (f : Item → Item) : (d.modItem r i f).decks = d.decks := rfl
@[simp] theorem Dev.modItem_scrubs (r i : Nat) (f : Item → Item) : (d.modItem r i f).scrubs = d.scrubs := rfl
@[simp] theorem Dev.modItem_links (r i : Nat) (f : Item → Item) : (d.modItem r i f).links = d.links := rfl
@[simp] theorem Dev.modItem_rerouted (r i : Nat) (f : Item → Item) : (d.modItem r i f).rerouted = d.rerouted := rfl
@[simp] theorem Dev.modItem_rerouteStaged (r i : Nat) (f : Item → Item) : (d.modItem r i f).rerouteStaged = d.rerouteStaged := rfl
@[simp] theorem Dev.modItem_ports (r i : Nat) (f : Item → Item) : (d.modItem r i f).ports = d.ports := rfl
@[simp] theorem Dev.modItem_conns (r i : Nat) (f : Item → Item) : (d.modItem r i f).conns = d.conns := rfl
@[simp] theorem Dev.modItem_colls (r i : Nat) (f : Item → Item) : (d.modItem r i f).colls = d.colls := rfl
@[simp] theorem Dev.modItem_collIn (r i : Nat) (f : Item → Item) : (d.modItem r i f).collIn = d.collIn := rfl
@[simp] theorem Dev.modItem_routeSwaps (r i : Nat) (f : Item → Item) : (d.modItem r i f).routeSwaps = d.routeSwaps := rfl
@[simp] theorem Dev.modItem_broken (r i : Nat) (f : Item → Item) : (d.modItem r i f).broken = d.broken := rfl
@[simp] theorem Dev.modItem_prevRoute (r i : Nat) (f : Item → Item) : (d.modItem r i f).prevRoute = d.prevRoute := rfl
@[simp] theorem Dev.modItem_power (r i : Nat) (f : Item → Item) : (d.modItem r i f).power = d.power := rfl
@[simp] theorem Dev.modItem_coh (r i : Nat) (f : Item → Item) : (d.modItem r i f).coh = d.coh := rfl
@[simp] theorem Dev.modItem_host (r i : Nat) (f : Item → Item) : (d.modItem r i f).host = d.host := rfl
@[simp] theorem Dev.modItem_ledger (r i : Nat) (f : Item → Item) : (d.modItem r i f).ledger = d.ledger := rfl
@[simp] theorem Dev.modItem_jtag (r i : Nat) (f : Item → Item) : (d.modItem r i f).jtag = d.jtag := rfl

/-! ### setEvent -/
@[simp] theorem Dev.setEvent_fresh (e : Nat) (v : W64) : (d.setEvent e v).fresh = d.fresh := rfl
@[simp] theorem Dev.setEvent_resp (e : Nat) (v : W64) : (d.setEvent e v).resp = d.resp := rfl
@[simp] theorem Dev.setEvent_now (e : Nat) (v : W64) : (d.setEvent e v).now = d.now := rfl
@[simp] theorem Dev.setEvent_pins (e : Nat) (v : W64) : (d.setEvent e v).pins = d.pins := rfl
@[simp] theorem Dev.setEvent_stopped (e : Nat) (v : W64) : (d.setEvent e v).stopped = d.stopped := rfl
@[simp] theorem Dev.setEvent_mem (e : Nat) (v : W64) : (d.setEvent e v).mem = d.mem := rfl
@[simp] theorem Dev.setEvent_regs (e : Nat) (v : W64) : (d.setEvent e v).regs = d.regs := rfl
@[simp] theorem Dev.setEvent_fuses (e : Nat) (v : W64) : (d.setEvent e v).fuses = d.fuses := rfl
@[simp] theorem Dev.setEvent_dieMap (e : Nat) (v : W64) : (d.setEvent e v).dieMap = d.dieMap := rfl
@[simp] theorem Dev.setEvent_log (e : Nat) (v : W64) : (d.setEvent e v).log = d.log := rfl
@[simp] theorem Dev.setEvent_pilot (e : Nat) (v : W64) : (d.setEvent e v).pilot = d.pilot := rfl
@[simp] theorem Dev.setEvent_reset (e : Nat) (v : W64) : (d.setEvent e v).reset = d.reset := rfl
@[simp] theorem Dev.setEvent_period (e : Nat) (v : W64) : (d.setEvent e v).period = d.period := rfl
@[simp] theorem Dev.setEvent_nextPeriod (e : Nat) (v : W64) : (d.setEvent e v).nextPeriod = d.nextPeriod := rfl
@[simp] theorem Dev.setEvent_cutDone (e : Nat) (v : W64) : (d.setEvent e v).cutDone = d.cutDone := rfl
@[simp] theorem Dev.setEvent_reserve (e : Nat) (v : W64) : (d.setEvent e v).reserve = d.reserve := rfl
@[simp] theorem Dev.setEvent_orders (e : Nat) (v : W64) : (d.setEvent e v).orders = d.orders := rfl
@[simp] theorem Dev.setEvent_passStart (e : Nat) (v : W64) : (d.setEvent e v).passStart = d.passStart := rfl
@[simp] theorem Dev.setEvent_coupledPending (e : Nat) (v : W64) : (d.setEvent e v).coupledPending = d.coupledPending := rfl
@[simp] theorem Dev.setEvent_sentBeacon (e : Nat) (v : W64) : (d.setEvent e v).sentBeacon = d.sentBeacon := rfl
@[simp] theorem Dev.setEvent_heldCounted (e : Nat) (v : W64) : (d.setEvent e v).heldCounted = d.heldCounted := rfl
@[simp] theorem Dev.setEvent_closing (e : Nat) (v : W64) : (d.setEvent e v).closing = d.closing := rfl
@[simp] theorem Dev.setEvent_rings (e : Nat) (v : W64) : (d.setEvent e v).rings = d.rings := rfl
@[simp] theorem Dev.setEvent_items (e : Nat) (v : W64) : (d.setEvent e v).items = d.items := rfl
@[simp] theorem Dev.setEvent_launches (e : Nat) (v : W64) : (d.setEvent e v).launches = d.launches := rfl
@[simp] theorem Dev.setEvent_ctxs (e : Nat) (v : W64) : (d.setEvent e v).ctxs = d.ctxs := rfl
@[simp] theorem Dev.setEvent_xlat (e : Nat) (v : W64) : (d.setEvent e v).xlat = d.xlat := rfl
@[simp] theorem Dev.setEvent_draining (e : Nat) (v : W64) : (d.setEvent e v).draining = d.draining := rfl
@[simp] theorem Dev.setEvent_clusters (e : Nat) (v : W64) : (d.setEvent e v).clusters = d.clusters := rfl
@[simp] theorem Dev.setEvent_tiles (e : Nat) (v : W64) : (d.setEvent e v).tiles = d.tiles := rfl
@[simp] theorem Dev.setEvent_dies (e : Nat) (v : W64) : (d.setEvent e v).dies = d.dies := rfl
@[simp] theorem Dev.setEvent_arbs (e : Nat) (v : W64) : (d.setEvent e v).arbs = d.arbs := rfl
@[simp] theorem Dev.setEvent_cranes (e : Nat) (v : W64) : (d.setEvent e v).cranes = d.cranes := rfl
@[simp] theorem Dev.setEvent_stacks (e : Nat) (v : W64) : (d.setEvent e v).hbmStacks = d.hbmStacks := rfl
@[simp] theorem Dev.setEvent_decks (e : Nat) (v : W64) : (d.setEvent e v).decks = d.decks := rfl
@[simp] theorem Dev.setEvent_scrubs (e : Nat) (v : W64) : (d.setEvent e v).scrubs = d.scrubs := rfl
@[simp] theorem Dev.setEvent_links (e : Nat) (v : W64) : (d.setEvent e v).links = d.links := rfl
@[simp] theorem Dev.setEvent_rerouted (e : Nat) (v : W64) : (d.setEvent e v).rerouted = d.rerouted := rfl
@[simp] theorem Dev.setEvent_rerouteStaged (e : Nat) (v : W64) : (d.setEvent e v).rerouteStaged = d.rerouteStaged := rfl
@[simp] theorem Dev.setEvent_ports (e : Nat) (v : W64) : (d.setEvent e v).ports = d.ports := rfl
@[simp] theorem Dev.setEvent_conns (e : Nat) (v : W64) : (d.setEvent e v).conns = d.conns := rfl
@[simp] theorem Dev.setEvent_colls (e : Nat) (v : W64) : (d.setEvent e v).colls = d.colls := rfl
@[simp] theorem Dev.setEvent_collIn (e : Nat) (v : W64) : (d.setEvent e v).collIn = d.collIn := rfl
@[simp] theorem Dev.setEvent_routeSwaps (e : Nat) (v : W64) : (d.setEvent e v).routeSwaps = d.routeSwaps := rfl
@[simp] theorem Dev.setEvent_broken (e : Nat) (v : W64) : (d.setEvent e v).broken = d.broken := rfl
@[simp] theorem Dev.setEvent_prevRoute (e : Nat) (v : W64) : (d.setEvent e v).prevRoute = d.prevRoute := rfl
@[simp] theorem Dev.setEvent_power (e : Nat) (v : W64) : (d.setEvent e v).power = d.power := rfl
@[simp] theorem Dev.setEvent_coh (e : Nat) (v : W64) : (d.setEvent e v).coh = d.coh := rfl
@[simp] theorem Dev.setEvent_host (e : Nat) (v : W64) : (d.setEvent e v).host = d.host := rfl
@[simp] theorem Dev.setEvent_ledger (e : Nat) (v : W64) : (d.setEvent e v).ledger = d.ledger := rfl
@[simp] theorem Dev.setEvent_jtag (e : Nat) (v : W64) : (d.setEvent e v).jtag = d.jtag := rfl

/-! ### setReg -/
@[simp] theorem Dev.setReg_fresh (r : Reg) (i : Nat) (v : W64) : (d.setReg r i v).fresh = d.fresh := rfl
@[simp] theorem Dev.setReg_resp (r : Reg) (i : Nat) (v : W64) : (d.setReg r i v).resp = d.resp := rfl
@[simp] theorem Dev.setReg_now (r : Reg) (i : Nat) (v : W64) : (d.setReg r i v).now = d.now := rfl
@[simp] theorem Dev.setReg_pins (r : Reg) (i : Nat) (v : W64) : (d.setReg r i v).pins = d.pins := rfl
@[simp] theorem Dev.setReg_stopped (r : Reg) (i : Nat) (v : W64) : (d.setReg r i v).stopped = d.stopped := rfl
@[simp] theorem Dev.setReg_mem (r : Reg) (i : Nat) (v : W64) : (d.setReg r i v).mem = d.mem := rfl
@[simp] theorem Dev.setReg_fuses (r : Reg) (i : Nat) (v : W64) : (d.setReg r i v).fuses = d.fuses := rfl
@[simp] theorem Dev.setReg_dieMap (r : Reg) (i : Nat) (v : W64) : (d.setReg r i v).dieMap = d.dieMap := rfl
@[simp] theorem Dev.setReg_log (r : Reg) (i : Nat) (v : W64) : (d.setReg r i v).log = d.log := rfl
@[simp] theorem Dev.setReg_pilot (r : Reg) (i : Nat) (v : W64) : (d.setReg r i v).pilot = d.pilot := rfl
@[simp] theorem Dev.setReg_reset (r : Reg) (i : Nat) (v : W64) : (d.setReg r i v).reset = d.reset := rfl
@[simp] theorem Dev.setReg_period (r : Reg) (i : Nat) (v : W64) : (d.setReg r i v).period = d.period := rfl
@[simp] theorem Dev.setReg_nextPeriod (r : Reg) (i : Nat) (v : W64) : (d.setReg r i v).nextPeriod = d.nextPeriod := rfl
@[simp] theorem Dev.setReg_cutDone (r : Reg) (i : Nat) (v : W64) : (d.setReg r i v).cutDone = d.cutDone := rfl
@[simp] theorem Dev.setReg_reserve (r : Reg) (i : Nat) (v : W64) : (d.setReg r i v).reserve = d.reserve := rfl
@[simp] theorem Dev.setReg_orders (r : Reg) (i : Nat) (v : W64) : (d.setReg r i v).orders = d.orders := rfl
@[simp] theorem Dev.setReg_passStart (r : Reg) (i : Nat) (v : W64) : (d.setReg r i v).passStart = d.passStart := rfl
@[simp] theorem Dev.setReg_coupledPending (r : Reg) (i : Nat) (v : W64) : (d.setReg r i v).coupledPending = d.coupledPending := rfl
@[simp] theorem Dev.setReg_sentBeacon (r : Reg) (i : Nat) (v : W64) : (d.setReg r i v).sentBeacon = d.sentBeacon := rfl
@[simp] theorem Dev.setReg_heldCounted (r : Reg) (i : Nat) (v : W64) : (d.setReg r i v).heldCounted = d.heldCounted := rfl
@[simp] theorem Dev.setReg_closing (r : Reg) (i : Nat) (v : W64) : (d.setReg r i v).closing = d.closing := rfl
@[simp] theorem Dev.setReg_rings (r : Reg) (i : Nat) (v : W64) : (d.setReg r i v).rings = d.rings := rfl
@[simp] theorem Dev.setReg_items (r : Reg) (i : Nat) (v : W64) : (d.setReg r i v).items = d.items := rfl
@[simp] theorem Dev.setReg_launches (r : Reg) (i : Nat) (v : W64) : (d.setReg r i v).launches = d.launches := rfl
@[simp] theorem Dev.setReg_events (r : Reg) (i : Nat) (v : W64) : (d.setReg r i v).events = d.events := rfl
@[simp] theorem Dev.setReg_ctxs (r : Reg) (i : Nat) (v : W64) : (d.setReg r i v).ctxs = d.ctxs := rfl
@[simp] theorem Dev.setReg_xlat (r : Reg) (i : Nat) (v : W64) : (d.setReg r i v).xlat = d.xlat := rfl
@[simp] theorem Dev.setReg_draining (r : Reg) (i : Nat) (v : W64) : (d.setReg r i v).draining = d.draining := rfl
@[simp] theorem Dev.setReg_clusters (r : Reg) (i : Nat) (v : W64) : (d.setReg r i v).clusters = d.clusters := rfl
@[simp] theorem Dev.setReg_tiles (r : Reg) (i : Nat) (v : W64) : (d.setReg r i v).tiles = d.tiles := rfl
@[simp] theorem Dev.setReg_dies (r : Reg) (i : Nat) (v : W64) : (d.setReg r i v).dies = d.dies := rfl
@[simp] theorem Dev.setReg_arbs (r : Reg) (i : Nat) (v : W64) : (d.setReg r i v).arbs = d.arbs := rfl
@[simp] theorem Dev.setReg_cranes (r : Reg) (i : Nat) (v : W64) : (d.setReg r i v).cranes = d.cranes := rfl
@[simp] theorem Dev.setReg_stacks (r : Reg) (i : Nat) (v : W64) : (d.setReg r i v).hbmStacks = d.hbmStacks := rfl
@[simp] theorem Dev.setReg_decks (r : Reg) (i : Nat) (v : W64) : (d.setReg r i v).decks = d.decks := rfl
@[simp] theorem Dev.setReg_scrubs (r : Reg) (i : Nat) (v : W64) : (d.setReg r i v).scrubs = d.scrubs := rfl
@[simp] theorem Dev.setReg_links (r : Reg) (i : Nat) (v : W64) : (d.setReg r i v).links = d.links := rfl
@[simp] theorem Dev.setReg_rerouted (r : Reg) (i : Nat) (v : W64) : (d.setReg r i v).rerouted = d.rerouted := rfl
@[simp] theorem Dev.setReg_rerouteStaged (r : Reg) (i : Nat) (v : W64) : (d.setReg r i v).rerouteStaged = d.rerouteStaged := rfl
@[simp] theorem Dev.setReg_ports (r : Reg) (i : Nat) (v : W64) : (d.setReg r i v).ports = d.ports := rfl
@[simp] theorem Dev.setReg_conns (r : Reg) (i : Nat) (v : W64) : (d.setReg r i v).conns = d.conns := rfl
@[simp] theorem Dev.setReg_colls (r : Reg) (i : Nat) (v : W64) : (d.setReg r i v).colls = d.colls := rfl
@[simp] theorem Dev.setReg_collIn (r : Reg) (i : Nat) (v : W64) : (d.setReg r i v).collIn = d.collIn := rfl
@[simp] theorem Dev.setReg_routeSwaps (r : Reg) (i : Nat) (v : W64) : (d.setReg r i v).routeSwaps = d.routeSwaps := rfl
@[simp] theorem Dev.setReg_broken (r : Reg) (i : Nat) (v : W64) : (d.setReg r i v).broken = d.broken := rfl
@[simp] theorem Dev.setReg_prevRoute (r : Reg) (i : Nat) (v : W64) : (d.setReg r i v).prevRoute = d.prevRoute := rfl
@[simp] theorem Dev.setReg_power (r : Reg) (i : Nat) (v : W64) : (d.setReg r i v).power = d.power := rfl
@[simp] theorem Dev.setReg_coh (r : Reg) (i : Nat) (v : W64) : (d.setReg r i v).coh = d.coh := rfl
@[simp] theorem Dev.setReg_host (r : Reg) (i : Nat) (v : W64) : (d.setReg r i v).host = d.host := rfl
@[simp] theorem Dev.setReg_ledger (r : Reg) (i : Nat) (v : W64) : (d.setReg r i v).ledger = d.ledger := rfl
@[simp] theorem Dev.setReg_jtag (r : Reg) (i : Nat) (v : W64) : (d.setReg r i v).jtag = d.jtag := rfl

/-! ### put -/
@[simp] theorem Dev.put_fresh (f : Fld) (v i : Nat) : (d.put f v i).fresh = d.fresh := rfl
@[simp] theorem Dev.put_resp (f : Fld) (v i : Nat) : (d.put f v i).resp = d.resp := rfl
@[simp] theorem Dev.put_now (f : Fld) (v i : Nat) : (d.put f v i).now = d.now := rfl
@[simp] theorem Dev.put_pins (f : Fld) (v i : Nat) : (d.put f v i).pins = d.pins := rfl
@[simp] theorem Dev.put_stopped (f : Fld) (v i : Nat) : (d.put f v i).stopped = d.stopped := rfl
@[simp] theorem Dev.put_mem (f : Fld) (v i : Nat) : (d.put f v i).mem = d.mem := rfl
@[simp] theorem Dev.put_fuses (f : Fld) (v i : Nat) : (d.put f v i).fuses = d.fuses := rfl
@[simp] theorem Dev.put_dieMap (f : Fld) (v i : Nat) : (d.put f v i).dieMap = d.dieMap := rfl
@[simp] theorem Dev.put_log (f : Fld) (v i : Nat) : (d.put f v i).log = d.log := rfl
@[simp] theorem Dev.put_pilot (f : Fld) (v i : Nat) : (d.put f v i).pilot = d.pilot := rfl
@[simp] theorem Dev.put_reset (f : Fld) (v i : Nat) : (d.put f v i).reset = d.reset := rfl
@[simp] theorem Dev.put_period (f : Fld) (v i : Nat) : (d.put f v i).period = d.period := rfl
@[simp] theorem Dev.put_nextPeriod (f : Fld) (v i : Nat) : (d.put f v i).nextPeriod = d.nextPeriod := rfl
@[simp] theorem Dev.put_cutDone (f : Fld) (v i : Nat) : (d.put f v i).cutDone = d.cutDone := rfl
@[simp] theorem Dev.put_reserve (f : Fld) (v i : Nat) : (d.put f v i).reserve = d.reserve := rfl
@[simp] theorem Dev.put_orders (f : Fld) (v i : Nat) : (d.put f v i).orders = d.orders := rfl
@[simp] theorem Dev.put_passStart (f : Fld) (v i : Nat) : (d.put f v i).passStart = d.passStart := rfl
@[simp] theorem Dev.put_coupledPending (f : Fld) (v i : Nat) : (d.put f v i).coupledPending = d.coupledPending := rfl
@[simp] theorem Dev.put_sentBeacon (f : Fld) (v i : Nat) : (d.put f v i).sentBeacon = d.sentBeacon := rfl
@[simp] theorem Dev.put_heldCounted (f : Fld) (v i : Nat) : (d.put f v i).heldCounted = d.heldCounted := rfl
@[simp] theorem Dev.put_closing (f : Fld) (v i : Nat) : (d.put f v i).closing = d.closing := rfl
@[simp] theorem Dev.put_rings (f : Fld) (v i : Nat) : (d.put f v i).rings = d.rings := rfl
@[simp] theorem Dev.put_items (f : Fld) (v i : Nat) : (d.put f v i).items = d.items := rfl
@[simp] theorem Dev.put_launches (f : Fld) (v i : Nat) : (d.put f v i).launches = d.launches := rfl
@[simp] theorem Dev.put_events (f : Fld) (v i : Nat) : (d.put f v i).events = d.events := rfl
@[simp] theorem Dev.put_ctxs (f : Fld) (v i : Nat) : (d.put f v i).ctxs = d.ctxs := rfl
@[simp] theorem Dev.put_xlat (f : Fld) (v i : Nat) : (d.put f v i).xlat = d.xlat := rfl
@[simp] theorem Dev.put_draining (f : Fld) (v i : Nat) : (d.put f v i).draining = d.draining := rfl
@[simp] theorem Dev.put_clusters (f : Fld) (v i : Nat) : (d.put f v i).clusters = d.clusters := rfl
@[simp] theorem Dev.put_tiles (f : Fld) (v i : Nat) : (d.put f v i).tiles = d.tiles := rfl
@[simp] theorem Dev.put_dies (f : Fld) (v i : Nat) : (d.put f v i).dies = d.dies := rfl
@[simp] theorem Dev.put_arbs (f : Fld) (v i : Nat) : (d.put f v i).arbs = d.arbs := rfl
@[simp] theorem Dev.put_cranes (f : Fld) (v i : Nat) : (d.put f v i).cranes = d.cranes := rfl
@[simp] theorem Dev.put_stacks (f : Fld) (v i : Nat) : (d.put f v i).hbmStacks = d.hbmStacks := rfl
@[simp] theorem Dev.put_decks (f : Fld) (v i : Nat) : (d.put f v i).decks = d.decks := rfl
@[simp] theorem Dev.put_scrubs (f : Fld) (v i : Nat) : (d.put f v i).scrubs = d.scrubs := rfl
@[simp] theorem Dev.put_links (f : Fld) (v i : Nat) : (d.put f v i).links = d.links := rfl
@[simp] theorem Dev.put_rerouted (f : Fld) (v i : Nat) : (d.put f v i).rerouted = d.rerouted := rfl
@[simp] theorem Dev.put_rerouteStaged (f : Fld) (v i : Nat) : (d.put f v i).rerouteStaged = d.rerouteStaged := rfl
@[simp] theorem Dev.put_ports (f : Fld) (v i : Nat) : (d.put f v i).ports = d.ports := rfl
@[simp] theorem Dev.put_conns (f : Fld) (v i : Nat) : (d.put f v i).conns = d.conns := rfl
@[simp] theorem Dev.put_colls (f : Fld) (v i : Nat) : (d.put f v i).colls = d.colls := rfl
@[simp] theorem Dev.put_collIn (f : Fld) (v i : Nat) : (d.put f v i).collIn = d.collIn := rfl
@[simp] theorem Dev.put_routeSwaps (f : Fld) (v i : Nat) : (d.put f v i).routeSwaps = d.routeSwaps := rfl
@[simp] theorem Dev.put_broken (f : Fld) (v i : Nat) : (d.put f v i).broken = d.broken := rfl
@[simp] theorem Dev.put_prevRoute (f : Fld) (v i : Nat) : (d.put f v i).prevRoute = d.prevRoute := rfl
@[simp] theorem Dev.put_power (f : Fld) (v i : Nat) : (d.put f v i).power = d.power := rfl
@[simp] theorem Dev.put_coh (f : Fld) (v i : Nat) : (d.put f v i).coh = d.coh := rfl
@[simp] theorem Dev.put_host (f : Fld) (v i : Nat) : (d.put f v i).host = d.host := rfl
@[simp] theorem Dev.put_ledger (f : Fld) (v i : Nat) : (d.put f v i).ledger = d.ledger := rfl
@[simp] theorem Dev.put_jtag (f : Fld) (v i : Nat) : (d.put f v i).jtag = d.jtag := rfl

/-! ### answer -/
@[simp] theorem Dev.answer_fresh (r : Resp) : (d.answer r).fresh = d.fresh := rfl
@[simp] theorem Dev.answer_now (r : Resp) : (d.answer r).now = d.now := rfl
@[simp] theorem Dev.answer_pins (r : Resp) : (d.answer r).pins = d.pins := rfl
@[simp] theorem Dev.answer_stopped (r : Resp) : (d.answer r).stopped = d.stopped := rfl
@[simp] theorem Dev.answer_mem (r : Resp) : (d.answer r).mem = d.mem := rfl
@[simp] theorem Dev.answer_regs (r : Resp) : (d.answer r).regs = d.regs := rfl
@[simp] theorem Dev.answer_fuses (r : Resp) : (d.answer r).fuses = d.fuses := rfl
@[simp] theorem Dev.answer_dieMap (r : Resp) : (d.answer r).dieMap = d.dieMap := rfl
@[simp] theorem Dev.answer_log (r : Resp) : (d.answer r).log = d.log := rfl
@[simp] theorem Dev.answer_pilot (r : Resp) : (d.answer r).pilot = d.pilot := rfl
@[simp] theorem Dev.answer_reset (r : Resp) : (d.answer r).reset = d.reset := rfl
@[simp] theorem Dev.answer_period (r : Resp) : (d.answer r).period = d.period := rfl
@[simp] theorem Dev.answer_nextPeriod (r : Resp) : (d.answer r).nextPeriod = d.nextPeriod := rfl
@[simp] theorem Dev.answer_cutDone (r : Resp) : (d.answer r).cutDone = d.cutDone := rfl
@[simp] theorem Dev.answer_reserve (r : Resp) : (d.answer r).reserve = d.reserve := rfl
@[simp] theorem Dev.answer_orders (r : Resp) : (d.answer r).orders = d.orders := rfl
@[simp] theorem Dev.answer_passStart (r : Resp) : (d.answer r).passStart = d.passStart := rfl
@[simp] theorem Dev.answer_coupledPending (r : Resp) : (d.answer r).coupledPending = d.coupledPending := rfl
@[simp] theorem Dev.answer_sentBeacon (r : Resp) : (d.answer r).sentBeacon = d.sentBeacon := rfl
@[simp] theorem Dev.answer_heldCounted (r : Resp) : (d.answer r).heldCounted = d.heldCounted := rfl
@[simp] theorem Dev.answer_closing (r : Resp) : (d.answer r).closing = d.closing := rfl
@[simp] theorem Dev.answer_rings (r : Resp) : (d.answer r).rings = d.rings := rfl
@[simp] theorem Dev.answer_items (r : Resp) : (d.answer r).items = d.items := rfl
@[simp] theorem Dev.answer_launches (r : Resp) : (d.answer r).launches = d.launches := rfl
@[simp] theorem Dev.answer_events (r : Resp) : (d.answer r).events = d.events := rfl
@[simp] theorem Dev.answer_ctxs (r : Resp) : (d.answer r).ctxs = d.ctxs := rfl
@[simp] theorem Dev.answer_xlat (r : Resp) : (d.answer r).xlat = d.xlat := rfl
@[simp] theorem Dev.answer_draining (r : Resp) : (d.answer r).draining = d.draining := rfl
@[simp] theorem Dev.answer_clusters (r : Resp) : (d.answer r).clusters = d.clusters := rfl
@[simp] theorem Dev.answer_tiles (r : Resp) : (d.answer r).tiles = d.tiles := rfl
@[simp] theorem Dev.answer_dies (r : Resp) : (d.answer r).dies = d.dies := rfl
@[simp] theorem Dev.answer_arbs (r : Resp) : (d.answer r).arbs = d.arbs := rfl
@[simp] theorem Dev.answer_cranes (r : Resp) : (d.answer r).cranes = d.cranes := rfl
@[simp] theorem Dev.answer_stacks (r : Resp) : (d.answer r).hbmStacks = d.hbmStacks := rfl
@[simp] theorem Dev.answer_decks (r : Resp) : (d.answer r).decks = d.decks := rfl
@[simp] theorem Dev.answer_scrubs (r : Resp) : (d.answer r).scrubs = d.scrubs := rfl
@[simp] theorem Dev.answer_links (r : Resp) : (d.answer r).links = d.links := rfl
@[simp] theorem Dev.answer_rerouted (r : Resp) : (d.answer r).rerouted = d.rerouted := rfl
@[simp] theorem Dev.answer_rerouteStaged (r : Resp) : (d.answer r).rerouteStaged = d.rerouteStaged := rfl
@[simp] theorem Dev.answer_ports (r : Resp) : (d.answer r).ports = d.ports := rfl
@[simp] theorem Dev.answer_conns (r : Resp) : (d.answer r).conns = d.conns := rfl
@[simp] theorem Dev.answer_colls (r : Resp) : (d.answer r).colls = d.colls := rfl
@[simp] theorem Dev.answer_collIn (r : Resp) : (d.answer r).collIn = d.collIn := rfl
@[simp] theorem Dev.answer_routeSwaps (r : Resp) : (d.answer r).routeSwaps = d.routeSwaps := rfl
@[simp] theorem Dev.answer_broken (r : Resp) : (d.answer r).broken = d.broken := rfl
@[simp] theorem Dev.answer_prevRoute (r : Resp) : (d.answer r).prevRoute = d.prevRoute := rfl
@[simp] theorem Dev.answer_power (r : Resp) : (d.answer r).power = d.power := rfl
@[simp] theorem Dev.answer_coh (r : Resp) : (d.answer r).coh = d.coh := rfl
@[simp] theorem Dev.answer_host (r : Resp) : (d.answer r).host = d.host := rfl
@[simp] theorem Dev.answer_ledger (r : Resp) : (d.answer r).ledger = d.ledger := rfl
@[simp] theorem Dev.answer_jtag (r : Resp) : (d.answer r).jtag = d.jtag := rfl

/-! ### draw -/
@[simp] theorem Dev.draw_resp  : (d.draw).resp = d.resp := rfl
@[simp] theorem Dev.draw_now  : (d.draw).now = d.now := rfl
@[simp] theorem Dev.draw_pins  : (d.draw).pins = d.pins := rfl
@[simp] theorem Dev.draw_stopped  : (d.draw).stopped = d.stopped := rfl
@[simp] theorem Dev.draw_mem  : (d.draw).mem = d.mem := rfl
@[simp] theorem Dev.draw_regs  : (d.draw).regs = d.regs := rfl
@[simp] theorem Dev.draw_fuses  : (d.draw).fuses = d.fuses := rfl
@[simp] theorem Dev.draw_dieMap  : (d.draw).dieMap = d.dieMap := rfl
@[simp] theorem Dev.draw_log  : (d.draw).log = d.log := rfl
@[simp] theorem Dev.draw_pilot  : (d.draw).pilot = d.pilot := rfl
@[simp] theorem Dev.draw_reset  : (d.draw).reset = d.reset := rfl
@[simp] theorem Dev.draw_period  : (d.draw).period = d.period := rfl
@[simp] theorem Dev.draw_nextPeriod  : (d.draw).nextPeriod = d.nextPeriod := rfl
@[simp] theorem Dev.draw_cutDone  : (d.draw).cutDone = d.cutDone := rfl
@[simp] theorem Dev.draw_reserve  : (d.draw).reserve = d.reserve := rfl
@[simp] theorem Dev.draw_orders  : (d.draw).orders = d.orders := rfl
@[simp] theorem Dev.draw_passStart  : (d.draw).passStart = d.passStart := rfl
@[simp] theorem Dev.draw_coupledPending  : (d.draw).coupledPending = d.coupledPending := rfl
@[simp] theorem Dev.draw_sentBeacon  : (d.draw).sentBeacon = d.sentBeacon := rfl
@[simp] theorem Dev.draw_heldCounted  : (d.draw).heldCounted = d.heldCounted := rfl
@[simp] theorem Dev.draw_closing  : (d.draw).closing = d.closing := rfl
@[simp] theorem Dev.draw_rings  : (d.draw).rings = d.rings := rfl
@[simp] theorem Dev.draw_items  : (d.draw).items = d.items := rfl
@[simp] theorem Dev.draw_launches  : (d.draw).launches = d.launches := rfl
@[simp] theorem Dev.draw_events  : (d.draw).events = d.events := rfl
@[simp] theorem Dev.draw_ctxs  : (d.draw).ctxs = d.ctxs := rfl
@[simp] theorem Dev.draw_xlat  : (d.draw).xlat = d.xlat := rfl
@[simp] theorem Dev.draw_draining  : (d.draw).draining = d.draining := rfl
@[simp] theorem Dev.draw_clusters  : (d.draw).clusters = d.clusters := rfl
@[simp] theorem Dev.draw_tiles  : (d.draw).tiles = d.tiles := rfl
@[simp] theorem Dev.draw_dies  : (d.draw).dies = d.dies := rfl
@[simp] theorem Dev.draw_arbs  : (d.draw).arbs = d.arbs := rfl
@[simp] theorem Dev.draw_cranes  : (d.draw).cranes = d.cranes := rfl
@[simp] theorem Dev.draw_stacks  : (d.draw).hbmStacks = d.hbmStacks := rfl
@[simp] theorem Dev.draw_decks  : (d.draw).decks = d.decks := rfl
@[simp] theorem Dev.draw_scrubs  : (d.draw).scrubs = d.scrubs := rfl
@[simp] theorem Dev.draw_links  : (d.draw).links = d.links := rfl
@[simp] theorem Dev.draw_rerouted  : (d.draw).rerouted = d.rerouted := rfl
@[simp] theorem Dev.draw_rerouteStaged  : (d.draw).rerouteStaged = d.rerouteStaged := rfl
@[simp] theorem Dev.draw_ports  : (d.draw).ports = d.ports := rfl
@[simp] theorem Dev.draw_conns  : (d.draw).conns = d.conns := rfl
@[simp] theorem Dev.draw_colls  : (d.draw).colls = d.colls := rfl
@[simp] theorem Dev.draw_collIn  : (d.draw).collIn = d.collIn := rfl
@[simp] theorem Dev.draw_routeSwaps  : (d.draw).routeSwaps = d.routeSwaps := rfl
@[simp] theorem Dev.draw_broken  : (d.draw).broken = d.broken := rfl
@[simp] theorem Dev.draw_prevRoute  : (d.draw).prevRoute = d.prevRoute := rfl
@[simp] theorem Dev.draw_power  : (d.draw).power = d.power := rfl
@[simp] theorem Dev.draw_coh  : (d.draw).coh = d.coh := rfl
@[simp] theorem Dev.draw_host  : (d.draw).host = d.host := rfl
@[simp] theorem Dev.draw_ledger  : (d.draw).ledger = d.ledger := rfl
@[simp] theorem Dev.draw_jtag  : (d.draw).jtag = d.jtag := rfl

/-! ### What an update leaves of its own part -/

/-- The tile changed holds what it was changed to. -/
@[simp] theorem Dev.modTile_tile_same (t : Nat) (f : Tile → Tile) : (d.modTile t f).tile t = f (d.tile t) := by
  simp [Dev.modTile, Dev.tile]

/-- Every other tile is as before. -/
theorem Dev.modTile_tile_other {t k : Nat} (f : Tile → Tile) (h : k ≠ t) : (d.modTile t f).tile k = d.tile k := by
  simp [Dev.modTile, Dev.tile, tget_tset_other _ _ h]

/-- The event set holds its value. -/
@[simp] theorem Dev.setEvent_same (e : Nat) (v : W64) : (d.setEvent e v).event e = v := by
  simp [Dev.setEvent, Dev.event]

/-- Every other event is as before. -/
theorem Dev.setEvent_other {e k : Nat} (v : W64) (h : k ≠ e) : (d.setEvent e v).event k = d.event k := by
  simp [Dev.setEvent, Dev.event, tget_tset_other _ _ h]

/-- A stored register reads as what was stored. -/
@[simp] theorem Dev.setReg_reg (r : Reg) (i : Nat) (v : W64) : (d.setReg r i v).reg r i = v := by
  simp [Dev.setReg, Dev.reg]

/-- A register at another offset reads as before. -/
theorem Dev.setReg_other {r q : Reg} {i j : Nat} (v : W64) (h : q.offset j ≠ r.offset i) :
    (d.setReg r i v).reg q j = d.reg q j := by
  simp [Dev.setReg, Dev.reg, tget_tset_other _ _ h]

/-- Settling changes no byte of memory. -/
@[simp] theorem Dev.settle_byte (a : Nat) : d.settle.mem.byte a = d.mem.byte a := by simp

/-- Settled memory has the canonical form. -/
theorem Dev.settle_wf : d.settle.mem.wf = true := by simp

end Sys2Proof.Machine
end

