-- ==== Sys2Proof/Laws/Ops.lean ====
section
/-! SUPPORT. What each shared operation does, said once: how a command acts, and finding and changing an
item. -/
namespace Sys2Proof.Machine

/-! ### How a command acts -/

/-- A command always completes, and leaves the queue. -/
theorem act_eq (s : State) (f : Dev → Dev) : act s f = .next { s with dev := (f s.dev).settle } := rfl

/-- A command of the running device acts when the clocks run and the device is released. -/
theorem actUp_up {s : State} (hc : s.dev.clocked = true) (ht : s.dev.ticking = true) (f : Dev → Dev) :
    actUp s f = .next { s with dev := (f s.dev).settle } := by simp [actUp, act, hc, ht]

/-- It leaves the device as it is while the clocks are stopped. -/
theorem actUp_stopped {s : State} (hc : s.dev.clocked = false) (f : Dev → Dev) :
    actUp s f = .next { s with dev := s.dev.settle } := by simp [actUp, act, hc]

/-- It leaves the device as it is before release. -/
theorem actUp_before {s : State} (ht : s.dev.ticking = false) (f : Dev → Dev) :
    actUp s f = .next { s with dev := s.dev.settle } := by simp [actUp, act, ht]

/-- A command of a clocked unit acts while the clocks run. -/
theorem actOn_on {s : State} (hc : s.dev.clocked = true) (f : Dev → Dev) :
    actOn s f = .next { s with dev := (f s.dev).settle } := by simp [actOn, act, hc]

/-- It leaves the device as it is while they are stopped. -/
theorem actOn_stopped {s : State} (hc : s.dev.clocked = false) (f : Dev → Dev) :
    actOn s f = .next { s with dev := s.dev.settle } := by simp [actOn, act, hc]

/-- Whatever a command of the running device does, it answers a next state with the same queue and memory in
canonical form. -/
theorem actUp_next (s : State) (f : Dev → Dev) :
    ∃ d, actUp s f = .next { s with dev := d } ∧ d.mem.wf = true := ⟨_, rfl, Dev.settle_wf _⟩

theorem actOn_next (s : State) (f : Dev → Dev) :
    ∃ d, actOn s f = .next { s with dev := d } ∧ d.mem.wf = true := ⟨_, rfl, Dev.settle_wf _⟩

theorem act_next (s : State) (f : Dev → Dev) :
    ∃ d, act s f = .next { s with dev := d } ∧ d.mem.wf = true := ⟨_, rfl, Dev.settle_wf _⟩

/-! ### Items -/

/-- The item found for a ring and index has them. -/
theorem Dev.item_key {d : Dev} {ring index : Nat} {it : Item} (h : d.item? ring index = some it) :
    it.ring = ring ∧ it.index = index := by
  have := List.find?_some h
  simpa using this

/-- A released item that a test accepts is acted on. -/
theorem Dev.onItem_hit {d : Dev} {ring index : Nat} {it : Item} {p : Item → Bool} (f : Item → Dev)
    (h : d.item? ring index = some it) (hr : it.phase = .released) (hp : p it = true) :
    d.onItem ring index p f = f it := by
  simp [Dev.onItem, h, hr, hp]

/-- An item that a test does not accept is not. -/
theorem Dev.onItem_miss {d : Dev} {ring index : Nat} {p : Item → Bool} (f : Item → Dev)
    (h : ∀ it, d.item? ring index = some it → it.phase ≠ .released ∨ p it = false) :
    d.onItem ring index p f = d := by
  unfold Dev.onItem
  cases hi : d.item? ring index with
  | none => rfl
  | some it => rcases h it hi with h | h <;> simp [h]

end Sys2Proof.Machine
end

