-- ==== Sys2Proof/Laws/Vector.lean ====
section
/-! SUPPORT. Vector registers: an element reads back as it was put, and the others stay (07 R256, R261). -/
namespace Sys2Proof.Machine

theorem packElems_aux (ew : Nat) (f : Nat → Nat) (n : Nat) :
    (List.range n).foldl (fun acc i => acc + f i % 2 ^ ew * 2 ^ (ew * i)) 0 < 2 ^ (ew * n) ∧
    ∀ i, i < n → elemOf ew ((List.range n).foldl (fun acc i => acc + f i % 2 ^ ew * 2 ^ (ew * i)) 0) i = f i % 2 ^ ew := by
  induction n with
  | zero => simp
  | succ n ih =>
    obtain ⟨hb, he⟩ := ih
    rw [List.range_succ, List.foldl_append]
    simp only [List.foldl_cons, List.foldl_nil]
    generalize (List.range n).foldl (fun acc i => acc + f i % 2 ^ ew * 2 ^ (ew * i)) 0 = S at hb he
    have hx : f n % 2 ^ ew < 2 ^ ew := Nat.mod_lt _ (Nat.two_pow_pos ew)
    have hp : 2 ^ (ew * (n + 1)) = 2 ^ ew * 2 ^ (ew * n) := by rw [← Nat.pow_add]; congr 1; simp [Nat.mul_add, Nat.add_comm]
    refine ⟨?_, fun i hi => ?_⟩
    · rw [hp]
      calc S + f n % 2 ^ ew * 2 ^ (ew * n) < 2 ^ (ew * n) + f n % 2 ^ ew * 2 ^ (ew * n) := Nat.add_lt_add_right hb _
        _ = (1 + f n % 2 ^ ew) * 2 ^ (ew * n) := by rw [Nat.add_mul, Nat.one_mul]
        _ ≤ 2 ^ ew * 2 ^ (ew * n) := Nat.mul_le_mul_right _ (by omega)
    · unfold elemOf
      by_cases h : i = n
      · subst h
        rw [Nat.add_mul_div_right _ _ (Nat.two_pow_pos _), Nat.div_eq_of_lt hb, Nat.zero_add, Nat.mod_mod]
      · have hi' : i < n := by omega
        have hs : 2 ^ (ew * n) = 2 ^ ew * 2 ^ (ew * (n - i - 1)) * 2 ^ (ew * i) := by
          rw [← Nat.pow_add, ← Nat.pow_add]; congr 1
          have : n = (1 + (n - i - 1)) + i := by omega
          rw [this, Nat.mul_add, Nat.mul_add]; simp
        rw [hs, ← Nat.mul_assoc, Nat.add_mul_div_right _ _ (Nat.two_pow_pos _),
          show f n % 2 ^ ew * (2 ^ ew * 2 ^ (ew * (n - i - 1))) = 2 ^ ew * (f n % 2 ^ ew * 2 ^ (ew * (n - i - 1))) by
            rw [Nat.mul_left_comm],
          Nat.add_mul_mod_self_left]
        exact he i hi'

/-- An element of a packed register reads as it was given, modulo 2^EW. -/
theorem elemOf_packElems {ew : Nat} (f : Nat → Nat) {i : Nat} (h : i < vlmax ew) :
    elemOf ew (packElems ew f) i = f i % 2 ^ ew := (packElems_aux ew f (vlmax ew)).2 i h

/-- A packed register fits a vector register. -/
theorem packElems_lt {ew : Nat} (f : Nat → Nat) : packElems ew f < 2 ^ 8192 := by
  have h := (packElems_aux ew f (vlmax ew)).1
  refine Nat.lt_of_lt_of_le h (Nat.pow_le_pow_right (Nat.succ_pos 1) ?_)
  exact Nat.mul_div_le 8192 ew

/-- A written register reads as it was written, modulo its width. -/
theorem Vec.setReg_same (v : Vec) (r n : Nat) : (v.setReg r n).reg r = n % 2 ^ 8192 := by
  unfold Vec.reg Vec.setReg
  rw [tget_tset_same, BitVec.toNat_ofNat]

theorem Vec.setReg_other (v : Vec) {r q : Nat} (n : Nat) (h : q ≠ r) : (v.setReg r n).reg q = v.reg q := by
  unfold Vec.reg Vec.setReg
  rw [tget_tset_other _ _ h]

/-- The elements of a register after some are put: those chosen as given, the others as before. -/
theorem Vec.putElems_elem (v : Vec) (r : Nat) (sel : Nat → Bool) (f : Nat → Nat) {i : Nat} (h : i < vlmax v.ew) :
    elemOf v.ew ((v.putElems r sel f).reg r) i = if sel i then f i % 2 ^ v.ew else elemOf v.ew (v.reg r) i := by
  unfold Vec.putElems
  rw [Vec.setReg_same, Nat.mod_eq_of_lt (packElems_lt _), elemOf_packElems _ h]
  split
  · rfl
  · unfold elemOf; rw [Nat.mod_mod]

/-- Every other register is as before. -/
theorem Vec.putElems_other (v : Vec) {r q : Nat} (sel : Nat → Bool) (f : Nat → Nat) (h : q ≠ r) :
    (v.putElems r sel f).reg q = v.reg q := Vec.setReg_other v _ h

/-- Nothing else of the engine changes. -/
theorem Vec.putElems_frame (v : Vec) (r : Nat) (sel : Nat → Bool) (f : Nat → Nat) :
    { v.putElems r sel f with v := v.v } = v := rfl

end Sys2Proof.Machine
end

