-- ==== Sys2Proof/WellFormed.lean ====
section
/-! DEFINITION. Well-formed commands: every operand within the range the manual gives it. `exec` is total
on ill-formed commands too; a well-formed one names only units, lines and codes that exist. -/
namespace Sys2Proof

/-! ### Checks on operands -/

/-- One of the 1,024 rings (11 R410). -/
def ringOk (n : Nat) : Bool := decide (n < 1024)
/-- A descriptor index (11 R413). -/
def indexOk (i : Nat) : Bool := decide (i < 2 ^ 32)
/-- A logical tile (03 R94). -/
def tileOk (t : Nat) : Bool := decide (t < 1408)
/-- A logical cluster (11 R432). -/
def clusterOk (lc : Nat) : Bool := decide (lc < 176)
/-- A logical die (01 R30). -/
def dieOk (ld : Nat) : Bool := decide (ld < 44)
/-- A deck (01 R25). -/
def deckOk (k : Nat) : Bool := decide (k < 8)
/-- A stack (03 R97). -/
def stackOk (s : Nat) : Bool := decide (s < 16)
/-- A Hawser port (01 R25). -/
def portOk (p : Nat) : Bool := decide (p < 6)
/-- A root port (13 R492). -/
def rootPortOk (p : Nat) : Bool := decide (p < 4)
/-- A hart of the host die (13 R485). -/
def hartOk (h : Nat) : Bool := decide (h < 96)
/-- A connection (14 R545). -/
def connOk (c : Nat) : Bool := decide (c < 4096)
/-- A context (12 R460). -/
def ctxOk (c : Nat) : Bool := decide (c < 256)
/-- A segment with a descriptor (12 R461). -/
def segOk (g : Nat) : Bool := decide (g < 14)
/-- A unit locator (01 R38). -/
def locatorOk (l : Nat) : Bool := decide (l < 2 ^ 16)
/-- An offset in the register window (18 R659). -/
def offsetOk (o : Nat) : Bool := decide (o < 2 ^ 24)
/-- A crane kind (01 R39). -/
def craneOk (k : Nat) : Bool := decide (k < 8)
/-- A coherence agent (13 R497). -/
def agentOk (a : Nat) : Bool := decide (a < 15)
/-- The number of a 64-byte pool line (03 R94). -/
def lineOk (l : Nat) : Bool := decide (l < 2 ^ 34)
/-- A 32-bit number. -/
def wordOk (n : Nat) : Bool := decide (n < 2 ^ 32)
/-- A byte address of at most 43 bits (13 R489). -/
def addrOk (a : Nat) : Bool := decide (a < 2 ^ 43)
/-- The size of a host access: a power of two of at most 64 bytes (13 R490). -/
def sizeOk (n : Nat) : Bool := [1, 2, 4, 8, 16, 32, 64].contains n
/-- A tide period that TIDE_PERIOD_NS can hold (02 R60). -/
def periodOk (p : Nat) : Bool := decide (p < 2 ^ 18)
/-- A node id (14 R519). -/
def nodeOk (n : Nat) : Bool := decide (n < 2 ^ 15)
/-- A width code of a link module (01 R48). -/
def widthOk (w : Nat) : Bool := decide (w < 3)
/-- A log code (17 R649). -/
def codeOk (c : Nat) : Bool := decide (c < 2 ^ 16)
/-- A gang index (11 R432). -/
def gangOk (g : Nat) : Bool := decide (g < 32)
/-- A bank of a memory (03 R105). -/
def bankNoOk (b : Nat) : Bool := decide (b < 64)
/-- A set of dimensions (14 R538). -/
def dimsOk (m : Nat) : Bool := decide (m < 8)
/-- A 64-byte line of data. -/
def lineDataOk (bs : List Byte) : Bool := bs.length == 64
/-- A nonce of 256 bits (16 R613). -/
def nonceOk (bs : List Byte) : Bool := bs.length == 32
/-- Data of at most one message or PCIe request (14 R532). -/
def dataOk (bs : Option (List Byte)) : Bool := match bs with | some l => decide (l.length ≤ 4096) | none => true

/-- A requester that exists. -/
def requesterOk : Requester → Bool
  | .hart h => hartOk h
  | .tile t => tileOk t
  | .lighter lc => clusterOk lc
  | .crane d k => deckOk d && craneOk k
  | .wharf s => stackOk s
  | .pier p => portOk p
  | .hub => true
  | .pcie p i => rootPortOk p && decide (i < 2 ^ 16)

/-- Requests at the inputs of one arbiter: each input at most once (05 R192). -/
def requestsOk (l : List ArbRequest) : Bool :=
  decide ((l.map (·.input)).Nodup) && l.all (fun r => decide (r.input < 16) && requesterOk r.req)

/-- A physical access carries as many bytes as it says. -/
def accessOk (a : PhysAccess) : Bool :=
  requestsOk a.reqs && requesterOk a.req && addrOk a.pa && decide (0 < a.len) && (match a.write with | some l => l.length == a.len | none => true)

/-- An atomic's requester exists and its address is aligned to its size (03 R107). -/
def atomicOk (a : AtomicReq) : Bool := requesterOk a.req && addrOk a.pa && a.pa % (if a.h16 then 2 else if a.wide then 8 else 4) == 0

/-- A bank with an arbiter that exists. -/
def bankOk : BankId → Bool
  | .localMem t b => tileOk t && bankNoOk b
  | .warehouse d b => deckOk d && bankNoOk b
  | .cranes d b => deckOk d && bankNoOk b
  | .pool s pc => stackOk s && bankNoOk pc

/-- A row of a memory that exists. -/
def rowOk : RowId → Bool
  | .warehouse d b _ => deckOk d && bankNoOk b
  | .hbm s _ _ pa => stackOk s && decide (pa < 2 ^ 40)

/-- A scrubbed memory that exists. -/
def scrubOk : ScrubUnit → Bool
  | .stack s => stackOk s
  | .warehouse d => deckOk d
  | .localMem t => tileOk t

/-- A holder of translations that exists. -/
def holderOk : Holder → Bool
  | .cluster lc => clusterOk lc
  | .crane d k => deckOk d && craneOk k
  | .wharf s => stackOk s
  | .pier p => portOk p
  | .harbourmaster => true

/-- A die-to-die link's ends (01 R25). -/
def linkOperandOk : LinkId → Bool
  | .deck d s => deckOk d && decide (s < 4)
  | .hubHost => true

/-- One reading for each class, die, stack and deck. -/
def telemetryOk (m : Telemetry) : Bool :=
  m.classW.length == 5 && m.dieC.length == 44 && m.stackC.length == 16 && m.deckC.length == 8

/-- One prediction for each class and die, and one power for each step. -/
def predictionOk (p : Prediction) : Bool :=
  p.demand.length == 5 && p.fullDemand.length == 5 && p.dieMw.length == 44 && p.settleNs.length == 44

/-- One answer for each laser module and stack. -/
def sweepOk (r : Sweep) : Bool := r.lasers.length == 6 && r.hbm.length == 16

/-- Links, dies and stacks that exist. -/
def bringUpOk (r : BringUp) : Bool := r.links.all (fun l => linkOperandOk l.link) && r.badStacks.all stackOk

/-- Lane counts and a peer that can exist. -/
def trainingOk (r : PortTraining) : Bool := decide (r.goodLanes ≤ 26) && nodeOk r.peerNode

/-- A message's header fields are within their widths (14 R532). -/
def msgOk (m : LinkMsg) : Bool :=
  nodeOk m.dest && nodeOk m.src && connOk m.conn && wordOk m.seq && decide (m.epoch < 2 ∧ m.dirs < 8 ∧ m.vc < 2 ∧ m.hops < 94)

/-- An ageing offset for each die (15 R579). -/
def offsetsOk (l : List Nat) : Bool := l.length == 44

/-! ### Commands -/

/-- Every operand of a command is within its range. -/
def Instr.wellFormed : Instr → Bool
  | .tick m => telemetryOk m
  | .admissionCut => true
  | .overrunStop ring index => ringOk ring && indexOk index
  | .beaconSend => true
  | .beacon port _ periodNs node => portOk port && periodOk periodNs && nodeOk node
  | .beaconTimeout port => portOk port
  | .joinTimeout port => portOk port
  | .launchStart ring index => ringOk ring && indexOk index
  | .tileEnd t => tileOk t
  | .launchComplete ring index => ringOk ring && indexOk index
  | .sliceComplete ring index => ringOk ring && indexOk index
  | .recordWrite ring index => ringOk ring && indexOk index
  | .bellLineWake ring => ringOk ring
  | .descriptorFetch ring => ringOk ring
  | .slotRecheck ring => ringOk ring
  | .ringEnable hart ring _ => hartOk hart && ringOk ring
  | .ringDisable hart ring _ => hartOk hart && ringOk ring
  | .fenceRing ring index => ringOk ring && indexOk index
  | .fenceContext ring index => ringOk ring && indexOk index
  | .launchTiles ring index => ringOk ring && indexOk index
  | .launchGangs ring index => ringOk ring && indexOk index
  | .move ring index => ringOk ring && indexOk index
  | .inlineWrite ring index => ringOk ring && indexOk index
  | .signalAdd ring index => ringOk ring && indexOk index
  | .signalSet ring index => ringOk ring && indexOk index
  | .wait ring index => ringOk ring && indexOk index
  | .hintMatrixHeavy ring index => ringOk ring && indexOk index
  | .hintMemoryHeavy ring index => ringOk ring && indexOk index
  | .hintLinkHeavy ring index => ringOk ring && indexOk index
  | .hintIdle ring index => ringOk ring && indexOk index
  | .segInvalWhole ring index => ringOk ring && indexOk index
  | .segInvalRange ring index => ringOk ring && indexOk index
  | .segInvalDrained ring index => ringOk ring && indexOk index
  | .remotePut ring index => ringOk ring && indexOk index
  | .remoteGet ring index => ringOk ring && indexOk index
  | .remoteAtomic ring index => ringOk ring && indexOk index
  | .allReduce ring index => ringOk ring && indexOk index
  | .reduceScatter ring index => ringOk ring && indexOk index
  | .allGather ring index => ringOk ring && indexOk index
  | .broadcast ring index => ringOk ring && indexOk index
  | .convert ring index => ringOk ring && indexOk index
  | .craneGather ring index => ringOk ring && indexOk index
  | .craneBagsum ring index => ringOk ring && indexOk index
  | .craneScatterAdd ring index => ringOk ring && indexOk index
  | .stream ring index => ringOk ring && indexOk index
  | .sparse28 ring index => ringOk ring && indexOk index
  | .sortAsc ring index => ringOk ring && indexOk index
  | .sortDesc ring index => ringOk ring && indexOk index
  | .topkMax ring index => ringOk ring && indexOk index
  | .topkMin ring index => ringOk ring && indexOk index
  | .fft ring index => ringOk ring && indexOk index
  | .randomU32 ring index => ringOk ring && indexOk index
  | .randomU64 ring index => ringOk ring && indexOk index
  | .uniformF32 ring index => ringOk ring && indexOk index
  | .uniformF64 ring index => ringOk ring && indexOk index
  | .normalF32 ring index => ringOk ring && indexOk index
  | .bernoulli ring index => ringOk ring && indexOk index
  | .sha3256 ring index => ringOk ring && indexOk index
  | .crc32c ring index => ringOk ring && indexOk index
  | .blockmax ring index => ringOk ring && indexOk index
  | .anchor ring index => ringOk ring && indexOk index
  | .hist ring index => ringOk ring && indexOk index
  | .craneFence deck kind => deckOk deck && craneOk kind
  | .axpy ring index => ringOk ring && indexOk index
  | .scale ring index => ringOk ring && indexOk index
  | .reduceAdd ring index => ringOk ring && indexOk index
  | .optimMomentum ring index => ringOk ring && indexOk index
  | .optimAdaptive ring index => ringOk ring && indexOk index
  | .optimFactored ring index => ringOk ring && indexOk index
  | .optimLoadedSlot ring index => ringOk ring && indexOk index
  | .wharfGather ring index => ringOk ring && indexOk index
  | .wharfBagsum ring index => ringOk ring && indexOk index
  | .wharfScatterAdd ring index => ringOk ring && indexOk index
  | .fill ring index => ringOk ring && indexOk index
  | .copy ring index => ringOk ring && indexOk index
  | .waveReadPhase ring index stack _ => ringOk ring && indexOk index && stackOk stack
  | .waveWritePhase ring index stack _ => ringOk ring && indexOk index && stackOk stack
  | .wharfFence stack => stackOk stack
  | .farAdd a => atomicOk a
  | .farFadd a => atomicOk a
  | .farMin a => atomicOk a
  | .farMax a => atomicOk a
  | .farMinu a => atomicOk a
  | .farMaxu a => atomicOk a
  | .farAnd a => atomicOk a
  | .farOr a => atomicOk a
  | .farXor a => atomicOk a
  | .farSwap a => atomicOk a
  | .farCas a => atomicOk a
  | .warehouseAdd a => atomicOk a
  | .warehouseFadd a => atomicOk a
  | .warehouseMinMax _ a => atomicOk a
  | .warehouseAndOrXor _ a => atomicOk a
  | .warehouseSwap a => atomicOk a
  | .warehouseCas a => atomicOk a
  | .raddH16F32 a => atomicOk a
  | .raddT128 a _ _ => requesterOk a.req && addrOk a.pa
  | .poolAccess a => accessOk a
  | .warehouseAccess deck bank cranes a => deckOk deck && bankNoOk bank && requestsOk cranes && accessOk a
  | .localMemoryAccess t bank input a => tileOk t && bankNoOk bank && decide (input < 16) && accessOk a
  | .bankWatchdogReset bank => bankOk bank
  | .rowSpare row => rowOk row
  | .patrolScrub unit addr _ => scrubOk unit && addrOk addr
  | .scrubPassDone unit => scrubOk unit
  | .scrubLate unit => scrubOk unit
  | .transitFill lc line f =>
    clusterOk lc && lineOk line && ctxOk f.ctx && (match f.err with | some e => decide (e.chunks < 256) | none => true)
  | .segmentDescriptorLoad holder ctx seg => holderOk holder && ctxOk ctx && segOk seg
  | .pageWalk holder ctx seg page => holderOk holder && ctxOk ctx && segOk seg && wordOk page
  | .teardown hart ctx => hartOk hart && ctxOk ctx
  | .ctxTeardownDone ctx => ctxOk ctx
  | .ccLoad t => tileOk t
  | .ccStore t => tileOk t
  | .ccAmo t => tileOk t
  | .ccLrSc t => tileOk t
  | .ccFence t => tileOk t
  | .ccFenceI t => tileOk t
  | .ecall t => tileOk t
  | .ebreak t => tileOk t
  | .xMma t => tileOk t
  | .matrixJobStart t seq => tileOk t && wordOk seq
  | .matrixJobComplete t seq => tileOk t && wordOk seq
  | .xWait t => tileOk t
  | .xStatCounts t => tileOk t
  | .xStatProgress t => tileOk t
  | .xStatState t => tileOk t
  | .vAdd t => tileOk t
  | .vSub t => tileOk t
  | .vMul t => tileOk t
  | .vMin t => tileOk t
  | .vMax t => tileOk t
  | .vMinu t => tileOk t
  | .vMaxu t => tileOk t
  | .vAnd t => tileOk t
  | .vOr t => tileOk t
  | .vXor t => tileOk t
  | .vSll t => tileOk t
  | .vSrl t => tileOk t
  | .vSra t => tileOk t
  | .vMov t => tileOk t
  | .vSel t => tileOk t
  | .vFadd t => tileOk t
  | .vFsub t => tileOk t
  | .vFmul t => tileOk t
  | .vFma t => tileOk t
  | .vFnms t => tileOk t
  | .vFmin t => tileOk t
  | .vFmax t => tileOk t
  | .vFdiv t => tileOk t
  | .vFabs t => tileOk t
  | .vFneg t => tileOk t
  | .vCmpeq t => tileOk t
  | .vCmplt t => tileOk t
  | .vCmpltu t => tileOk t
  | .vFcmpeq t => tileOk t
  | .vFcmplt t => tileOk t
  | .vFcmple t => tileOk t
  | .vMand t => tileOk t
  | .vMor t => tileOk t
  | .vMxor t => tileOk t
  | .vMnot t => tileOk t
  | .vMmv t => tileOk t
  | .vCvtif t => tileOk t
  | .vCvtfi t => tileOk t
  | .vCvtff t => tileOk t
  | .vRedrow t => tileOk t
  | .vRedcol t => tileOk t
  | .vSumx t => tileOk t
  | .vMaxx t => tileOk t
  | .vAny t => tileOk t
  | .vAll t => tileOk t
  | .vSeta t => tileOk t
  | .vCnt t => tileOk t
  | .vSeed t => tileOk t
  | .vSetl t => tileOk t
  | .vLd t => tileOk t
  | .vSt t => tileOk t
  | .vLdx t => tileOk t
  | .vStx t => tileOk t
  | .vOcld t => tileOk t
  | .vOcev t => tileOk t
  | .vLut t => tileOk t
  | .vLutld t => tileOk t
  | .vNorm t => tileOk t
  | .vSmexp t => tileOk t
  | .vSmdiv t => tileOk t
  | .vSfExp2 t => tileOk t
  | .vSfLog2 t => tileOk t
  | .vSfRecip t => tileOk t
  | .vSfRsqrt t => tileOk t
  | .vSfSqrt t => tileOk t
  | .vSfSin t => tileOk t
  | .vSfCos t => tileOk t
  | .vSfTanh t => tileOk t
  | .vSfSigmoid t => tileOk t
  | .vSfErf t => tileOk t
  | .vSfExp t => tileOk t
  | .vSfLog t => tileOk t
  | .vSfGelu t => tileOk t
  | .vSfSilu t => tileOk t
  | .vSfSinpi t => tileOk t
  | .vSfCospi t => tileOk t
  | .vSfImageSlot t => tileOk t
  | .gBar t => tileOk t
  | .gYield t => tileOk t
  | .gExit t => tileOk t
  | .gVoteAny t => tileOk t
  | .gVoteAll t => tileOk t
  | .gVoteBallot t => tileOk t
  | .gShfl t => tileOk t
  | .gShflF t => tileOk t
  | .uGet t => tileOk t
  | .uPut t => tileOk t
  | .uAdd t => tileOk t
  | .uSub t => tileOk t
  | .uAnd t => tileOk t
  | .uOr t => tileOk t
  | .uXor t => tileOk t
  | .uSll t => tileOk t
  | .uSrl t => tileOk t
  | .uSra t => tileOk t
  | .uSlt t => tileOk t
  | .uSltu t => tileOk t
  | .uMul t => tileOk t
  | .uAddi t => tileOk t
  | .uBeq t => tileOk t
  | .uBne t => tileOk t
  | .uBlt t => tileOk t
  | .uBge t => tileOk t
  | .gAmoAdd t => tileOk t
  | .gAmoFadd t => tileOk t
  | .gAmoMin t => tileOk t
  | .gAmoMax t => tileOk t
  | .gAmoMinu t => tileOk t
  | .gAmoMaxu t => tileOk t
  | .gAmoAnd t => tileOk t
  | .gAmoOr t => tileOk t
  | .gAmoXor t => tileOk t
  | .gAmoSwap t => tileOk t
  | .gAmoCas t => tileOk t
  | .threadLrSc t => tileOk t
  | .threadMemoryAccess t => tileOk t
  | .gangSwapOut t gang => tileOk t && gangOk gang
  | .gangSwapIn t => tileOk t
  | .scrub ring index _ => ringOk ring && indexOk index
  | .hbmRetrain ring index _ => ringOk ring && indexOk index
  | .d2dRetrain ring index _ => ringOk ring && indexOk index
  | .laneRecal ring index _ => ringOk ring && indexOk index
  | .ageing ring index _ => ringOk ring && indexOk index
  | .flashWrite ring index _ => ringOk ring && indexOk index
  | .secureErase ring index _ => ringOk ring && indexOk index
  | .logExport ring index _ => ringOk ring && indexOk index
  | .spareTest ring index _ => ringOk ring && indexOk index
  | .repair ring index _ => ringOk ring && indexOk index
  | .pageRetire ring index _ => ringOk ring && indexOk index
  | .ledgerClear ring index _ => ringOk ring && indexOk index
  | .attest ring index _ => ringOk ring && indexOk index
  | .moduleTrainingDone link _ _ width => linkOperandOk link && widthOk width
  | .widthExchange link => linkOperandOk link
  | .d2dLinkDown link => linkOperandOk link
  | .hostLinkTimeout => true
  | .portTrainingDone port r => portOk port && trainingOk r
  | .laneSpare port _ => portOk port
  | .portDown port _ => portOk port
  | .laserModuleFault port _ => portOk port
  | .linkRetry port seq => portOk port && wordOk seq
  | .oeFiltered port _ => portOk port
  | .messageForward port msg => portOk port && msgOk msg
  | .put port msg => portOk port && msgOk msg
  | .getReq port msg => portOk port && msgOk msg
  | .getData port msg => portOk port && msgOk msg
  | .atomicReq port msg => portOk port && msgOk msg
  | .atomicResp port msg => portOk port && msgOk msg
  | .ack port msg => portOk port && msgOk msg
  | .openMsg port msg => portOk port && msgOk msg
  | .openAck port msg => portOk port && msgOk msg
  | .close port msg => portOk port && msgOk msg
  | .collData port msg => portOk port && msgOk msg
  | .collSync port msg => portOk port && msgOk msg
  | .linkNotice port msg => portOk port && msgOk msg
  | .retransmitTimeout conn => connOk conn
  | .collTimeout ring index => ringOk ring && indexOk index
  | .connOpen hart conn => hartOk hart && connOk conn
  | .connClose hart conn => hartOk hart && connOk conn
  | .routeSwap hart dims => hartOk hart && dimsOk dims
  | .retrain hart port _ => hartOk hart && portOk port
  | .disable hart port => hartOk hart && portOk port
  | .lockkeeperDecision d => predictionOk d
  | .pmbAlert _ _ _ => true
  | .droopDetected lc => clusterOk lc
  | .droopRelease lc => clusterOk lc
  | .ageingUpdate offsets => offsetsOk offsets
  | .thermalTrip locator _ => locatorOk locator
  | .capNowAssert _ => true
  | .capNowDeassert => true
  | .pkgPorNAssert => true
  | .pkgPorNDeassert => true
  | .identitySweep r => sweepOk r
  | .imageVerification _ => true
  | .bringUp r => bringUpOk r
  | .hostRelease => true
  | .devWarm => true
  | .pkgCold => true
  | .hubWdtExpiry _ => true
  | .computeDieFence ld _ => dieOk ld
  | .unitReset hart locator => hartOk hart && locatorOk locator
  | .portReset hart locator _ => hartOk hart && locatorOk locator
  | .clusterGate lc => clusterOk lc
  | .clusterUngate lc => clusterOk lc
  | .deckRetentionEnter deck => deckOk deck
  | .deckRetentionExit deck _ => deckOk deck
  | .pkgIdleEnter => true
  | .pkgIdleExit _ _ => true
  | .hostCmdReset hart => hartOk hart
  | .hostDieInternalError => true
  | .hostResetQuiescent => true
  | .resume hart => hartOk hart
  | .gets agent line => agentOk agent && lineOk line
  | .getm agent line => agentOk agent && lineOk line
  | .claim agent line => agentOk agent && lineOk line
  | .look agent line => agentOk agent && lineOk line
  | .putfull agent line data => agentOk agent && lineOk line && lineDataOk data
  | .atomichome agent pa size _ _ _ => agentOk agent && addrOk pa && sizeOk size
  | .clean agent line => agentOk agent && lineOk line
  | .purge agent line => agentOk agent && lineOk line
  | .discard agent line => agentOk agent && lineOk line
  | .probeshare agent line => agentOk agent && lineOk line
  | .probetake agent line => agentOk agent && lineOk line
  | .probeclean agent line => agentOk agent && lineOk line
  | .probedrop agent line => agentOk agent && lineOk line
  | .retire agent line => agentOk agent && lineOk line
  | .yield agent line => agentOk agent && lineOk line
  | .snoopResponse agent line => agentOk agent && lineOk line
  | .snoopData agent line => agentOk agent && lineOk line
  | .cboClean hart pa => hartOk hart && addrOk pa
  | .cboFlush hart pa => hartOk hart && addrOk pa
  | .cboInval hart pa _ => hartOk hart && addrOk pa
  | .hostAtomic hart _ size _ pa _ _ => hartOk hart && sizeOk size && addrOk pa
  | .hostLoad hart pa size _ _ => hartOk hart && addrOk pa && sizeOk size
  | .hostStore hart pa size _ _ _ => hartOk hart && addrOk pa && sizeOk size
  | .inboundRequest port _ a _ write => rootPortOk port && decide (a.addr < 2 ^ 64) && dataOk write
  | .flashAcquire hart => hartOk hart
  | .flashRelease hart => hartOk hart
  | .debugLock hart => hartOk hart
  | .stageMp hart => hartOk hart
  | .newNonce hart => hartOk hart
  | .debugUnlock _ _ => true
  | .logClear _ _ => true
  | .ownerEnrol _ _ => true
  | .ownerRevoke _ _ => true
  | .ownerOnly _ _ => true
  | .getNonce => true
  | .getEvidence nonce => nonceOk nonce
  | .regRead offset => offsetOk offset
  | .regWrite offset _ => offsetOk offset
  | .reset _ => true
  | .hostReset => true
  | .retry => true
  | .alertAck => true
  | .ledgerArmExpiry => true
  | .logIndexWrite hart _ => hartOk hart
  | .hmEventValueWrite hart _ => hartOk hart
  | .rateWindowEnd code => codeOk code
  | .vaultMirror _ => true
  | .ledgerFlashWrite _ => true
  | .registerWrite hart offset _ => hartOk hart && offsetOk offset
  | .lossOfPower => true
  | .controlCoreInstruction i => tileOk i.tile
  | .gangThreadInstruction i => tileOk i.tile
  | .hostDieLeavesReset => true

end Sys2Proof
end

