-- ==== Sys2Proof/Tests/Slice0.lean ====
section
/-! SUPPORT. Tests: ill-formed commands refused, for each statement with hypotheses a concrete state and
operands that meet them (`witness_<Statement>`), and single steps whose results the manual's tables and
worked examples give. -/
namespace Sys2Proof.Tests
-- one theorem after another: the kernel's evaluations would otherwise all run at once
set_option Elab.async false
open Sys2Proof Sys2Proof.Machine


/-! ### Well-formedness: an ill-formed command for each check, and well-formed ones -/

/-- A flit header with nothing out of range. -/
def msg0 : LinkMsg := { dest := 1, src := 2, conn := 3, seq := 4, epoch := 0, dirs := 0, vc := 0, hops := 0, body := .close }
/-- A clean read of eight pool bytes by the hub. -/
def read0 : PhysAccess := ⟨.hub, 0x1000, 8, none, .clean, none, 0, [], false⟩
/-- An atomic of the hub on a 32-bit word of the pool. -/
def amo0 : AtomicReq := ⟨.hub, 0x1000, false, false, false, 5, 0, .clean, none, 0⟩

theorem test_wf_refuses_ring : (Instr.move 1024 0).wellFormed = false := by decide
theorem test_wf_refuses_index : (Instr.move 0 (2 ^ 32)).wellFormed = false := by decide
theorem test_wf_refuses_tile : (Instr.vAdd 1408).wellFormed = false := by decide
theorem test_wf_refuses_cluster : (Instr.clusterGate 176).wellFormed = false := by decide
theorem test_wf_refuses_die : (Instr.computeDieFence 44 0).wellFormed = false := by decide
theorem test_wf_refuses_deck : (Instr.craneFence 8 0).wellFormed = false := by decide
theorem test_wf_refuses_crane_kind : (Instr.craneFence 0 8).wellFormed = false := by decide
theorem test_wf_refuses_stack : (Instr.scrubPassDone (.stack 16)).wellFormed = false := by decide
theorem test_wf_refuses_port : (Instr.beaconTimeout 6).wellFormed = false := by decide
theorem test_wf_refuses_root_port : (Instr.inboundRequest 4 0 ⟨.untranslated, 0⟩ 4 none).wellFormed = false := by decide
theorem test_wf_refuses_request_data : (Instr.inboundRequest 0 0 ⟨.untranslated, 0⟩ 4097 (some (List.replicate 4097 0))).wellFormed = false := by decide +kernel
theorem test_wf_refuses_hart : (Instr.cboClean 96 0).wellFormed = false := by decide
theorem test_wf_refuses_address : (Instr.cboClean 0 (2 ^ 43)).wellFormed = false := by decide
theorem test_wf_refuses_connection : (Instr.connClose 0 4096).wellFormed = false := by decide
theorem test_wf_refuses_context : (Instr.ctxTeardownDone 256).wellFormed = false := by decide
theorem test_wf_refuses_segment : (Instr.pageWalk .harbourmaster 0 14 0).wellFormed = false := by decide
theorem test_wf_refuses_page_number : (Instr.pageWalk .harbourmaster 0 0 (2 ^ 32)).wellFormed = false := by decide
theorem test_wf_refuses_holder : (Instr.pageWalk (.pier 6) 0 0 0).wellFormed = false := by decide
theorem test_wf_refuses_locator : (Instr.portReset 0 (2 ^ 16) 0).wellFormed = false := by decide
theorem test_wf_refuses_offset : (Instr.regRead (2 ^ 24)).wellFormed = false := by decide
theorem test_wf_refuses_agent : (Instr.claim 15 0).wellFormed = false := by decide
theorem test_wf_refuses_line : (Instr.claim 0 (2 ^ 34)).wellFormed = false := by decide
theorem test_wf_refuses_line_data : (Instr.putfull 0 0 []).wellFormed = false := by decide
theorem test_wf_refuses_access_size : (Instr.atomichome 0 0 3 .add 0 0).wellFormed = false := by decide
theorem test_wf_refuses_link_sequence : (Instr.linkRetry 0 (2 ^ 32)).wellFormed = false := by decide
theorem test_wf_refuses_period : (Instr.beacon 0 0 (2 ^ 18) 0).wellFormed = false := by decide
theorem test_wf_refuses_node : (Instr.beacon 0 0 16000 (2 ^ 15)).wellFormed = false := by decide
theorem test_wf_refuses_width_code : (Instr.moduleTrainingDone (.deck 0 0) true 0 3).wellFormed = false := by decide
theorem test_wf_refuses_link : (Instr.d2dLinkDown (.deck 0 4)).wellFormed = false := by decide
theorem test_wf_refuses_log_code : (Instr.rateWindowEnd (2 ^ 16)).wellFormed = false := by decide
theorem test_wf_refuses_gang : (Instr.gangSwapOut 0 32).wellFormed = false := by decide
theorem test_wf_refuses_bank : (Instr.localMemoryAccess 0 64 0 read0).wellFormed = false := by decide
theorem test_wf_refuses_bank_input : (Instr.localMemoryAccess 0 0 16 read0).wellFormed = false := by decide
theorem test_wf_refuses_crane_request : (Instr.warehouseAccess 0 0 [⟨16, .single, .hub, none, false⟩] read0).wellFormed = false := by decide
theorem test_wf_refuses_pseudo_channel : (Instr.bankWatchdogReset (.pool 0 64)).wellFormed = false := by decide
theorem test_wf_refuses_bank_unit : (Instr.bankWatchdogReset (.warehouse 8 0)).wellFormed = false := by decide
theorem test_wf_refuses_requests : (Instr.localMemoryAccess 0 0 3 { read0 with reqs := [⟨3, .single, .hub, none, false⟩, ⟨3, .single, .hub, none, false⟩] }).wellFormed = false := by decide
theorem test_wf_refuses_access_length : (Instr.poolAccess { read0 with write := some [] }).wellFormed = false := by decide
theorem test_wf_refuses_requester : (Instr.raddT128 { amo0 with req := .tile 1408 } 0 0).wellFormed = false := by decide
theorem test_wf_refuses_misaligned_atomic : (Instr.farAdd { amo0 with pa := 0x1002 }).wellFormed = false := by decide
theorem test_wf_refuses_row : (Instr.rowSpare (.hbm 16 0 0 0)).wellFormed = false := by decide
theorem test_wf_refuses_scrub_unit : (Instr.patrolScrub (.warehouse 8) 0 .clean).wellFormed = false := by decide
theorem test_wf_refuses_dimensions : (Instr.routeSwap 0 8).wellFormed = false := by decide
theorem test_wf_refuses_nonce : (Instr.getEvidence []).wellFormed = false := by decide
theorem test_wf_refuses_telemetry : (Instr.tick default).wellFormed = false := by decide
theorem test_wf_refuses_prediction : (Instr.lockkeeperDecision default).wellFormed = false := by decide
theorem test_wf_refuses_sweep : (Instr.identitySweep default).wellFormed = false := by decide
theorem test_wf_refuses_bring_up : (Instr.bringUp { (default : BringUp) with badStacks := [16] }).wellFormed = false := by decide
theorem test_wf_refuses_training : (Instr.portTrainingDone 0 { (default : PortTraining) with goodLanes := 27 }).wellFormed = false := by decide
theorem test_wf_refuses_message : (Instr.ack 0 { msg0 with hops := 94 }).wellFormed = false := by decide
theorem test_wf_refuses_ageing : (Instr.ageingUpdate []).wellFormed = false := by decide
theorem test_wf_admits : (Instr.move 1023 (2 ^ 32 - 1)).wellFormed = true ∧ (Instr.vAdd 1407).wellFormed = true ∧
    (Instr.ack 5 { msg0 with hops := 93 }).wellFormed = true ∧ (Instr.farAdd amo0).wellFormed = true ∧
    (Instr.poolAccess read0).wellFormed = true ∧ (Instr.beacon 5 0 256000 0x7FFF).wellFormed = true := by decide


/-! ### Small states -/

/-- The device after its release: clocks on, the boot phase complete, the host running and its link ACTIVE. -/
def devUp : Dev := (({ pins := { por := false }, host := { running := true } } : Dev).put F.pilBootProgress_PHASE 5).put F.mntHostLinkStatus_STATE 4
/-- A device with an empty queue. -/
def st (d : Dev) : State := { pending := [], dev := d }
/-- A device released and idle. -/
def up : State := st devUp

/-- A launch of one tile of context 5, started. -/
def launch0 : Launch :=
  { ring := 1, index := 0, ctx := 5, gangs := false, entry := 0xF000000000000000, arg := 0, clusters := [0], tiles := [0],
    budget := 1000, relTide := 0, relNs := 0, order := 0, start := some 0, stopAt := 100000 }
/-- A device on which that launch runs on tile 0. -/
def devRun : Dev := ({ devUp with launches := [launch0] } : Dev).setTileState 0 2
/-- An instruction word from its R-type fields. -/
def rword (f7 rs2 rs1 f3 rd op : Nat) : W32 := BitVec.ofNat 32 (f7 * 2 ^ 25 + rs2 * 2 ^ 20 + rs1 * 2 ^ 15 + f3 * 2 ^ 12 + rd * 2 ^ 7 + op)
/-- A vector instruction of custom-0 in the queue: OP, vs2, rs1 and FORM into v3 or m3. -/
def vop (op rs2 rs1 form : Nat) : VecOp := ⟨rword (2 * op) rs2 rs1 form 3 0x0B, 0, 0, 0, 0⟩
/-- A vector instruction of custom-3 in the queue: its function, vs2, rs1, its masked bit, vd and x[rs1]. -/
def vop3 (f7 rs2 rs1 form rd : Nat) (x1 : W64 := 0) : VecOp := ⟨rword f7 rs2 rs1 form rd 0x7B, 0, x1, 0, 0⟩
/-- The launch's tile with an instruction at the head of its vector queue, VL and EW as given. -/
def vecSt (o : VecOp) (vl : Nat := 2) (ew : Nat := 32) : State :=
  st (devRun.setVec 0 { vl := vl, ew := ew, v := [(1, 0x0000000400000003), (2, 0x3F8000003F800000)], queue := [o] })

/-- A result that succeeds has a device and a value. -/
theorem ok_of {δ ε α : Type} (x : δ × Except ε α) (h : x.2.isOk = true) : ∃ d a, x = (d, .ok a) := by
  match x, h with
  | (d, .ok a), _ => exact ⟨d, a, rfl⟩
/-- A result that fails has a device and a failure. -/
theorem error_of {δ ε α : Type} (x : δ × Except ε α) (h : x.2.isOk = false) : ∃ d e, x = (d, .error e) := by
  match x, h with
  | (d, .error e), _ => exact ⟨d, e, rfl⟩
/-- A result that is a value for which a condition holds. -/
def holds {ε α : Type} (x : Except ε α) (p : α → Bool) : Bool := match x with | .ok a => p a | .error _ => false
theorem ok_and {ε α : Type} (x : Except ε α) (p : α → Bool) (h : holds x p = true) : ∃ a, x = .ok a ∧ p a = true := by
  match x, h with
  | .ok a, h => exact ⟨a, rfl, h⟩
/-- A result that is some value. -/
theorem some_of {α : Type} (x : Option α) (h : x.isSome = true) : ∃ a, x = some a := Option.isSome_iff_exists.mp h

theorem vecHead_vecSt (o : VecOp) (vl ew : Nat) (key : Nat × Nat) (h : queueOp o.word = some key) :
    (vecSt o vl ew).dev.vecHead 0 key = some o := by
  have h1 : (vecSt o vl ew).dev.launchOn 0 = some launch0 := rfl
  have h2 : (vecSt o vl ew).dev.tileState 0 = devRun.tileState 0 := rfl
  have h4 : devRun.tileState 0 = 2 := by decide +kernel
  have h3 : ((vecSt o vl ew).dev.tile 0).vec.queue = [o] := rfl
  simp [Dev.vecHead, h1, h2, h3, h4, h, launch0]
theorem up_vecSt (o : VecOp) (vl ew : Nat) : Up (vecSt o vl ew) := ⟨rfl, by
  have h : (vecSt o vl ew).dev.ticking = devRun.ticking := rfl
  rw [h]; decide +kernel⟩
theorem vecReady_vecSt (o : VecOp) (vl ew : Nat) (key : Nat × Nat) (h : queueOp o.word = some key ∧ vecLegal o.word = true)
    (hv : vl ≠ 0) (he : [16, 32, 64].contains ew = true) : VecReady (vecSt o vl ew) 0 key o :=
  ⟨up_vecSt o vl ew, vecHead_vecSt o vl ew key h.1, h.2, hv, he⟩


/-! ### Statements about vector instructions -/

/-- The register vs2 of a small vector instruction: 0 where the operation has no such operand. -/
def vs2For (op : Nat) : Nat := if [0x0D, 0x18, 0x19, 0x2B, 0x2C].contains op then 0 else 2

theorem witness_VectorIntegersSelectsMasks :
    (∀ e ∈ vecIntOps.map (fun e => e.2.1) ++ [0x15, 0x16, 0x0E] ++ vecCmpOps.map (fun e => e.2.1),
      VecReady (vecSt (vop e (vs2For e) 1 0)) 0 (0, e) (vop e (vs2For e) 1 0) ∧
      ∃ d' src, ((vecSt (vop e (vs2For e) 1 0)).dev.vecTaken 0).vecSrc 0 (vop e (vs2For e) 1 0) (vecAt (vecSt (vop e (vs2For e) 1 0)) 0) = (d', .ok src)) ∧
    (∀ e ∈ vecMaskOps.map (fun e => e.2.1), VecReady (vecSt (vop e (vs2For e) 1 0)) 0 (0, e) (vop e (vs2For e) 1 0)) := by
  refine ⟨fun e h => ⟨vecReady_vecSt _ _ _ _ ?_ (by decide) rfl, ok_of _ ?_⟩, fun e h => vecReady_vecSt _ _ _ _ ?_ (by decide) rfl⟩
  all_goals revert e; decide +kernel


/-- Carry stores out in order, while they succeed. -/
def runStores (t : Nat) : List (Nat × List Byte) → Dev → Option Dev
  | [], d => some d
  | w :: rest, d => match d.tileStore t w.1 w.2.length w.2 with
    | (d1, .ok _) => runStores t rest d1
    | (_, .error _) => none

theorem storedAll_of (t : Nat) (ws : List (Nat × List Byte)) (d : Dev) (h : (runStores t ws d).isSome = true) :
    ∃ d', StoredAll t ws d d' := by
  induction ws generalizing d with
  | nil => exact ⟨d, rfl⟩
  | cons w rest ih =>
    simp only [runStores] at h
    split at h
    · rename_i d1 u heq
      obtain ⟨d', h'⟩ := ih d1 h
      exact ⟨d', d1, heq, h'⟩
    · cases h

/-- Carry loads out in order, while they succeed. -/
def runLoads (t len : Nat) : List Nat → Dev → Option Dev
  | [], d => some d
  | va :: rest, d => match d.tileLoad t va len len 1 with
    | (d1, .ok _) => runLoads t len rest d1
    | (_, .error _) => none

theorem loadedAll_of (t len : Nat) (vas : List Nat) (d : Dev) (h : (runLoads t len vas d).isSome = true) :
    ∃ d' bs, LoadedAll t len vas d d' bs := by
  induction vas generalizing d with
  | nil => exact ⟨d, [], rfl, rfl⟩
  | cons va rest ih =>
    simp only [runLoads] at h
    split at h
    · rename_i d1 b heq
      obtain ⟨d', bs, h'⟩ := ih d1 h
      exact ⟨d', b ++ bs, d1, b, bs, heq, h', rfl⟩
    · cases h

/-- The result of a list of element loads that all succeed. -/
theorem loads_of (x : Dev × List (Nat × Nat) × Option (TFault × Nat)) (h : x.2.2 = none) : ∃ d vs, x = (d, vs, none) := by
  match x, h with
  | (d, vs, none), _ => exact ⟨d, vs, rfl⟩

theorem witness_VectorFloatsAndConversions :
    (∀ e ∈ vecFloatOps.map (fun e => e.2.1), VecReady (vecSt (vop e 2 1 0)) 0 (0, e) (vop e 2 1 0) ∧
      ∃ d' src, ((vecSt (vop e 2 1 0)).dev.vecTaken 0).vecSrc 0 (vop e 2 1 0) (vecAt (vecSt (vop e 2 1 0)) 0) = (d', .ok src)) ∧
    (∀ f ∈ [1, 2, 3, 7], VecReady (vecSt (vop 0x13 2 1 f)) 0 (0, 0x13) (vop 0x13 2 1 f) ∧
      ∃ d' src, ((vecSt (vop 0x13 2 1 f)).dev.vecTaken 0).vecSrc 0 (vop 0x13 2 1 f) (vecAt (vecSt (vop 0x13 2 1 f)) 0) = (d', .ok src)) ∧
    (∀ e ∈ [(0x30, 0), (0x31, 0), (0x32, 2)], VecReady (vecSt (vop e.1 e.2 1 0) 128 64) 0 (0, e.1) (vop e.1 e.2 1 0)) ∧
    128 ≤ 8192 / (16 * 2 ^ rs2Of (vop 0x32 2 1 0).word) ∧
    (VecReady (vecSt (vop 0x32 2 1 0) 129 32) 0 (0, 0x32) (vop 0x32 2 1 0) ∧
      8192 / (16 * 2 ^ rs2Of (vop 0x32 2 1 0).word) < (vecAt (vecSt (vop 0x32 2 1 0) 129 32) 0).vl) := by
  refine ⟨fun e h => ⟨vecReady_vecSt _ _ _ _ ?_ (by decide) rfl, ok_of _ ?_⟩, fun f h => ⟨vecReady_vecSt _ _ _ _ ?_ (by decide) rfl, ok_of _ ?_⟩,
    fun e h => vecReady_vecSt _ _ _ _ ?_ (by decide) rfl, ?_, vecReady_vecSt _ _ _ _ ?_ (by decide) rfl, ?_⟩
  all_goals first | (revert e; decide +kernel) | (revert f; decide +kernel) | decide +kernel

theorem witness_VectorReductions :
    (∀ k ∈ [0, 1, 2, 3, 5, 6, 7, 8, 9], VecReady (vecSt (vop 0x34 k 8 0) 8) 0 (0, 0x34) (vop 0x34 k 8 0) ∧
      redOk (rs2Of (vop 0x34 k 8 0).word) 32 8 = true) ∧
    (∀ k ∈ [0, 1, 2, 4, 5, 6, 7, 8, 9], VecReady (vecSt (vop 0x35 k 8 0) 8) 0 (0, 0x35) (vop 0x35 k 8 0) ∧
      redOk (rs2Of (vop 0x35 k 8 0).word) 32 8 = true) ∧
    (∀ e ∈ [(0x34, 2, 8, 64), (0x35, 2, 8, 64), (0x34, 3, 8, 16), (0x34, 3, 8, 64), (0x35, 4, 8, 16), (0x35, 4, 8, 64), (0x35, 4, 7, 32)],
      VecReady (vecSt (vop e.1 e.2.1 8 0) e.2.2.1 e.2.2.2) 0 (0, e.1) (vop e.1 e.2.1 8 0) ∧
      redOk (rs2Of (vop e.1 e.2.1 8 0).word) (vecAt (vecSt (vop e.1 e.2.1 8 0) e.2.2.1 e.2.2.2) 0).ew
        (vecAt (vecSt (vop e.1 e.2.1 8 0) e.2.2.1 e.2.2.2) 0).vl = false) := by
  refine ⟨fun k h => ⟨vecReady_vecSt _ _ _ _ ?_ (by decide) rfl, ?_⟩, fun k h => ⟨vecReady_vecSt _ _ _ _ ?_ (by decide) rfl, ?_⟩,
    fun e h => ⟨vecReady_vecSt _ _ _ _ ?_ ?_ ?_, ?_⟩⟩
  all_goals first | (revert k; decide +kernel) | (revert e; decide +kernel)

/-- V.SETL, V.SETA or V.SEED with its two scalar operands. -/
def cfgOp (op : Nat) (x1 x2 : W64) : VecOp := { vop op 0 0 1 with rs1 := x1, rs2 := x2 }

theorem witness_VectorScalarsAndConfiguration :
    (∀ e ∈ [(0x38, 1), (0x38, 2), (0x39, 1), (0x39, 2), (0x3A, 1), (0x3B, 1), (0x3D, 1)],
      VecReady (vecSt (vop e.1 0 1 e.2)) 0 (0, e.1) (vop e.1 0 1 e.2) ∧ formOf (vop e.1 0 1 e.2).word = e.2) ∧
    (∀ op ∈ [0x3F, 0x3C, 0x3E], ∀ x1 x2, Up (vecSt (cfgOp op x1 x2)) ∧ vecLegal (cfgOp op x1 x2).word = true ∧
      (vecSt (cfgOp op x1 x2)).dev.vecHead 0 (0, op) = some (cfgOp op x1 x2)) ∧
    ((26 : W64).toNat < 32 ∧ bits (26 : W64).toNat 3 2 = 2 ∧ bits (26 : W64).toNat 1 0 = 2 ∧
      bits (12 : W64).toNat 3 2 = 3 ∧ bits (27 : W64).toNat 1 0 = 3 ∧ 32 ≤ (32 : W64).toNat) ∧
    (-160 ≤ toInt 64 (-160 : W64).toNat ∧ toInt 64 (160 : W64).toNat ≤ 160 ∧ toInt 64 (-161 : W64).toNat < -160 ∧ 160 < toInt 64 (161 : W64).toNat) := by
  refine ⟨fun e h => ⟨vecReady_vecSt _ _ _ _ ?_ (by decide) rfl, ?_⟩,
    fun op h x1 x2 => ⟨up_vecSt _ _ _, show vecLegal (vop op 0 0 1).word = true from ?_,
      vecHead_vecSt _ _ _ _ (show queueOp (vop op 0 0 1).word = some (0, op) from ?_)⟩, ?_, ?_⟩
  all_goals first | (revert e; decide +kernel) | (clear x1 x2; revert op; decide +kernel) | decide +kernel
/-- An illegal word of each space at the head of the queue: SX outside the VC form, and a reserved field of custom-3. -/
theorem witness_VectorScalarsAndConfiguration_illegal :
    (∀ e ∈ vecCommands ++ vecConfigs, e.2.1 = 0 → vecLegal ((vop e.2.2 0 0 0).word ||| 0x02000000) = false ∧
      Up (vecSt ⟨(vop e.2.2 0 0 0).word ||| 0x02000000, 0, 0, 0, 0⟩) ∧
      (vecSt ⟨(vop e.2.2 0 0 0).word ||| 0x02000000, 0, 0, 0, 0⟩).dev.vecHead 0 e.2 = some ⟨(vop e.2.2 0 0 0).word ||| 0x02000000, 0, 0, 0, 0⟩) ∧
    (∀ k ∈ [0x08, 0x10, 0x11, 0x18, 0x19, 0x40, 0x50, 0x7F], vecLegal (vop3 k 2 1 4 3).word = false ∧ Up (vecSt (vop3 k 2 1 4 3)) ∧
      (vecSt (vop3 k 2 1 4 3)).dev.vecHead 0 (3, k) = some (vop3 k 2 1 4 3)) := by
  refine ⟨fun e h he => ⟨?_, up_vecSt _ _ _, vecHead_vecSt _ _ _ _ ?_⟩, fun k h => ⟨?_, up_vecSt _ _ _, vecHead_vecSt _ _ _ _ ?_⟩⟩
  all_goals first | (revert e; decide +kernel) | (revert k; decide +kernel)

/-- A vector load, store or table instruction at byte 0x100 of local memory. -/
def memOp (f7 vs2 : Nat) (vd : Nat := 3) : VecOp := { vop3 f7 vs2 1 0 vd 0xF000000000000100 with rs2 := 1 }
/-- The engine and the device of such an instruction once it has been taken. -/
def memVec (f7 vs2 : Nat) : Vec := vecAt (vecSt (memOp f7 vs2)) 0
def memDev (f7 vs2 : Nat) : Dev := (vecSt (memOp f7 vs2)).dev.vecTaken 0
/-- Element loads that all succeed and leave the engine as it was. -/
theorem loads_and (x : Dev × List (Nat × Nat) × Option (TFault × Nat)) (v : Vec) (h : x.2.2 = none) (hv : (x.1.tile 0).vec = v) :
    ∃ d vs, x = (d, vs, none) ∧ (d.tile 0).vec = v := by
  match x, h, hv with
  | (d, vs, none), _, hv => exact ⟨d, vs, rfl, hv⟩

theorem witness_VectorMemoryTablesSoftmax_memory :
    (∀ e ∈ [(false, 0x00), (true, 0x02)], VecReady (vecSt (memOp e.2 0)) 0 (3, e.2) (memOp e.2 0) ∧
      ∃ d' vs, (memDev e.2 0).loadElems 0 (memVec e.2 0).ew ((memVec e.2 0).addrs (memOp e.2 0) e.1) = (d', vs, none) ∧ (d'.tile 0).vec = memVec e.2 0) ∧
    (∀ e ∈ [(false, 0x01), (true, 0x03)], VecReady (vecSt (memOp e.2 0)) 0 (3, e.2) (memOp e.2 0) ∧
      ∃ d', StoredAll 0 (((memVec e.2 0).addrs (memOp e.2 0) e.1).map (fun x => (x.2, leBytes 4 (elemOf 32 ((memVec e.2 0).reg 3) x.1)))) (memDev e.2 0) d') ∧
    (VecReady (vecSt (memOp 0x08 1)) 0 (3, 0x08) (memOp 0x08 1) ∧
      ∃ d' vs, (memDev 0x08 1).loadElems 0 32 (((memVec 0x08 1).actives false).map (fun i => (i, slotVa (ocSlot (memOp 0x08 1).word) + i * 4))) = (d', vs, none) ∧
        (d'.tile 0).vec = memVec 0x08 1) ∧
    (VecReady (vecSt (memOp 0x09 1)) 0 (3, 0x09) (memOp 0x09 1) ∧
      ∃ d', StoredAll 0 [(slotVa (ocSlot (memOp 0x09 1).word), leBytes 8 ((memVec 0x09 1).reg 3))] (memDev 0x09 1) d') := by
  refine ⟨fun e h => ⟨vecReady_vecSt _ _ _ _ ?_ (by decide) rfl, loads_and _ _ ?_ ?_⟩, fun e h => ⟨vecReady_vecSt _ _ _ _ ?_ (by decide) rfl, storedAll_of _ _ _ ?_⟩,
    ⟨vecReady_vecSt _ _ _ _ ?_ (by decide) rfl, loads_and _ _ ?_ ?_⟩, ⟨vecReady_vecSt _ _ _ _ ?_ (by decide) rfl, storedAll_of _ _ _ ?_⟩⟩
  all_goals first | (revert e; decide +kernel) | decide +kernel

theorem witness_VectorMemoryTablesSoftmax_tables :
    VecReady (vecSt (vop3 0x10 0 1 0 3)) 0 (3, 0x10) (vop3 0x10 0 1 0 3) ∧
    (VecReady (vecSt (memOp 0x11 0 0)) 0 (3, 0x11) (memOp 0x11 0 0) ∧ (memOp 0x11 0 0).rs1.toNat % 64 = 0 ∧ (memOp 0x11 0 0).rs1.toNat / 2 ^ 60 = 15 ∧
      ∃ d' bs, LoadedAll 0 64 ((List.range 64).map (fun i => ((memOp 0x11 0 0).rs1.toNat + 64 * i) % 2 ^ 64)) ((vecSt (memOp 0x11 0 0)).dev.vecTaken 0) d' bs) ∧
    VecReady (vecSt (vop3 0x18 0 8 0 3)) 0 (3, 0x18) (vop3 0x18 0 8 0 3) ∧
    (∀ k ∈ [0x19, 0x1A], VecReady (vecSt (vop3 k 16 8 0 8)) 0 (3, k) (vop3 k 16 8 0 8)) ∧
    (∀ e ∈ [(0x10, 0, 3), (0x18, 0, 3), (0x19, 16, 8), (0x1A, 16, 8)],
      VecReady (vecSt (vop3 e.1 e.2.1 8 0 e.2.2) 2 64) 0 (3, e.1) (vop3 e.1 e.2.1 8 0 e.2.2)) := by
  refine ⟨vecReady_vecSt _ _ _ _ ?_ (by decide) rfl, ⟨vecReady_vecSt _ _ _ _ ?_ (by decide) rfl, ?_, ?_, loadedAll_of _ _ _ _ ?_⟩,
    vecReady_vecSt _ _ _ _ ?_ (by decide) rfl, fun k h => vecReady_vecSt _ _ _ _ ?_ (by decide) rfl, fun e h => vecReady_vecSt _ _ _ _ ?_ (by decide) rfl⟩
  all_goals first | (revert e; decide +kernel) | (revert k; decide +kernel) | decide +kernel

/-- The launch's tile with every shipped special function loaded. -/
def sfSt (o : VecOp) : State := { vecSt o with dev := (vecSt o).dev.modTile 0 (fun x => { x with sfLoaded := 0xFFFF }) }

theorem witness_VectorSpecialFunctions :
    (∀ e ∈ vecSfOps, VecReady (sfSt (vop3 (0x40 + e.2) 0 1 0 3)) 0 (3, 0x40 + e.2) (vop3 (0x40 + e.2) 0 1 0 3) ∧
      bit ((sfSt (vop3 (0x40 + e.2) 0 1 0 3)).dev.tile 0).sfLoaded e.2 = true) ∧
    (∀ slot ∈ [16, 63], VecReady (sfSt (vop3 (0x40 + slot) 0 1 0 3)) 0 (3, 0x40 + slot) (vop3 (0x40 + slot) 0 1 0 3) ∧
      bit ((sfSt (vop3 (0x40 + slot) 0 1 0 3)).dev.tile 0).sfLoaded slot = false) := by
  simp only [VecReady, Up, vecAt]; decide +kernel
theorem witness_VectorSpecialFunctions_wide (slot : Nat) (h : slot ∈ List.range 64) :
    VecReady (vecSt (vop3 (0x40 + slot) 0 1 0 3) 2 64) 0 (3, 0x40 + slot) (vop3 (0x40 + slot) 0 1 0 3) ∧
      (vecAt (vecSt (vop3 (0x40 + slot) 0 1 0 3) 2 64) 0).ew = 64 := by
  refine ⟨vecReady_vecSt _ _ _ _ ?_ (by decide) rfl, rfl⟩
  revert slot; decide +kernel

theorem witness_VectorNoOpAtZeroLength :
    (∀ e ∈ vecCommands, e.2.1 = 0 → ∀ o, o = vop e.2.2 0 0 (if 0x38 ≤ e.2.2 then 1 else 0) →
      Up (vecSt o 0) ∧ (vecSt o 0).dev.vecHead 0 e.2 = some o ∧ vecLegal o.word = true) ∧
    (∀ e ∈ vecCommands, e.2.1 = 3 → ∀ o, o = vop3 e.2.2 0 0 0 0 → Up (vecSt o 0) ∧ (vecSt o 0).dev.vecHead 0 e.2 = some o ∧ vecLegal o.word = true) ∧
    (∀ slot ∈ [16, 63], ∀ o, o = vop3 (0x40 + slot) 0 1 0 3 → (vecSt o 0).dev.vecHead 0 (3, 0x40 + slot) = some o ∧ vecLegal o.word = true) := by
  refine ⟨?_, ?_, ?_⟩
  · rintro e h he o rfl; refine ⟨up_vecSt _ _ _, vecHead_vecSt _ _ _ _ ?_, ?_⟩ <;> revert e <;> decide +kernel
  · rintro e h he o rfl; refine ⟨up_vecSt _ _ _, vecHead_vecSt _ _ _ _ ?_, ?_⟩ <;> revert e <;> decide +kernel
  · rintro k h o rfl; refine ⟨vecHead_vecSt _ _ _ _ ?_, ?_⟩ <;> revert k <;> decide +kernel

theorem witness_VectorRegisterFrame :
    VecReady (vecSt (vop 0x00 0 1 0)) 0 (0, 0x00) (vop 0x00 0 1 0) ∧ wbits (vop 0x00 0 1 0).word 13 12 ≠ 3 ∧
    ∃ u, exec (.vAdd 0) (vecSt (vop 0x00 0 1 0)) = .next u := by
  refine ⟨vecReady_vecSt _ _ _ _ ?_ (by decide) rfl, ?_, ?_⟩
  iterate 2 decide +kernel
  exact ⟨_, rfl⟩


/-! ### Statements about cranes and wharf complexes -/

/-- Segment 0 of context 5: 32 MiB of the pool from 0, readable, writable, executable and open to atomics. -/
def seg0 : SegEntry := { ctx := 5, seg := 0, dw := [0, BitVec.ofNat 64 (15 * 2 ^ 32 + 16), 0, 0] }
/-- A released item of context 5 with the words given after word 0; `typ` is its TYPE. -/
def item0 (typ : Nat) (ws : List W64) (sliceEnd last : Nat) (pos : Nat := 0) (engine : Nat := 0) : Item :=
  { ring := 1, index := 0, ctx := 5, words := BitVec.ofNat 64 typ :: ws, phase := .released, checked := true, started := true,
    pos := pos, sliceEnd := sliceEnd, last := last, engine := engine, params := List.replicate 16 1 }
/-- The device with that item in hand and segment 0 held by a translation cache. -/
def itemSt (h : Holder) (it : Item) : State :=
  st { devUp with mem := { cells := [(0x1000, 4), (0x1003, 0x40), (0x1007, 0xC0), (0x3000, 8)] }, items := [it], xlat := [(holderKey h, ⟨[seg0], []⟩), (4000, ⟨[seg0], []⟩)] }

/-- A CRANE item: KIND, OP, W5, W6 and its slice. -/
def craneIt (kind op : Nat) (w5 w6 : W64) (sliceEnd last : Nat) (pos : Nat := 0) (ps : List W64 := List.replicate 16 1) : Item :=
  { item0 6 [BitVec.ofNat 64 (kind + 256 * op), 0x1000, 0x2000, 0x3000, w5, w6, 0x4000] sliceEnd last pos kind with params := ps }
/-- The state whose crane of a kind has that item next. -/
def craneSt (it : Item) : State := itemSt (.crane 0 it.kind) it

theorem craneNext_craneSt (kind op : Nat) (w5 w6 : W64) (n l p : Nat) (ps : List W64) (hk : kind < 8) (ho : op < 16) :
    CraneNext (craneSt (craneIt kind op w5 w6 n l p ps)) 1 0 kind op (craneIt kind op w5 w6 n l p ps) := by
  have h1 : (craneIt kind op w5 w6 n l p ps).kind = kind := by
    simp [Item.kind, Item.f, Item.w, craneIt, item0, bits]; omega
  have h2 : (craneIt kind op w5 w6 n l p ps).cop = op := by
    simp [Item.cop, Item.f, Item.w, craneIt, item0, bits]; omega
  refine ⟨⟨rfl, ?_⟩, ⟨rfl, rfl⟩, (by simp [Item.typ, Item.w, craneIt, item0, bits, tCrane]), h1, h2, ?_⟩
  · exact (show devUp.ticking = true by decide +kernel)
  · simp [Dev.craneBusy, craneSt, itemSt, st]
    rfl

/-- Carry units out in order, while they succeed. -/
def runUnits (it : Item) (f : Nat → EM URes) : Nat → Nat → Dev → Option Dev
  | 0, _, d => some d
  | n + 1, u, d => match (it.eng.unit f u).go d with
    | (d1, .ok r) => runUnits it f n (u + 1) (d1.countItem it.ring it.index r.sat r.flushed)
    | (_, .error _) => none

theorem carried_of (it : Item) (f : Nat → EM URes) (n u : Nat) (d : Dev) (h : (runUnits it f n u d).isSome = true) :
    ∃ d', Carried it f n u d d' := by
  induction n generalizing u d with
  | zero => exact ⟨d, rfl⟩
  | succ n ih =>
    simp only [runUnits] at h
    split at h
    · rename_i d1 r heq
      obtain ⟨d', h'⟩ := ih _ _ h
      exact ⟨d', d1, r, heq, h'⟩
    · cases h

/-- Read waves, and write each, in order, while all succeed. -/
def runWaves (it : Item) (ss : List Nat) : List Nat → Dev → Option Dev
  | [], d => some d
  | j :: rest, d => match (it.wholePhase ss j).go d with
    | (d1, .ok ws) => if it.endsPass1 j = true ∧ (d1.facStop it).isSome = true then none
      else match d1.writeWaves (ws.map (·.2)) with
        | (d2, none) => runWaves it ss rest (d2.countWaves it (ws.map (·.2)))
        | (_, some _) => none
    | (_, .error _) => none

theorem waved_of (it : Item) (ss js : List Nat) (d : Dev) (h : (runWaves it ss js d).isSome = true) : ∃ d', Waved it ss js d d' := by
  induction js generalizing d with
  | nil => exact ⟨d, rfl⟩
  | cons j rest ih =>
    simp only [runWaves] at h
    split at h
    · rename_i d1 w heq
      split at h
      · cases h
      · rename_i hs
        split at h
        · rename_i d2 heq2
          obtain ⟨d', h'⟩ := ih _ h
          refine ⟨d', d1, w, d2, heq, ?_, heq2, h'⟩
          intro he
          cases hf : d1.facStop it with
          | none => rfl
          | some x => exact absurd ⟨he, by simp [hf]⟩ hs
        · cases h
    · cases h

/-- A WHARF item: OP, slot and W4, with a slice of one wave. -/
def wharfIt (op slot : Nat) (w4 w5 w6 w7 : W64) : Item :=
  item0 7 [BitVec.ofNat 64 (op + 2 ^ 16 * slot), 0x1000, 0x1800, w4, w5, w6, w7] 1 1
/-- The state whose complex on stack 1 has that item next. -/
def wharfSt (it : Item) : State := itemSt (.wharf 1) it
/-- A WHARF item of one position with an operation and slot. -/
def wIt (op slot : Nat) : Item :=
  if op = 4 ∨ op = 5 ∨ op = 6 then wharfIt op slot 0x3000 0x0000000100000001 0x0000000B00000002 0x5000
  else if op = 3 then wharfIt op slot 0x000000BB00000001 0x4000 0x4000 (if slot = 2 then 0x0000000100000001 else 0x5000)
  else wharfIt op slot 0x000000BB00000001 0x3F800000 0x4000 0


theorem up_st (d : Dev) (h1 : d.clocked = true) (h2 : d.ticking = true) : Up (st d) := ⟨h1, h2⟩

/-- The items of the witnesses by KIND and OP, with a slice of one unit. -/
def unitIt (e : (Nat → Nat → Instr) × Nat × Nat × Nat × (Item → Nat → EM URes)) : Item :=
  craneIt e.2.1 e.2.2.1 0x0000000100000002 0xB e.2.2.2.1 2

theorem witness_CraneUnitsAndFailures :
    (∀ e ∈ craneUnitOps, CraneNext (craneSt (unitIt e)) 1 0 e.2.1 e.2.2.1 (unitIt e) ∧
      cdiv (unitIt e).sliceEnd e.2.2.2.1 - (unitIt e).pos / e.2.2.2.1 = 1 ∧
      ∃ d', Carried (unitIt e) (e.2.2.2.2 (unitIt e)) 1 0 (craneSt (unitIt e)).dev d') ∧
    (∀ e ∈ craneUnitOps, ∃ d1 x, ((unitIt e).eng.unit (e.2.2.2.2 (unitIt e)) 0).go { (craneSt (unitIt e)).dev with xlat := [] } = (d1, .error x)) := by
  refine ⟨fun e h => ⟨craneNext_craneSt _ _ _ _ _ _ _ _ ?_ ?_, ?_, carried_of _ _ _ _ _ ?_⟩, fun e h => error_of _ ?_⟩
  all_goals revert e; decide +kernel

/-- A second slice of a sort, a compressed stream, an anchor or a histogram. -/
def sliceIt (e : (Nat → Nat → Instr) × Nat × Nat × (Item → EM URes)) : Item :=
  craneIt e.2.1 e.2.2.1 0x0000000B00000004 0x1B 2 4 1
/-- A second slice of a two-dimensional FFT of four by one points. -/
def fftIt : Item := craneIt 4 0 0x0000000100000004 1 2 8 1
/-- A digest of eight bytes, all of them after its last whole KiB. -/
def digestIt (op : Nat) : Item := craneIt 6 op 1 0 0 0 0 [0x1000, 8]

theorem digest_commits (e : Nat × Bool) (h : e ∈ [(0, false), (1, true)]) :
    ∃ d2, ((digestIt e.1).readMsg (digestIt e.1).eng 0 8).go (craneSt (digestIt e.1)).dev = (d2, .ok ()) ∧
      ∃ d3, ((digestIt e.1).eng.commit ⟨[((digestIt e.1).w 3, if e.2 then leBytes 4 (crc32c (((d2.item? 1 0).map (·.bytes)).getD [])).toNat
        else sha3 (((d2.item? 1 0).map (·.bytes)).getD []))], 0, 0⟩).go d2 = (d3, .ok ()) := by
  have h2 : ∀ e ∈ [(0, false), (1, true)], (((digestIt e.1).readMsg (digestIt e.1).eng 0 8).go (craneSt (digestIt e.1)).dev).2.isOk = true := by
    decide +kernel
  obtain ⟨d2, u, hd⟩ := ok_of _ (h2 e h)
  have h3 : ∀ e ∈ [(0, false), (1, true)],
      (((digestIt e.1).eng.commit ⟨[((digestIt e.1).w 3, if e.2 then leBytes 4 (crc32c ((((((digestIt e.1).readMsg (digestIt e.1).eng 0 8).go
          (craneSt (digestIt e.1)).dev).1.item? 1 0).map (·.bytes)).getD [])).toNat
        else sha3 ((((((digestIt e.1).readMsg (digestIt e.1).eng 0 8).go (craneSt (digestIt e.1)).dev).1.item? 1 0).map (·.bytes)).getD []))], 0, 0⟩).go
        (((digestIt e.1).readMsg (digestIt e.1).eng 0 8).go (craneSt (digestIt e.1)).dev).1).2.isOk = true := by decide +kernel
  have h4 := h3 e h
  rw [hd] at h4
  obtain ⟨d3, v, hc⟩ := ok_of _ h4
  exact ⟨d2, hd, d3, hc⟩

theorem witness_CraneSlicesAndDigests :
    (∀ e ∈ craneSliceOps, CraneNext (craneSt (sliceIt e)) 1 0 e.2.1 e.2.2.1 (sliceIt e) ∧
      (∃ d' r, (e.2.2.2 (sliceIt e)).go (craneSt (sliceIt e)).dev = (d', .ok r)) ∧
      (∃ d' x, (e.2.2.2 (sliceIt e)).go { (craneSt (sliceIt e)).dev with xlat := [] } = (d', .error x))) ∧
    CraneNext (craneSt fftIt) 1 0 4 0 fftIt ∧ (∃ d' r, (fftIt.fftSlice fftIt.eng).go (craneSt fftIt).dev = (d', .ok r)) ∧
    (∀ e ∈ [(0, false), (1, true)], CraneNext (craneSt (digestIt e.1)) 1 0 6 e.1 (digestIt e.1) ∧ (digestIt e.1).last ≤ (digestIt e.1).sliceEnd ∧
      Carried (digestIt e.1) ((digestIt e.1).digestUnit (digestIt e.1).eng) 0 0 (craneSt (digestIt e.1)).dev (craneSt (digestIt e.1)).dev ∧
      ∃ d2, ((digestIt e.1).readMsg (digestIt e.1).eng 0 8).go (craneSt (digestIt e.1)).dev = (d2, .ok ()) ∧
        ∃ d3, ((digestIt e.1).eng.commit ⟨[((digestIt e.1).w 3, if e.2 then leBytes 4 (crc32c (((d2.item? 1 0).map (·.bytes)).getD [])).toNat
          else sha3 (((d2.item? 1 0).map (·.bytes)).getD []))], 0, 0⟩).go d2 = (d3, .ok ())) := by
  refine ⟨fun e h => ⟨craneNext_craneSt _ _ _ _ _ _ _ _ ?_ ?_, ok_of _ ?_, error_of _ ?_⟩, craneNext_craneSt _ _ _ _ _ _ _ _ ?_ ?_, ok_of _ ?_,
    fun e h => ⟨craneNext_craneSt _ _ _ _ _ _ _ _ ?_ ?_, Nat.le_refl _, rfl, digest_commits e h⟩⟩
  all_goals first | (revert e; decide +kernel) | decide +kernel

/-- An index of GATHER and its row. -/
def gatherIt (r : W64) : Item := craneIt 1 0 0x0000000100000002 (0x0000000B00000000 + r) 1 2

theorem witness_CraneUnitResults :
    (∃ d1, ((gatherIt 9).gIndex (gatherIt 9).eng 0).go (craneSt (gatherIt 9)).dev = (d1, .ok 8)) ∧ 8 < (gatherIt 9).gR ∧
    (∃ d2 bs, ((gatherIt 9).eng.rd (vaAdd ((gatherIt 9).w 2) (8 * (gatherIt 9).rowBytes : Nat)) (gatherIt 9).rowBytes).go (craneSt (gatherIt 9)).dev = (d2, .ok bs)) ∧
    (∃ d1, ((gatherIt 8).gIndex (gatherIt 8).eng 0).go (craneSt (gatherIt 8)).dev = (d1, .ok 8)) ∧ (gatherIt 8).gR ≤ 8 := by
  have h : ∀ r ∈ [8, 9], ∃ d1, ((gatherIt r).gIndex (gatherIt r).eng 0).go (craneSt (gatherIt r)).dev = (d1, .ok 8) := by
    intro r hr
    refine ⟨_, Prod.ext rfl ?_⟩
    simp only [List.mem_cons, List.not_mem_nil, or_false] at hr
    rcases hr with rfl | rfl <;> rfl
  exact ⟨h 9 (by simp), by decide +kernel, ok_of _ (by decide +kernel), h 8 (by simp), by decide +kernel⟩

theorem witness_EnginesAreFenced :
    Up up ∧ (tget Crane.new up.dev.cranes (8 * 7 + 7)).fenced = false ∧ (tget Stack.new up.dev.hbmStacks 15).fenced = false ∧
    (tget Stack.new up.dev.hbmStacks 15).waves = [] ∧
    (tget Crane.new (devUp.modCrane (8 * 7 + 7) (fun c => { c with fenced := true })).cranes (8 * 7 + 7)).fenced = true ∧
    (tget Stack.new (devUp.modStack 15 (fun x => { x with fenced := true })).hbmStacks 15).fenced = true := by
  simp only [Up]; decide +kernel

/-- Operations of the WHARF witnesses with the slot of each. -/
def wharfCases : List (Nat × Nat) := [(0, 0), (1, 0), (2, 0), (3, 0), (3, 1), (3, 2), (3, 3), (4, 0), (5, 0), (6, 0), (7, 0), (8, 0)]

theorem wharfNext_of (op slot : Nat) (h : (op, slot) ∈ wharfCases) : WharfNext (wharfSt (wIt op slot)) 1 0 (wIt op slot) := by
  have hb : ∀ e ∈ wharfCases, (wIt e.1 e.2).typ = tWharf ∧ (wIt e.1 e.2).wavesRead = [] ∧
      (wharfSt (wIt e.1 e.2)).dev.waveBlocked (wIt e.1 e.2) ((wharfSt (wIt e.1 e.2)).dev.wharfStacks (wIt e.1 e.2)) = false ∧
      (wharfSt (wIt e.1 e.2)).dev.hbmStacks = [] ∧ (wharfSt (wIt e.1 e.2)).dev.ticking = true ∧ (wIt e.1 e.2).phase = .released ∧
      (wharfSt (wIt e.1 e.2)).dev.item? 1 0 = some (wIt e.1 e.2) := by decide +kernel
  obtain ⟨h1, h2, h3, h4, h5, h6, h7⟩ := hb _ h
  exact ⟨⟨rfl, h5⟩, ⟨h7, h6⟩, h1, h2, h3, by rw [h4]; simp⟩

theorem witness_WharfWavesAndFaults :
    (∀ e ∈ wharfCases, WharfNext (wharfSt (wIt e.1 e.2)) 1 0 (wIt e.1 e.2) ∧ (wIt e.1 e.2).wop = e.1 ∧ (wIt e.1 e.2).slot = e.2 ∧
      (∃ d', Waved (wIt e.1 e.2) ((wharfSt (wIt e.1 e.2)).dev.wharfStacks (wIt e.1 e.2)) (wIt e.1 e.2).sliceWaves ((wharfSt (wIt e.1 e.2)).dev.wharfBegun (wIt e.1 e.2)) d') ∧
      (wIt e.1 e.2).sliceWaves = [0]) ∧
    (∀ e ∈ wharfOps, ∃ c ∈ wharfCases, c.1 = e.2.1 ∧ e.2.2 c.2 = true) ∧
    (∃ d2 x, ((wIt 0 0).wholePhase [1] 0).go { (wharfSt (wIt 0 0)).dev with xlat := [(4000, ⟨[seg0], []⟩)] } = (d2, .error x)) ∧
    (∃ d3 x, (wharfSt (wIt 0 0)).dev.writeWaves [{ ring := 1, index := 0, wave := 0, lines := [], staged := [(2 ^ 42, [0])] }] = (d3, some x)) := by
  refine ⟨fun e h => ⟨wharfNext_of _ _ h, ?_, ?_, waved_of _ _ _ _ ?_, ?_⟩, by decide +kernel, error_of _ (by decide +kernel),
    _, _, Prod.ext rfl (Option.eq_some_of_isSome (by decide +kernel))⟩
  all_goals revert e; decide +kernel

/-- A FACTORED item of one element in hand, whose gradient is infinite when `inf`. -/
def facSt (inf : Bool) (reads : List (Nat × Nat) := []) : State :=
  { wharfSt { wIt 3 2 with sliceEnd := 3, last := 3, wavesRead := reads } with
    dev := { (wharfSt { wIt 3 2 with sliceEnd := 3, last := 3, wavesRead := reads }).dev with
      mem := { cells := if inf then [(0x1802, 0x80), (0x1803, 0x7F)] else [] } } }
def facItem : Item := { wIt 3 2 with sliceEnd := 3, last := 3 }
/-- A FACTORED item of three waves, one for each pass. -/
def facLong : Item := { facItem with words := (wIt 3 2).words.set 4 0x000000BB00004000, sliceEnd := 49152, last := 49152 }

/-- FACTORED with an infinite g ends as soon as pass 1 has. -/
theorem witness_WharfWavesAndFaults_factored :
    WharfNext (facSt true) 1 0 facItem ∧ facItem.sliceWaves = [0] ∧ (facSt true).dev.wharfStacks facItem = [1] ∧ facItem.endsPass1 0 = true ∧
    (∃ d1 ws, (facItem.wholePhase [1] 0).go ((facSt true).dev.wharfBegun facItem) = (d1, .ok ws) ∧ ∃ d3, d1.facStop facItem = some d3) := by
  refine ⟨⟨⟨rfl, by decide +kernel⟩, ⟨by decide +kernel, rfl⟩, by decide +kernel, by decide +kernel, by decide +kernel, ?_⟩,
    by decide +kernel, by decide +kernel, by decide +kernel, ?_⟩
  · rw [show (facSt true).dev.hbmStacks = [] from rfl]; simp
  · obtain ⟨d1, ws, h⟩ := ok_of ((facItem.wholePhase [1] 0).go ((facSt true).dev.wharfBegun facItem)) (by decide +kernel)
    refine ⟨d1, ws, h, some_of _ ?_⟩
    have h2 : (((facItem.wholePhase [1] 0).go ((facSt true).dev.wharfBegun facItem)).1.facStop facItem).isSome = true := by decide +kernel
    rw [h] at h2; exact h2

/-- That wave, in hand on stack 1. -/
def wave0 : Wave := { ring := 1, index := 0, wave := 0, lines := [64], staged := [(0x1000, [0, 0, 0, 0])], upTo := 1 }
/-- The state of an AXPY item in hand, with some parts of its waves read. -/
def waveIt (reads : List (Nat × Nat) := []) (dones : List (Nat × Nat) := []) : Item := { wIt 0 0 with wavesRead := reads, wavesDone := dones }
def waveSt (reads : List (Nat × Nat) := []) : State := wharfSt (waveIt reads)

theorem inHand_wharfSt (it : Item) (h : it.ring = 1) (hi : it.index = 0) (hp : it.phase = .released) : InHand (wharfSt it) 1 0 it := by
  refine ⟨?_, hp⟩
  simp [wharfSt, itemSt, st, Dev.item?, h, hi]
theorem up_wharfSt (it : Item) : Up (wharfSt it) := ⟨rfl, show devUp.ticking = true by decide +kernel⟩

/-- A part of a wave is read where its lines are free, waits where they are not, and notes a fault. -/
theorem witness_WavesAndTheirElements_read :
    (Up waveSt ∧ InHand waveSt 1 0 (wIt 0 0) ∧ (wIt 0 0).typ = tWharf ∧ 1 ∈ waveSt.dev.wharfStacks (wIt 0 0) ∧ 0 ∈ (wIt 0 0).sliceWaves ∧
      waveSt.dev.waveBlocked (wIt 0 0) [1] = false ∧ (tget Stack.new waveSt.dev.hbmStacks 1).fenced = false ∧ (wIt 0 0).factored = false ∧
      ∃ d1 w, ((wIt 0 0).readPhase 1 0).go waveSt.dev = (d1, .ok w) ∧ d1.linesHeld w = false ∧
        (d1.modStack 1 (fun x => { x with waves := [{ wave0 with ring := 2 }] })).linesHeld w = true) ∧
    (∃ d1 x va, ((wIt 0 0).readPhase 1 0).go { waveSt.dev with xlat := [(4000, ⟨[seg0], []⟩)] } = (d1, .error (.acc x va))) := by
  refine ⟨⟨up_wharfSt _, inHand_wharfSt _ rfl rfl rfl, by decide +kernel, by decide +kernel, by decide +kernel, by decide +kernel, by decide +kernel,
    by decide +kernel, ?_⟩, ?_⟩
  · obtain ⟨d1, w, h⟩ := ok_of (((wIt 0 0).readPhase 1 0).go waveSt.dev) (by decide +kernel)
    have h2 : (match ((wIt 0 0).readPhase 1 0).go waveSt.dev with
      | (d, .ok w) => !d.linesHeld w && (d.modStack 1 (fun x => { x with waves := [{ wave0 with ring := 2 }] })).linesHeld w
      | _ => false) = true := by decide +kernel
    rw [h] at h2
    simp only [Bool.and_eq_true, Bool.not_eq_true'] at h2
    exact ⟨d1, w, h, h2.1, h2.2⟩
  · obtain ⟨d1, x, h⟩ := error_of (((wIt 0 0).readPhase 1 0).go { waveSt.dev with xlat := [(4000, ⟨[seg0], []⟩)] }) (by decide +kernel)
    have h2 : (match ((wIt 0 0).readPhase 1 0).go { waveSt.dev with xlat := [(4000, ⟨[seg0], []⟩)] } with
      | (_, .error (.acc _ _)) => true
      | _ => false) = true := by decide +kernel
    rw [h] at h2
    match x, h2 with
    | .acc x va, _ => exact ⟨d1, x, va, h⟩

/-- FACTORED reads its only wave on its only complex; with a second slice, pass 3 waits for pass 2. -/
theorem witness_WavesAndTheirElements_factored :
    (Up (facSt false) ∧ InHand (facSt false) 1 0 facItem ∧ facItem.typ = tWharf ∧ facItem.factored = true ∧ 0 ∈ facItem.sliceWaves ∧ 0 ≤ facItem.pass2Wave ∧
      1 ∈ (facSt false).dev.wharfStacks facItem ∧ (facSt false).dev.waveBlocked facItem [1] = false ∧
      (∀ k ∈ ((facSt false).dev.waveSeen facItem 1 0).wharfStacks facItem, k = 1) ∧
      ∃ d1 ws, (facItem.facPhase [1] 0).go ((facSt false).dev.waveSeen facItem 1 0) = (d1, .ok ws) ∧ d1.facStop facItem = none ∧
        (∀ w ∈ ws, d1.linesHeld w.2 = false) ∧ ∃ w ∈ ws, (d1.modStack 1 (fun x => { x with waves := [{ wave0 with ring := 2, lines := w.2.lines }] })).linesHeld w.2 = true) ∧
    facLong.factored = true ∧ facLong.pass2Wave = 1 ∧ 2 ∈ facLong.sliceWaves ∧ 1 ∈ facLong.sliceWaves ∧ (1, 1) ∉ facLong.wavesDone := by
  refine ⟨⟨⟨rfl, by decide +kernel⟩, ⟨by decide +kernel, rfl⟩, by decide +kernel, by decide +kernel, by decide +kernel, by decide +kernel, by decide +kernel, by decide +kernel,
    by decide +kernel, ?_⟩, by decide +kernel, by decide +kernel, by decide +kernel, by decide +kernel, by decide +kernel⟩
  obtain ⟨d1, ws, h⟩ := ok_of ((facItem.facPhase [1] 0).go ((facSt false).dev.waveSeen facItem 1 0)) (by decide +kernel)
  have h2 : (match (facItem.facPhase [1] 0).go ((facSt false).dev.waveSeen facItem 1 0) with
    | (d, .ok ws) => (d.facStop facItem).isNone && ws.all (fun w => !d.linesHeld w.2) &&
        ws.any (fun w => (d.modStack 1 (fun x => { x with waves := [{ wave0 with ring := 2, lines := w.2.lines }] })).linesHeld w.2)
    | _ => false) = true := by decide +kernel
  rw [h] at h2
  simp only [Bool.and_eq_true, Option.isNone_iff_eq_none, List.all_eq_true, List.any_eq_true, Bool.not_eq_true'] at h2
  exact ⟨d1, ws, h, h2.1.1, h2.1.2, h2.2⟩

theorem witness_WavesAndTheirElements_write :
    (InHand waveSt 1 0 (wIt 0 0) ∧ (1, 0) ∉ (wIt 0 0).wavesRead) ∧
    (Up (waveSt [(1, 0)]) ∧ InHand (waveSt [(1, 0)]) 1 0 (waveIt [(1, 0)]) ∧ 1 ∈ (waveSt [(1, 0)]).dev.wharfStacks (waveIt [(1, 0)]) ∧
      (waveIt [(1, 0)]).waveFault = none ∧ (∀ k ∈ (waveSt [(1, 0)]).dev.wharfStacks (waveIt [(1, 0)]), ∀ j ∈ (waveIt [(1, 0)]).sliceWaves, (k, j) ∈ [(1, 0)])) ∧
    (tget Stack.new ((waveSt [(1, 0)]).dev.modStack 1 (fun x => { x with waves := [wave0] })).hbmStacks 1).waves.filter
      (fun w => w.ring == 1 && w.index == 0 && w.wave == 0) = [wave0] ∧
    (∃ d2, (waveSt [(1, 0)]).dev.writeWave wave0 = (d2, none)) ∧
    (∃ qa qy za zy, fpF32.decode 0x3F800000 = .fin qa za ∧ decodeFmt 11 7 0x40000000 = .fin qy zy) :=
  ⟨⟨inHand_wharfSt _ rfl rfl rfl, by decide +kernel⟩, ⟨up_wharfSt _, inHand_wharfSt _ rfl rfl rfl, by decide +kernel, rfl, by decide +kernel⟩,
    by decide +kernel, ⟨_, Prod.ext rfl (by decide +kernel)⟩, ⟨_, _, _, _, rfl, rfl⟩⟩
/-- A BAGSUM whose offsets descend is malformed, which its read phase finds. -/
theorem witness_WavesAndTheirElements_malformed :
    InHand (wharfSt (wIt 5 0)) 1 0 (wIt 5 0) ∧ (wIt 5 0).factored = false ∧ 1 ∈ (wharfSt (wIt 5 0)).dev.wharfStacks (wIt 5 0) ∧
    ∃ d1, ((wIt 5 0).readPhase 1 0).go { (wharfSt (wIt 5 0)).dev with mem := { cells := [(0x5000, 5)] } } = (d1, .error .invalid) := by
  refine ⟨inHand_wharfSt _ rfl rfl rfl, by decide +kernel, by decide +kernel, _, Prod.ext rfl ?_⟩
  have h2 : (match (((wIt 5 0).readPhase 1 0).go { (wharfSt (wIt 5 0)).dev with mem := { cells := [(0x5000, 5)] } }).2 with
    | .error .invalid => true
    | _ => false) = true := by decide +kernel
  revert h2
  split <;> simp_all


/-! ### Statements about rings, items and the tide -/

/-- A released item of a type, with its word 1, in hand. -/
def shortIt (typ : Nat) (w1 : W64) : Item := item0 typ [w1, 7, 0, 0, 0, 0, 0] 1 1
/-- The state in which it is in hand. -/
def shortSt (typ : Nat) (w1 : W64) : State := itemSt .harbourmaster (shortIt typ w1)

theorem inHand_shortSt (typ : Nat) (w1 : W64) : Up (shortSt typ w1) ∧ InHand (shortSt typ w1) 1 0 (shortIt typ w1) :=
  ⟨⟨rfl, (show devUp.ticking = true by decide +kernel)⟩, rfl, rfl⟩

theorem witness_ItemsTakeEffectAndRecord :
    (∀ c : Nat × W64, Up (shortSt c.1 c.2) ∧ InHand (shortSt c.1 c.2) 1 0 (shortIt c.1 c.2)) ∧
    ((shortIt 1 0).typ = tFence ∧ (shortIt 1 0).f 1 0 0 = 0) ∧ ((shortIt 1 1).typ = tFence ∧ (shortIt 1 1).f 1 0 0 = 1) ∧
    (shortIt 10 0xFFF).typ = tWait ∧ ((shortIt 9 0xFFF).typ = tSignal ∧ (shortIt 9 0xFFF).f 1 16 16 = 0) ∧
    ((shortIt 9 0x10FFF).typ = tSignal ∧ (shortIt 9 0x10FFF).f 1 16 16 = 1) ∧
    (∀ e ∈ hintOps, (shortIt 11 (BitVec.ofNat 64 e.2)).typ = tHint ∧ (shortIt 11 (BitVec.ofNat 64 e.2)).f 1 3 0 = e.2) ∧
    (itemSt .harbourmaster { shortIt 4 0 with phase := .sliceDone }).dev.item? 1 0 = some { shortIt 4 0 with phase := .sliceDone } ∧
    (shortIt 4 0).last ≤ (shortIt 4 0).sliceEnd ∧
    (itemSt .harbourmaster { shortIt 4 0 with phase := .sliceDone, last := 2 }).dev.item? 1 0 = some { shortIt 4 0 with phase := .sliceDone, last := 2 } ∧
    (itemSt .harbourmaster ((shortIt 1 0).finish 0)).dev.item? 1 0 = some ((shortIt 1 0).finish 0) ∧ ((shortIt 1 0).finish 0).phase = .finished ∧
    (itemSt .harbourmaster ((shortIt 1 0).finish 0)).dev.launch? 1 0 = none ∧ (shortIt 1 0).phase ≠ .finished ∧
    ((shortIt 1 0).finish 255).status = some 255 := by
  refine ⟨fun c => inHand_shortSt _ _, ?_⟩
  decide +kernel
theorem witness_ItemsTakeEffectAndRecord_record :
    devUp.ringState 1 ≠ 3 ∧ ((shortIt 1 0).finish 0).irq = false ∧ devUp.get F.hmRingMsi_ERR_IRQ 1 = 0 ∧
    (∃ d1, devUp.hubWrite (devUp.cqBase 1 + devUp.cqPi 1 % 2 ^ devUp.cqLog 1 * 32) (devUp.recordBytes ((shortIt 1 0).finish 0) (devUp.cqPi 1)) = .ok d1) := by
  refine ⟨by decide +kernel, by decide +kernel, by decide +kernel, ?_⟩
  obtain ⟨d1, h, _⟩ := ok_and (devUp.hubWrite (devUp.cqBase 1 + devUp.cqPi 1 % 2 ^ devUp.cqLog 1 * 32)
    (devUp.recordBytes ((shortIt 1 0).finish 0) (devUp.cqPi 1))) (fun _ => true) (by decide +kernel)
  exact ⟨d1, h⟩

/-- Some elements of a MOVE are copied, while each succeeds. -/
def runMove (it : Item) : Nat → Nat → Overwritten → Dev → Option Dev
  | 0, _, _, d => some d
  | n + 1, p, o, d => match d.moveElem it o p with
    | (d1, .ok o1) => runMove it n (p + 1) o1 d1
    | (_, .error _) => none

theorem moved_of (it : Item) (n p : Nat) (o : Overwritten) (d : Dev) (h : (runMove it n p o d).isSome = true) :
    ∃ o' d', Moved it n p o d o' d' := by
  induction n generalizing p o d with
  | zero => exact ⟨o, d, rfl, rfl⟩
  | succ n ih =>
    simp only [runMove] at h
    split at h
    · rename_i d1 u heq
      obtain ⟨o', d', h'⟩ := ih _ _ _ h
      exact ⟨o', d', d1, u, heq, h'⟩
    · cases h

/-- A MOVE of two four-byte elements by the lighter of cluster 0; the second source lies outside the segment
when the stride is large. -/
def moveIt (stride : W64) : Item :=
  { item0 4 [2, 0x1000, 0x2000, 0x3000, 0, 0, 0] 2 2 with params := [0x0000000100000002, 0x0000000100000001, 1, stride, 0, 0, 0, 0, 1, 0, 0, 0, 0] }
/-- An INLINE_WRITE of 40 bytes at a VA. -/
def inlineIt (va : W64) : Item := item0 5 [va, 40, 1, 2, 3, 4, 5] 1 1

theorem witness_MovesAndInlineWrites :
    (Up (itemSt (.cluster 0) (moveIt 1)) ∧ InHand (itemSt (.cluster 0) (moveIt 1)) 1 0 (moveIt 1) ∧ (moveIt 1).typ = tMove ∧
      ∃ o d1, Moved (moveIt 1) 2 0 (moveIt 1).overwritten (itemSt (.cluster 0) (moveIt 1)).dev o d1) ∧
    (∃ o d1, Moved (moveIt 0x1000000) 1 0 (moveIt 0x1000000).overwritten (itemSt (.cluster 0) (moveIt 0x1000000)).dev o d1 ∧ ∃ d2 x, d1.moveElem (moveIt 0x1000000) o 1 = (d2, .error x)) ∧
    (moveIt 1).dims = [2, 1, 1, 1, 1] ∧
    (Up (itemSt .harbourmaster (inlineIt 0x1000)) ∧ InHand (itemSt .harbourmaster (inlineIt 0x1000)) 1 0 (inlineIt 0x1000) ∧ (inlineIt 0x1000).typ = tInline ∧
      ∃ d', (itemSt .harbourmaster (inlineIt 0x1000)).dev.dmaWrite .harbourmaster 5 0x1000 (inlineIt 0x1000).inlineData = (d', .ok ())) ∧
    (∃ d' x, (itemSt .harbourmaster (inlineIt 0x2000000)).dev.dmaWrite .harbourmaster 5 0x2000000 (inlineIt 0x2000000).inlineData = (d', .error x)) := by
  have hu : ∀ h it, (itemSt h it).dev.ticking = true := fun h it => (show devUp.ticking = true by decide +kernel)
  refine ⟨⟨⟨rfl, hu _ _⟩, ⟨rfl, rfl⟩, by decide +kernel, moved_of _ _ _ _ _ (by decide +kernel)⟩, ?_, by decide +kernel,
    ⟨⟨rfl, hu _ _⟩, ⟨rfl, rfl⟩, by decide +kernel, ?_⟩, error_of _ (by decide +kernel)⟩
  · obtain ⟨d1, u, h⟩ := ok_of ((itemSt (.cluster 0) (moveIt 0x1000000)).dev.moveElem (moveIt 0x1000000) [] 0) (by decide +kernel)
    refine ⟨u, d1, ⟨d1, u, h, rfl, rfl⟩, ?_⟩
    have h2 : ∀ o, (((itemSt (.cluster 0) (moveIt 0x1000000)).dev.moveElem (moveIt 0x1000000) [] 0).1.moveElem (moveIt 0x1000000) o 1).2.isOk = false := by
      intro o; rfl
    have h3 := h2 u
    rw [h] at h3
    exact error_of _ h3
  · obtain ⟨d1, u, h⟩ := ok_of ((itemSt .harbourmaster (inlineIt 0x1000)).dev.dmaWrite .harbourmaster 5 0x1000 (inlineIt 0x1000).inlineData) (by decide +kernel)
    exact ⟨d1, h⟩

/-- A SEG_INVAL of context 5, WHOLE or of a range, in hand, with segment 0 held by the harbourmaster. -/
def invalSt (w1 : W64) (drain : List (Nat × Nat)) : State :=
  st { (shortSt 13 w1).dev with draining := drain }

theorem witness_ContextWithdrawal :
    (∀ w drain, Up (invalSt w drain) ∧ InHand (invalSt w drain) 1 0 (shortIt 13 w)) ∧ (shortIt 13 0x400105).typ = tSegInval ∧
    (shortIt 13 0x400105).b 1 22 = true ∧ (shortIt 13 0x105).b 1 22 = false ∧ (1, 0) ∉ (invalSt 0x105 []).dev.draining ∧
    (1, 0) ∈ (invalSt 0x105 [(1, 0)]).dev.draining ∧ (invalSt 0x105 [(1, 0)]).dev.hbmStacks = [] ∧
    (∃ k ∈ ((invalSt 0x105 [(1, 0)]).dev.modStack 1 (fun x => { x with waves := [{ wave0 with index := 1 }] })).hbmStacks, ∃ w ∈ k.2.waves, w.index = 1) ∧
    up.dev.hartUp 95 = true ∧
    ({ (invalSt 0x105 [(1, 0)]).dev with items := [shortIt 13 0x105, { wIt 0 0 with index := 1 }] } : Dev).item? 1 1 = some { wIt 0 0 with index := 1 } ∧
    (wIt 0 0).ctx = (shortIt 13 0x105).invCtx ∧
    (up.dev.ctx 5).state ≠ 2 ∧ ((devUp.modCtx 5 (fun c => { c with state := 2 })).ctx 5).state = 2 ∧
    (∀ l ∈ (devUp.modCtx 5 (fun c => { c with state := 2 })).launches, l.ctx ≠ 5) := by
  refine ⟨fun w drain => ⟨⟨rfl, (show devUp.ticking = true by decide +kernel)⟩, rfl, rfl⟩, ?_⟩
  decide +kernel

/-- Ring 9 of context 5 with 16-entry rings, in a state, with one descriptor published. -/
def ringDev (state : Nat) (cells : List Host.Cell := [(3, 1)]) : Dev :=
  ((({ devUp with mem := { cells := cells } } : Dev).setReg .hmRingCfg 9 0x8000000504040000).setRing 9 state).modRing 9
    (fun r => { r with awake := true, pi := 1, bellHit := true })

theorem witness_RingsEnableAndFetch :
    (∀ k ∈ [0, 1, 2, 3, 4, 5, 6], (ringDev k).clocked = true ∧ (ringDev k).ticking = true ∧ (ringDev k).ringState 9 = k ∧ (ringDev k).sqLog 9 = 4 ∧
      (ringDev k).cqLog 9 = 4 ∧ (ringDev k).ringCtx 9 = 5) ∧
    (∀ v ∈ [0x8000000504030000, 0x8000000511040000], bits v 20 16 < 4 ∨ 16 < bits v 20 16 ∨ bits v 28 24 < 4 ∨ 16 < bits v 28 24) ∧
    (∀ v ∈ [0x0000000504040000, 0x8000000510100000], 4 ≤ bits v 20 16 ∧ bits v 20 16 ≤ 16 ∧ 4 ≤ bits v 28 24 ∧ bits v 28 24 ≤ 16) ∧
    ((ringDev 1).ring 9).bellHit = true ∧ ((ringDev 1).ring 9).awake = true ∧ (ringDev 1).mayFetch = true ∧
    (∃ bs, ((ringDev 1).look ((ringDev 1).slotPa 9 0) 64).hubRead ((ringDev 1).slotPa 9 0) 64 = .ok bs ∧
      decide (bits (leNat (bs.take 8)) 23 16 = 0 % 256 ∧ bits (leNat (bs.take 8)) 24 24 = phaseOf 0 4) = true) ∧
    (ringDev 1).fi 9 = 0 ∧ (ringDev 1).fi 9 ≠ ((ringDev 1).ring 9).pi ∧ ((ringDev 1).fi 9 + 2 ^ 32 - ((ringDev 1).ring 9).cqCi) % 2 ^ 32 < 2 ^ (ringDev 1).cqLog 9 ∧
    (∃ bs, ((ringDev 1 []).look ((ringDev 1 []).slotPa 9 0) 64).hubRead ((ringDev 1 []).slotPa 9 0) 64 = .ok bs ∧
      decide (bits (leNat (bs.take 8)) 24 24 ≠ phaseOf 0 4) = true) ∧
    (∃ ws, ((ringDev 1).look ((ringDev 1).slotPa 9 0) 64).readSlot 9 0 = .ok ws) ∧
    ((ringDev 1 []).look ((ringDev 1 []).slotPa 9 0) 64).readSlot 9 0 = .stale ∧
    (∃ d : Dev, d.mem.poison = [(0, true)] ∧ d.readSlot 9 0 = .failed .poison) ∧ up.dev.hartUp 0 = true := by
  refine ⟨by decide +kernel, by decide +kernel, by decide +kernel, by decide +kernel, by decide +kernel, by decide +kernel, ok_and _ _ (by decide +kernel),
    by decide +kernel, by decide +kernel, by decide +kernel, ok_and _ _ (by decide +kernel), ?_, by decide +kernel,
    ⟨{ ringDev 1 with mem := { poison := [(0, true)] } }, rfl, by decide +kernel⟩, by decide +kernel⟩
  have h : (match ((ringDev 1).look ((ringDev 1).slotPa 9 0) 64).readSlot 9 0 with | .ok _ => true | _ => false) = true := by decide +kernel
  split at h
  · rename_i ws heq
    exact ⟨ws, heq⟩
  · cases h
/-- The bell line at reset's base: readable with one descriptor published, with too many, and poisoned. -/
theorem witness_RingsEnableAndFetch_bell :
    (∃ bs, ((ringDev 1 [(0, 1)]).look ((ringDev 1 [(0, 1)]).ctrlBase 9) 64).hubRead ((ringDev 1 [(0, 1)]).ctrlBase 9) 64 = .ok bs ∧
      decide (leNat (bs.take 8) % 2 ^ 32 = 1) = true) ∧
    (∃ bs, ((ringDev 1).look ((ringDev 1).ctrlBase 9) 64).hubRead ((ringDev 1).ctrlBase 9) 64 = .ok bs ∧
      decide (2 ^ (ringDev 1).sqLog 9 < (leNat (bs.take 8) % 2 ^ 32 + 2 ^ 32 - (ringDev 1).fi 9) % 2 ^ 32) = true) ∧
    (({ ringDev 1 with mem := { poison := [(0, true)] } } : Dev).hubRead ((ringDev 1).ctrlBase 9) 64).isOk = false ∧
    ((ringDev 1).ring 9).failing = none ∧ (((ringDev 1).modRing 9 (fun r => { r with failing := some 0 })).ring 9).failing = some 0 :=
  ⟨ok_and _ _ (by decide +kernel), ok_and _ _ (by decide +kernel), by decide +kernel, by decide +kernel, by decide +kernel⟩


/-! ### Statements about capacity, ticks and launches -/

theorem witness_CutStaysWithinCapacity :
    Cut.Within { d := devUp } ∧ Cut.Within { d := devUp, used := [(0, 1050)] } ∧ 0 < devUp.cap10 0 := by
  refine ⟨fun lc => .inl rfl, fun lc => ?_, by decide +kernel⟩
  by_cases h : lc = 0
  · subst h; exact .inr (by decide +kernel)
  · refine .inl ?_
    simp [tget]; omega

/-- The device some time after its latest tick. -/
def tideSt (now : Nat) (cut : Bool) : State := st { devUp with now := now, cutDone := cut }
/-- The device in COUPLED mode with port 2 in service and in the coupled set. -/
def coupledDev (now : Nat) (p : Port) : Dev :=
  (({ devUp with now := now, cutDone := true, ports := [(2, p)] } : Dev).put F.tideStatus_MODE_ACTIVE 1).put F.tideStatus_COUPLED_SET 4 |>.put F.hawPortStatus_STATE 4 2

theorem witness_CutsTicksAndBeacons :
    (Up (tideSt 15000 false) ∧ (tideSt 15000 false).dev.cutDone = false ∧ (tideSt 15000 false).dev.reset = none ∧
      15 * (tideSt 15000 false).dev.period ≤ 16 * ((tideSt 15000 false).dev.now - (tideSt 15000 false).dev.get F.tideLastTickNs_VALUE)) ∧
    16 * ((tideSt 14999 false).dev.now - (tideSt 14999 false).dev.get F.tideLastTickNs_VALUE) < 15 * (tideSt 14999 false).dev.period ∧
    ((tideSt 16000 true).dev.periodOver = true ∧ (tideSt 16000 true).dev.coupled = false) ∧ (tideSt 15999 true).dev.periodOver = false ∧
    ((coupledDev 16000 {}).coupled = true ∧ (coupledDev 16000 {}).beaconsIn = false ∧ (coupledDev 16000 {}).periodOver = true ∧
      (coupledDev 16000 {}).sentBeacon = false ∧ (coupledDev 16000 {}).closing = [] ∧ 2 ∈ (coupledDev 16000 {}).coupledPorts ∧ (coupledDev 16000 {}).portUp 2 = true) ∧
    ({ coupledDev 16000 { beacons := [0] } with sentBeacon := true } : Dev).beaconsIn = true ∧
    ((coupledDev 1000000000000 { joined := true }).get F.tideLastTickNs_VALUE + (coupledDev 1000000000000 { joined := true }).period +
      (coupledDev 1000000000000 { joined := true }).get F.tideBeaconCfg_TIMEOUT * (coupledDev 1000000000000 { joined := true }).period ≤ 1000000000000) ∧
    ((coupledDev 1000000000000 {}).get F.tideBeaconCfg_JOIN_LIMIT_MS * 10 ^ 6 ≤ 1000000000000) := by
  simp only [Up]; decide +kernel

/-- A released launch item of cluster 0 and tile 0. -/
def launchIt (typ : Nat) : Item := item0 typ [0xF000000000000000, 9, 0x00000000000003E8, 1, 0, 0, 0] 1 1
/-- The launch it becomes, not yet started, on a device. -/
def launchSt (l : Launch) (now : Nat) : State := st { devUp with launches := [l], now := now }

theorem witness_LaunchesFromStartToEnd :
    (∀ typ ∈ [2, 3], InHand (itemSt .harbourmaster (launchIt typ)) 1 0 (launchIt typ) ∧ (launchIt typ).typ = typ ∧
      (itemSt .harbourmaster (launchIt typ)).dev.launch? 1 0 = none) ∧
    (Up (launchSt { launch0 with start := none } 5) ∧ (launchSt { launch0 with start := none } 5).dev.launch? 1 0 = some { launch0 with start := none } ∧
      (launchSt { launch0 with start := none } 5).dev.mayStart { launch0 with start := none } = true) ∧
    (launchSt launch0 5).dev.mayStart { launch0 with start := none } = false ∧
    (launchSt { launch0 with start := none } 5).dev.clustersUp launch0.clusters = true ∧
    ((launchSt { launch0 with start := none } 5).dev.put F.cdLocation_STATE 1 0).clustersUp launch0.clusters = false ∧
    ((launchSt launch0 100000).dev.launch? 1 0 = some launch0 ∧ launch0.start = some 0 ∧ launch0.status = none ∧
      (launchSt launch0 100000).dev.allEnded launch0 = false ∧ launch0.stopAt ≤ (launchSt launch0 100000).dev.now ∧ (launchSt launch0 99999).dev.now < launch0.stopAt) ∧
    ((devRun.modTile 0 (fun x => { x with ecall := true })).launchOn 0 = some launch0 ∧ devRun.tileState 0 = 2 ∧
      ((devRun.modTile 0 (fun x => { x with ecall := true })).tile 0).quiet = true ∧
      ((devRun.modTile 0 (fun x => { x with ecall := true })).wbCluster 0).1.tileState 0 = 2) ∧
    (devRun.setTileState 0 3).allEnded launch0 = true := by
  have h : ∀ typ ∈ [2, 3], (launchIt typ).phase = .released ∧ (itemSt .harbourmaster (launchIt typ)).dev.item? 1 0 = some (launchIt typ) ∧
      (launchIt typ).typ = typ ∧ (itemSt .harbourmaster (launchIt typ)).dev.launch? 1 0 = none := by decide +kernel
  refine ⟨fun typ ht => ⟨⟨(h typ ht).2.1, (h typ ht).1⟩, (h typ ht).2.2⟩, ?_⟩
  simp only [Up]; decide +kernel


/-! ### Statements about control cores, jobs and gangs -/

/-- The bytes of a 64-bit word that are not 0, as memory cells. -/
def wordCells (a v : Nat) : List Host.Cell := (leBytes 8 v).zipIdx.filterMap (fun e => if e.1 = 0 then none else some (a + e.2, e.1))
/-- The launch's tile whose core is about to fetch a word from local memory, with x1 an address. -/
def coreSt (w : W32) (x1 : W64 := 0) (resv : Option (Nat × Nat) := none) : State :=
  st (({ devRun with mem := { cells := wordCells 0x10100000000 w.toNat } } : Dev).modTile 0
    (fun x => { x with core := { pc := 0xF000000000000000, x := if x1 = 0 then [] else [(1, x1)], resv := resv } }))
/-- The device once it has been fetched. -/
def coreDev (w : W32) (x1 : W64 := 0) (resv : Option (Nat × Nat) := none) : Dev := ((coreSt w x1 resv).dev.tileFetch 0 0xF000000000000000).1

theorem eq_ok {ε α : Type} [BEq α] [LawfulBEq α] (x : Except ε α) (a : α) (h : holds x (· == a) = true) : x = .ok a := by
  match x, h with
  | .ok b, h => rw [eq_of_beq h]

theorem coreAt_of (w : W32) (x1 : W64) (r : Option (Nat × Nat))
    (h : holds ((coreSt w x1 r).dev.tileFetch 0 0xF000000000000000).2 (· == w) = true) (hl : ((coreSt w x1 r).dev.coreLaunch 0).isSome = true) :
    CoreAt (coreSt w x1 r) 0 w (coreDev w x1 r) ((coreDev w x1 r).tile 0).core :=
  ⟨⟨rfl, (show devRun.ticking = true by decide +kernel)⟩, hl, Prod.ext rfl (eq_ok _ _ h), rfl⟩

/-- Words of every case of the statement about control cores: the table's, ADDI, LUI, AUIPC, JAL, BEQ, the
queued words, FENCE and FENCE.I. -/
def coreWords : List W32 :=
  coreRegOps.map (fun e => rword e.1 2 1 e.2.1 3 0x33) ++
    [0x00508193, 0x000011B7, 0x00001197, 0x008001EF, 0x00208463, 0x4C11018B, 0x0007872B, 0x0007182B, 0x0000000F, 0x0000100F]

theorem core_case (w : W32) (h : w ∈ coreWords) : CoreAt (coreSt w) 0 w (coreDev w) ((coreDev w).tile 0).core ∧
    (coreSt w).dev.coreStalls 0 w false = false ∧ (coreSt w).dev.coreStalls 0 w true = false := by
  have hall : coreWords.all (fun w => holds ((coreSt w).dev.tileFetch 0 0xF000000000000000).2 (· == w) && ((coreSt w).dev.coreLaunch 0).isSome &&
      !(coreSt w).dev.coreStalls 0 w false && !(coreSt w).dev.coreStalls 0 w true) = true := by decide +kernel
  have hw := List.all_eq_true.mp hall w h
  simp only [Bool.and_eq_true, Bool.not_eq_true'] at hw
  exact ⟨coreAt_of w 0 none hw.1.1.1 hw.1.1.2, hw.1.2, hw.2⟩

/-- A load, store, AMO, LR or SC through x1. -/
def memWords : List W32 := [0x0000B183, 0x0020B023, 0x0020B1AF, 0x1000B1AF, 0x1820B1AF]

theorem witness_ControlCoreInstructions :
    (∀ w ∈ coreWords, CoreAt (coreSt w) 0 w (coreDev w) ((coreDev w).tile 0).core ∧
      (coreSt w).dev.coreStalls 0 w false = false ∧ (coreSt w).dev.coreStalls 0 w true = false) ∧
    ((queueOp 0x4C11018B).isSome = true ∧ opc 0x0000000F = 0x0F ∧ f3Of 0x0000000F = 0 ∧ f3Of 0x0000100F = 1 ∧ opc 0x00208463 = 0x63 ∧ f3Of 0x00208463 = 0) ∧
    (opc 0x0000B183 = 0x03 ∧ ∃ d2 bs, (coreDev 0x0000B183 0xF000000000000100).tileLoad 0 0xF000000000000100 8 8 1 = (d2, .ok bs)) ∧
    (∃ d2 e, (coreDev 0x0000B183 0xF000000000000101).tileLoad 0 0xF000000000000101 8 8 1 = (d2, .error e)) ∧
    (opc 0x0020B023 = 0x23 ∧ f3Of 0x0020B023 < 4 ∧ ∃ d2 u, (coreDev 0x0020B023 0xF000000000000100).tileStore 0 0xF000000000000100 8 (leBytes 8 0) = (d2, .ok u)) ∧
    (opc 0x0020B1AF = 0x2F ∧ f3Of 0x0020B1AF = 3 ∧ amoOp? (wbits 0x0020B1AF 31 27) = some .add ∧
      ∃ d2 old, (coreDev 0x0020B1AF 0xF000000000000100).tileAtomic 0 0xF000000000000100 8 (fun old => atomicNew .add true old 0 0) = (d2, .ok old)) ∧
    (wbits 0x1000B1AF 31 27 = 2 ∧ rs2Of 0x1000B1AF = 0 ∧ resvAddr 0 0xF000000000000100 8 = .ok 0x10100000100 ∧
      (∃ bs, (coreDev 0x1000B1AF 0xF000000000000100).readPa 0x10100000100 8 = .ok bs)) ∧
    (wbits 0x1820B1AF 31 27 = 3 ∧ ((coreDev 0x1820B1AF 0xF000000000000100 (some (0x10100000100, 8))).tile 0).core.resv = some (0x10100000100, 8) ∧
      ((coreDev 0x1820B1AF 0xF000000000000100).tile 0).core.resv ≠ some (0x10100000100, 8)) := by
  have okx : ∀ {ε α : Type} (x : Except ε α), x.isOk = true → ∃ a, x = .ok a := fun x h => by
    match x, h with
    | .ok a, _ => exact ⟨a, rfl⟩
  refine ⟨core_case, by decide +kernel, ⟨by decide +kernel, ok_of _ (by decide +kernel)⟩, error_of _ (by decide +kernel),
    ⟨by decide +kernel, by decide +kernel, ok_of _ (by decide +kernel)⟩, ⟨by decide +kernel, by decide +kernel, by decide +kernel, ?_⟩,
    ⟨by decide +kernel, by decide +kernel, rfl, okx _ (by decide +kernel)⟩, by decide +kernel⟩
  have h : (match ((coreDev 0x0020B1AF 0xF000000000000100).tileAtomic 0 0xF000000000000100 8 (fun old => atomicNew .add true old 0 0)).2 with
    | .ok _ => true | _ => false) = true := by decide +kernel
  split at h
  · rename_i old heq
    exact ⟨_, old, Prod.ext rfl heq⟩
  · cases h


/-- The words FLW, FLD, FSW and FSD through x1, on local memory. -/
def coreFetched (w : W32) : Dev := coreDev w 0xF000000000000100
theorem witness_ControlCoreInstructions_floats :
    (∀ w ∈ [(0x0000A187 : W32), 0x0000B187, 0x0020A027, 0x0020B027], CoreAt (coreSt w 0xF000000000000100) 0 w (coreFetched w) ((coreFetched w).tile 0).core ∧
      (coreSt w 0xF000000000000100).dev.coreStalls 0 w true = false) ∧
    (∀ e ∈ [((0x0000A187 : W32), 4), (0x0000B187, 8)], opc e.1 = 0x07 ∧ ∃ d2 bs, (coreFetched e.1).tileLoad 0 0xF000000000000100 e.2 e.2 1 = (d2, .ok bs)) ∧
    (∃ d2 e, (coreDev 0x0000B187 0xF000000000000101).tileLoad 0 0xF000000000000101 8 8 1 = (d2, .error e)) ∧
    (∀ e ∈ [((0x0020A027 : W32), 4), (0x0020B027, 8)], opc e.1 = 0x27 ∧ ∃ d2 u, (coreFetched e.1).tileStore 0 0xF000000000000100 e.2 (leBytes e.2 0) = (d2, .ok u)) ∧
    (∃ d2 e, (coreDev 0x0020B027 0xF000000000000101).tileStore 0 0xF000000000000101 8 (leBytes 8 0) = (d2, .error e)) := by
  have hall : [(0x0000A187 : W32), 0x0000B187, 0x0020A027, 0x0020B027].all (fun w => holds ((coreSt w 0xF000000000000100).dev.tileFetch 0 0xF000000000000000).2 (· == w) &&
      ((coreSt w 0xF000000000000100).dev.coreLaunch 0).isSome && !(coreSt w 0xF000000000000100).dev.coreStalls 0 w true) = true := by decide +kernel
  refine ⟨fun w h => ?_, fun e h => ⟨?_, ok_of _ ?_⟩, error_of _ (by decide +kernel), fun e h => ⟨?_, ok_of _ ?_⟩, error_of _ (by decide +kernel)⟩
  · have hw := List.all_eq_true.mp hall w h
    simp only [Bool.and_eq_true, Bool.not_eq_true'] at hw
    exact ⟨coreAt_of w _ none hw.1.1 hw.1.2, hw.2⟩
  all_goals revert e; decide +kernel

/-- The device about to perform an AMO on the pool, with a wave that holds the line when `locked`. -/
def poolAmoDev (locked : Bool) : Dev :=
  ({ coreDev 0x0020B1AF 0x1000 with xlat := [(holderKey (.cluster 0), ⟨[seg0], []⟩), (4000, ⟨[seg0], []⟩)] } : Dev).modStack 1
    (fun x => { x with waves := if locked then [wave0] else [] })
/-- An AMO waits for a locked line and fails where it is misaligned; LR and SC fail outside own local memory, on
poison and, for SC, on a poisoned unit. -/
theorem witness_ControlCoreInstructions_failures :
    (match ((poolAmoDev true).tileAtomic 0 0x1000 8 (fun old => atomicNew .add true old 0 0)).2 with | .wait => true | _ => false) = true ∧
    (match ((poolAmoDev false).tileAtomic 0 0x1000 8 (fun old => atomicNew .add true old 0 0)).2 with | .ok _ => true | _ => false) = true ∧
    (match ((coreDev 0x0020B1AF 0xF000000000000101).tileAtomic 0 0xF000000000000101 8 (fun old => atomicNew .add true old 0 0)).2 with
      | .fail _ => true | _ => false) = true ∧
    (∀ e ∈ [(0xF000000000000101, TFault.misaligned), (0xF000000000100000, .segment), (0x1000, .segment)], resvAddr 0 e.1 8 = .error e.2) ∧
    (({ coreDev 0x1000B1AF 0xF000000000000100 with mem := { poison := [(0x10100000100, true)] } } : Dev).readPa 0x10100000100 8).isOk = false ∧
    (({ coreDev 0x1820B1AF 0xF000000000000100 with mem := { poison := [(0x10100000100, true)] } } : Dev).writePa 0x10100000100 (leBytes 4 0)).isOk = false ∧
    ((coreDev 0x1820B1AF 0xF000000000000100).writePa 0x10100000100 (leBytes 4 0)).isOk = true := by
  refine ⟨by decide +kernel, by decide +kernel, by decide +kernel, ?_, by decide +kernel, by decide +kernel, by decide +kernel⟩
  simp only [List.mem_cons, List.not_mem_nil, or_false]
  rintro e (rfl | rfl | rfl) <;> rfl

/-- Words that end or trap a program. -/
def endWords : List W32 := [0x00000073, 0x00100073, 0x0001805B, 0x0000000B + 0x3C000000, 0xFE0081B3]

theorem witness_ProgramEndsAndTraps :
    (∀ w ∈ endWords, CoreAt (coreSt w) 0 w (coreDev w) ((coreDev w).tile 0).core ∧ (coreSt w).dev.coreStalls 0 w false = false) ∧
    (coreSt 0x00100073).dev.tileDebug = false ∧ (devRun.put F.pilDebug_SCOPE 1).tileDebug = true ∧
    (opc 0x0001805B = 0x5B ∧ opc 0x3C00000B = 0x0B ∧ queueOp 0x3C00000B = none ∧ opc 0xFE0081B3 = 0x33 ∧ f7Of 0xFE0081B3 = 0x7F) ∧
    devRun.launchOn 0 = some launch0 ∧
    ((coreDev 0x3C00000B).tile 0).vec.queue = [] ∧ (((coreDev 0x3C00000B).setVec 0 { queue := [vop 0 2 1 0] }).tile 0).vec.queue ≠ [] ∧
    rvDecode ((coreDev 0xFE0081B3).coreCfg 0 launch0) ((coreDev 0xFE0081B3).tile 0).core 0xFE0081B3 = .illegal := by
  have hall : endWords.all (fun w => holds ((coreSt w).dev.tileFetch 0 0xF000000000000000).2 (· == w) && ((coreSt w).dev.coreLaunch 0).isSome &&
      !(coreSt w).dev.coreStalls 0 w false) = true := by decide +kernel
  refine ⟨fun w h => ?_, by decide +kernel⟩
  have hw := List.all_eq_true.mp hall w h
  simp only [Bool.and_eq_true, Bool.not_eq_true'] at hw
  exact ⟨coreAt_of w 0 none hw.1.1 hw.1.2, hw.2⟩

/-- An F32 operand at the start of local memory, described at byte 0x1000; a job of one element by one by one
described at 0x2000, and one whose M is too large at 0x3000. -/
def jobCells : List Host.Cell :=
  wordCells 0x10100001000 0xF000000000000000 ++ wordCells 0x10100001018 11 ++ wordCells 0x10100002000 0x100000001 ++
  wordCells 0x10100002008 1 ++ wordCells 0x10100002010 (0x1000 + 0x1000 * 2 ^ 20 + 0x1000 * 2 ^ 40) ++
  wordCells 0x10100003000 0x101000001 ++ wordCells 0x10100003010 (0x1000 + 0x1000 * 2 ^ 20 + 0x1000 * 2 ^ 40)
/-- The tile with a matrix instruction at the head of its queue, and jobs. -/
def matSt (o : MatOp) (seq : Nat) (jobs : List Job) : State :=
  st (({ devRun with mem := { cells := jobCells } } : Dev).modTile 0 (fun x => { x with mat := { seq := seq, jobs := jobs, queue := [o] } }))
/-- The job that stands at 0x2000. -/
def job0 (seq state : Nat) : Job :=
  { jobOf seq [0x100000001, 1, 0, 0] [0xF000000000000000, 0, 0, 11] [0xF000000000000000, 0, 0, 11] [0xF000000000000000, 0, 0, 11] with state := state }
/-- An X.MMA, X.WAIT or X.STAT of an operand. -/
def mop (f7 f3 : Nat) (v : W64) : MatOp := ⟨rword f7 0 15 f3 3 0x2B, 0, v⟩

theorem up_matSt (o : MatOp) (seq : Nat) (jobs : List Job) : Up (matSt o seq jobs) := ⟨rfl, (show devRun.ticking = true by decide +kernel)⟩

theorem witness_MatrixJobAdmission :
    (Up (matSt (mop 0 0 0xF000000000002000) 0 []) ∧ (matSt (mop 0 0 0xF000000000002000) 0 []).dev.runsGangs 0 = false ∧
      (matSt (mop 0 0 0xF000000000002000) 0 []).dev.matHead 0 0 = some (mop 0 0 0xF000000000002000)) ∧
    8 ≤ ((matSt (mop 0 0 0) 8 ((List.range 8).map (fun k => job0 (8 - k) 0))).dev.tile 0).mat.outstanding ∧
    ((matSt (mop 0 0 0) 0 []).dev.tile 0).mat.outstanding < 8 ∧
    (∃ d n, (matSt (mop 0 0 0) 0 []).dev.mma 0 0xF000000000002000 = (d, .token n)) ∧
    (∃ jw a, (matSt (mop 0 0 0) 0 []).dev.mmaWords 0 0x2000 8 = .ok jw ∧ (matSt (mop 0 0 0) 0 []).dev.mmaWords 0 (bits (jw.getD 2 0) 19 0) 4 = .ok a ∧
      decide (bits (jw.getD 2 0) 19 0 % 32 = 0 ∧ bits (jw.getD 2 0) 39 20 = bits (jw.getD 2 0) 19 0 ∧ bits (jw.getD 2 0) 59 40 = bits (jw.getD 2 0) 19 0 ∧
        ∀ n ∈ List.range 10, 1 ≤ n → jobBreaks n jw [a, a, a] (jobOf 1 jw a a a) = false) = true) ∧
    (∃ jw a, (matSt (mop 0 0 0) 0 []).dev.mmaWords 0 0x3000 8 = .ok jw ∧ (matSt (mop 0 0 0) 0 []).dev.mmaWords 0 (bits (jw.getD 2 0) 19 0) 4 = .ok a ∧
      decide (jobBreaks 2 jw [a, a, a] (jobOf 1 jw a a a) = true ∧ jobBreaks 1 jw [a, a, a] (jobOf 1 jw a a a) = false) = true) ∧
    (∃ d e va, (matSt (mop 0 0 1) 0 []).dev.mma 0 1 = (d, .fault e va)) := by
  have two : ∀ (d : Dev) (off : Nat) (p : List Nat → List Nat → Bool),
      holds (d.mmaWords 0 off 8) (fun jw => holds (d.mmaWords 0 (bits (jw.getD 2 0) 19 0) 4) (p jw)) = true →
      ∃ jw a, d.mmaWords 0 off 8 = .ok jw ∧ d.mmaWords 0 (bits (jw.getD 2 0) 19 0) 4 = .ok a ∧ p jw a = true := by
    intro d off p h
    obtain ⟨jw, h1, h2⟩ := ok_and _ _ h
    obtain ⟨a, h3, h4⟩ := ok_and _ _ h2
    exact ⟨jw, a, h1, h3, h4⟩
  refine ⟨⟨up_matSt _ _ _, by decide +kernel⟩, by decide +kernel, by decide +kernel, ?_, two _ _ _ (by decide +kernel), two _ _ _ (by decide +kernel), ?_⟩
  rotate_left
  · have h : (match ((matSt (mop 0 0 1) 0 []).dev.mma 0 1).2 with | .fault _ _ => true | _ => false) = true := by decide +kernel
    split at h
    · next e va h' => exact ⟨_, e, va, Prod.ext rfl h'⟩
    · cases h
  have h : (match ((matSt (mop 0 0 0) 0 []).dev.mma 0 0xF000000000002000).2 with | .token _ => true | _ => false) = true := by decide +kernel
  split at h
  · rename_i n heq
    exact ⟨_, n, Prod.ext rfl heq⟩
  · cases h

/-- A job described at 0x4000 with its fields of word 0, a second descriptor offset that is misaligned and, in
word 3, a rounding code. -/
def oddCells (w0 w3 : Nat) : List Host.Cell :=
  wordCells 0x10100004000 w0 ++ wordCells 0x10100004010 (0x1000 + 0x1001 * 2 ^ 20 + 0x1000 * 2 ^ 40) ++ wordCells 0x10100004018 w3
def oddDev (w0 w3 : Nat) : Dev := { (matSt (mop 0 0 0) 0 []).dev with mem := { cells := jobCells ++ oddCells w0 w3 } }
/-- Descriptors that are misaligned: one that breaks condition 2, one that breaks 8, and one that breaks neither. -/
theorem witness_MatrixJobAdmission_misaligned :
    (∃ jw, (oddDev 0x101000001 0x18).mmaWords 0 0x4000 8 = .ok jw ∧ decide (bits (jw.getD 2 0) 39 20 % 32 ≠ 0 ∧ jobCond 2 jw = true ∧ jobCond 1 jw = false) = true) ∧
    (∃ jw, (oddDev 1 0x18).mmaWords 0 0x4000 8 = .ok jw ∧ decide (bits (jw.getD 2 0) 39 20 % 32 ≠ 0 ∧ jobCond 8 jw = true ∧ jobCond 1 jw = false ∧ jobCond 2 jw = false) = true) ∧
    (∃ jw, (oddDev 1 0).mmaWords 0 0x4000 8 = .ok jw ∧ decide (bits (jw.getD 2 0) 39 20 % 32 ≠ 0 ∧ jobCond 1 jw = false ∧ jobCond 2 jw = false ∧ jobCond 8 jw = false ∧ jobCond 9 jw = false) = true) ∧
    ((0xF000000000100000 : W64).toNat % 64 = 0 ∧ ¬ ((0xF000000000100000 : W64).toNat / 2 ^ 60 = 15 ∧ (0xF000000000100000 : W64).toNat % 2 ^ 60 < 2 ^ 20)) ∧
    (match ((oddDev 1 0).mma 0 0xF000000000004000).2 with | .ended => true | _ => false) = true :=
  ⟨ok_and _ _ (by decide +kernel), ok_and _ _ (by decide +kernel), ok_and _ _ (by decide +kernel), by decide +kernel, by decide +kernel⟩

/-- The tile with a job in a state. -/
def jobSt (state : Nat) (seq : Nat := 1) : State := matSt (mop 0 1 1) seq [job0 1 state]

theorem witness_MatrixJobsRunAndReport :
    (∀ k ∈ [0, 1, 2], ((jobSt k).dev.tile 0).mat.job? 1 = some (job0 1 k) ∧ (jobSt k).dev.launchOn 0 = some launch0 ∧ (jobSt k).dev.tileState 0 = 2 ∧
      (jobSt k).dev.runsGangs 0 = false) ∧ Up (jobSt 0) ∧
    (((jobSt 0).dev.tile 0).mat.canStart ((jobSt 0).dev.cycles 0) (job0 1 0) = true ∧ ∃ d bs, (jobSt 0).dev.jobCompute 0 (job0 1 0) = (d, bs, none)) ∧
    (∃ k ∈ ((matSt (mop 0 1 1) 2 [job0 2 0, job0 1 0]).dev.tile 0).mat.jobs, k.seq < 2 ∧ k.state = 0 ∧ k.idle = false) ∧
    ((job0 1 1).idle = false ∧ (job0 1 1).fault = none ∧ (jobSt 1).dev.cycles 0 < (job0 1 1).start + (job0 1 1).cycles ∧
      (job0 1 1).start + (job0 1 1).cycles ≤ ({ (jobSt 1).dev with now := 100000 } : Dev).cycles 0 ∧
      (∀ k ∈ ((jobSt 1).dev.tile 0).mat.jobs, ¬ k.seq < 1) ∧ ∃ d, (jobSt 1).dev.jobAdvance 0 1 (job0 1 1).todo.length = (d, true)) ∧
    (∀ e ∈ [(0, 1, 1), (0, 2, 2), (1, 2, 3), (2, 2, 4)], (matSt (mop e.1 e.2.1 1) 1 [job0 1 2]).dev.matHead 0 e.2.2 = some (mop e.1 e.2.1 1)) ∧
    ((matSt (mop 0 1 1) 9 []).dev.tile 0).mat.seq = 1 + 8 ∧ ((jobSt 2).dev.tile 0).mat.seq < 1 + 8 := by
  refine ⟨by decide +kernel, up_matSt _ _ _, ⟨by decide +kernel, ?_⟩, ⟨job0 1 0, by decide +kernel⟩, ?_, by decide +kernel⟩
  · have h : ((jobSt 0).dev.jobCompute 0 (job0 1 0)).2.2 = none := by decide +kernel
    exact ⟨_, _, Prod.ext rfl (Prod.ext rfl h)⟩
  · exact ⟨by decide +kernel, by decide +kernel, by decide +kernel, by decide +kernel, by decide +kernel, _, rfl⟩

/-- A computed block whose output cannot be written, a job's fault, and the tokens that X.WAIT and X.STAT take. -/
theorem witness_MatrixJobsRunAndReport_ends :
    (∃ d, (matSt (mop 0 1 1) 1 [{ job0 1 1 with todo := [{ bytes := [(0x2000000, 0, 0)], sat := 0, flushed := 0 }] }]).dev.jobAdvance 0 1 1 = (d, false)) ∧
    (∃ d, (jobSt 1).dev.jobAdvance 0 1 0 = (d, true)) ∧ ({ job0 1 1 with fault := some (2, 0x13, 0) } : Job).fault = some (2, 0x13, 0) ∧
    ((jobSt 0).dev.jobProgress 0 1).2 = true ∧ ((jobSt 2).dev.tile 0).mat.tokenOk 1 = true ∧
    ((jobSt 0).dev.tile 0).mat.waitValue 1 = none ∧ (((jobSt 2).dev.tile 0).mat.waitValue 1).isSome = true := by
  refine ⟨⟨_, Prod.ext rfl (by decide +kernel)⟩, ⟨_, rfl⟩, rfl, by decide +kernel, by decide +kernel, by decide +kernel, by decide +kernel⟩

/-- A launch of one gang of two live threads on tile 0. -/
def gangLaunch0 : Launch := { launch0 with gangs := true, g := 1, pend := 0x8000 }
/-- Two threads at the start of local memory whose x1 is an address; the other thirty have exited. -/
def gang0 (x1 : W64 := 0) : Gang :=
  { idx := 0, active := true, started := true, threads :=
      List.replicate 2 { hart := { pc := 0xF000000000000000, x := if x1 = 0 then [] else [(1, x1)] } } ++ List.replicate 30 { state := 3 } }
/-- The device on which that launch runs. -/
def devGang : Dev := ({ devUp with launches := [gangLaunch0] } : Dev).setTileState 0 2
/-- The tile about to issue a word for that gang. -/
def gangSt (w : W32) (x1 : W64 := 0) (mat : Matrix := {}) : State :=
  st (({ devGang with mem := { cells := wordCells 0x10100000000 w.toNat } } : Dev).modTile 0
    (fun x => { x with gangs := [gang0 x1], mat := mat }))
/-- The issue and the device it leaves. -/
def issue0 (w : W32) (x1 : W64 := 0) : Issue := ⟨gangLaunch0, gang0 x1, [0, 1], 0xF000000000000000, false, w⟩
def gangFetched (w : W32) (x1 : W64 := 0) (mat : Matrix := {}) : Dev := ((gangSt w x1 mat).dev.tileFetch 0 0xF000000000000000).1

theorem gangNext_gangSt (w : W32) (x1 : W64) (mat : Matrix) (h1 : (gangSt w x1 mat).dev.gangLaunch 0 = some gangLaunch0)
    (h2 : ((gangSt w x1 mat).dev.tile 0).nextGang = some (gang0 x1))
    (h3 : (gang0 x1).group = some ([0, 1], 0xF000000000000000, false))
    (h4 : holds ((gangSt w x1 mat).dev.tileFetch 0 0xF000000000000000).2 (· == w) = true) :
    (gangSt w x1 mat).dev.gangNext 0 = (gangFetched w x1 mat, .issue (issue0 w x1)) := by
  have h5 : (gangSt w x1 mat).dev.tileFetch 0 0xF000000000000000 = (gangFetched w x1 mat, .ok w) := Prod.ext rfl (eq_ok _ _ h4)
  simp only [Dev.gangNext, h1, h2, h3, h5, issue0]

theorem up_gangSt (w : W32) (x1 : W64) (mat : Matrix) : Up (gangSt w x1 mat) :=
  ⟨rfl, (show devGang.ticking = true by decide +kernel)⟩

/-- What `gangNext_gangSt` asks of a word, as a Boolean. -/
def issues (w : W32) (x1 : W64 := 0) (mat : Matrix := {}) : Bool :=
  (gangSt w x1 mat).dev.gangLaunch 0 == some gangLaunch0 && ((gangSt w x1 mat).dev.tile 0).nextGang == some (gang0 x1) &&
  (gang0 x1).group == some ([0, 1], 0xF000000000000000, false) &&
  holds ((gangSt w x1 mat).dev.tileFetch 0 0xF000000000000000).2 (· == w)

theorem gangNext_of (w : W32) (x1 : W64) (mat : Matrix) (h : issues w x1 mat = true) :
    (gangSt w x1 mat).dev.gangNext 0 = (gangFetched w x1 mat, .issue (issue0 w x1)) := by
  simp only [issues, Bool.and_eq_true, beq_iff_eq] at h
  exact gangNext_gangSt w x1 mat h.1.1.1 h.1.1.2 h.1.2 h.2

theorem groupAt_of (w : W32) (x1 : W64) (mat : Matrix) (h : issues w x1 mat = true) :
    GroupAt (gangSt w x1 mat) 0 (issue0 w x1) ((gangFetched w x1 mat).gangIssued 0 (issue0 w x1)) :=
  ⟨up_gangSt w x1 mat, _, gangNext_of w x1 mat h, rfl⟩

/-- The matrix words of the token statement with their operation. -/
def tokenWords : List (W32 × Nat) := [(rword 0 0 0 1 3 0x2B, 1), (rword 0 0 0 2 3 0x2B, 2), (rword 1 0 0 2 3 0x2B, 3), (rword 2 0 0 2 3 0x2B, 4)]

theorem witness_TokenFormsThatTrap :
    ((2 : W64).toNat / 2 ^ 32 = 0 ∧ ((matSt (mop 0 1 2) 1 []).dev.tile 0).mat.seq < (2 : W64).toNat ∧ (0 : W64).toNat = 0 ∧ (0x100000000 : W64).toNat / 2 ^ 32 ≠ 0) ∧
    (∀ e ∈ [(0, 1, 1), (0, 2, 2), (1, 2, 3), (2, 2, 4)], ∀ v, Up (matSt (mop e.1 e.2.1 v) 1 []) ∧ (mop e.1 e.2.1 v).rs1 = v) ∧
    (∀ e ∈ [(0, 1, 1), (0, 2, 2), (1, 2, 3), (2, 2, 4)], (matSt (mop e.1 e.2.1 2) 1 []).dev.matHead 0 e.2.2 = some (mop e.1 e.2.1 2)) ∧
    (∀ e ∈ tokenWords, GroupAt (gangSt e.1) 0 (issue0 e.1) ((gangFetched e.1).gangIssued 0 (issue0 e.1)) ∧ (gangSt e.1).dev.runsGangs 0 = true ∧
      queueOp (issue0 e.1).word = some (1, e.2) ∧ (issue0 e.1).g.getU (rs1Of (issue0 e.1).word) = 0) := by
  have h : ∀ e ∈ tokenWords, issues e.1 = true ∧ (gangSt e.1).dev.runsGangs 0 = true ∧ queueOp (issue0 e.1).word = some (1, e.2) ∧
      (issue0 e.1).g.getU (rs1Of (issue0 e.1).word) = 0 := by decide +kernel
  exact ⟨by decide +kernel, fun e _ v => ⟨up_matSt _ _ _, rfl⟩, by decide +kernel, fun e he => ⟨groupAt_of e.1 0 {} (h e he).1, (h e he).2⟩⟩

/-- A gang whose two threads hold an X.MMA, or an X.WAIT of token 1, whose wait is over. -/
def heldGang (mma : Bool) : Gang :=
  { gang0 with threads := List.replicate 2 { hart := { pc := 0xF000000000000000 }, state := 2, held := some { seq := 1, mma := mma, val := 1, word := 0x2B } } ++
      List.replicate 30 { state := 3 } }
def heldSt (mma : Bool) : State := st (devGang.modTile 0 (fun x => { x with gangs := [heldGang mma], mat := { seq := 1, jobs := [job0 1 2] } }))
theorem witness_held (mma : Bool) : Up (heldSt mma) ∧ (heldSt mma).dev.runsGangs 0 = true ∧
    (heldSt mma).dev.heldIssue 0 mma = some (⟨gangLaunch0, heldGang mma, [0, 1], 0xF000000000000000, false, 0x2B⟩, 1) ∧
    (heldSt mma).dev.heldIssue 0 (!mma) = none := by
  refine ⟨⟨rfl, (show devGang.ticking = true by decide +kernel)⟩, ?_⟩
  cases mma <;> decide +kernel
/-- A group's X.MMA, X.WAIT and X.STAT with nothing held before them, and an X.MMA that must wait. -/
theorem witness_MatrixJobsRunAndReport_groups :
    (∀ e ∈ (rword 0 0 0 0 3 0x2B, 0) :: tokenWords, GroupAt (gangSt e.1) 0 (issue0 e.1) ((gangFetched e.1).gangIssued 0 (issue0 e.1)) ∧
      (gangSt e.1).dev.heldIssue 0 true = none ∧ (gangSt e.1).dev.heldIssue 0 false = none ∧ queueOp (issue0 e.1).word = some (1, e.2)) ∧
    (match ((matSt (mop 0 0 0) 8 ((List.range 8).map (fun k => job0 (8 - k) 0))).dev.mma 0 0).2 with | .wait => true | _ => false) = true := by
  have h : ∀ e ∈ (rword 0 0 0 0 3 0x2B, 0) :: tokenWords, issues e.1 = true ∧ (gangSt e.1).dev.heldIssue 0 true = none ∧
      (gangSt e.1).dev.heldIssue 0 false = none ∧ queueOp (issue0 e.1).word = some (1, e.2) := by decide +kernel
  exact ⟨fun e he => ⟨groupAt_of e.1 0 {} (h e he).1, (h e he).2⟩, by decide +kernel⟩

/-- Custom-2 words by class and code: the uniform operations, branches, votes, shuffles and others. -/
def gangWords : List (W32 × Nat × Nat) :=
  (List.range 11).map (fun k => (rword k 2 1 2 3 0x5B, 2, k)) ++ [4, 5, 6, 7].map (fun k => (rword 0 2 1 k 8 0x5B, k, 0)) ++
  [(rword 0 5 1 3 3 0x5B, 3, 0), (rword 0x18 0 1 0 3 0x5B, 0, 0x18), (rword 0x19 0 1 0 3 0x5B, 0, 0x19), (rword 8 0 1 0 3 0x5B, 0, 8),
   (rword 9 0 1 0 3 0x5B, 0, 9), (rword 10 0 1 0 3 0x5B, 0, 10), (rword 0x10 2 1 0 3 0x5B, 0, 0x10), (rword 0x11 2 1 0 3 0x5B, 0, 0x11),
   (rword 0 0 15 0 0 0x5B, 0, 0), (rword 1 0 0 0 0 0x5B, 0, 1), (rword 2 0 0 0 0 0x5B, 0, 2)]

theorem gang_case (e : W32 × Nat × Nat) (h : e ∈ gangWords) :
    GroupAt (gangSt e.1) 0 (issue0 e.1) ((gangFetched e.1).gangIssued 0 (issue0 e.1)) ∧ gangOp (issue0 e.1).word = some e.2 := by
  have hall : ∀ e ∈ gangWords, issues e.1 = true ∧ gangOp (issue0 e.1).word = some e.2 := by decide +kernel
  exact ⟨groupAt_of e.1 0 {} (hall e h).1, (hall e h).2⟩

theorem witness_GangUniformVotesAndShuffles :
    (∀ e ∈ gangWords, GroupAt (gangSt e.1) 0 (issue0 e.1) ((gangFetched e.1).gangIssued 0 (issue0 e.1)) ∧ gangOp (issue0 e.1).word = some e.2) ∧
    (∀ e ∈ uniformOps, ∃ w ∈ gangWords, w.2 = (2, e.2.1)) ∧
    (∀ e ∈ uniformBranches, ∃ w ∈ gangWords, w.2 = (e.2.1, 0) ∧ ((issue0 w.1).pc + immB (issue0 w.1).word).toNat % 4 = 0) :=
  ⟨gang_case, by decide +kernel, by decide +kernel⟩

/-- A taken uniform branch to a misaligned target. -/
theorem witness_GangUniformVotesAndShuffles_misaligned :
    ∀ k ∈ [4, 7], GroupAt (gangSt (rword 0 2 1 k 10 0x5B)) 0 (issue0 (rword 0 2 1 k 10 0x5B))
        ((gangFetched (rword 0 2 1 k 10 0x5B)).gangIssued 0 (issue0 (rword 0 2 1 k 10 0x5B))) ∧ gangOp (rword 0 2 1 k 10 0x5B) = some (k, 0) ∧
      ((issue0 (rword 0 2 1 k 10 0x5B)).pc + immB (rword 0 2 1 k 10 0x5B)).toNat % 4 ≠ 0 ∧
      ∃ e ∈ uniformBranches, e.2.1 = k ∧ e.2.2 (gang0.getU 1) (gang0.getU 2) = true := by
  have h : ∀ k ∈ [4, 7], issues (rword 0 2 1 k 10 0x5B) = true ∧ gangOp (rword 0 2 1 k 10 0x5B) = some (k, 0) ∧
      ((issue0 (rword 0 2 1 k 10 0x5B)).pc + immB (rword 0 2 1 k 10 0x5B)).toNat % 4 ≠ 0 ∧
      ∃ e ∈ uniformBranches, e.2.1 = k ∧ e.2.2 (gang0.getU 1) (gang0.getU 2) = true := by decide +kernel
  exact fun k hk => ⟨groupAt_of _ 0 {} (h k hk).1, (h k hk).2⟩

/-- Groups' atomics of the list succeed one after another. -/
def runAtomics (t : Nat) (i : Issue) (op : AtomicOp) (wide : Bool) : List Nat → Dev → Option Dev
  | [], d => some d
  | n :: rest, d => match d.tileAtomic t ((i.hart n).getX (rs1Of i.word)).toNat (if wide then 8 else 4)
      (fun old => atomicNew op wide old ((i.hart n).getX (rs2Of i.word)).toNat ((i.hart n).getX (rdOf i.word)).toNat)
      (i.group.any (fun m => m < n && ((i.hart m).getX (rs1Of i.word)).toNat == ((i.hart n).getX (rs1Of i.word)).toNat)) with
    | (d1, .ok old) => runAtomics t i op wide rest (d1.setThread t i.g.idx n
        ((((d1.gang? t i.g.idx).getD i.g).thread n).hart.setX (rdOf i.word) (amoOld wide old)).retire)
    | _ => none

theorem atomicsDone_of (t : Nat) (i : Issue) (op : AtomicOp) (wide : Bool) (ns : List Nat) (d : Dev)
    (h : (runAtomics t i op wide ns d).isSome = true) : ∃ d', AtomicsDone t i op wide ns d d' := by
  induction ns generalizing d with
  | nil => exact ⟨d, rfl⟩
  | cons n rest ih =>
    simp only [runAtomics] at h
    split at h
    · rename_i d1 old heq
      obtain ⟨d', h'⟩ := ih _ h
      exact ⟨d', d1, old, heq, h'⟩
    · cases h

/-- Accesses of the threads of a list succeed one after another. -/
def runThreads (f : Dev → Nat → Dev × Except (TFault × Nat) Unit) : List Nat → Dev → Option Dev
  | [], d => some d
  | n :: rest, d => match f d n with
    | (d1, .ok ()) => runThreads f rest d1
    | _ => none

theorem threadsDone_of (f : Dev → Nat → Dev × Except (TFault × Nat) Unit) (ns : List Nat) (d : Dev) (h : (runThreads f ns d).isSome = true) :
    ∃ d', ThreadsDone f ns d d' := by
  induction ns generalizing d with
  | nil => exact ⟨d, rfl⟩
  | cons n rest ih =>
    simp only [runThreads] at h
    split at h
    · rename_i d1 heq
      obtain ⟨d', h'⟩ := ih _ h
      exact ⟨d', d1, heq, h'⟩
    · cases h

/-- A gang whose threads wait as given. -/
def gangAs (idx : Nat) (active started : Bool) (ths : List Thread) : Gang := { idx := idx, active := active, started := started, threads := ths }
/-- The tile with those gangs. -/
def gangsSt (gs : List Gang) : State := st (devGang.modTile 0 (fun x => { x with gangs := gs }))
/-- 32 threads in one state. -/
def allIn (state barrier : Nat) : List Thread := List.replicate 32 { state := state, barrier := barrier }

theorem witness_GangSchedulingAndSwaps :
    (∀ e ∈ gangWords, GroupAt (gangSt e.1) 0 (issue0 e.1) ((gangFetched e.1).gangIssued 0 (issue0 e.1)) ∧ gangOp (issue0 e.1).word = some e.2) ∧
    (GroupAt (gangSt 0x00508193) 0 (issue0 0x00508193) ((gangFetched 0x00508193).gangIssued 0 (issue0 0x00508193)) ∧ (issue0 0x00508193).group ≠ [] ∧
      ∃ f : Nat → Hart, ∀ d', (gangSt 0x00508193).dev.gangNext 0 = (d', .issue (issue0 0x00508193)) →
        ∀ n ∈ (issue0 0x00508193).group, d'.threadAct 0 (issue0 0x00508193) n = .next (f n)) ∧
    ((gangAs 0 true true (allIn 1 15)).alive ≠ [] ∧ (∀ n ∈ (gangAs 0 true true (allIn 1 15)).alive, ((gangAs 0 true true (allIn 1 15)).thread n).state = 1) ∧
      (gangAs 0 true true (allIn 1 15)).barriers = [15]) ∧
    (gangAs 0 true true (allIn 3 0)).alive = [] ∧
    ((gangsSt [gangAs 0 true true (allIn 1 0), gangAs 31 false false (allIn 0 0)]).dev.gangLaunch 0 = some gangLaunch0 ∧
      ((gangsSt [gangAs 0 true true (allIn 1 0), gangAs 31 false false (allIn 0 0)]).dev.tile 0).readyPending ≠ [] ∧
      (gangsSt [gangAs 0 true true (allIn 1 0), gangAs 31 false false (allIn 0 0)]).dev.swapDue 0 (gangAs 0 true true (allIn 1 0)) = true) ∧
    ((gangsSt [gangAs 31 false false (allIn 0 0)]).dev.tile 0).readyPending = [gangAs 31 false false (allIn 0 0)] ∧
    (∃ bs, (gangsSt [gangAs 0 false true (allIn 0 0)]).dev.readPa (localBase 0 + gangLaunch0.pend + 0 * 17408) 17408 = .ok bs) ∧
    4 ≤ (((gangsSt ((List.range 4).map (fun k => gangAs k true true (allIn 0 0)))).dev.tile 0).gangs.filter (·.active)).length := by
  have hi : issues 0x00508193 = true := by decide +kernel
  have okx : ∀ {ε α : Type} (x : Except ε α), x.isOk = true → ∃ a, x = .ok a := fun x h => by
    match x, h with
    | .ok a, _ => exact ⟨a, rfl⟩
  refine ⟨gang_case, ⟨groupAt_of _ _ _ hi, by decide +kernel, ?_⟩, by decide +kernel, by decide +kernel, by decide +kernel, by decide +kernel,
    okx _ (by decide +kernel), by decide +kernel⟩
  refine ⟨fun n => match (gangFetched 0x00508193).threadAct 0 (issue0 0x00508193) n with | .next h => h | _ => {}, fun d' hd n hn => ?_⟩
  rw [gangNext_of _ _ _ hi] at hd
  obtain ⟨rfl, -⟩ := Prod.mk.inj hd
  have hn' : ∀ n ∈ (issue0 0x00508193).group, (match (gangFetched 0x00508193).threadAct 0 (issue0 0x00508193) n with | .next _ => true | _ => false) = true := by
    decide +kernel
  have h := hn' n hn
  show (gangFetched 0x00508193).threadAct 0 (issue0 0x00508193) n = _
  split at h
  · rename_i hh heq
    simp only [heq]
  · cases h

/-- The device once a word that names local memory through x1 has been issued. -/
def issuedDev (w : W32) : Dev := (gangFetched w 0xF000000000000100).gangIssued 0 (issue0 w 0xF000000000000100)

theorem witness_GangMemoryAndAtomics :
    (∀ w ∈ [(0x0000B183 : W32), 0x0020B023, 0x1000B1AF, 0x1820B1AF, 0x0020B1AF], ∃ d1 : Dev, Up (gangSt w 0xF000000000000100) ∧
      (gangSt w 0xF000000000000100).dev.gangNext 0 = (d1, .issue (issue0 w 0xF000000000000100))) ∧
    (∃ d2, ThreadsDone (fun d n => d.threadMem 0 (issue0 0x0000B183 0xF000000000000100) n) [0, 1] (issuedDev 0x0000B183) d2) ∧
    (∃ d2, ThreadsDone (fun d n => d.threadMem 0 (issue0 0x0020B023 0xF000000000000100) n) [0, 1] (issuedDev 0x0020B023) d2) ∧
    (∃ d2, ThreadsDone (fun d n => d.threadResv 0 (issue0 0x1000B1AF 0xF000000000000100) n) [0, 1] (issuedDev 0x1000B1AF) d2) ∧
    (∃ d2, ThreadsDone (fun d n => d.threadResv 0 (issue0 0x1820B1AF 0xF000000000000100) n) [0, 1] (issuedDev 0x1820B1AF) d2) ∧
    (∀ e ∈ (List.range 11).map (fun k => rword (8 * k + 4) 2 1 1 3 0x5B), issues e 0xF000000000000100 = true ∧
      ((gangFetched e 0xF000000000000100).groupAmo 0 (issue0 e 0xF000000000000100)).isSome = true) ∧
    (∃ d2, AtomicsDone 0 (issue0 (rword 4 2 1 1 3 0x5B) 0xF000000000000100) .add true [0, 1] (issuedDev (rword 4 2 1 1 3 0x5B)) d2) := by
  have hall : [(0x0000B183 : W32), 0x0020B023, 0x1000B1AF, 0x1820B1AF, 0x0020B1AF].all (fun w => issues w 0xF000000000000100) = true := by decide +kernel
  refine ⟨fun w hw => ⟨_, up_gangSt _ _ _, gangNext_of w _ {} (List.all_eq_true.mp hall w hw)⟩, threadsDone_of _ _ _ (by decide +kernel),
    threadsDone_of _ _ _ (by decide +kernel), threadsDone_of _ _ _ (by decide +kernel), threadsDone_of _ _ _ (by decide +kernel), ?_, atomicsDone_of _ _ _ _ _ _ (by decide +kernel)⟩
  have hg : (List.range 11).all (fun k => issues (rword (8 * k + 4) 2 1 1 3 0x5B) 0xF000000000000100 &&
      ((gangFetched (rword (8 * k + 4) 2 1 1 3 0x5B) 0xF000000000000100).groupAmo 0 (issue0 (rword (8 * k + 4) 2 1 1 3 0x5B) 0xF000000000000100)).isSome) = true := by
    decide +kernel
  intro e he
  obtain ⟨k, hk, rfl⟩ := List.mem_map.mp he
  have h := List.all_eq_true.mp hg k hk
  simp only [Bool.and_eq_true] at h
  exact h

/-- An illegal word of a group, a frame that can be written, and an atomic of a group that waits for a locked line. -/
theorem witness_GangSchedulingAndSwaps_others :
    (GroupAt (gangSt 0xFE0081B3) 0 (issue0 0xFE0081B3) ((gangFetched 0xFE0081B3).gangIssued 0 (issue0 0xFE0081B3)) ∧ (issue0 0xFE0081B3).group = [] ++ 0 :: [1] ∧
      ∀ d', (gangSt 0xFE0081B3).dev.gangNext 0 = (d', .issue (issue0 0xFE0081B3)) → d'.threadAct 0 (issue0 0xFE0081B3) 0 = .illegal) ∧
    ((gangsSt [gangAs 0 true true (allIn 1 0)]).dev.writePa (localBase 0 + gangLaunch0.pend) (gangAs 0 true true (allIn 1 0)).frame).isOk = true := by
  have hi : issues 0xFE0081B3 = true := by decide +kernel
  refine ⟨⟨groupAt_of _ _ _ hi, by decide +kernel, fun d' hd => ?_⟩, by decide +kernel⟩
  rw [gangNext_of _ _ _ hi] at hd
  obtain ⟨rfl, -⟩ := Prod.mk.inj hd
  decide +kernel
theorem witness_GangMemoryAndAtomics_waits :
    (({ (gangFetched (rword 4 2 1 1 3 0x5B) 0x1000).gangIssued 0 (issue0 (rword 4 2 1 1 3 0x5B) 0x1000) with
      xlat := [(holderKey (.cluster 0), ⟨[seg0], []⟩), (4000, ⟨[seg0], []⟩)] } : Dev).modStack 1
      (fun x => { x with waves := [wave0] })).groupAtomics 0 (issue0 (rword 4 2 1 1 3 0x5B) 0x1000) .add true = none := by decide +kernel


/-! ### Statements about memory, atomics and translation -/

/-- An access of tile 0 outside any item. -/
def acc (pa len : Nat) (write : Option (List Byte)) (ecc : Ecc := .clean) : PhysAccess :=
  { req := .tile 0, pa := pa, len := len, write := write, ecc := ecc, item := none, va := 0, reqs := [], keeps := false }
theorem ok_val {ε α : Type} (x : Except ε α) (h : x.isOk = true) : ∃ a, x = .ok a := by
  match x, h with
  | .ok a, _ => exact ⟨a, rfl⟩
theorem error_val {ε α : Type} (x : Except ε α) (h : x.isOk = false) : ∃ e, x = .error e := by
  match x, h with
  | .error e, _ => exact ⟨e, rfl⟩
theorem up_of (d : Dev) (h1 : d.clocked = true) (h2 : d.ticking = true) : Up (st d) := ⟨h1, h2⟩

/-- A request of tile 0, or of another requester, at an arbiter input. -/
def req0 (input : Nat) (r : Requester := .tile 0) : ArbRequest := ⟨input, .single, r, none, false⟩
/-- The device on which a bank's arbiter chose a request in the cycle before. -/
def arbDev (b : BankId) (c : Option ArbRequest) : Dev := { devUp with dieMap := [(0, 0)], arbs := tset .new [] (bankKey b) { chosen := c } }
/-- The pseudo-channel of address 0x1000. -/
def bank0 : BankId := .pool (devUp.stackOfPa 0x1000) (pcOf (stackOf devUp.interleave 0x1000).2)
/-- The grant of a pseudo-channel's cycle in which its chosen request is kept or not. -/
def poolGrant (c : ArbRequest) (keeps : Bool) : Option ArbRequest :=
  (((arbDev bank0 (some c)).arbCycle bank0 ((arbDev bank0 (some c)).poolRequests 1 (pcOf (stackOf devUp.interleave 0x1000).2) keeps [c]) keeps).arb bank0).grantee

theorem witness_PhysicalAccesses :
    Up up ∧ Up (st (arbDev bank0 none)) ∧
    (∃ bs d', (acc 0x1000 8 (some (List.replicate 8 7))).write = some bs ∧ up.dev.writePa 0x1000 bs = .ok d') ∧
    (up.dev.paErr 0x1000 8 = none ∧ (∃ bs, up.dev.readPa 0x1000 8 = .ok bs) ∧ ∃ bs, (up.dev.noteCorrected 0x1000).readPa 0x1000 8 = .ok bs) ∧
    (acc 0x1000 8 none .corrected).ecc = .corrected ∧ (acc 0xFFFFFFFFFF 1 none .uncorrectable).ecc = .uncorrectable ∧
    up.dev.paErr 0xFFFFFFFFFF 1 = none ∧ (up.dev.writePa (2 ^ 42) [0]).isOk = false ∧ up.dev.lockedLine 0x1000 = false ∧
    (up.dev.modStack 1 (fun x => { x with waves := [wave0] })).lockedLine 0x1000 = true ∧
    ((up.dev.modStack 1 (fun x => { x with waves := [wave0] })).writePa 0x1000 [7]).isOk = true ∧
    (devUp.stackOfPa 0x1000 = 1 ∧ poolGrant (req0 2) true = some (req0 2) ∧ poolGrant (req0 3) true = some (req0 3) ∧ poolGrant (req0 2) false = none) := by
  refine ⟨up_of _ rfl (by decide +kernel), up_of _ rfl (by decide +kernel), ?_, ⟨by decide +kernel, ok_val _ (by decide +kernel), ok_val _ (by decide +kernel)⟩,
    by decide +kernel⟩
  obtain ⟨d', h⟩ := ok_val (up.dev.writePa 0x1000 (List.replicate 8 7)) (by decide +kernel)
  exact ⟨_, d', rfl, h⟩

/-- A crane's and a tile's request at warehouse bank 1 of deck 0, requests at a local-memory bank, and addresses that
no unit answers. -/
theorem witness_PhysicalAccesses_banks :
    (inWarehouseBank 0 1 0x10000000100 = true ∧ inWarehouseBank 7 63 0x100F7FFFFFF = true ∧ up.dev.paErr 0x10000000100 8 = none ∧
      craneInput 0 (req0 7 (.crane 0 7)) = true ∧ ((arbDev (.cranes 0 1) (some (req0 7 (.crane 0 7)))).arb (.cranes 0 1)).chosen = some (req0 7 (.crane 0 7)) ∧
      (((arbDev (.cranes 0 1) (some (req0 7 (.crane 0 7)))).arbCycle (.cranes 0 1) [req0 7 (.crane 0 7)] true).arb (.cranes 0 1)).grantee = some (req0 7 (.crane 0 7))) ∧
    ((arbDev (.warehouse 0 1) none).warehouseInput 0 (.tile 0) = 2 ∧
      (∀ k ∈ [true, false], (((arbDev (.warehouse 0 1) (some (req0 2))).arbCycle (.warehouse 0 1) [req0 2] k).arb (.warehouse 0 1)).grantee =
        if k = true then some (req0 2) else none)) ∧
    (localInput 0 (.tile 0) 4 = true ∧ localInput 0 (.tile 5) 0 = true ∧ inLocalBank 0 1 0x10100000040 = true ∧
      (arbDev (.localMem 0 1) none).paErr 0x10100000040 8 = none ∧
      (∀ k ∈ [true, false], (((arbDev (.localMem 0 1) (some (req0 4))).arbCycle (.localMem 0 1) [req0 4] k).arb (.localMem 0 1)).grantee =
        if k = true then some (req0 4) else none)) ∧
    (ownSpace .hub (2 ^ 42) = false ∧ (up.dev.paErr (2 ^ 42) 8).isSome = true ∧ inWarehouseBank 0 0 (2 ^ 42) = false) ∧
    topRequest [req0 2, req0 4, req0 3] = some (req0 4) := by
  decide +kernel

/-- An atomic request of tile 0 at an address. -/
def amo (pa : Nat) (wide : Bool := true) (h16 : Bool := false) : AtomicReq :=
  { req := .tile 0, pa := pa, wide := wide, h16 := h16, shared := false, operand := 5, compare := 0, ecc := .clean, item := none, va := 0 }
/-- A wave on stack 0 holds the line of address 0x1000. -/
def lockedSt : State := st { devUp with hbmStacks := [(0, { waves := [{ (default : Wave) with lines := [64] }] })] }

theorem witness_AtomicUnits :
    Up up ∧ Up lockedSt ∧ lockedSt.dev.lockedLine 0x1000 = true ∧
    (∀ wide : Bool, up.dev.lockedLine 0x1000 = false ∧ 0x1000 % (if wide then 8 else 4) = 0 ∧ (amo 0x1000 wide).ecc = .clean) ∧
    (∀ op ∈ farOps.map (·.2), ∀ wide : Bool, ∃ d' old, up.dev.atomicAt 0x1000 (if wide then 8 else 4) false
      (fun old => atomicNew op wide old (amo 0x1000).operand.toNat (amo 0x1000).compare.toNat) = .ok (d', old)) ∧
    inWarehouse 0x10000000000 = true ∧ 0x10000000000 % 16 = 0 ∧
    (∀ e ∈ warehouseOps, ∀ wide : Bool, ∃ d' old, up.dev.atomicAt 0x10000000000 (if wide then 8 else 4) false
      (fun old => e.2 wide old (amo 0x1000).operand.toNat (amo 0x1000).compare.toNat) = .ok (d', old)) ∧
    (∀ h16 : Bool, ∃ d' old, up.dev.atomicAt 0x10000000000 (if h16 then 2 else 4) false (fun old => raddNew h16 old 0x3C00) = .ok (d', old)) ∧
    (∃ d' old, up.dev.atomicAt 0x10000000000 16 false
      (fun old => ofInt 128 (max (-2 ^ 127) (min (2 ^ 127 - 1) (toInt 128 old + toInt 128 5)))) = .ok (d', old)) := by
  have okp : ∀ {ε α β : Type} (x : Except ε (α × β)), x.isOk = true → ∃ a b, x = .ok (a, b) := fun x h => by
    match x, h with
    | .ok (a, b), _ => exact ⟨a, b, rfl⟩
  refine ⟨up_of _ rfl (by decide +kernel), up_of _ rfl (by decide +kernel), by decide +kernel, by decide +kernel, fun op h wide => okp _ ?_, by decide +kernel,
    by decide +kernel, fun e h wide => okp _ ?_, fun h16 => okp _ ?_, okp _ (by decide +kernel)⟩
  · revert op wide; decide +kernel
  · revert e wide; decide +kernel
  · revert h16; decide +kernel

/-- An access of an atomic that meets poison, or a line that is not in range, fails. -/
theorem witness_AtomicUnits_failures :
    (({ devUp with mem := { poison := [(0x1000, true)] } } : Dev).atomicAt 0x1000 8 false (fun old => old)).isOk = false ∧
    (devUp.noteCorrected 0x1000).lockedLine 0x1000 = false ∧ ((devUp.reach 0x1000 8).noteCorrected 0x1000).paErr 0x1000 8 = none ∧
    (({ devUp with mem := { poison := [(0x10000000000, true)] } } : Dev).atomicAt 0x10000000000 16 false (fun old => old)).isOk = false := by
  decide +kernel

theorem witness_MisalignedAtomicsRefused :
    Up up ∧ inWarehouse 0x10000000001 = true ∧ (amo 0x10000000001).pa % 8 ≠ 0 ∧ (amo 0x10000000001 false).pa % 4 ≠ 0 ∧
    (amo 0x10000000001 false true).pa % 2 ≠ 0 ∧ inWarehouse 0x10000000008 = true ∧ 0x10000000008 % 16 ≠ 0 :=
  ⟨up_of _ rfl (by decide +kernel), by decide +kernel⟩

/-- Stack 0 scrubs with a period of one hour; the pass began at 0. -/
def scrubDev : Dev := devUp.put F.hbmScrubCfg_PERIOD_H 1 0
/-- A device on which one more unit of stack 0 is marked. -/
def markedDev : Dev := { devUp with hbmStacks := [(0, { marks := [0x1000] })] }

theorem witness_ScrubSparingAndWatchdog :
    Up (st scrubDev) ∧ scrubDev.scrubRuns (.stack 0) = true ∧ scrubDev.inScrub (.stack 0) 0 = true ∧ scrubDev.scrubNs (.stack 0) = 3600 * 10 ^ 9 ∧
    Up (st { scrubDev with now := 7200 * 10 ^ 9 }) ∧ ({ scrubDev with now := 7200 * 10 ^ 9 } : Dev).scrubNs (.stack 0) ≠ 0 ∧
    (scrubDev.scrub (.stack 0)).late = false ∧ (scrubDev.scrub (.stack 0)).start.getD scrubDev.pilot.releasedAt = 0 ∧
    scrubUnitIs (.stack 0) = true ∧ scrubUnitIs (.warehouse 7) = true ∧ scrubUnitIs (.localMem 0) = true ∧
    ((scrubDev.modScrub (.stack 0) (fun x => { x with late := true })).scrub (.stack 0)).late = true ∧
    Up (st markedDev) ∧ needsSparing markedDev.now (fun u => Config.rowOf u == Config.rowOf 0x1000) (tget .new markedDev.hbmStacks 0).marks (tget .new markedDev.hbmStacks 0).corrected = true ∧
    (let d : Dev := { devRun with arbs := tset .new [] (bankKey (.warehouse 0 0)) { due := some (req0 2) } }
     Up (st d) ∧ (d.arb (.warehouse 0 0)).due = some (req0 2) ∧ d.ctxOfWork (.tile 0) none = some 5) ∧
    (devUp.arb (.warehouse 0 0)).due = none := by
  refine ⟨up_of _ (by decide +kernel) (by decide +kernel), by decide +kernel, by decide +kernel, by decide +kernel, up_of _ (by decide +kernel) (by decide +kernel),
    by decide +kernel, by decide +kernel, by decide +kernel, by decide +kernel, by decide +kernel, by decide +kernel, by decide +kernel, up_of _ (by decide +kernel) (by decide +kernel),
    by simp [needsSparing, markedDev, tget],
    ⟨up_of _ (by decide +kernel) (by decide +kernel), by decide +kernel, by decide +kernel⟩, by decide +kernel⟩

/-- Marked rows of the warehouse with spares left and none, a due reset of a host core and of a tile that runs
nothing, and an uncorrectable find in each memory. -/
theorem witness_ScrubSparingAndWatchdog_others :
    (let d : Dev := { devUp with decks := [(0, { marks := [0x10000000000] })] }
     needsSparing d.now (fun u => inWarehouseBank 0 0 u && Config.rowOf u == Config.rowOf 0x10000000000) (tget Deck.new d.decks 0).marks (tget Deck.new d.decks 0).corrected = true) ∧
    devUp.ledger.data.whRows = [] ∧
    (({ devUp with ledger := { devUp.ledger with data := { devUp.ledger.data with whRows := List.replicate 8 (0, 0) } } } : Dev).ledger.data.whRows.filter
      (fun x => x.1 == 0)).length = 8 ∧
    (({ devUp with arbs := tset .new [] (bankKey (.localMem 0 0)) { due := some (req0 0 (.hart 3)) } } : Dev).arb (.localMem 0 0)).due = some (req0 0 (.hart 3)) ∧
    devUp.ctxOfWork (.tile 0) none = none ∧
    (devUp.put F.dckWhScrubCfg_PERIOD_MIN 1 0).scrubRuns (.warehouse 0) = true ∧ (devUp.put F.dckWhScrubCfg_PERIOD_MIN 1 0).inScrub (.warehouse 0) 0x10000000000 = true := by
  refine ⟨?_, by decide +kernel⟩
  simp [needsSparing, tget, show inWarehouseBank 0 0 0x10000000000 = true from by decide +kernel]

/-- Segment 1 of context 5 is paged, its page table at 0x8000. -/
def seg1 : SegEntry := { ctx := 5, seg := 1, dw := [0, BitVec.ofNat 64 (3 * 2 ^ 32 + 16 + 2 ^ 40), 0x8000, 0] }
/-- The harbourmaster's cache holds segments 0 and 1; the page table's first entry is present. -/
def xlSt : State :=
  st { devUp with mem := { cells := [(0x8000, 0x1F)] }, xlat := [(4000, ⟨[seg0, seg1], []⟩)] }

/-- A clean line of cluster 0's transit cache, and a device whose cache holds it. -/
def line20 : TcLine := { line := 0x20, way := 0, data := List.replicate 128 0 }
def lineDev : Dev := { devUp with clusters := [(0, { tc := [line20] })] }

theorem witness_TranslationAndFills :
    Up xlSt ∧ (xlSt.dev.xl .harbourmaster).segs.find? (fun e => e.ctx == 5 && e.seg == 0 && !e.stale) = some seg0 ∧
    (xlSt.dev.xl .harbourmaster).segs.find? (fun e => e.ctx == 5 && e.seg == 13 && !e.stale) = none ∧
    (∃ d e, xlSt.dev.loadSeg .harbourmaster 5 13 = (d, .ok e)) ∧
    (∃ d x, { xlSt.dev with mem := { poison := [(2944, true)] } : Dev }.loadSeg .harbourmaster 5 13 = (d, .error x)) ∧
    (∃ d e, xlSt.dev.segOf .harbourmaster 5 1 = (d, .ok e)) ∧ (xlSt.dev.xl .harbourmaster).segs.find? (fun e => e.ctx == 5 && e.seg == 1 && !e.stale) = some seg1 ∧ seg1.valid = true ∧ seg1.paged = true ∧ 15 < seg1.limit ∧
    (∃ d1 w, xlSt.dev.pageOf .harbourmaster seg1 0 = (d1, .ok w)) ∧ (∃ d1 x, xlSt.dev.pageOf .harbourmaster seg1 15 = (d1, .error x)) ∧
    (xlSt.dev.cluster 175).line? 0x20 = none ∧
    (lineDev.cluster 0).line? 0x20 = some line20 ∧ line20.dirty = 0 := by
  refine ⟨up_of _ rfl (by decide +kernel), by decide +kernel, by decide +kernel, ok_of _ (by decide +kernel), error_of _ (by decide +kernel),
    ok_of _ (by decide +kernel), by decide +kernel, by decide +kernel, by decide +kernel, by decide +kernel, ok_of _ (by decide +kernel), error_of _ (by decide +kernel), by decide +kernel, by decide +kernel⟩

/-- A line with dirty data, one in the side buffer, and a line of the pool whose halves can be read or not. -/
theorem witness_TranslationAndFills_errors :
    (({ devUp with clusters := [(0, { tc := [{ line20 with dirty := 1 }] })] } : Dev).cluster 0).line? 0x20 = some { line20 with dirty := 1 } ∧
    ((({ devUp with clusters := [(0, { side := [line20] })] } : Dev).cluster 0).line? 0x20 = none ∧
      (({ devUp with clusters := [(0, { side := [line20] })] } : Dev).cluster 0).side.any (fun x => x.line == 0x20) = true) ∧
    devUp.ringLine 0x20 = false ∧ (devUp.fillHalf false 0x1000).isOk = true ∧ (devUp.fillHalf false 0x1040).isOk = true ∧
    (({ devUp with mem := { poison := [(0x1000, true)] } } : Dev).fillHalf false 0x1000).isOk = false := by
  decide +kernel

/-- A MAINT item of an activity and target, with words 2 and 3. -/
def maintIt (act target : Nat) (w2 w3 : W64) (sliceEnd last : Nat) : Item :=
  item0 12 [BitVec.ofNat 64 (act + 2 ^ 16 * target), w2, w3, 0, 0, 0, 0] sliceEnd last
/-- The state in which it is in hand; physical die 0 serves logical die 0. -/
def maintSt (it : Item) : State := st { (itemSt .harbourmaster it).dev with dieMap := [(0, 0)] }
theorem maint_of (act target : Nat) (w2 w3 : W64) (sliceEnd last : Nat) :
    Up (maintSt (maintIt act target w2 w3 sliceEnd last)) ∧
    InHand (maintSt (maintIt act target w2 w3 sliceEnd last)) 1 0 (maintIt act target w2 w3 sliceEnd last) :=
  ⟨⟨rfl, (show devUp.ticking = true by decide +kernel)⟩, rfl, rfl⟩

theorem list_eq_map (l : List Byte) (n : Nat) (h : l.length = n) : l = (List.range n).map (fun i => l.getD i 0) := by
  subst h
  apply List.ext_getElem <;> simp [List.getD]
  intro n h
  simp [h]
theorem fit_len (n : Nat) (bs : List Byte) : (fit n bs).length = n := by
  rw [fit, List.length_take, List.length_append, List.length_replicate]; omega
theorem evidence_len (d : Dev) (n : List Byte) : (d.evidence n).length = 4096 := fit_len _ _
/-- A wave of stack 1 holds the lines that ATTEST writes, so that its writes wait. -/
def attestDev : Dev := (maintSt (maintIt 13 0 0x1000 0 1 1)).dev.modStack 1 (fun x => { x with waves := [{ wave0 with lines := (List.range 64).map (64 + ·) }] })
theorem attest_writes : (attestDev.dmaPut .harbourmaster 5 0x1000 (attestDev.evidence (List.replicate 32 0))).2.isOk = true := by
  rw [list_eq_map _ _ (evidence_len attestDev (List.replicate 32 0))]
  decide +kernel

theorem witness_MaintActivities :
    (∀ act target w2 w3 e l, Up (maintSt (maintIt act target w2 w3 e l)) ∧
      InHand (maintSt (maintIt act target w2 w3 e l)) 1 0 (maintIt act target w2 w3 e l)) ∧
    (∀ act ∈ List.range 14, (maintIt act 0x4000 0 0 1 1).typ = tMaint ∧ (maintIt act 0x4000 0 0 1 1).activity = act) ∧
    stackAt (maintIt 1 0x4000 0 0 1 1).target = some 0 ∧ (maintIt 1 0x4000 0 0 1 2).sliceEnd < (maintIt 1 0x4000 0 0 1 2).last ∧
    (maintIt 1 0x4000 0 0 1 1).last ≤ (maintIt 1 0x4000 0 0 1 1).sliceEnd ∧
    deckAt (maintIt 3 (locDeck 0) 0 0 1 1).target = some 0 ∧ (maintSt (maintIt 3 (locDeck 0) 0 0 1 1)).dev.linkState (linkKey (.deck 0 0)) ≠ 4 ∧
    portAt (maintIt 4 (locPort 5) 0 0 1 1).target = some 5 ∧ 25 ≤ (tget .new devUp.ports 5).good ∧
    (tget .new ({ devUp with ports := [(5, { good := 24 })] } : Dev).ports 5).good < 25 ∧
    (maintSt (maintIt 5 ((maintSt default).dev.locDie 0) 0 0 1 1)).dev.dieAt (maintIt 5 ((maintSt default).dev.locDie 0) 0 0 1 1).target = some 0 ∧
    (∃ d1 bs, (maintSt (maintIt 6 0 0x1000 100 1 1)).dev.dmaReadN .harbourmaster 5 0x1000 100 = (d1, .ok bs)) ∧
    (∃ d1 d2, attestDev.mayAttest = true ∧ Up (st attestDev) ∧ InHand (st attestDev) 1 0 (maintIt 13 0 0x1000 0 1 1) ∧
      attestDev.dmaPut .harbourmaster 5 0x1000 (attestDev.evidence (List.replicate 32 0)) = (d1, .ok ()) ∧
      (devUp.put F.pilDebug_SCOPE 8).mayAttest = false ∧
      ∃ x, (maintSt (maintIt 7 0 0 0x200000 1 1)).dev.xlate .harbourmaster 5 0 0x200000 2 = (d2, .ok x) ∧
        decide (x.pa < 2 ^ 40 ∧ x.hostShared = false ∧ (d2.stacksOf x.pa).any (fun s => d2.get F.whfStatus_STATE s == 2) = false) = true) := by
  refine ⟨maint_of, by decide +kernel, by decide +kernel, by decide +kernel, by decide +kernel, by decide +kernel, by decide +kernel, by decide +kernel,
    by decide +kernel, by decide +kernel, by decide +kernel, ok_of _ (by decide +kernel), ?_⟩
  obtain ⟨d1, u, h1⟩ := ok_of (attestDev.dmaPut .harbourmaster 5 0x1000 (attestDev.evidence (List.replicate 32 0))) attest_writes
  let y := (maintSt (maintIt 7 0 0 0x200000 1 1)).dev.xlate .harbourmaster 5 0 0x200000 2
  have hy : (match y.2 with | .ok x => decide (x.pa < 2 ^ 40 ∧ x.hostShared = false ∧ (y.1.stacksOf x.pa).any (fun s => y.1.get F.whfStatus_STATE s == 2) = false) | .error _ => false) = true := by
    decide +kernel
  refine ⟨d1, y.1, by decide +kernel, ⟨rfl, by decide +kernel⟩, ⟨by decide +kernel, rfl⟩, h1, by decide +kernel, ?_⟩
  split at hy
  · rename_i x hx
    exact ⟨x, Prod.ext rfl hx, hy⟩
  · cases hy

/-- A link in service with all and with none of its modules, an erase that waits for a wave, and the memory of
FLASH_WRITE, SECURE_ERASE and LOG_EXPORT that cannot be reached. -/
theorem witness_MaintActivities_others :
    (devUp.setLinkState 0 4).linkState 0 = 4 ∧ modulesOf 0 = 2 * (modulesOf 0 / 2) ∧ 0 < modulesOf 0 ∧ linkKey (.deck 0 0) = 0 ∧
    deckAt (maintIt 1 (locDeck 7) 0 0 1 1).target = some 7 ∧ stackAt (maintIt 1 (locDeck 7) 0 0 1 1).target = none ∧
    (((maintSt (maintIt 7 0 0 0x200000 1 1)).dev.modStack 1 (fun x => { x with waves := [wave0] })).eraseWaits (maintIt 7 0 0 0x200000 1 1)) = true ∧
    (maintSt (maintIt 7 0 0 0x200000 1 1)).dev.eraseWaits (maintIt 7 0 0 0x200000 1 1) = false ∧
    ((maintSt (maintIt 6 0 0x8000000 100 1 1)).dev.dmaReadN .harbourmaster 5 0x8000000 100).2.isOk = false ∧
    ((maintSt (maintIt 8 0 0x1000 0 1 1)).dev.dmaPut .harbourmaster 5 0x1000 ((maintSt (maintIt 8 0 0x1000 0 1 1)).dev.exportRecord 0 0)).2.isOk = true ∧
    (maintIt 8 0 0x1000 0 2 2).inSlice [1] = [1] := by
  decide +kernel

/-- A released device whose ledger is armed at time 0, its spare die present and passed. -/
def ledgerDev : Dev :=
  ((devUp.flag F.mntLedgerArm_ARMED true).put F.dckSpareStatus_PRESENT 1 0).put F.dckSpareStatus_RESULT 1 0
/-- A vault with its first generation, one record to mirror. -/
def vaultDev : Dev := ((devUp.note 0x3001 0).put F.logVaultStatus_GENERATION 1)
/-- A window of a code since 0 that has counted `n` events. -/
def windowDev (n : Nat) : Dev := { devUp with log := { devUp.log with windows := [(0x3001, ⟨0, 8, n⟩)] } }

theorem witness_RepairsLedgerAndVault :
    (∀ act target w2 w3 e l, Up (maintSt (maintIt act target w2 w3 e l)) ∧
      InHand (maintSt (maintIt act target w2 w3 e l)) 1 0 (maintIt act target w2 w3 e l)) ∧
    ((maintSt (maintIt 10 0 0 0 1 1)).dev.chooseSpare 0 = none ∧ ledgerDev.chooseSpare 0 = some 0 ∧ ledgerDev.fuses.repairs.length < 4) ∧
    (∃ l : Ledger, l.copy0 = some (2, l.data) ∧ l.copy1 = some (1, l.data)) ∧ inService ledgerDev.fuses (6 * 0 + ledgerDev.get F.dckSpareStatus_SITE 0) = false ∧
    (devUp.ledgerArmed = false ∧ ledgerDev.ledgerArmed = true ∧ (maintIt 12 0 3 0 1 1).b 2 63 = false) ∧
    (ledgerDev.clocked = true ∧ ledgerDev.get F.mntLedgerArm_ARMED = 1 ∧ ledgerDev.now < ledgerDev.ledger.armedAt + 10 ^ 10 ∧
      ({ ledgerDev with now := 10 ^ 10 } : Dev).get F.mntLedgerArm_ARMED = 1 ∧ ({ ledgerDev with now := 10 ^ 10 } : Dev).ledger.armedAt + 10 ^ 10 ≤ 10 ^ 10) ∧
    (devUp.ledger.dirty = false ∧ (devUp.ledgerChange id).ledger.dirty = true ∧ (devUp.ledgerChange id).get F.pilStatus_FLASH_RELEASED = 0 ∧
      (devUp.ledgerChange id).ledger.copy0 = none ∧ (devUp.ledgerChange id).clocked = true) ∧
    (vaultDev.clocked = true ∧ 0 < vaultDev.get F.logVaultStatus_GENERATION ∧ vaultDev.get F.logVaultStatus_MIRRORED < vaultDev.get F.logStatus_COUNT ∧
      vaultDev.get F.pilStatus_FLASH_RELEASED = 0 ∧ devUp.get F.logStatus_COUNT ≤ devUp.get F.logVaultStatus_MIRRORED) ∧
    (∀ n ∈ [0, 1], (windowDev n).clocked = true ∧ (windowDev n).log.windows.find? (fun e => e.1 == 0x3001) = some (0x3001, ⟨0, 8, n⟩) ∧
      (windowDev n).windowOver ⟨0, 8, n⟩ = false ∧ ({ windowDev n with log := { (windowDev n).log with tickAt := 10 ^ 9 } } : Dev).windowOver ⟨0, 8, n⟩ = true) := by
  refine ⟨maint_of, by decide +kernel, ⟨{ copy0 := some (2, {}), copy1 := some (1, {}) }, rfl, rfl⟩, by decide +kernel, by decide +kernel, by decide +kernel, by decide +kernel,
    by decide +kernel, by decide +kernel⟩


/-! ### Statements about links, ports, messages and collectives -/

/-- Link 0 in a state, with the widths and finished modules given. -/
def linkDev (state exchanges : Nat) (l : Link) : Dev := { (devUp.setLinkState 0 state).setExchanges 0 exchanges with links := [(0, l)] }
/-- The hub–host link out of ACTIVE since 0. -/
def hostLinkDev : Dev := { devUp.setLinkState 32 2 with links := [(32, { downSince := some 0 })] }

theorem witness_LinkTrainingAndLoss :
    (∀ m ∈ [0, 15], (linkDev 2 0 {}).clocked = true ∧ hasSlot 0 0 = true ∧ 0 = linkKey (.deck 0 0) ∧ 0 / 4 = 0 ∧ m < modulesOf 0 ∧ (linkDev 2 0 {}).linkState 0 = 2) ∧
    (modulesOf 0 ≤ (List.range 16).length ∧ ¬ modulesOf 0 ≤ (List.range 15).length) ∧
    (∀ e ∈ [0, 1, 2], (linkDev 3 e {}).clocked = true ∧ linkOk (.deck 0 0) = true ∧ (linkDev 3 e {}).linkState 0 = 3 ∧
      (linkDev 3 e {}).linkGet F.dckD2dStatus_EXCHANGES F.mntHostLinkStatus_EXCHANGES 0 = e ∧ ((linkDev 3 e {}).link 0).near = ((linkDev 3 e {}).link 0).far) ∧
    ((linkDev 3 1 { near := [(0, 2)] }).link 0).near ≠ ((linkDev 3 1 { near := [(0, 2)] }).link 0).far ∧
    (Up (st (linkDev 4 0 {})) ∧ (linkDev 4 0 {}).linkState (linkKey (.deck 0 0)) = 4 ∧ devUp.linkState (linkKey (.deck 0 0)) ≠ 4) ∧
    (Up (st hostLinkDev) ∧ (hostLinkDev.link 32).downSince = some 0 ∧ hostLinkDev.linkState 32 ≠ 4 ∧ hostLinkDev.mayHostReset = true ∧ hostLinkDev.now < 750000) ∧
    ({ hostLinkDev with now := 750000 } : Dev).mayHostReset = true ∧ ({ hostLinkDev with now := 750000 } : Dev).linkState 32 ≠ 4 := by
  refine ⟨by decide +kernel, by decide +kernel, by decide +kernel, by decide +kernel, ⟨up_of _ (by decide +kernel) (by decide +kernel), by decide +kernel⟩,
    ⟨up_of _ (by decide +kernel) (by decide +kernel), by decide +kernel⟩, by decide +kernel⟩

/-- The hub–host link ACTIVE, which deck 0's second neighbour and the attachment of port 1 are beside. -/
theorem witness_LinkTrainingAndLoss_ends :
    (∀ l ∈ [LinkId.deck 0 0, .deck 1 0, .deck 1 2, .deck 0 3, .hubHost], linkOk l = true) ∧
    (∀ st ∈ [2, 3, 5], (linkDev st 0 {}).linkState (linkKey (.deck 1 0)) = st) ∧
    decide (0 < 2 ∧ 1 ≠ linkKey (.deck 1 0) / 4) = true ∧ decide (0 < 2 ∧ 0 ≠ linkKey (.deck 0 0) / 4) = false ∧
    (linkDev 2 0 {}).linkState 0 ≠ 3 ∧
    (modulesOf 0 ≤ 2 * ((List.range (modulesOf 0)).filter (fun i => tget 0 ([] : Tbl Nat) i ≠ 0)).length → False) ∧
    (∃ near : Tbl Nat, modulesOf 3 ≤ 2 * ((List.range (modulesOf 3)).filter (fun i => tget 0 near i ≠ 0)).length) ∧
    (0 ≠ 32 ∧ 0 % 4 ≠ 3) ∧ (3 = 4 * portDeck 0 + 3) ∧ devUp.linkState (linkKey .hubHost) = 4 ∧ (Up up) := by
  refine ⟨by decide, by decide +kernel, by decide, by decide, by decide +kernel, by decide +kernel, ⟨[(0, 2), (1, 2)], by decide⟩, by decide, by decide, by decide +kernel,
    up_of _ rfl (by decide +kernel)⟩

/-- Node 0 of a ring of four along X, its two ports in a state and the attachment of port 1 ACTIVE. -/
def torusDev (state : Nat) : Dev :=
  (((devUp.put F.hawNode_XM1 3).put F.hawPortStatus_STATE state 0).put F.hawPortStatus_STATE state 1).setLinkState (4 * portDeck 1 + 3) 4
/-- A training whose engine is capable and whose neighbour names itself. -/
def trained (good peer : Nat) : PortTraining :=
  { flitMode := true, lanes := 26, gbd := 200, pam4 := true, rs544 := true, dataChannel := true, mgmtChannel := true,
    capability := 0, goodLanes := good, peerNode := peer }
/-- The device of a port with a number of good lanes. -/
def lanesDev (state good : Nat) : Dev := { torusDev state with ports := [(1, { good := good, retry := [(0, plainMsg 1 0 0 .close)] })] }
/-- The device of port 1 once its training has named a neighbour. -/
def namedDev (peer : Nat) : Dev := ((torusDev 3).put F.hawPortStatus_PEER_NODE peer 1).put F.hawPortStatus_PROGRESS 10000 1

theorem witness_PortsTrainSpareAndFail :
    (Up (st (torusDev 3)) ∧ (torusDev 3).portState 1 = 3 ∧ (torusDev 3).portState 0 = 3 ∧ (torusDev 3).oeActive 1 = true ∧ (torusDev 3).oeActive 0 = false) ∧
    ((∀ good peer : Nat, (trained good peer).flitMode = true ∧ capable (trained good peer) = true ∧ (trained good peer).goodLanes = good ∧ (trained good peer).peerNode = peer) ∧
      capable { trained 26 1 with lanes := 25 } = false ∧ ({ trained 26 1 with flitMode := false } : PortTraining).flitMode = false) ∧
    ((namedDev 1).wiredRight 1 1 = true ∧ (namedDev 2).wiredRight 1 2 = false) ∧
    (∀ g ∈ [26, 25, 24, 13, 12], Up (st (lanesDev 4 g)) ∧ (lanesDev 4 g).portUp 1 = true ∧ (tget .new (lanesDev 4 g).ports 1).good = g ∧ (lanesDev 4 g).portState 1 = 4 ∧
      (lanesDev 5 g).portUp 1 = true ∧ (lanesDev 5 g).portState 1 ≠ 4) ∧
    (∃ m, m ∈ (tget Port.new (lanesDev 4 26).ports 1).retry ∧ m.1 ≤ 0 ∧ 0 < m.1 + msgFlits m.2.body) ∧ (torusDev 3).portUp 1 = false ∧ (torusDev 1).portState 1 ≠ 3 ∧
    (torusDev 3).hartUp 0 = true ∧
    ((torusDev 3).flag F.hawPortCmd_DISABLE true 1).get F.hawPortCmd_DISABLE 1 = 1 ∧ (torusDev 3).get F.hawPortCmd_DISABLE 1 ≠ 1 := by
  refine ⟨⟨up_of _ (by decide +kernel) (by decide +kernel), by decide +kernel⟩, ⟨fun g q => ⟨rfl, rfl, rfl, rfl⟩, by decide⟩, by decide +kernel, fun g hg => ?_,
    ⟨(0, plainMsg 1 0 0 .close), by decide +kernel⟩, by decide +kernel⟩
  refine ⟨up_of _ ?_ ?_, ?_⟩ <;> revert g <;> decide +kernel

/-- Connection 7 leads to connection 9 of node 1, for context 5 here and 6 there; connection 8 is a group. -/
def connDev (state : Nat) (x : Conn := {}) : Dev :=
  { torusDev 4 with
    mem := { cells := [(448, 1), (449, 0x80), (450, 4), (452, 5), (453, 6), (455, 0x80), (516, 5), (519, 0xC0)] }
    xlat := [(3001, ⟨[seg0], []⟩)]
    conns := [(7, { x with state := state }), (8, { x with state := state })] }
/-- A message of node 1 for node 0 on connection 7 or another. -/
def fromOne (b : MsgBody) (conn : Nat := 7) (dest : Nat := 0) (seq : Nat := 0) : LinkMsg := { plainMsg dest conn seq b with src := 1 }
/-- The device once it has come in on port 1. -/
def gotDev (d : Dev) (b : MsgBody) (conn : Nat := 7) : Dev := d.linkReceived 1 (fromOne b conn)
theorem arrives_of (k : Nat) (x : Conn) (b : MsgBody) (conn : Nat) (h : (connDev k x).portUp 1 = true ∧ (connDev k x).ticking = true ∧ (connDev k x).node = 0) :
    Arrives (st (connDev k x)) 1 (fromOne b conn) (gotDev (connDev k x) b conn) :=
  ⟨⟨rfl, h.2.1⟩, by decide, h.1, h.2.2.symm, rfl⟩
/-- The device whose sequence of connection 7 has moved on. -/
def seqDev (b : MsgBody) : Dev := (gotDev (connDev 2) b).modConn 7 (fun x => { x with rxSeq := (x.rxSeq + 1) % 2 ^ 32 })

theorem inSeq_of (b : MsgBody) (h : ((gotDev (connDev 2) b).conn 7).state = 2 ∧ cwGroup ((gotDev (connDev 2) b).cw0 7) = false ∧
    cwNode ((gotDev (connDev 2) b).cw0 7) = 1 ∧ cwCtx ((gotDev (connDev 2) b).cw0 7) = 5 ∧ 0 = ((gotDev (connDev 2) b).conn 7).rxSeq ∧
    ((seqDev b).ctx 5).state = 0) : InSeq (gotDev (connDev 2) b) (fromOne b) 5 (seqDev b) :=
  ⟨h.1, h.2.1, h.2.2.1, h.2.2.2.1, h.2.2.2.2.1, rfl, h.2.2.2.2.2⟩

theorem witness_MessagesAreServed :
    (∀ k ∈ [0, 1, 2], ∀ (b : MsgBody) (conn : Nat), Arrives (st (connDev k)) 1 (fromOne b conn) (gotDev (connDev k) b conn)) ∧
    (∃ q m', ((torusDev 4).linkReceived 1 (fromOne .close 7 1)).route (some 1) (fromOne .close 7 1) = .out q m') ∧
    ((torusDev 4).linkReceived 1 (fromOne .close 7 4)).route (some 1) (fromOne .close 7 4) ≠ .here ∧
    (((torusDev 4).linkReceived 5 (fromOne .close 7 2)).setReg .hawRoute 0 0xFF).route (some 5) (fromOne .close 7 2) = .unreachable ∧
    (((torusDev 4).put F.hawPortStatus_STATE 7 1).linkReceived 0 (fromOne .close 7 1)).route (some 0) (fromOne .close 7 1) = .broken 1 ∧
    (∀ b ∈ [MsgBody.put 0x1000 [1, 2], .put 0x2000000 [1, 2], .getReq 0x1000 16, .getReq 0x2000000 16, .atomicReq .add true 0x1000 5 0, .atomicReq .add true 0x2000000 5 0],
      InSeq (gotDev (connDev 2) b) (fromOne b) 5 (seqDev b)) ∧
    (∃ d2 u, (seqDev (.put 0x1000 [1, 2])).dmaPut (.pier 1) 5 0x1000 [1, 2] = (d2, .ok u)) ∧
    (∃ d2 x, (seqDev (.put 0x2000000 [1, 2])).dmaPut (.pier 1) 5 0x2000000 [1, 2] = (d2, .error x)) ∧
    (∃ d2 bs, (seqDev (.getReq 0x1000 16)).dmaReadN (.pier 1) 5 0x1000 (min 16 4096) = (d2, .ok bs)) ∧
    (∃ d2 x, (seqDev (.getReq 0x2000000 16)).dmaReadN (.pier 1) 5 0x2000000 (min 16 4096) = (d2, .error x)) ∧
    ({ connDev 2 with xlat := [(holderKey .harbourmaster, ⟨[seg0], []⟩)] } : Dev).vaLocked 5 0x1000 = false ∧
    (∃ d2 old, (seqDev (.atomicReq .add true 0x1000 5 0)).pierAtomic 1 5 .add true 0x1000 5 0 = (d2, .ok old)) ∧
    (∃ d2 x, (seqDev (.atomicReq .add true 0x2000000 5 0)).pierAtomic 1 5 .add true 0x2000000 5 0 = (d2, .error x)) ∧
    (∀ rs ∈ [[], [(3, plainMsg 1 9 3 (.ack 4 0 0))]], ∀ x : Conn, x = { rxSeq := 4, responses := rs } →
      ((gotDev (connDev 2 x) (.put 0 [])).conn 7).state = 2 ∧ 3 ≠ ((gotDev (connDev 2 x) (.put 0 [])).conn 7).rxSeq ∧
      ((gotDev (connDev 2 x) (.put 0 [])).conn 7).responses = rs) ∧
    (let d := gotDev (connDev 1) (.openReq 6 5 9)
     cwValid (d.cw0 7) = true ∧ cwGroup (d.cw0 7) = false ∧ cwNode (d.cw0 7) = 1 ∧ cwRemoteConn (d.cw0 7) = 9 ∧ cwCtx (d.cw0 7) = 5 ∧
      cwRemoteCtx (d.cw0 7) = 6 ∧ (d.conn 7).state = 1) ∧
    (gotDev (connDev 2) .close).conn 7 = { state := 2 } ∧ cwNode ((gotDev (connDev 2) .close).cw0 7) = 1 := by
  refine ⟨fun k hk b conn => ?_, ?_, by decide +kernel, by decide +kernel, by decide +kernel, fun b hb => inSeq_of b ?_, ok_of _ (by decide +kernel),
    error_of _ (by decide +kernel), ok_of _ (by decide +kernel), error_of _ (by decide +kernel), by decide +kernel,
    ok_of _ (by decide +kernel), error_of _ (by decide +kernel), fun rs hr x hx => ?_, by decide +kernel, by decide +kernel, by decide +kernel⟩
  · refine arrives_of _ _ _ _ ?_; revert k; decide +kernel
  · have h : (match ((torusDev 4).linkReceived 1 (fromOne .close 7 1)).route (some 1) (fromOne .close 7 1) with | .out _ _ => true | _ => false) = true := by decide +kernel
    split at h
    · rename_i q m' heq
      exact ⟨q, m', heq⟩
    · cases h
  · revert b; decide +kernel
  · subst hx; revert rs; decide +kernel

/-- A wave of the device's first item holds the line at 0x1000 locked, so that an atomic on it waits; a notice of a
broken link comes in on port 1. -/
theorem witness_MessagesAreServed_waits :
    ((({ connDev 2 with xlat := [(holderKey .harbourmaster, ⟨[seg0], []⟩)] } : Dev).modStack 1 (fun x => { x with waves := [wave0] })).vaLocked 5 0x1000 = true) ∧
    (fromOne (.linkNotice 2 0)).body = .linkNotice 2 0 ∧ (torusDev 4).portUp 1 = true ∧ (torusDev 4).portUp (1 / 2 * 2 + (1 - 1 % 2)) = true ∧ Up (st (torusDev 4)) := by
  refine ⟨by decide +kernel, rfl, by decide +kernel, by decide +kernel, up_of _ (by decide +kernel) (by decide +kernel)⟩

/-- An unacknowledged message, and connection 7 with it since 0. -/
def unackedDev (now : Nat) : Dev := { connDev 2 { unacked := [default] } with now := now }
/-- A REMOTE item of a ROP on connection 7, released. -/
def remoteIt (rop : Nat) : Item := item0 14 [BitVec.ofNat 64 (rop + 7 * 2 ^ 16), 0x1000, 0x2000, 64, 0, 0, 0] 64 64

/-- The device with a REMOTE item of a ROP. -/
def remoteDev (k rop : Nat) : Dev := { connDev k with items := [remoteIt rop] }

theorem witness_ConnectionsAndRemoteItems :
    (Up (st (connDev 0)) ∧ Up (st (connDev 2)) ∧ (connDev 0).hartUp 0 = true ∧ (connDev 2).hartUp 0 = true ∧
      ((connDev 0).conn 7).state = 0 ∧ ((connDev 2).conn 7).state ≠ 0 ∧ cwValid ((connDev 0).cw0 9) = false ∧
      cwValid ((connDev 0).cw0 7) = true ∧ cwGroup ((connDev 0).cw0 7) = false ∧ cwGroup ((connDev 0).cw0 8) = true ∧
      cwValid ((connDev 0).cw0 8) = true ∧ (connDev 0).inTorus (cwNode ((connDev 0).cw0 7)) = true ∧
      ((connDev 0).put F.hawNode_XM1 0).inTorus 1 = false) ∧
    (∀ k ∈ [1, 2], ∀ b : MsgBody, Arrives (st (connDev k)) 1 (fromOne b) (gotDev (connDev k) b)) ∧
    ((gotDev (connDev 1) (.openAck true)).conn 7).state = 1 ∧ cwNode ((gotDev (connDev 1) (.openAck false)).cw0 7) = 1 ∧
    ((gotDev (connDev 2) (.ack 0 0 0)).conn 7).state = 2 ∧ cwGroup ((gotDev (connDev 2) (.ack 0 0 0)).cw0 7) = false ∧
    ((gotDev (connDev 2) (.ack 0 0 0) 8).conn 8).state = 2 ∧ cwGroup ((gotDev (connDev 2) (.ack 0 0 0) 8).cw0 8) = true ∧
    (∃ key, (gotDev (connDev 2) (.ack 0 0 0) 8).nbKeyOf 8 1 = some key) ∧
    (∀ now ∈ [0, 10 ^ 12], Up (st (unackedDev now)) ∧ ((unackedDev now).conn 7).state = 2 ∧ (unackedDev now).connKeys 7 = [7] ∧ ((unackedDev now).conn 7).unacked ≠ []) ∧
    (unackedDev 0).now < ((unackedDev 0).conn 7).lastProgress + (unackedDev 0).get F.hawConnCfg_RTO_US * 1000 ∧
    ((unackedDev (10 ^ 12)).conn 7).lastProgress + (unackedDev (10 ^ 12)).get F.hawConnCfg_RTO_US * 1000 ≤ 10 ^ 12 ∧
    (((connDev 1).conn 7).state = 1 ∧ ((connDev 1).conn 7).lastProgress + (connDev 1).get F.hawConnCfg_RTO_US * 1000 ≤ 10 ^ 12) := by
  refine ⟨⟨up_of _ rfl (by decide +kernel), up_of _ rfl (by decide +kernel), by decide +kernel⟩, fun k hk b => ?_, by decide +kernel, by decide +kernel, by decide +kernel,
    by decide +kernel, by decide +kernel, by decide +kernel, some_of _ (by decide +kernel), fun n hn => ⟨up_of _ ?_ ?_, ?_⟩, by decide +kernel, by decide +kernel, by decide +kernel⟩
  · refine arrives_of _ _ _ _ ?_; revert k; decide +kernel
  all_goals (revert n; decide +kernel)

theorem witness_ConnectionsAndRemoteItems_remote :
    ∀ e ∈ remoteOps, Up (st (remoteDev 2 e.2)) ∧ InHand (st (remoteDev 2 e.2)) 1 0 (remoteIt e.2) ∧
      (remoteIt e.2).typ = tRemote ∧ (remoteIt e.2).rop = e.2 ∧ (remoteIt e.2).begunTo ≠ (remoteIt e.2).sliceEnd ∧
      ((remoteDev 2 e.2).conn (remoteIt e.2).connOf).state = 2 ∧ ((remoteDev 0 e.2).conn (remoteIt e.2).connOf).state ≠ 2 := by
  have h : (∀ r ∈ [0, 1, 2], (remoteDev 2 r).clocked = true ∧ (remoteDev 2 r).ticking = true) ∧
      (∀ r ∈ [0, 1, 2], (remoteIt r).typ = tRemote ∧ (remoteIt r).rop = r ∧ (remoteIt r).begunTo ≠ (remoteIt r).sliceEnd ∧
        ((remoteDev 2 r).conn (remoteIt r).connOf).state = 2 ∧ ((remoteDev 0 r).conn (remoteIt r).connOf).state ≠ 2) := by decide +kernel
  intro e he
  have he : e.2 ∈ [0, 1, 2] := by
    simp only [remoteOps, List.mem_cons, List.not_mem_nil, or_false] at he
    obtain rfl | rfl | rfl := he <;> simp
  exact ⟨up_of _ (h.1 _ he).1 (h.1 _ he).2, ⟨rfl, rfl⟩, h.2 _ he⟩

/-- An ALL_REDUCE or other collective on group 8, of two U32 elements along X, with COLL_ID 3. -/
def collIt (op : Nat) : Item := item0 8 [BitVec.ofNat 64 (op + 8 * 16 + 256 + 3 * 2 ^ 32 + 8 * 2 ^ 52), 0x1000, 0x2000, 2, 0, 0, 0] 2 2
/-- The device with it. -/
def collDev (state op : Nat) (gs : List Coll := []) : Dev := { connDev state with items := [collIt op], colls := gs }

/-- A sync of the collective, or one that differs from it or aborts. -/
def syncMsg (op : Nat := 0) (abort : Bool := false) (seq : Nat := 0) : LinkMsg := fromOne (.collSync 0x800003 op 8 1 false 2 0 abort) 8 0 seq
/-- The device of the collective, once the message has come in on port 1. -/
def syncDev (m : LinkMsg) (gs : List Coll := [{ ring := 1, index := 0 }]) : Dev := (collDev 2 0 gs).linkReceived 1 m

theorem witness_Collectives :
    ∀ e ∈ collOps, Up (st (collDev 2 e.2)) ∧ InHand (st (collDev 2 e.2)) 1 0 (collIt e.2) ∧ (collIt e.2).typ = tCollective ∧ (collIt e.2).collOp = e.2 ∧
      ((collDev 2 e.2).conn (collIt e.2).connOf).state = 2 ∧ (collDev 2 e.2).coll? (collIt e.2) = none ∧ (collDev 2 e.2).groupBusy (collIt e.2) = false ∧
      ((collDev 0 e.2).conn (collIt e.2).connOf).state ≠ 2 := by
  have h : (∀ r ∈ [0, 1, 2, 3], (collDev 2 r).clocked = true ∧ (collDev 2 r).ticking = true) ∧
      (∀ r ∈ [0, 1, 2, 3], (collIt r).typ = tCollective ∧ (collIt r).collOp = r ∧ ((collDev 2 r).conn (collIt r).connOf).state = 2 ∧
        (collDev 2 r).coll? (collIt r) = none ∧ (collDev 2 r).groupBusy (collIt r) = false ∧ ((collDev 0 r).conn (collIt r).connOf).state ≠ 2) := by decide +kernel
  intro e he
  have he : e.2 ∈ [0, 1, 2, 3] := by
    simp only [collOps, List.mem_cons, List.not_mem_nil, or_false] at he
    obtain rfl | rfl | rfl | rfl := he <;> simp
  exact ⟨up_of _ (h.1 _ he).1 (h.1 _ he).2, ⟨rfl, rfl⟩, h.2 _ he⟩

/-- A second item of the group, which waits for the first. -/
def collBusy : Dev := { collDev 2 0 [{ ring := 1, index := 0 }] with items := [collIt 0, { collIt 0 with index := 1, order := 1 }] }

theorem witness_Collectives_messages :
    ((collDev 2 0 [{ ring := 1, index := 0 }]).coll? (collIt 0) = some { ring := 1, index := 0 } ∧
      collBusy.coll? { collIt 0 with index := 1, order := 1 } = none ∧ collBusy.groupBusy { collIt 0 with index := 1, order := 1 } = true ∧
      ((collBusy.conn 8).state = 2)) ∧
    (∀ q ∈ [0, 2 ^ 32 - 1, 5], Arrives (st (collDev 2 0 [{ ring := 1, index := 0 }])) 1 (syncMsg 0 false q) (syncDev (syncMsg 0 false q)) ∧
      decide (((syncDev (syncMsg 0 false q)).nbKeyOf 8 1).any (fun key => ((syncDev (syncMsg 0 false q)).conn key).rxSeq == 0)) = true ∧
      ((syncDev (syncMsg 0 false q)).conn 8).state = 2 ∧ cwGroup ((syncDev (syncMsg 0 false q)).cw0 8) = true) ∧
    (seqBefore (2 ^ 32 - 1) 0 = true ∧ seqBefore 5 0 = false) ∧
    ((syncDev syncMsg).items.find? (fun it => it.typ == tCollective && some it.collId == msgColl syncMsg.body && ((syncDev syncMsg).coll? it).isSome) = some (collIt 0) ∧
      (syncDev syncMsg []).items.find? (fun it => it.typ == tCollective && some it.collId == msgColl syncMsg.body && ((syncDev syncMsg []).coll? it).isSome) = none) ∧
    (∃ key, (collDev 2 0).nbKeyOf (collIt 0).connOf 1 = some key) ∧ 1 ≠ (collIt 0).collOp ∧
    (syncMsg.body = (collIt 0).syncBody false (collIt 0).collN ∧ (collIt 0).collId = 0x800003) := by
  have h : ∀ q ∈ [0, 2 ^ 32 - 1, 5], (collDev 2 0 [{ ring := 1, index := 0 }]).portUp 1 = true ∧ (collDev 2 0 [{ ring := 1, index := 0 }]).ticking = true ∧
      (collDev 2 0 [{ ring := 1, index := 0 }]).node = 0 ∧
      decide (((syncDev (syncMsg 0 false q)).nbKeyOf 8 1).any (fun key => ((syncDev (syncMsg 0 false q)).conn key).rxSeq == 0)) = true ∧
      ((syncDev (syncMsg 0 false q)).conn 8).state = 2 ∧ cwGroup ((syncDev (syncMsg 0 false q)).cw0 8) = true := by decide +kernel
  refine ⟨by decide +kernel, fun q hq => ?_, by decide, by decide +kernel, some_of _ (by decide +kernel), by decide +kernel⟩
  have h := h q hq
  exact ⟨⟨⟨rfl, h.2.1⟩, by decide, h.1, h.2.2.1.symm, rfl⟩, h.2.2.2⟩

theorem witness_Collectives_time :
    (collDev 2 0).now < 0 + (collDev 2 0).get F.hawConnCfg_COLL_TIMEOUT_MS * 1000000 ∧
    0 + (collDev 2 0).get F.hawConnCfg_COLL_TIMEOUT_MS * 1000000 ≤ 10 ^ 15 ∧ (0x3F800000 < 2 ^ 32) := by decide +kernel


/-! ### Statements about power, start-up and resets -/

/-- Die 0 steps at 1 with its raise to step 2 due at time 50. -/
def raiseDev : Dev := (devUp.put F.lkpDie_FREQ 1 0).modDie 0 (fun x => { x with target := some (2, 50) })
/-- The voltage table of physical die 0 asks 700 mV at step 2. -/
def vfDev : Dev := { devUp.put F.lkpDie_FREQ 1 0 with fuses := { devUp.fuses with vfMv := [[600, 650, 700]] }, dieMap := [(0, 0)] }

theorem witness_PowerIsSharedAndStepsDecided :
    ([10, 20, 30, 40, 50].length = 5 ∧ [10, 20, 30, 40, 50].sum ≤ 200 ∧ (shareBudget [10, 20, 30, 40, 50] [30, 60, 0, 50, 50] 200).1 = [30, 50, 30, 40, 50] ∧
      (shareBudget [10, 20, 30, 40, 50] [30, 60, 0, 50, 50] 200).1.getD 1 0 < [30, 60, 0, 50, 50].getD 1 0) ∧
    (0 < devUp.commonStep default (fun _ => 35) 0 35) ∧
    (vfDev.get F.lkpDie_FREQ 0 < 2 ∧ 0 < vfDev.get F.lkpDie_FREQ 0 ∧ vfDev.get F.lkpDie_VOLTAGE_MV 0 < vfDev.vf 0 2 ∧ (tget .new vfDev.dies 0).target = none) ∧
    (Up up ∧ devUp.power.decided = false ∧ devUp.now < devUp.get F.tideLastTickNs_VALUE + devUp.period * 7 / 8 ∧
      ({ devUp with now := devUp.period } : Dev).get F.tideLastTickNs_VALUE + devUp.period * 7 / 8 ≤ devUp.period) ∧
    devUp.dieActive 0 = true ∧ (devUp.put F.cdLocation_STATE 1 0).dieActive 0 = false := by
  refine ⟨by decide +kernel, by decide +kernel, by decide +kernel, ⟨up_of _ rfl (by decide +kernel), by decide +kernel⟩, by decide +kernel⟩

/-- CAP_NOW_N is asserted. -/
def capDev : Dev := { devUp with pins := { devUp.pins with capNow := true } }

theorem witness_DroopCapTripAndRailEvents :
    (devUp.clocked = true ∧ (tget .new devUp.clusters 175).stretched = false ∧ devUp.dieActive (175 / 4) = true) ∧
    (∀ d : Dev, d = raiseDev ∨ d = { raiseDev with now := 50 } →
      d.clocked = true ∧ (tget .new d.clusters 0).stretched = false ∧ d.dieActive 0 = true ∧
      (tget .new ((((d.syncCycles 0).modCluster 0 (fun c => { c with stretched := true })).addSat F.lkpDroop_STRETCHES 1).modDie 0
        (fun x => { x with stretchedTide := true })).dies 0).target = some (2, 50) ∧ d.get F.lkpDie_FREQ 0 < 2) ∧
    (tget .new (devUp.modCluster 0 (fun c => { c with stretched := true })).clusters 0).stretched = true ∧
    (devUp.pins.capNow = false ∧ capDev.pins.capNow = true ∧ capDev.clocked = true ∧ devUp.pins.thermtrip = false) ∧
    ({ devUp with stopped := true } : Dev).clocked = false ∧ (vfDev.clocked = true ∧ vfDev.logicalOf 0 = some 0 ∧ vfDev.logicalOf 47 = none) := by
  refine ⟨by decide +kernel, ?_, by decide +kernel⟩
  rintro d (rfl | rfl) <;> decide +kernel

/-- The device in a phase of its start-up. -/
def phaseDev (k : Nat) : Dev := ({ pins := { por := false } } : Dev).put F.pilBootProgress_PHASE k

/-- A board record of zeros with its CRC. -/
def board0 : List Byte := List.replicate 252 0 ++ leBytes 4 (crc32c (List.replicate 252 0)).toNat
/-- A sweep in which every rail answers 1 V and 50 A, and the flash suffices. -/
def sweep0 (board : Option BoardAnswer) : Sweep :=
  { board := board, flash := some ⟨256, true, 0, []⟩, vrms := List.replicate 100 (some ⟨1000, 50, 0⟩), lasers := [], hbm := [] }
/-- What the first three parts of a sweep leave. -/
def swept (d : Dev) (r : Sweep) : Swept :=
  ((d.sweepBoard r.board).on (fun d => d.sweepFlash r.flash)).on (fun d => d.sweepVrms r.vrms)
/-- A bring-up in which the hub passes and its host link trains at a width. -/
def bring (ok : Bool) (w : Nat) : BringUp := ⟨[⟨.hubHost, List.replicate 4 w, List.replicate 4 w⟩], [], [], [], [], ok⟩
/-- What it does before the phase ends. -/
def brought (r : BringUp) : Dev := ((((((phaseDev 3).trainLinks r.links).zeroMemory).relocate).trainStacks r).testDies r.badDies).enableRails
/-- A device in P4 whose image holds host firmware for an address. -/
def fwDev (load : Nat) : Dev := (phaseDev 4).modPilot (fun p => { p with components := [⟨7, 0, 0x10000, 4096, load, []⟩] })

theorem witness_StartUpPhases :
    ((State.reset.dev).pins.por = true ∧ State.reset.dev.pins.thermtrip = false ∧ devUp.pins.por = false ∧
      ({ State.reset.dev with pins := { State.reset.dev.pins with thermtrip := true } } : Dev).pins.por = true ∧
      ({ State.reset.dev.fuses with ok := false } : Fuses).ok = false) ∧
    (∀ k ∈ [0, 1, 2, 3, 4, 5, 0xFF], (phaseDev k).clocked = true ∧ (phaseDev k).phase = k) ∧
    (swept (phaseDev 1) (sweep0 none)).2 = some 2 ∧
    (∀ e ∈ [true, false], (match (phaseDev 2).verifyImage e with | .error c => some c | .ok _ => none) = some (if e then 3 else 5)) ∧
    ((bring false 2).hubOk = false ∧ (bring true 0).hubOk = true ∧ (brought (bring true 0)).linkState 32 ≠ 4 ∧ (brought (bring true 2)).linkState 32 = 4) ∧
    ((phaseDev 4).fixInterleave.hostFw = none ∧ (∀ l ∈ [0, 2 ^ 40], (fwDev l).fixInterleave.hostFw = some ⟨7, 0, 0x10000, 4096, l, []⟩) ∧
      (fwDev 0).fixInterleave.placeable 0 4096 = true ∧ (fwDev (2 ^ 40)).fixInterleave.placeable (2 ^ 40) 4096 = false) ∧
    (devUp.ticking = true ∧ ({ devUp with host := { devUp.host with resetStep := 5 } } : Dev).host.resetStep = 5 ∧ devUp.reset = none ∧ devUp.phase ≠ 0xFF ∧
      devUp.host.resetStep ≠ 5) := by
  decide +kernel

/-- A sweep passes whenever the board record's cap, which the manual gives no place for, can be set. -/
theorem witness_StartUpPhases_sweep (h : 3600 ≤ Config.boardRecordCap board0 ∧ Config.boardRecordCap board0 ≤ 7200) :
    (swept (phaseDev 1) (sweep0 (some ⟨board0, 0⟩))).2 = none := by
  have hb : boardOk board0 = true := by
    have h1 : (board0.length == 256 && leNat (board0.drop 252) == (crc32c (board0.take 252)).toNat) = true := by
      have ht : board0.take 252 = List.replicate 252 0 := List.take_left' (List.length_replicate ..)
      have hd : board0.drop 252 = leBytes 4 (crc32c (List.replicate 252 0)).toNat := List.drop_left' (List.length_replicate ..)
      have hl : board0.length = 256 := by rw [board0, List.length_append, List.length_replicate]; rfl
      have hn : ∀ x : BitVec 32, leNat (leBytes 4 x.toNat) = x.toNat := fun x => by
        have := x.isLt
        simp [leBytes, leNat]; omega
      rw [ht, hd, hl, hn, beq_self_eq_true, beq_self_eq_true]; rfl
    simp only [boardOk, h1, Bool.true_and, decide_eq_true h]
  have hs : (phaseDev 1).sweepBoard (sweep0 (some ⟨board0, 0⟩)).board = (((phaseDev 1).moduleFound (locModule 0 0) 0).modPilot
      (fun p => { p with boardDefault := Config.boardRecordCap board0 }), none) := by
    simp only [Dev.sweepBoard, sweep0, hb, if_true]
  rw [swept, hs]
  decide +kernel


/-! ### A small image that verifies -/

/-- Flash that holds a function's bytes from an address on. -/
def flashOf (f : Nat → Byte) : Nat → Nat → Tbl Byte
  | _, 0 => []
  | lo, n + 1 => (lo, f lo) :: flashOf f (lo + 1) n
theorem tget_range (f : Nat → Byte) (n lo k : Nat) : tget 0xFF (flashOf f lo n) k =
    if lo ≤ k ∧ k < lo + n then f k else 0xFF := by
  induction n generalizing lo with
  | zero => rw [if_neg (by omega)]; rfl
  | succ n ih =>
    show (if lo = k then f lo else tget 0xFF (flashOf f (lo + 1) n) k) = _
    rw [ih]
    by_cases h : lo = k
    · subst h; rw [if_pos rfl, if_pos (by omega)]
    · rw [if_neg h]; split <;> split <;> first | rfl | omega

/-- Component k + 1 of the image's seven: at 0x10000, POOL_LAYOUT and the host firmware, for address 0, of
8 zero bytes, the others empty. -/
def imgDigest (k : Nat) : List Byte :=
  leBytes 32 (if k = 1 ∨ k = 6 then 0xdfe9ae3338e44fb4bc71fec538cfb634585c596cc56e2056661a17e9bba5dd48
    else 0x4a43f8804b0ad882fa493be44dff80f562d661a05647c15166d71ebff8c6ffa7)
def imgEntry (k i : Nat) : Byte :=
  if i = 0 then BitVec.ofNat 8 (k + 1) else if i = 10 then 1
  else if i = 16 then (if k = 1 ∨ k = 6 then 8 else 0)
  else if 32 ≤ i then (imgDigest k).getD (i - 32) 0 else 0
/-- The bytes of the image: signed by owner slot 0 with a key of zeros. -/
def img (a : Nat) : Byte :=
  if a < 8 then (ascii "OLHXIMG1").getD a 0 else if a = 8 then 1 else if a = 0xC then 7 else if a = 0x18 then 2
  else if 0x560 ≤ a ∧ a < 0x720 then imgEntry ((a - 0x560) / 64) ((a - 0x560) % 64) else 0
def imgB (a n : Nat) : List Byte := (List.range n).map (fun i => img (a + i))
/-- A device in P2 with that image in flash. -/
def imageDev : Dev :=
  { phaseDev 2 with
    fuses := { (phaseDev 2).fuses with slots := [(1, sha3 (imgB 0x40 1312))], svnMin := 0 }
    pilot := { (phaseDev 2).pilot with flash := flashOf img 0 0x10008 } }

theorem image_bytes (a n : Nat) (h : a + n ≤ 0x10008) : imageDev.flashBytes a n = imgB a n := by
  refine List.map_congr_left (fun i hi => ?_)
  have hi' := List.mem_range.mp hi
  show tget 0xFF (flashOf img 0 0x10008) (a + i) = _
  rw [tget_range, if_pos (by omega)]
theorem image_nat (a n : Nat) (h : a + n ≤ 0x10008) : imageDev.flashNat a n = leNat (imgB a n) := by
  rw [Dev.flashNat, image_bytes a n h]

/-- What the table says of component k. -/
def imgComp (k : Nat) : Component :=
  let a := 0x560 + 64 * k
  { typ := leNat (imgB a 2), index := leNat (imgB (a + 2) 2), offset := leNat (imgB (a + 8) 8), length := leNat (imgB (a + 16) 4),
    load := leNat (imgB (a + 24) 8), digest := imgB (a + 32) 32 }
theorem image_component (k : Nat) (h : k < 7) : imageDev.component k = imgComp k := by
  simp only [Dev.component, imgComp]
  rw [image_nat _ _ (by omega), image_nat _ _ (by omega), image_nat _ _ (by omega), image_nat _ _ (by omega), image_nat _ _ (by omega),
    image_bytes _ _ (by omega)]
theorem image_componentOk (k : Nat) (h : k < 7) : imageDev.componentOk k = true := by
  simp only [Dev.componentOk, image_component k h]
  rw [image_nat _ _ (by omega), image_nat _ _ (by omega)]
  revert k; decide +kernel
theorem image_components : (List.range 7).map imageDev.component = (List.range 7).map imgComp :=
  List.map_congr_left (fun k hk => image_component k (List.mem_range.mp hk))
theorem image_zero (a n : Nat) (h : a + n ≤ 0x10008) (hz : 0x720 ≤ a) : (imageDev.flashBytes a n).all (· == 0) = true := by
  rw [image_bytes a n h, imgB, List.all_map, List.all_eq_true]
  intro i hi
  have : img (a + i) = 0 := by simp only [img]; rw [if_neg (by omega), if_neg (by omega), if_neg (by omega), if_neg (by omega), if_neg (by omega)]
  simp [this]
theorem image_manifestOk : imageDev.manifestOk = true := by
  have hn : imageDev.flashNat 0xC 4 = 7 := by rw [image_nat _ _ (by omega)]; decide +kernel
  have hall : (List.range 7).all imageDev.componentOk = true :=
    List.all_eq_true.mpr (fun k hk => image_componentOk k (List.mem_range.mp hk))
  simp only [Dev.manifestOk, hn, image_components, hall]
  rw [image_zero (0x560 + 64 * 7) _ (by omega) (by omega), image_zero 0x16D4 _ (by omega) (by omega), image_bytes 0 8 (by omega),
    image_bytes 0x20 0x20 (by omega), image_nat 8 4 (by omega), image_nat 0x14 4 (by omega), image_nat 0x18 4 (by omega)]
  decide +kernel
/-- The digests are the standard's of no bytes and of eight zeros. -/
theorem image_digests : sha3 (imgB 0x10000 0) = imgDigest 0 ∧ sha3 (imgB 0x10000 8) = imgDigest 1 := by decide +kernel
theorem image_componentsFail : imageDev.componentsFail ((List.range 7).map imgComp) = none := by
  have h : ∀ cs : List Component, (∀ c ∈ cs, c.offset = 0x10000 ∧ ((c.length = 0 ∧ c.digest = imgDigest 0 ∧ c.typ ≠ 2) ∨
      (c.length = 8 ∧ c.digest = imgDigest 1 ∧ c.typ ≠ 3))) → imageDev.componentsFail cs = none := by
    intro cs
    induction cs with
    | nil => intro; rfl
    | cons c cs ih =>
      intro hc
      have hb : bits (leNat (imgB 0x10000 8)) 6 0 ≤ 64 := by decide +kernel
      have ih := ih (fun c hc' => hc c (.tail _ hc'))
      obtain ⟨h1, ⟨h2, h3, h4⟩ | ⟨h2, h3, h4⟩⟩ := hc c (.head _)
      · have ho : imageDev.contentOk c = true := by
          simp only [Dev.contentOk, h2, if_neg h4]
          split <;> rfl
        simp only [Dev.componentsFail, h1, h2, image_bytes 0x10000 0 (by omega), image_digests.1, h3, ho, bne_self_eq_false]
        exact ih
      · have ho : imageDev.contentOk c = true := by
          simp only [Dev.contentOk, h1, h2, if_neg h4, image_nat 0x10000 8 (by omega), decide_eq_true hb]
          split <;> rfl
        simp only [Dev.componentsFail, h1, h2, image_bytes 0x10000 8 (by omega), image_digests.2, h3, ho, bne_self_eq_false]
        exact ih
  exact h _ (by decide +kernel)

/-- What the manifest gives. -/
def imgManifest : Manifest :=
  ⟨imageDev.flashNat 0x10 4, imageDev.flashNat 0x14 4, bit 2 0, 2 / 2, imageDev.flashNat 0x1C 4, (List.range 7).map imgComp, sha3 (imgB 0 0xD60)⟩
/-- Where the standard's signature check accepts it, the image verifies, and its host firmware is found. -/
theorem image_verifies (h : Config.mlDsaVerify (imgB 0x40 1312) (sha3 (imgB 0 0xD60)) (imgB 0xD60 2420) = true) :
    ∃ m, imageDev.verifyImage false = .ok m ∧ m.comps.find? (fun c => c.typ == 7) = some (imgComp 6) := by
  refine ⟨imgManifest, ?_, ?_⟩
  · simp only [Dev.verifyImage, image_manifestOk, Dev.keyMatches]
    have hr : imageDev.get F.pilStatus_FLASH_RELEASED = 0 := by decide +kernel
    have hk : leNat (imgB 0x18 4) = 2 := by decide +kernel
    have hs : (imageDev.slotState 0 == 1) = true := by decide +kernel
    have hq : (imageDev.fuses.slots[0]?.getD (0, [])).2 = sha3 (imgB 0x40 1312) := rfl
    have hv : imageDev.fuses.svnMin = 0 := rfl
    have hn : leNat (imgB 0xC 4) = 7 := by decide +kernel
    rw [image_nat 0x18 4 (by omega), hk, image_bytes 0x40 1312 (by omega), image_bytes 0 0xD60 (by omega), image_bytes 0xD60 2420 (by omega),
      image_nat 0xC 4 (by omega), hn, image_components, image_componentsFail, h, hr, hv]
    simp only [List.getD_eq_getElem?_getD, Nat.reduceDiv, Nat.reduceSub]
    simp [hs]
    rw [if_pos hq]; rfl
  · exact (show ((List.range 7).map imgComp).find? (fun c => c.typ == 7) = some (imgComp 6) by decide +kernel)


/-! ### Statements about resets, the host and its memory accesses -/

/-- A reset of DEV_WARM requested at 0, at a time. -/
def dueDev (now : Nat) (skip : Bool) : Dev := { devUp with now := now, reset := some ⟨2, 1, 0, skip⟩ }

/-- What the idle step does before it looks at the reset. -/
def idled (d : Dev) : Dev := ({ d.jtagRun with now := d.jtagRun.now + 1 } : Dev).returnCredits.endZeroing.endCraneResets

theorem witness_ResetsAccountForItems :
    Up up ∧ devUp.clocked = true ∧ devUp.pilot.wdtArmed = false ∧ (devUp.modPilot (fun p => { p with wdtArmed := true })).pilot.wdtArmed = true ∧
    (1 ≠ 3 ∧ 2 ≠ 3) ∧ (dueDev 0 false).reset = some ⟨2, 1, 0, false⟩ ∧ devUp.reset = none ∧
    (∀ skip : Bool, (dueDev 0 skip).jtagRun.clocked = true ∧ (idled (dueDev 0 skip)).reset = some ⟨2, 1, 0, skip⟩ ∧
      (idled (dueDev (if skip then 9999 else 199999) skip)).now = (if skip then 10000 else 200000) ∧
      (idled (dueDev (if skip then 9998 else 199998) skip)).now < (if skip then 10000 else 200000)) ∧
    (shortIt 1 0).phase ≠ .finished ∧ (shortIt 1 0).started = true ∧ ({ shortIt 1 0 with started := false } : Item).started = false ∧ (4096 < 2 ^ 40) := by
  exact ⟨up_of _ rfl (by decide +kernel), by decide +kernel⟩

/-- Physical die 0 serves logical die 0, idle for one tide, ready to gate. -/
def gateDev (retain : Nat) : Dev :=
  (({ devUp with dieMap := [(0, 0)] } : Dev).put F.cdGateCfg_IDLE_TIDES 1 0).put F.cdGateCfg_RETAIN retain 0 |>.put F.tideCount_VALUE 1
/-- The same with its clusters gated and deck 0 asked to retain. -/
def gatedDev : Dev := ((gateDev 1).put F.cdGateCfg_GATED 15 0).put F.mntPowerCmd_DECK_RETAIN 1

theorem witness_UnitPortResetsAndLowPower :
    Up up ∧ (locCrane 7 7 < 2 ^ 16 ∧ 0 < 2 ^ 16 ∧ (∀ k ∈ List.range 8, ∀ c ∈ List.range 8, locCrane k c ≠ 0)) ∧
    (devUp.unitTiles 0x8000 = none ∧ (gateDev 0).unitTiles 0 = some (0, [0]) ∧ (gateDev 0).launchOnCluster 0 = none ∧
      ({ gateDev 0 with launches := [launch0] } : Dev).launchOnCluster 0 = some launch0) ∧
    (hasSlot 0 0 = true ∧ hasSlot 0 2 = false ∧ hasSlot 2 3 = false ∧ devUp.hartUp 0 = true) ∧
    (∀ slot ∈ [0, 3], (∀ p ∈ List.range 6, 0 ≠ locPort p) ∧ (∀ j ∈ List.range 8, 0 ≠ locDeck j) ∧ slot < 4) ∧
    (∀ r ∈ [0, 1], Up (st (gateDev r)) ∧ (gateDev r).mayGate 0 = true ∧ (((gateDev r).dropCluster 0).putBit F.cdGateCfg_GATED 0 true 0).get F.cdGateCfg_RETAIN 0 = r) ∧
    devUp.mayGate 0 = false ∧ gatedDev.gated 0 = true ∧ devUp.gated 0 = false ∧
    (Up (st gatedDev) ∧ bit (gatedDev.get F.mntPowerCmd_DECK_RETAIN) 0 = true ∧ gatedDev.deckRetained 0 = false ∧ gatedDev.deckGated 0 = true ∧ gatedDev.craneOn 0 = false) ∧
    (gateDev 0).deckGated 0 = false ∧ (devUp.putBit F.mntPowerStatus_RETAINED 0 true).deckRetained 0 = true ∧
    (devUp.put F.mntPowerCmd_PKG_IDLE 1).mayIdle = true ∧ devUp.mayIdle = false ∧
    (devUp.put F.mntPowerStatus_IN_PKG_IDLE 1).get F.mntPowerStatus_IN_PKG_IDLE = 1 ∧ devUp.get F.mntPowerStatus_IN_PKG_IDLE = 0 := by
  refine ⟨up_of _ rfl (by decide +kernel), by decide +kernel, by decide +kernel, by decide +kernel, by decide +kernel, fun r hr => ⟨up_of _ ?_ ?_, ?_⟩, by decide +kernel, by decide +kernel,
    by decide +kernel, ⟨up_of _ (by decide +kernel) (by decide +kernel), by decide +kernel⟩, by decide +kernel⟩
  all_goals (revert r; decide +kernel)

/-- Rings 9 and 64 of a device, live, in a state; the record is VALID or not. -/
def heldDev (state valid : Nat) : Dev :=
  (((devUp.setReg .hmRingCfg 9 0x8000000504040000).setRing 9 state).setReg .mntPsr 0 (BitVec.ofNat 64 (valid * 2 ^ 16))).setReg .mntPsr 20 0x200
/-- The host die in reset at its last step, with its link back. -/
def backDev (d : Dev) : Dev := { d.setLinkState 32 4 with host := { d.host with running := false, resetStep := 4 } }

theorem witness_HostOnlyReset :
    Up up ∧ (devUp.mayHostReset = true ∧ devUp.hostUp = true) ∧ ({ devUp with host := {} } : Dev).mayHostReset = false ∧
    (∀ k ∈ [1, 2], 9 ∈ (heldDev k 0).liveRings ∧ (heldDev k 0).ringState 9 = k) ∧
    (Up (st (heldDev 3 1)) ∧ (heldDev 3 1).psrValid = true ∧ bit ((heldDev 3 1).psr 0) 17 = false ∧ (heldDev 3 1).items = []) ∧
    devUp.psrValid = false ∧ devUp.host.running = true ∧ bit ((heldDev 3 3).psr 0) 17 = true ∧ devUp.hartUp 0 = true ∧
    (Up (st (backDev devUp)) ∧ (backDev devUp).host.running = false ∧ (backDev devUp).host.resetStep = 4 ∧ (backDev devUp).reset = none ∧
      (backDev devUp).linkState 32 = 4 ∧ (match (backDev devUp).verifyImage false with | .error c => some c | .ok _ => none) = some 5) := by
  exact ⟨up_of _ rfl (by decide +kernel), by decide +kernel, by decide +kernel, by decide +kernel, ⟨up_of _ (by decide +kernel) (by decide +kernel), by decide +kernel⟩,
    by decide +kernel, by decide +kernel, by decide +kernel, by decide +kernel, ⟨up_of _ (by decide +kernel) (by decide +kernel), by decide +kernel⟩⟩
/-- The firmware of the image that verifies can be placed, unless its page is retired. -/
theorem witness_HostOnlyReset_placed :
    (imgComp 6).load = 0 ∧ (imgComp 6).length = 8 ∧ devUp.placeable 0 8 = true ∧
    ({ devUp with ledger := { devUp.ledger with data := { devUp.ledger.data with retired := [{ pending := false, reason := 5, count := 1, first := 0 }] } } } : Dev).placeable 0 8 = false := by
  decide +kernel

/-- Ring 9 has an MSI address and a window of one tide in which MSIs were sent. -/
def msiDev (sent : Option Nat) : Dev :=
  ((devUp.put F.hmRingMsiAddr_ADDR 0x400 9).put F.hmRingMsi_MOD_TIDES 1 9).modRing 9 (fun r => { r with msiSent := sent })

theorem witness_ResumeReactivatesHeldRings :
    (∀ v ∈ [0, 1], Up (st (heldDev 3 v)) ∧ (heldDev 3 v).hartUp 0 = true ∧ (heldDev 3 v).psrValid = decide (v = 1)) ∧
    9 ∈ (heldDev 3 1).liveRings ∧ (heldDev 3 1).ringState 9 = 3 ∧ 9 ∈ (heldDev 6 1).liveRings ∧ (heldDev 6 1).ringState 9 ≠ 3 ∧ 9 ∈ (heldDev 3 1).pendingRings ∧
    (devUp.get F.hmRingMsiAddr_ADDR 9 = 0 ∧ (msiDev none).get F.hmRingMsiAddr_ADDR 9 ≠ 0 ∧ (msiDev none).ringState 9 ≠ 3 ∧ (msiDev none).msiSpent 9 = false ∧ (msiDev (some 0)).msiSpent 9 = true) := by
  refine ⟨fun v hv => ⟨up_of _ ?_ ?_, ?_⟩, by decide +kernel⟩
  all_goals (revert v; decide +kernel)

/-- L2 k holds line 64 in a state. -/
def cohDev (k state : Nat) (ts : List Txn := []) : Dev :=
  { devUp with coh := { l2 := [(k, [⟨64, state, List.replicate 64 0, false⟩])], txns := ts } }
/-- A transaction of agent 2 on line 64 that waits for agent 1. -/
def txn0 (kind : ReqKind) (probes waiting : List Nat) : Txn := { kind := kind, agent := 2, line := 64, probes := probes, waiting := waiting }

theorem witness_SnoopRingTransactions :
    (Up up ∧ devUp.hostUp = true ∧ L2Request .gets .getS (fun s => s == 0) ∧ L2Request .claim .claim (fun s => s == 1 || s == 3) ∧
      L2Request .purge .purge (fun _ => true) ∧ 64 < poolLines) ∧
    (∀ k ∈ [0, 11], (cohDev k 1).coh.st k 64 = 1 ∧ (cohDev k 3).coh.st k 64 = 3 ∧ (cohDev k 2).coh.st k 64 = 2 ∧ (cohDev k 4).coh.st k 64 = 4 ∧ devUp.coh.st k 64 = 0) ∧
    (amoOk .add 8 (64 * 64 + 56) = true ∧ amoOk .cas 16 (64 * 64 + 48) = true) ∧
    ((cohDev 1 4 [txn0 .getM [1] [1]]).coh.txn 64 = some (txn0 .getM [1] [1]) ∧ (txn0 .getM [1] [1]).probes.contains 1 = true ∧
      (txn0 .getM [1] [1]).kind.probe = .take ∧ (txn0 .getM [] [1]).probes.contains 1 = false) ∧
    ProbeCommand .probetake .take ∧ ((txn0 .getS [1] [1]).kind.probe = .share ∧ (txn0 .clean [1] [1]).kind.probe = .clean ∧ (txn0 .discard [1] [1]).kind.probe = .drop) ∧
    (devUp.coh.txn 64 = none ∧ (cohDev 1 3).coh.held 1 64 = some ⟨64, 3, List.replicate 64 0, false⟩ ∧ (cohDev 1 2).coh.held 1 64 = some ⟨64, 2, List.replicate 64 0, false⟩) ∧
    ((txn0 .getM [] []).kind.answersData = true ∧ (txn0 .purge [] []).kind.answersData = false ∧ (txn0 .purge [] []).waiting = []) := by
  refine ⟨⟨up_of _ rfl (by decide +kernel), by decide +kernel, .inl ⟨rfl, rfl, rfl⟩, .inr (.inr (.inl ⟨rfl, rfl, rfl⟩)),
    .inr (.inr (.inr (.inr (.inl ⟨rfl, rfl, rfl⟩)))), by decide⟩, by decide +kernel, by decide +kernel, by decide +kernel, .inr (.inl ⟨rfl, rfl⟩), by decide +kernel⟩

/-- Window 0 of the breakwater lets port 1 read and write the pool's first 2 MiB. -/
def windowedDev : Dev :=
  ((((devUp.put F.bwfWinCfg_ENABLE 1 0).put F.bwfWinCfg_PORTS 2 0).put F.bwfWinCfg_R 1 0).put F.bwfWinCfg_W 1 0).put F.bwfWinCfg_LIMIT 1 0

/-- Page 0 of the pool is retired. -/
def retiredDev : Dev :=
  { devUp with ledger := { devUp.ledger with data := { devUp.ledger.data with retired := [{ pending := false, reason := 5, count := 1, first := 0 }] } } }
/-- L2 1 holds line 64 in E or M and hart 15 has reserved eight bytes of it. -/
def resvDev (k : Nat) : Dev := (cohDev 1 k).modCoh (fun c => { c with resv := [(15, 4096, 8)] })
theorem hartAt_of (d : Dev) (h pa n : Nat) (u c : Bool) (hu : d.clocked = true ∧ d.ticking = true ∧ d.hartAccess h pa n u c = true) : HartAt (st d) h pa n u c :=
  ⟨⟨hu.1, hu.2.1⟩, hu.2.2⟩

theorem witness_HostAndInboundAccesses :
    (∀ k ∈ [1, 2, 3, 4], HartAt (st (cohDev 1 k)) 15 4096 8 false true ∧ space 4096 = .pool ∧ (cohDev 1 k).paErr 4096 8 = none ∧
      (cohDev 1 k).coh.held (15 / 8) (4096 / 64) = some ⟨64, k, List.replicate 64 0, false⟩ ∧ (cohDev 1 k).coh.resv = []) ∧
    (∀ k ∈ [2, 4], HartAt (st (cohDev 1 k)) 15 4096 8 true true ∧ HartAt (st (resvDev k)) 15 4096 8 true true ∧ (15, 4096, 8) ∈ (resvDev k).coh.resv) ∧
    (HartAt up 0 4096 8 false false ∧ HartAt up 0 4096 8 true false ∧ (∃ bs, (devUp.reach 4096 8).readPa 4096 8 = .ok bs) ∧
      (∃ d', (devUp.meetWrite 4096 8).writePa 4096 (leBytes 8 5) = .ok d')) ∧
    (HartAt (st retiredDev) 0 4096 8 false false ∧ HartAt (st retiredDev) 0 4096 8 true false ∧ (∃ e, (retiredDev.reach 4096 8).readPa 4096 8 = .error e) ∧
      (∃ e, (retiredDev.meetWrite 4096 8).writePa 4096 (leBytes 8 5) = .error e) ∧ retiredDev.paErr 4096 1 = some .retired ∧ retiredDev.hartUp 0 = true) ∧
    (∀ u : Bool, HartAt up 0 0x1F000000008 8 u false ∧ space 0x1F000000008 = .regs 8 ∧ HartAt up 0 0x1EFFFFFFFF8 8 u false ∧ space 0x1EFFFFFFFF8 = .unmapped ∧
      HartAt up 0 0x20000000000 4 u false ∧ space 0x20000000000 = .host ∧ inImsic 0x20000000000 = true) := by
  have hu : ∀ (d : Dev) (h pa n : Nat) (u c : Bool), (d.clocked && d.ticking && d.hartAccess h pa n u c) = true → HartAt (st d) h pa n u c := fun d h pa n u c x =>
    hartAt_of d h pa n u c (by simpa only [Bool.and_eq_true, and_assoc] using x)
  refine ⟨fun k hk => ⟨hu _ _ _ _ _ _ ?_, ?_⟩, fun k hk => ⟨hu _ _ _ _ _ _ ?_, hu _ _ _ _ _ _ ?_, ?_⟩,
    ⟨hu _ _ _ _ _ _ (by decide +kernel), hu _ _ _ _ _ _ (by decide +kernel), ok_val _ (by decide +kernel), ok_val _ (by decide +kernel)⟩,
    ⟨hu _ _ _ _ _ _ (by decide +kernel), hu _ _ _ _ _ _ (by decide +kernel), error_val _ (by decide +kernel), error_val _ (by decide +kernel), by decide +kernel⟩,
    fun u => ⟨hu _ _ _ _ _ _ ?_, ?_, hu _ _ _ _ _ _ ?_, ?_, hu _ _ _ _ _ _ ?_, ?_⟩⟩
  all_goals first | (revert k; decide +kernel) | (revert u; decide +kernel)

theorem witness_HostAndInboundAccesses_blocks :
    (devUp.hartUp 0 = true ∧ devUp.paErr 4096 1 = none ∧ amoOk .add 8 4096 = true ∧ amoOk .cas 4 4100 = true ∧ inWarehouse 0x10000000000 = true ∧
      space 0x10100000000 = .localMem 0 0 ∧ amoOk .add 8 0x10100000000 = true ∧ devUp.coh.st 0 64 ≠ 2 ∧ devUp.coh.st 0 64 ≠ 4 ∧
      (cohDev 0 2).coh.held 0 64 = some ⟨64, 2, List.replicate 64 0, false⟩) ∧
    (devUp.hostUp = true ∧ devUp.poolWaits 0 = false ∧ devUp.poolWaits 4096 = false ∧ 0 < 64 ∧ 4096 % 4096 + 64 ≤ 4096) ∧
    ((devUp.translateInbound 1 0 4096 false).2 = none ∧ (devUp.setIo 16 1).ioWord 16 % 16 = 1 ∧ ((devUp.setIo 16 1).translateInbound 1 0 4096 false).2 = some 4096) ∧
    ((∀ w ∈ List.range 16, devUp.windowAllows w 1 4096 64 false = false ∧ devUp.windowAllows w 1 4096 64 true = false) ∧
      windowedDev.windowAllows 0 1 (2 ^ 21 - 64) 64 false = true ∧ windowedDev.windowAllows 0 1 (2 ^ 21 - 63) 64 true = false ∧
      windowedDev.windowAllows 0 1 0 4096 true = true ∧ inImsic 0 = false ∧ inImsic 0x20000000000 = true) ∧
    (devUp.get F.bwfDeniedInfo_VALID = 0 ∧ (devUp.put F.bwfDeniedInfo_VALID 1).get F.bwfDeniedInfo_VALID ≠ 0) ∧
    (∃ bs, (windowedDev.look 4096 64).hubRead 4096 64 = .ok bs) ∧ (∃ d', (windowedDev.meetWrite 4096 3).hubWrite 4096 [1, 2, 3] = .ok d') := by
  exact ⟨by decide +kernel, by decide +kernel, by decide +kernel, by decide +kernel, by decide +kernel, ok_val _ (by decide +kernel), ok_val _ (by decide +kernel)⟩


/-! ### Statements about tokens, the register window and the log -/

/-- A LOG_CLEAR token signed by owner slot 0, for a serial, nonce and key of zeros. -/
def token0 : List Byte := ascii "OLHXTOK1" ++ [2, 0, 1] ++ List.replicate 4085 0
/-- A device whose owner slot 0 holds that key and whose BMC channel has that nonce. -/
def tokDev (bmc : Option (List Byte)) : Dev :=
  { devUp with
    fuses := { devUp.fuses with serial := [], slots := [(1, sha3 (tok token0 0x80 1312))] }
    pilot := { devUp.pilot with nonceBmc := bmc } }
theorem token0_ok : tokOk token0 = true ∧ tokKind token0 = 2 ∧ tokNat token0 0xA 1 = 1 ∧ tok token0 0x10 16 = fit 16 [] ∧
    tok token0 0x20 32 = List.replicate 32 0 := by decide +kernel

/-- A device whose pool holds that token where PIL_TOKEN_ADDR points. -/
def tokMem : Dev := { devUp with mem := { cells := ((List.range 11).zip token0).filter (fun c => c.2 != 0) } }

theorem witness_TokensAreJudged :
    TokenCommand .logClear 2 ∧ devUp.clocked = true ∧ tokKind token0 = 2 ∧ tokOk token0 = true ∧ tokOk [] = false ∧ Up up ∧
    (tokOk ((devUp.meetToken .host).tokenOf .host token0) = false ∧ tokOk ((tokMem.meetToken .host).tokenOf .host []) = true ∧
      tokKind ((tokMem.meetToken .host).tokenOf .host []) = 2) ∧
    ((devUp.put F.pilStatus_STAGING 1).pilotBusy = true ∧ devUp.pilotBusy = false ∧ (tokDev none).pilotBusy = false) ∧
    ((tokDev none).tokFault .bmc [] = some 2 ∧ (tokDev none).tokFault .bmc token0 = some 4) := by
  exact ⟨.inr (.inl ⟨rfl, rfl⟩), by decide +kernel, by decide +kernel, by decide +kernel, by decide +kernel, up_of _ rfl (by decide +kernel), by decide +kernel,
    by decide +kernel, by decide +kernel⟩
/-- Where the standard's signature check accepts it, the token is good. -/
theorem witness_TokensAreJudged_good
    (h : Config.mlDsaVerify (tok token0 0x80 1312) (sha3 (tok token0 0 0x5A0)) (tok token0 0x5A0 2420) = true) :
    TokenGood (tokDev (some (List.replicate 32 0))) .bmc token0 := by
  refine ⟨by decide +kernel, ?_⟩
  obtain ⟨h1, h2, h3, h4, h5⟩ := token0_ok
  have hn : (tokDev (some (List.replicate 32 0))).nonceOf .bmc = some (List.replicate 32 0) := rfl
  have hs : (tokDev (some (List.replicate 32 0))).fuses.serial = [] := rfl
  have hq : ((tokDev (some (List.replicate 32 0))).fuses.slots.getD (1 - 1) (0, [])).2 = sha3 (tok token0 0x80 1312) := rfl
  have hk : (tokDev (some (List.replicate 32 0))).slotState (1 - 1) = 1 := rfl
  simp only [Dev.tokFault, Dev.keyMatches, h1, h2, h3, h4, h5, hn, hs, hq, hk, h, maySign, bne_self_eq_false, beq_self_eq_true]
  decide

theorem witness_NoncesEvidenceStagesAndFlash :
    (Up up ∧ devUp.hartUp 0 = true) ∧ devUp.clocked = true ∧ bit (devUp.get F.pilDebug_SCOPE) 3 = false ∧ bit ((devUp.put F.pilDebug_SCOPE 8).get F.pilDebug_SCOPE) 3 = true ∧
    (devUp.put F.pilStatus_STAGING 1).get F.pilStatus_STAGING = 1 ∧ devUp.get F.pilStatus_STAGING = 0 ∧ devUp.flashWriting = false ∧ devUp.items = [] ∧
    (maintSt (maintIt 6 0 0x1000 100 1 1)).dev.flashWriting = true ∧
    (maintIt 6 0 0x1000 100 1 1 ∈ (maintSt (maintIt 6 0 0x1000 100 1 1)).dev.items ∧ (maintIt 6 0 0x1000 100 1 1).typ = tMaint ∧
      (maintIt 6 0 0x1000 100 1 1).activity = 6 ∧ (maintIt 6 0 0x1000 100 1 1).phase ≠ .finished) ∧
    (match (devUp.flag F.pilStatus_STAGING false).verifyImage false with | .error c => some c | .ok _ => none) = some 5 :=
  ⟨⟨up_of _ rfl (by decide +kernel), by decide +kernel⟩, by decide +kernel, by decide +kernel, by decide +kernel, by decide +kernel, by decide +kernel, by decide +kernel, rfl,
    by decide +kernel, by decide +kernel, by decide +kernel⟩

theorem witness_RegisterWindowReadsAndWrites :
    (Up up ∧ devUp.hartUp 0 = true ∧ devUp.clocked = true ∧ 0xFFFFFF % 8 ≠ 0 ∧ Reg.at? 0xFFFFF8 = none ∧ reservedReg 0xFFFFF8 = false ∧ Reg.at? 0 = some (.devId, 0) ∧
      reservedReg 0x218000 = true ∧ Reg.at? 0x218000 = none) ∧
    (devUp.refuses .tidePeriodNs 0 16500 = true ∧ devUp.refuses .tidePeriodNs 0 0x4E20 = false ∧ Reg.devId ∉ [Reg.lkpCap, .lkpCoolant, .hawNode, .mntLedgerArm, .devAssetTag]) ∧
    (State.reset.dev.ticking = false ∧ earlyReg (Reg.offset .hmRingCfg 0) = false ∧ earlyReg (Reg.offset .devId 0) = true ∧ devUp.ticking = true) ∧
    (∃ f ∈ Reg.lkpCap.fields, f.typ = .rw) ∧ (∃ f ∈ Reg.devId.fields, f.typ = .ro) ∧ bit Reg.devAssetTag.readMask 63 = true ∧ bit Reg.pilCmd.readMask 0 = false ∧
    (∀ x ∈ [3599, 3600, 7200, 7201], bits (BitVec.ofNat 64 (setBits 0 F.lkpCap_BOARD_CAP_W.hi F.lkpCap_BOARD_CAP_W.lo x)).toNat
      F.lkpCap_BOARD_CAP_W.hi F.lkpCap_BOARD_CAP_W.lo = x) ∧ 1 < devUp.phase ∧
    devUp.get F.devErrInfo_VALID = 0 ∧ (devUp.regError .bmc true 8 2).get F.devErrInfo_VALID = 1 ∧
    devUp.log.alertCause ≤ devUp.log.bmcRead ∧ ({ devUp with log := { devUp.log with alertCause := 3 } } : Dev).log.bmcRead < 3 :=
  ⟨⟨up_of _ rfl (by decide +kernel), by decide +kernel⟩, by decide +kernel, by decide +kernel, by decide +kernel, by decide +kernel, by decide +kernel, by decide +kernel, by decide +kernel,
    by decide +kernel, by decide +kernel, by decide +kernel, by decide +kernel, by decide +kernel⟩

theorem witness_LogRecordsReadThroughTheWindow :
    Up up ∧ devUp.hartUp 0 = true ∧ ({ devUp with stopped := true } : Dev).pins.por = false ∧ devUp.log.recs[4095]? = none ∧ (devUp.note 0x3001 0).log.recs[0]?.isSome = true :=
  ⟨up_of _ rfl (by decide +kernel), by decide +kernel⟩


/-! ### The remaining statements with hypotheses -/

theorem witness_CommandsCompleteOrDoNothing :
    (∃ s : State, s.dev.clocked = false ∧ pinCommand (.tick default) = false ∧
      ∀ off, Instr.tick default = .regRead off → alwaysOnReg (off % 2 ^ 24) = true → s.dev.pins.por = true) ∧ (∃ s : State, s.dev.ticking = false ∧ earlyCommand (.tick default) = false) :=
  ⟨⟨st { devUp with stopped := true }, by decide +kernel, by decide +kernel, fun _ h => nomatch h⟩, ⟨State.reset, by decide +kernel⟩⟩
theorem witness_MemoryStaysCanonical :
    State.reset.dev.mem.wf = true ∧ (st { devUp with mem := { cells := [(3, 1), (4, 2)] } }).dev.mem.wf = true ∧
    ({ cells := [(4, 2), (3, 1)] } : Mem).wf = false := by decide +kernel
theorem witness_StepTakesTheFrontCommand : ({ devUp with stopped := true } : Dev).clocked = false ∧ devUp.clocked = true ∧ devUp.reset = none := by decide +kernel
theorem witness_TideCapacity : 16 ≤ 256 ∧ 256 ≤ 256 ∧ capOf 16000 256 = 0 := by decide +kernel
theorem witness_CraneRandGenerator : ∃ (k0 k1 pos : W64) (z1 z2 z3 z4 : Nat), z1 = (pos.toNat * 0xD6E8FEB86659FD93 + k0.toNat) % 2 ^ 64 ∧
    z2 = (z1 ^^^ (z1 / 2 ^ 32)) * 0xA3B195354A39B70D % 2 ^ 64 ∧ z3 = z2 ^^^ k1.toNat ∧ z4 = (z3 ^^^ (z3 / 2 ^ 29)) * 0x5DEECE66D1CE4E5B % 2 ^ 64 :=
  ⟨7, 9, 1, _, _, _, _, rfl, rfl, rfl, rfl⟩


/-! ### The manual's worked examples -/

/-- 03, worked mapping of two pool addresses: stack, stack local address, core die and pseudo-channel. -/
theorem test_pool_map : stackOf 16 0x12345ABC = (1, 0x01234ABC) ∧ pcOf 0x01234ABC = 7 ∧ stackOf 16 0xA000000040 = (8, 0x400000040) ∧
    coreDieOf 0x400000040 = 4 ∧ pcOf 0x400000040 = 0 ∧ poolAddr 16 1 0x01234ABC = 0x12345ABC ∧ poolAddr 16 8 0x400000040 = 0xA000000040 := by decide +kernel
/-- 00: the local memory of tile 437. -/
theorem test_local_base : localBase 437 = 0x1011B500000 ∧ space 0x1011B500000 = .localMem 437 0 := by decide +kernel
/-- 18, worked register addresses; CD_TC_LOCK_CFG_2_1 of die 13 is entry 2 of its cluster 1. -/
theorem test_register_addresses : Reg.at? 0x021158 = some (.hmRingCfg, 5) ∧ Reg.at? 0x0F0A18 = some (.hmRingCfg, 1000) ∧
    Reg.at? 0x208000 = some (.hawNode, 0) ∧ Reg.at? 0x40D158 = some (.cdTcLockCfg, 8 * 13 + 4 + 1) ∧ Reg.at? 0x30B100 = some (.whfStatus, 11) := by decide +kernel
/-- 15, worked allocation at 5,500 W and at 6,500 W. -/
theorem test_allocation :
    shareBudget [250, 550, 250, 1320, 20] [600, 1700, 450, 3300, 50] 5500 = ([600, 1700, 450, 2730, 20], 0) ∧
    shareBudget [250, 550, 250, 1320, 20] [600, 1700, 450, 3300, 50] 6500 = ([600, 1700, 450, 3300, 50], 400) := by decide +kernel
/-- 05, worked arbitration, cycles 0 to 7: the grant, the next decision and the hints of the inputs that
were not chosen. -/
def arbRow (a : Arb) : Option Nat × Option Nat × List (Nat × Nat) :=
  (a.grantee.map (·.input), a.chosen.map (·.input), a.hints.filter (fun h => a.chosen.all (fun c => c.input != h.1)))
theorem test_arbitration :
    let b : ArbRequest := { req0 4 with burst := .length 3 }
    let a0 := Arb.cycle {} [req0 3, req0 1, req0 0] false
    let a1 := a0.cycle [b, req0 1, req0 0] true
    let a2 := a1.cycle [req0 1, req0 0] true
    let a3 := a2.cycle [req0 2, req0 1, req0 0] true
    let a4 := a3.cycle [req0 2, req0 1, req0 0] true
    let a5 := a4.cycle [req0 1, req0 0] false
    let a6 := a5.cycle [req0 0] true
    let a7 := a6.cycle [] true
    [a0, a1, a2, a3, a4, a5, a6, a7].map arbRow =
      [(none, some 3, [(1, 2), (0, 3)]), (some 3, some 4, [(1, 2), (0, 3)]), (some 4, none, [(1, 3), (0, 4)]), (some 4, none, [(2, 2), (1, 3), (0, 4)]),
       (some 4, some 2, [(1, 2), (0, 3)]), (none, some 1, [(0, 2)]), (some 1, some 0, []), (some 0, none, [])] := by decide +kernel

/-- 18, worked accesses of hart 17: a 4-byte store, a refused and an accepted value, and the clearing of
DEV_ERR_INFO. -/
def reg1 : Dev := devUp.hostStore 17 0x1F000040000 4 .scalar false 0
def reg2 : Dev := reg1.hostWrite 17 0x040000 16500
def reg3 : Dev := reg2.hostWrite 17 0x040000 0x4E20
def reg4 : Dev := reg3.hostWrite 17 0x48 0x8000000000000000
theorem test_worked_accesses :
    (reg1.resp = .storeFault ∧ reg1.reg .devErrInfo = 0x8100110100040000 ∧ reg1.get F.devErrCount_COUNT = 1) ∧
    (reg2.resp = .storeFault ∧ reg2.reg .devErrInfo = 0x8100110100040000 ∧ reg2.get F.devErrCount_COUNT = 2) ∧
    (reg3.resp = .ok 0 ∧ reg3.readReg .tidePeriodNs 0 = 0x4E20) ∧ (reg4.reg .devErrInfo = 0 ∧ reg4.get F.devErrCount_COUNT = 2) := by decide +kernel

/-- 06, worked job: its memory and the state in which X.MMA reads it. -/
def workedCells : List Host.Cell :=
  (([(0x1000, 0x100000001), (0x1008, 4), (0x1010, 0x0010800106001040), (0x1018, 0x60001),
    (0x1040, 0xF000000000002000), (0x1048, 0x100000004), (0x1050, 0xF000000000002100), (0x1058, 0x100000102),
    (0x1060, 0xF000000000002200), (0x1068, 0x400000001), (0x1070, 0xF000000000002300), (0x1078, 0x100000100),
    (0x1080, 0xF000000000002400), (0x1088, 0x100000001), (0x1098, 0xB),
    (0x2000, 0x9CBC54), (0x2100, 0x84), (0x2200, 0x37D6), (0x2300, 0x7E)] : List (Nat × Nat)).flatMap
    (fun e => wordCells (0x10100000000 + e.1) e.2))
def workedDev : Dev := ({ devRun with mem := { cells := workedCells } } : Dev).mma 0 0xF000000000001000 |>.1
def workedJob : Job := ((workedDev.tile 0).mat.job? 1).getD default
/-- Its output is 0x41181C01, nothing is counted, and it takes 89 cycles. -/
theorem test_worked_job : (workedDev.tile 0).mat.seq = 1 ∧ workedJob.cycles = 89 ∧ (workedDev.jobCompute 0 workedJob).2.2 = none ∧
    (workedDev.jobCompute 0 workedJob).2.1.map (fun b => (b.bytes.map (fun e => e.2.2), b.sat, b.flushed)) = [([0x01, 0x1C, 0x18, 0x41], 0, 0)] := by decide +kernel

/-- 06, 07 and 08: the words the manual writes out, their operation and register fields. -/
theorem test_words :
    (queueOp 0x4C11018B = some (0, 0x13) ∧ rdOf 0x4C11018B = 3 ∧ rs2Of 0x4C11018B = 1 ∧ rs1Of 0x4C11018B = 2) ∧
    (queueOp 0xFCC5950B = some (0, 0x3F) ∧ rdOf 0xFCC5950B = 10 ∧ rs1Of 0xFCC5950B = 11 ∧ rs2Of 0xFCC5950B = 12) ∧
    (queueOp 0x0007872B = some (1, 0) ∧ rdOf 0x0007872B = 14 ∧ rs1Of 0x0007872B = 15) ∧
    (queueOp 0x0007182B = some (1, 1) ∧ rdOf 0x0007182B = 16 ∧ rs1Of 0x0007182B = 14) ∧
    (gangOp 0x0001805B = some (0, 0) ∧ rs1Of 0x0001805B = 3) ∧ gangOp 0x0400005B = some (0, 2) ∧
    ((gangOp 0x00C5955B).map (·.1) = some 1 ∧ rdOf 0x00C5955B = 10 ∧ rs1Of 0x00C5955B = 11 ∧ rs2Of 0x00C5955B = 12) := by decide +kernel
/-- 07, V.NORM of copies of the largest F32 (sixteen here, 256 there): the mean is that number, the variance +0. -/
theorem test_norm : ({ ew := 32 } : Vec).norm (List.replicate 16 0x7F7FFFFF) = (⟨0x7F7FFFFF, false, false⟩, ⟨0, false, false⟩) := by decide +kernel
/-- 09, preparation of a tally job: the scale of a block whose greatest magnitude is 6.0, and 6.0 under it. -/
theorem test_block_scale : blockScale 2 0 [fpF32.decode 0x40C00000] = (0x7C, false) ∧
    (encodeScaled 2 0 0x7C .rne false false (fpF32.decode 0x40C00000)).code = 0x1E := by decide +kernel
/-- 19, worked thermal trip: the locator of logical die 13 on deck 2, site 1; a trip asserts both pins and stops
the clocks, and 114 degrees does nothing. -/
theorem test_thermal_trip : locPhys 13 = 0x2440 ∧
    (match exec (.thermalTrip 0x2440 115) up with
      | .next t => t.dev.pins.thermtrip && t.dev.pins.alert && !t.dev.clocked && t.dev.log.recs.any (fun r => r.code == 0x5510 && r.locator == 0x2440)
      | _ => false) = true ∧
    (match exec (.thermalTrip 0x2440 114) up with | .next t => t.dev.clocked && t.dev.log.recs == up.dev.log.recs | _ => false) = true := by decide +kernel

/-- The standard's check value of CRC-32C, over the digits 1 to 9. -/
theorem test_crc32c : crc32c (ascii "123456789") = 0xE3069283 := by decide +kernel
/-- 02 R72: a step takes the command in front and leaves the others, and the cut is made at 15/16 of the
tide and not before. -/
theorem test_front_of_queue :
    (match step ⟨[.admissionCut, .devWarm], { devUp with now := 15000 }⟩ with | .next t => t.pending == [.devWarm] && t.dev.cutDone | _ => false) = true ∧
    (match step ⟨[.admissionCut], { devUp with now := 14999 }⟩ with | .next t => t.pending == [] && !t.dev.cutDone | _ => false) = true := by decide +kernel

end Sys2Proof.Tests
end

section
/-! Bits of a value: what a field reads as after it, or another field, has been set (00 R10). -/
namespace Sys2Proof.Machine

theorem testBit_bits (v hi lo j : Nat) :
    (bits v hi lo).testBit j = (decide (j < hi + 1 - lo) && v.testBit (lo + j)) := by
  rw [bits, Nat.testBit_mod_two_pow, Nat.testBit_div_two_pow, Nat.add_comm j lo]

/-- A field set shows the new value; every bit outside it is as before. -/
theorem testBit_setBits (v hi lo x j : Nat) :
    (setBits v hi lo x).testBit j = if lo ≤ j ∧ j ≤ hi then x.testBit (j - lo) else v.testBit j := by
  have hv : ∃ a c, c < 2 ^ lo ∧ v = 2 ^ lo * (2 ^ (hi + 1 - lo) * a + bits v hi lo) + c :=
    ⟨v / 2 ^ lo / 2 ^ (hi + 1 - lo), v % 2 ^ lo, Nat.mod_lt _ (Nat.two_pow_pos lo), by
      rw [bits, Nat.div_add_mod, Nat.div_add_mod]⟩
  obtain ⟨a, c, hc, hv⟩ := hv
  have hb : bits v hi lo < 2 ^ (hi + 1 - lo) := Nat.mod_lt _ (Nat.two_pow_pos _)
  have hx : x % 2 ^ (hi + 1 - lo) < 2 ^ (hi + 1 - lo) := Nat.mod_lt _ (Nat.two_pow_pos _)
  have hset : setBits v hi lo x = 2 ^ lo * (2 ^ (hi + 1 - lo) * a + x % 2 ^ (hi + 1 - lo)) + c := by
    unfold setBits
    generalize bits v hi lo = b at hv
    rw [Nat.mul_comm b, Nat.mul_comm (x % _)]
    rw [Nat.mul_add] at hv ⊢
    omega
  rw [hset]
  conv => rhs; rw [hv]
  rw [Nat.testBit_two_pow_mul_add _ hc, Nat.testBit_two_pow_mul_add _ hx, Nat.testBit_two_pow_mul_add _ hc,
    Nat.testBit_two_pow_mul_add _ hb, Nat.testBit_mod_two_pow]
  by_cases hlo : j < lo
  · simp [hlo, Nat.not_le.2 hlo]
  · by_cases hhi : j ≤ hi
    · have : j - lo < hi + 1 - lo := by omega
      simp [hlo, Nat.not_lt.1 hlo, hhi, this]
    · have : ¬ j - lo < hi + 1 - lo := by omega
      simp [hlo, hhi, this]

/-- A field set reads as its new value, modulo its width. -/
theorem bits_setBits_same (v hi lo x : Nat) : bits (setBits v hi lo x) hi lo = x % 2 ^ (hi + 1 - lo) := by
  refine Nat.eq_of_testBit_eq fun j => ?_
  rw [testBit_bits, testBit_setBits, Nat.testBit_mod_two_pow]
  by_cases hj : j < hi + 1 - lo
  · have : lo ≤ lo + j ∧ lo + j ≤ hi := by omega
    simp [hj, this]
  · simp [hj]

/-- A field apart from the one set reads as before. -/
theorem bits_setBits_apart {hi lo hi' lo' : Nat} (v x : Nat) (h : hi < lo' ∨ hi' < lo) :
    bits (setBits v hi lo x) hi' lo' = bits v hi' lo' := by
  refine Nat.eq_of_testBit_eq fun j => ?_
  rw [testBit_bits, testBit_bits, testBit_setBits]
  by_cases hj : j < hi' + 1 - lo'
  · have : ¬ (lo ≤ lo' + j ∧ lo' + j ≤ hi) := by omega
    simp [this]
  · simp [hj]

/-- Setting a field to what it holds changes nothing. -/
theorem setBits_bits (v hi lo : Nat) : setBits v hi lo (bits v hi lo) = v := by
  refine Nat.eq_of_testBit_eq fun j => ?_
  rw [testBit_setBits, testBit_bits]
  split
  · next h =>
    have : j - lo < hi + 1 - lo ∧ lo + (j - lo) = j := by omega
    simp [this]
  · rfl

/-- A field inside a word reads the same once the value has been cut to the word. -/
theorem bits_ofNat {n hi : Nat} (v lo : Nat) (h : hi < n) : bits (BitVec.ofNat n v).toNat hi lo = bits v hi lo := by
  refine Nat.eq_of_testBit_eq fun j => ?_
  rw [testBit_bits, testBit_bits, BitVec.toNat_ofNat, Nat.testBit_mod_two_pow]
  by_cases hj : j < hi + 1 - lo
  · have : lo + j < n := by omega
    simp [this]
  · simp [hj]

theorem bits_lt (v hi lo : Nat) : bits v hi lo < 2 ^ (hi + 1 - lo) := Nat.mod_lt _ (Nat.two_pow_pos _)

end Sys2Proof.Machine
end

section
/-! Fields of the stored registers: what `get` and `reg` give after `put`, `addSat`, `flag` and `setReg`
(18 R659, R660). -/
namespace Sys2Proof.Machine

variable (d : Dev)

/-- A field put reads as its value, modulo its width. -/
theorem Dev.put_get_same (f : Fld) (v i : Nat) (h : f.hi < 64) :
    (d.put f v i).get f i = v % 2 ^ (f.hi + 1 - f.lo) := by
  rw [Dev.get, Dev.put, Dev.setReg_reg, bits_ofNat _ _ h, bits_setBits_same]

/-- A register at another offset reads as before. -/
theorem Dev.put_reg_other {f : Fld} {r : Reg} {i j : Nat} (v : Nat) (h : r.offset j ≠ f.reg.offset i) :
    (d.put f v i).reg r j = d.reg r j := Dev.setReg_other d _ h

theorem Dev.addSat_reg_other {f : Fld} {r : Reg} {i j : Nat} (n : Nat) (h : r.offset j ≠ f.reg.offset i) :
    (d.addSat f n i).reg r j = d.reg r j := d.put_reg_other _ h

/-- A saturating counter holds the sum, or its greatest value. -/
theorem Dev.addSat_get_same (f : Fld) (n i : Nat) (h : f.hi < 64) :
    (d.addSat f n i).get f i = min f.max (d.get f i + n) := by
  rw [Dev.addSat, Dev.put_get_same d f _ i h]
  refine Nat.mod_eq_of_lt (Nat.lt_of_le_of_lt (Nat.min_le_left _ _) ?_)
  exact Nat.sub_lt (Nat.two_pow_pos _) Nat.one_pos

/-- A field depends only on its register. -/
theorem Dev.get_congr {d d' : Dev} {f : Fld} {i : Nat} (h : d'.reg f.reg i = d.reg f.reg i) : d'.get f i = d.get f i := by
  rw [Dev.get, Dev.get, h]

end Sys2Proof.Machine
end

section
/-! Recording an event: it writes the logbook, LOG_STATUS and the alert pin, and nothing else of the device
(17 R651, R652; 19 R691). -/
namespace Sys2Proof.Machine

/-- `d'` is `d` but for the logbook, the pins and LOG_STATUS. -/
def LogsOnly (d d' : Dev) : Prop :=
  (∃ l p rs, d' = { d with log := l, pins := p, regs := rs }) ∧
  ∀ r i, r.offset i ≠ Reg.offset .logStatus 0 → d'.reg r i = d.reg r i

theorem LogsOnly.refl (d : Dev) : LogsOnly d d := ⟨⟨d.log, d.pins, d.regs, rfl⟩, fun _ _ _ => rfl⟩

theorem LogsOnly.trans {a b c : Dev} (hab : LogsOnly a b) (hbc : LogsOnly b c) : LogsOnly a c := by
  obtain ⟨⟨l, p, rs, rfl⟩, hab⟩ := hab
  obtain ⟨⟨l', p', rs', rfl⟩, hbc⟩ := hbc
  exact ⟨⟨l', p', rs', rfl⟩, fun r i h => (hbc r i h).trans (hab r i h)⟩

/-- A change of the logbook or the pins alone. -/
theorem logsOnly_log (d : Dev) (l : LogBook) (p : Pins) : LogsOnly d { d with log := l, pins := p } :=
  ⟨⟨l, p, d.regs, rfl⟩, fun _ _ _ => rfl⟩

/-- A change of a field of LOG_STATUS. -/
theorem logsOnly_put (d : Dev) (f : Fld) (v : Nat) (h : f.reg = .logStatus) : LogsOnly d (d.put f v) :=
  ⟨⟨d.log, d.pins, (d.put f v).regs, rfl⟩, fun _ _ hr => d.put_reg_other v (h ▸ hr)⟩

theorem logsOnly_raiseAlert (d : Dev) : LogsOnly d d.raiseAlert := logsOnly_log d _ _

theorem logsOnly_logWrite (d : Dev) (code loc supp : Nat) (pay : List Byte) : LogsOnly d (d.logWrite code loc supp pay) := by
  unfold Dev.logWrite
  dsimp only
  split
  · split
    · exact ((logsOnly_log d _ d.pins).trans (logsOnly_put _ F.logStatus_COUNT _ rfl)).trans (logsOnly_raiseAlert _)
    · exact (logsOnly_log d _ d.pins).trans (logsOnly_put _ F.logStatus_COUNT _ rfl)
  · exact (((logsOnly_log d _ d.pins).trans (logsOnly_put _ F.logStatus_COUNT _ rfl)).trans
      (logsOnly_put _ F.logStatus_DROPPED _ rfl)).trans (logsOnly_put _ F.logStatus_FULL _ rfl)

theorem logsOnly_endWindow (d : Dev) (code : Nat) : LogsOnly d (d.endWindow code) := by
  unfold Dev.endWindow
  split
  · exact .refl d
  · split
    · dsimp only
      split
      · exact (logsOnly_log d _ d.pins).trans (logsOnly_logWrite _ _ _ _ _)
      · exact logsOnly_log d _ d.pins
    · exact .refl d

theorem logsOnly_logRaw (d : Dev) (code loc : Nat) (pay : List Byte) : LogsOnly d (d.logRaw code loc pay) := by
  unfold Dev.logRaw
  split
  · exact logsOnly_put d _ _ rfl
  · split
    · exact logsOnly_logWrite _ _ _ _ _
    · refine (logsOnly_endWindow d code).trans ?_
      dsimp only
      split
      · exact logsOnly_put _ _ _ rfl
      · split
        · exact (logsOnly_log _ _ _).trans (logsOnly_logWrite _ _ _ _ _)
        · split
          · exact (logsOnly_log _ _ _).trans (logsOnly_logWrite _ _ _ _ _)
          · exact logsOnly_log _ _ _

/-- A noted event changes the logbook, the pins and LOG_STATUS only. -/
theorem Dev.note_logsOnly (d : Dev) (code loc : Nat) (vs : List (Nat × Nat)) : LogsOnly d (d.note code loc vs) :=
  logsOnly_logRaw d code loc _

theorem Dev.note_reg (d : Dev) (code loc : Nat) (vs : List (Nat × Nat)) {r : Reg} {i : Nat}
    (h : r.offset i ≠ Reg.offset .logStatus 0) : (d.note code loc vs).reg r i = d.reg r i :=
  (d.note_logsOnly code loc vs).2 r i h

@[simp] theorem Dev.note_mem (d : Dev) (code loc : Nat) (vs : List (Nat × Nat)) : (d.note code loc vs).mem = d.mem := by
  obtain ⟨⟨l, p, rs, h⟩, -⟩ := d.note_logsOnly code loc vs
  rw [h]

@[simp] theorem Dev.note_items (d : Dev) (code loc : Nat) (vs : List (Nat × Nat)) : (d.note code loc vs).items = d.items := by
  obtain ⟨⟨l, p, rs, h⟩, -⟩ := d.note_logsOnly code loc vs
  rw [h]

end Sys2Proof.Machine
end

section
/-! The error response of the register window (18 R661 to R664, R675, R676). -/
namespace Sys2Proof.Machine

variable (d : Dev) (src : RegSrc) (wr : Bool) (off c : Nat)

/-- DEV_ERR_INFO is written while it is free, and left alone while it holds a record. -/
def Dev.recordErr : Dev :=
  if d.get F.devErrInfo_VALID = 0 then d.setReg .devErrInfo 0 (BitVec.ofNat 64 (errWord src wr off c)) else d

/-- An error response counts, records, logs and answers, in this order. -/
theorem Dev.regError_eq : ∃ code loc vs, d.regError src wr off c =
    (((d.addSat F.devErrCount_COUNT 1).recordErr src wr off c).note code loc vs).answer (errResp src wr) :=
  ⟨_, _, _, rfl⟩

theorem Dev.recordErr_frame : (d.recordErr src wr off c).mem = d.mem ∧ (d.recordErr src wr off c).items = d.items := by
  unfold Dev.recordErr
  split
  · exact ⟨d.setReg_mem .devErrInfo 0 _, d.setReg_items .devErrInfo 0 _⟩
  · exact ⟨rfl, rfl⟩

theorem Dev.recordErr_count : (d.recordErr src wr off c).get F.devErrCount_COUNT = d.get F.devErrCount_COUNT := by
  unfold Dev.recordErr
  split
  · exact Dev.get_congr (d.setReg_other _ (by decide))
  · rfl

/-- What a register reads as after an error response, if it is not LOG_STATUS. -/
theorem Dev.regError_reg {r : Reg} (h : r.offset 0 ≠ Reg.offset .logStatus 0) :
    (d.regError src wr off c).reg r = ((d.addSat F.devErrCount_COUNT 1).recordErr src wr off c).reg r := by
  obtain ⟨code, loc, vs, heq⟩ := d.regError_eq src wr off c
  rw [heq]
  exact Dev.note_reg _ code loc vs h

theorem Dev.regError_resp : (d.regError src wr off c).resp = errResp src wr := by
  obtain ⟨code, loc, vs, heq⟩ := d.regError_eq src wr off c
  rw [heq]
  rfl

theorem Dev.regError_count : (d.regError src wr off c).get F.devErrCount_COUNT =
    min F.devErrCount_COUNT.max (d.get F.devErrCount_COUNT + 1) := by
  rw [Dev.get_congr (d.regError_reg src wr off c (by decide)), Dev.recordErr_count, Dev.addSat_get_same d _ _ _ (by decide)]

theorem Dev.addSat_errInfo : (d.addSat F.devErrCount_COUNT 1).reg .devErrInfo = d.reg .devErrInfo :=
  d.addSat_reg_other 1 (by decide)

theorem Dev.regError_info_taken (h : d.get F.devErrInfo_VALID = 1) :
    (d.regError src wr off c).reg .devErrInfo = d.reg .devErrInfo := by
  have hv : (d.addSat F.devErrCount_COUNT 1).get F.devErrInfo_VALID ≠ 0 := by
    rw [Dev.get_congr d.addSat_errInfo, h]; exact Nat.one_ne_zero
  rw [Dev.regError_reg d _ _ _ _ (by decide), Dev.recordErr, if_neg hv, d.addSat_errInfo]

theorem Dev.regError_info_free (h : d.get F.devErrInfo_VALID = 0) :
    (d.regError src wr off c).reg .devErrInfo = BitVec.ofNat 64 (errWord src wr off c) := by
  have hv : (d.addSat F.devErrCount_COUNT 1).get F.devErrInfo_VALID = 0 := by
    rw [Dev.get_congr d.addSat_errInfo, h]
  rw [Dev.regError_reg d _ _ _ _ (by decide), Dev.recordErr, if_pos hv, Dev.setReg_reg]

theorem Dev.regError_frame : (d.regError src wr off c).mem = d.mem ∧ (d.regError src wr off c).items = d.items := by
  obtain ⟨code, loc, vs, heq⟩ := d.regError_eq src wr off c
  obtain ⟨hm, hi⟩ := (d.addSat F.devErrCount_COUNT 1).recordErr_frame src wr off c
  rw [heq]
  exact ⟨(Dev.note_mem _ _ _ _).trans hm, (Dev.note_items _ _ _ _).trans hi⟩

end Sys2Proof.Machine
end

section
/-! What a read shows and what an accepted write does to each field of a register (00 R14, R15, R22). -/
namespace Sys2Proof.Machine

/-- A bit outside the readable fields reads as 0. -/
theorem Dev.readReg_reserved (d : Dev) {r : Reg} (i : Nat) {k : Nat} (h : bit r.readMask k = false) :
    bit (d.readReg r i).toNat k = false := by
  unfold bit at h ⊢
  rw [Dev.readReg, BitVec.toNat_ofNat, Nat.testBit_mod_two_pow, Nat.testBit_and, h, Bool.and_false, Bool.and_false]

/-- What a field of a type holds once `new` has been written over `old`. -/
def RegType.written (t : RegType) (old new : Nat) : Nat :=
  match t with
  | .rw => new
  | .w1c => old - (old &&& new)
  | .w1s => old ||| new
  | .ro | .wo | .rwl => old

theorem RegType.written_lt (t : RegType) {old new n : Nat} (ho : old < 2 ^ n) (hn : new < 2 ^ n) : t.written old new < 2 ^ n := by
  cases t with
  | rw => exact hn
  | w1c => exact Nat.lt_of_le_of_lt (Nat.sub_le _ _) ho
  | w1s => exact Nat.or_lt_two_pow ho hn
  | ro => exact ho
  | wo => exact ho
  | rwl => exact ho

/-- A register's value `x` once its field `f` has taken its bits of the written value `v`. -/
def FieldSpec.write (v x : Nat) (f : FieldSpec) : Nat :=
  setBits x f.fld.hi f.fld.lo (f.typ.written (bits x f.fld.hi f.fld.lo) (bits v f.fld.hi f.fld.lo))

/-- An accepted write takes the fields of the register one after another. -/
theorem Dev.writeFields_reg (d : Dev) (r : Reg) (i : Nat) (w : W64) :
    (d.writeFields r i w).reg r i = BitVec.ofNat 64 (r.fields.foldl (FieldSpec.write w.toNat) (d.reg r i).toNat) := by
  rw [Dev.writeFields, Dev.setReg_reg]
  congr 2
  funext x f
  cases h : f.typ <;> simp only [FieldSpec.write, h, RegType.written, setBits_bits]

/-- Two fields share no bit. -/
abbrev FieldSpec.Apart (f g : FieldSpec) : Prop := f.fld.hi < g.fld.lo ∨ g.fld.hi < f.fld.lo

/-- The fields of a register lie in its 64 bits and share none. -/
theorem Reg.fields_apart (r : Reg) : r.fields.Pairwise FieldSpec.Apart ∧ ∀ f ∈ r.fields, f.fld.hi < 64 := by
  cases r <;> decide

theorem FieldSpec.write_same (v x : Nat) (f : FieldSpec) : bits (f.write v x) f.fld.hi f.fld.lo =
    f.typ.written (bits x f.fld.hi f.fld.lo) (bits v f.fld.hi f.fld.lo) := by
  rw [FieldSpec.write, bits_setBits_same]
  exact Nat.mod_eq_of_lt (f.typ.written_lt (bits_lt _ _ _) (bits_lt _ _ _))

theorem FieldSpec.write_apart (v x : Nat) {f g : FieldSpec} (h : f.Apart g) :
    bits (f.write v x) g.fld.hi g.fld.lo = bits x g.fld.hi g.fld.lo := bits_setBits_apart _ _ h

/-- Fields apart from all those written read as before. -/
theorem foldl_write_apart (v : Nat) {g : FieldSpec} : ∀ (fs : List FieldSpec) (x : Nat), (∀ f ∈ fs, f.Apart g) →
    bits (fs.foldl (FieldSpec.write v) x) g.fld.hi g.fld.lo = bits x g.fld.hi g.fld.lo
  | [], _, _ => rfl
  | f :: fs, x, h => by
    rw [List.foldl_cons, foldl_write_apart v fs _ fun f' hf' => h f' (List.mem_cons_of_mem f hf'),
      FieldSpec.write_apart v x (h f List.mem_cons_self)]

/-- Among fields that share no bit, each takes its bits of the written value by its type. -/
theorem foldl_write_mem (v : Nat) {g : FieldSpec} : ∀ (fs : List FieldSpec) (x : Nat), fs.Pairwise FieldSpec.Apart → g ∈ fs →
    bits (fs.foldl (FieldSpec.write v) x) g.fld.hi g.fld.lo =
      g.typ.written (bits x g.fld.hi g.fld.lo) (bits v g.fld.hi g.fld.lo)
  | f :: fs, x, hp, hg => by
    obtain ⟨hf, hp⟩ := List.pairwise_cons.1 hp
    rw [List.foldl_cons]
    rcases List.mem_cons.1 hg with rfl | hg
    · rw [foldl_write_apart v fs _ fun f' hf' => (hf f' hf').symm, FieldSpec.write_same]
    · rw [foldl_write_mem v fs _ hp hg, FieldSpec.write_apart v x (hf g hg)]

/-- After an accepted write each field holds what its type makes of the old and the written bits. -/
theorem Dev.writeFields_field (d : Dev) {r : Reg} (i : Nat) (w : W64) {f : FieldSpec} (hf : f ∈ r.fields) :
    bits ((d.writeFields r i w).reg r i).toNat f.fld.hi f.fld.lo =
      f.typ.written (bits (d.reg r i).toNat f.fld.hi f.fld.lo) (bits w.toNat f.fld.hi f.fld.lo) := by
  obtain ⟨hp, h64⟩ := r.fields_apart
  rw [d.writeFields_reg, bits_ofNat _ _ (h64 f hf), foldl_write_mem _ _ _ hp hf]

end Sys2Proof.Machine
end

section
/-! Accesses of the register window: what a hart's write, and a read and a write of the BMC, do at each kind of
offset (18 R661 to R663, R665, R673; 19 R691). -/
namespace Sys2Proof.Machine

/-! ### The commands -/

theorem exec_registerWrite (h off : Nat) (v : W64) (s : State) : exec (.registerWrite h off v) s = execRegisterWrite h off v s := rfl
theorem exec_hmEventValueWrite (h : Nat) (v : W64) (s : State) : exec (.hmEventValueWrite h v) s = execHmEventValueWrite h v s := rfl
theorem exec_regRead (off : Nat) (s : State) : exec (.regRead off) s = execRegRead off s := rfl
theorem exec_regWrite (off : Nat) (v : W64) (s : State) : exec (.regWrite off v) s = execRegWrite off v s := rfl
theorem exec_alertAck (s : State) : exec .alertAck s = execAlertAck s := rfl

theorem does_registerWrite {s : State} {h off : Nat} (v : W64) (hup : Up s) (hh : s.dev.hartUp h = true) (ho : off < 2 ^ 24) :
    Does (.registerWrite h off v) s (s.dev.hostWrite h off v) := by
  have hin : (s.dev.hartUp h && decide (off < 2 ^ 24)) = true := by rw [hh, decide_eq_true ho]; rfl
  rw [Does, exec_registerWrite, execRegisterWrite, actUp_up hup.1 hup.2, if_pos hin]

theorem does_hmEventValueWrite {s : State} {h : Nat} (v : W64) (hup : Up s) (hh : s.dev.hartUp h = true) :
    Does (.hmEventValueWrite h v) s (s.dev.writeReg h .hmEventValue 0 v) := by
  rw [Does, exec_hmEventValueWrite, execHmEventValueWrite, actUp_up hup.1 hup.2, if_pos hh]

theorem does_regRead {s : State} {off : Nat} (hc : s.dev.clocked = true) (ho : off < 2 ^ 24) :
    Does (.regRead off) s (s.dev.bmcRead off) := by
  rw [Does, exec_regRead, execRegRead, act_eq, if_pos (by rw [hc, Bool.true_or]), Nat.mod_eq_of_lt ho]

theorem does_regWrite {s : State} {off : Nat} (w : W64) (hc : s.dev.clocked = true) (ho : off < 2 ^ 24) :
    Does (.regWrite off w) s (s.dev.bmcWrite off w) := by
  rw [Does, exec_regWrite, execRegWrite, actOn_on hc, Nat.mod_eq_of_lt ho]

/-- The device once the BMC has acknowledged the alert. -/
def Dev.ackAlert (d : Dev) : Dev :=
  (if d.log.alertCause ≤ d.log.bmcRead then { d with pins := { d.pins with alert := false } } else d).accepted

theorem does_alertAck {s : State} (hc : s.dev.clocked = true) : Does .alertAck s s.dev.ackAlert := by
  rw [Does, exec_alertAck, execAlertAck, actOn_on hc, Dev.ackAlert]

theorem Dev.ackAlert_released {d : Dev} (h : d.log.alertCause ≤ d.log.bmcRead) : d.ackAlert.pins.alert = false := by
  rw [Dev.ackAlert, if_pos h]; rfl

theorem Dev.ackAlert_newer {d : Dev} (h : d.log.bmcRead < d.log.alertCause) : d.ackAlert = d.answer (.ok 0) := by
  rw [Dev.ackAlert, if_neg (Nat.not_le.2 h)]; rfl

variable {d : Dev} {off : Nat}

/-! ### A hart's write -/

theorem Dev.hostWrite_misaligned (h : Nat) (w : W64) (ho : off % 8 ≠ 0) :
    d.hostWrite h off w = d.regError (.host h) true off 1 := by
  rw [Dev.hostWrite, if_pos ho]

theorem Dev.hostWrite_unassigned (h : Nat) (w : W64) (ho : off % 8 = 0) (hat : Reg.at? off = none) :
    d.hostWrite h off w = if reservedReg off then d.answer (.ok 0) else d.regError (.host h) true off 2 := by
  rw [Dev.hostWrite, if_neg (not_not_intro ho), hat]; rfl

theorem Dev.hostWrite_reg (h : Nat) (w : W64) {r : Reg} {i : Nat} (ho : off % 8 = 0) (hat : Reg.at? off = some (r, i)) :
    d.hostWrite h off w = d.writeReg h r i w := by
  rw [Dev.hostWrite, if_neg (not_not_intro ho), hat]

/-- A register whose write is no command refuses the value or takes its fields. -/
theorem Dev.writeReg_plain (d : Dev) (h : Nat) {r : Reg} (i : Nat) (w : W64)
    (hr : r ∈ [Reg.tidePeriodNs, .tideReserve, .lkpCap, .bwfWinBase, .bwfWinCfg]) :
    d.writeReg h r i w = if d.refuses r i w then d.regError (.host h) true (r.offset i) 3 else (d.writeFields r i w).answer (.ok 0) := by
  simp only [List.mem_cons, List.not_mem_nil, or_false] at hr
  obtain rfl | rfl | rfl | rfl | rfl := hr <;> rfl

/-! ### A read of the BMC -/

theorem Dev.bmcRead_misaligned (ho : off % 8 ≠ 0) : d.bmcRead off = d.regError .bmc false off 1 := by
  rw [Dev.bmcRead, if_pos ho]

theorem Dev.bmcRead_unassigned (ho : off % 8 = 0) (hat : Reg.at? off = none) (hres : reservedReg off = false) :
    d.bmcRead off = d.regError .bmc false off 2 := by
  rw [Dev.bmcRead, if_neg (not_not_intro ho), hat]
  simp only [hres, Bool.false_and, Bool.false_eq_true, if_false]

/-- Before release only the early registers are open. -/
theorem Dev.bmcRead_early {r : Reg} {i : Nat} (ho : off % 8 = 0) (hat : Reg.at? off = some (r, i))
    (ht : d.ticking = false) (he : earlyReg off = false) : d.bmcRead off = d.regError .bmc false off 5 := by
  rw [Dev.bmcRead, if_neg (not_not_intro ho), hat]
  simp only [ht, he, Bool.not_false, Bool.and_self, if_true]

theorem Dev.bmcRead_reg {r : Reg} {i : Nat} (ho : off % 8 = 0) (hat : Reg.at? off = some (r, i))
    (hopen : d.ticking = true ∨ earlyReg off = true) (hr : r ≠ .logData) : d.bmcRead off = d.answer (.ok (d.readReg r i)) := by
  have hopen : (!d.ticking && !earlyReg off) = false := by
    rcases hopen with h | h <;> simp [h]
  rw [Dev.bmcRead, if_neg (not_not_intro ho), hat]
  simp only [hopen, Bool.false_eq_true, if_false, if_neg hr]

/-! ### A write of the BMC -/

theorem lkpCap_at : Reg.at? (Reg.offset .lkpCap 0) = some (.lkpCap, 0) ∧ Reg.offset .lkpCap 0 % 8 = 0 ∧
    Reg.offset .lkpCap 0 < 2 ^ 24 := by decide

theorem lkpCoolant_at : Reg.at? (Reg.offset .lkpCoolant 0) = some (.lkpCoolant, 0) ∧ Reg.offset .lkpCoolant 0 % 8 = 0 ∧
    Reg.offset .lkpCoolant 0 < 2 ^ 24 := by decide

/-- The board cap is refused outside 3,600 W to 7,200 W; within it, it is kept for P1, or takes effect
(18 R673). -/
theorem Dev.bmcWrite_lkpCap (d : Dev) (w : W64) {x : Nat} (hx : x = bits w.toNat F.lkpCap_BOARD_CAP_W.hi F.lkpCap_BOARD_CAP_W.lo) :
    d.bmcWrite (Reg.offset .lkpCap 0) w =
      if x < 3600 ∨ 7200 < x then d.regError .bmc true (Reg.offset .lkpCap 0) 3
      else if d.phase ≤ 1 then (d.modPilot (fun p => { p with boardCap := some x })).answer (.ok 0)
      else (d.setBoardCap x).answer (.ok 0) := by
  obtain ⟨hat, hal, -⟩ := lkpCap_at
  subst hx
  rw [Dev.bmcWrite, if_neg (not_not_intro hal), hat]
  simp only [Bool.or_eq_true, decide_eq_true_eq]
  rfl

theorem Dev.bmcWrite_lkpCoolant (d : Dev) (w : W64) :
    d.bmcWrite (Reg.offset .lkpCoolant 0) w = (d.put F.lkpCoolant_INLET_C (w.toNat % 256)).answer (.ok 0) := by
  obtain ⟨hat, hal, -⟩ := lkpCoolant_at
  rw [Dev.bmcWrite, if_neg (not_not_intro hal), hat]
  rfl

/-- Every other register is closed to the BMC's writes. -/
theorem Dev.bmcWrite_closed (d : Dev) (w : W64) {r : Reg} {i : Nat} (ho : off % 8 = 0) (hat : Reg.at? off = some (r, i))
    (hr : r ∉ [Reg.lkpCap, .lkpCoolant, .hawNode, .mntLedgerArm, .devAssetTag]) :
    d.bmcWrite off w = d.regError .bmc true off 5 := by
  simp only [List.mem_cons, List.not_mem_nil, or_false, not_or] at hr
  obtain ⟨h1, h2, h3, h4, h5⟩ := hr
  rw [Dev.bmcWrite, if_neg (not_not_intro ho), hat]
  cases r
  case lkpCap => exact absurd rfl h1
  case lkpCoolant => exact absurd rfl h2
  case hawNode => exact absurd rfl h3
  case mntLedgerArm => exact absurd rfl h4
  case devAssetTag => exact absurd rfl h5
  all_goals rfl

end Sys2Proof.Machine
end

section
/-! The state after reset (00 R22, R23; 17 R627). -/
namespace Sys2Proof.Machine

/-- No register is listed, so each reads as its reset value. -/
theorem reset_reg (r : Reg) (i : Nat) : State.reset.dev.reg r i = r.resetVal i := rfl

/-- HM_RING_STATUS of every ring resets to 0, which is DISABLED. -/
theorem hmRingStatus_resetVal (n : Nat) : Reg.hmRingStatus.resetVal n = 0 := by
  change BitVec.ofNat 64 (Reg.hmRingStatus.fields.foldl _ 0) = 0
  decide

theorem reset_ringState (n : Nat) : State.reset.dev.ringState n = 0 := by
  rw [Dev.ringState, Dev.get, reset_reg, hmRingStatus_resetVal]
  decide

theorem reset_event (e : Nat) : State.reset.dev.event e = 0 := rfl

end Sys2Proof.Machine
end

section
/-! The obligations on the register window and the state after reset. -/
namespace Sys2Proof.Machine

/-- Settles O4: nothing is listed in the tables of the state after reset, so each part reads as its default. -/
theorem resetLeavesTheStatedValues : Obligations.ResetLeavesTheStatedValues := by
  unfold Obligations.ResetLeavesTheStatedValues
  refine ⟨rfl, rfl, rfl, rfl, reset_reg, ?period, ?reserve, ?errCount, reset_ringState, rfl, rfl, reset_event, rfl, rfl⟩
  case period => rw [Dev.get, reset_reg]; decide
  case reserve => rw [Dev.get, reset_reg]; decide
  case errCount => rw [Dev.get, reset_reg]; decide

/-- Settles O59, from what each access does at each kind of offset. -/
theorem registerWindowReadsAndWrites : Obligations.RegisterWindowReadsAndWrites := by
  unfold Obligations.RegisterWindowReadsAndWrites
  refine ⟨fun s h off v hup hh ho => ?hartWrites, fun s off hc ho => ?bmcReads, fun d r i k h => d.readReg_reserved i h,
    fun d r i w f hf => ?fields, fun s w x hc hx => ?bmcWrites, fun d h r i w hr => ?refused, fun d src wr off c => ?errors,
    fun s hc => ?alert⟩
  case hartWrites =>
    have hdoes := does_registerWrite v hup hh ho
    refine ⟨fun hm => ?_, fun ha hat hres => ?_, fun ha hat hres => ?_, fun ha r i hat => ?_, does_hmEventValueWrite v hup hh⟩
    · rwa [Dev.hostWrite_misaligned h v hm] at hdoes
    · rwa [Dev.hostWrite_unassigned h v ha hat, hres] at hdoes
    · rwa [Dev.hostWrite_unassigned h v ha hat, hres] at hdoes
    · rwa [Dev.hostWrite_reg h v ha hat] at hdoes
  case bmcReads =>
    have hdoes := does_regRead hc ho
    refine ⟨fun hm => ?_, fun ha hat hres => ?_, fun ha r i hat => ⟨fun ht he => ?_, fun hopen hr => ?_⟩⟩
    · rwa [Dev.bmcRead_misaligned hm] at hdoes
    · rwa [Dev.bmcRead_unassigned ha hat hres] at hdoes
    · rwa [Dev.bmcRead_early ha hat ht he] at hdoes
    · rwa [Dev.bmcRead_reg ha hat hopen hr] at hdoes
  case fields =>
    have hw := d.writeFields_field i w hf
    refine ⟨fun ht => ?_, fun ht => ?_, fun ht => ?_, fun ht => ?_⟩ <;> rwa [ht] at hw
  case bmcWrites =>
    obtain ⟨-, -, hcapIn⟩ := lkpCap_at
    obtain ⟨-, -, hcoolantIn⟩ := lkpCoolant_at
    have hcap := does_regWrite w hc hcapIn
    rw [Dev.bmcWrite_lkpCap _ w hx] at hcap
    refine ⟨fun hout => ?_, fun hlo hhi hp => ?_, fun hlo hhi hp => ?_, fun off r i ho ha hat hr => ?_, ?_⟩
    · rwa [if_pos hout] at hcap
    · rwa [if_neg (by omega), if_neg (by omega)] at hcap
    · rwa [if_neg (by omega), if_pos hp] at hcap
    · have hdoes := does_regWrite w hc ho
      rwa [Dev.bmcWrite_closed _ w ha hat hr] at hdoes
    · have hdoes := does_regWrite w hc hcoolantIn
      rwa [Dev.bmcWrite_lkpCoolant] at hdoes
  case refused =>
    rw [d.writeReg_plain h i w hr]
    exact ⟨fun hno => if_pos hno, fun hok => if_neg (by simp [hok])⟩
  case errors =>
    exact ⟨d.regError_resp src wr off c, d.regError_count src wr off c, d.regError_info_taken src wr off c,
      d.regError_info_free src wr off c, d.regError_frame src wr off c⟩
  case alert =>
    have hdoes := does_alertAck hc
    refine ⟨fun h => ⟨_, hdoes, Dev.ackAlert_released h⟩, fun h => ?_⟩
    rwa [Dev.ackAlert_newer h] at hdoes

end Sys2Proof.Machine
end

section
/-! How a command acts on a device that is up, and what finding an item or a launch says of it. -/
namespace Sys2Proof.Machine

/-- A command whose arm acts on the running device leaves what the arm makes of it. -/
theorem does_of_actUp {s : State} {c : Instr} {f : Dev → Dev} (hup : Up s) (h : exec c s = actUp s f) :
    Does c s (f s.dev) := by
  obtain ⟨hc, ht⟩ := hup
  rw [Does, h, actUp_up hc ht]

/-- A command whose arm acts while the clocks run leaves what the arm makes of the device. -/
theorem does_of_actOn {s : State} {c : Instr} {f : Dev → Dev} (hc : s.dev.clocked = true) (h : exec c s = actOn s f) :
    Does c s (f s.dev) := by
  rw [Does, h, actOn_on hc]

/-- The launch found for a ring and index has them. -/
theorem Dev.launch_key {d : Dev} {ring index : Nat} {l : Launch} (h : d.launch? ring index = some l) :
    l.ring = ring ∧ l.index = index := by
  have := List.find?_some h
  simpa using this

/-- A launch looked up again keeps its ring and index, whether or not it is still listed. -/
theorem Dev.launch_getD_key (d : Dev) (l : Launch) :
    ((d.launch? l.ring l.index).getD l).ring = l.ring ∧ ((d.launch? l.ring l.index).getD l).index = l.index := by
  cases h : d.launch? l.ring l.index with
  | none => exact ⟨rfl, rfl⟩
  | some l' => exact Dev.launch_key h

/-- An item that ends has ended with a status (11 R445). -/
theorem Item.finish_ended (it : Item) (status detail : Nat) :
    (it.finish status detail).phase = .finished ∧ (it.finish status detail).status ≠ none := by
  unfold Item.finish
  cases h : it.status with
  | none => exact ⟨rfl, nofun⟩
  | some st => exact ⟨rfl, by simp⟩

/-- Each item of the ring and index changed has what the change gives. -/
theorem Dev.modItem_all (d : Dev) {ring index : Nat} {f : Item → Item} {p : Item → Prop} (hf : ∀ it, p (f it)) :
    ∀ it ∈ (d.modItem ring index f).items, it.ring = ring → it.index = index → p it := by
  intro it hit hr hi
  obtain ⟨it0, -, rfl⟩ := List.mem_map.1 hit
  split at hr <;> rename_i hk
  · rw [if_pos hk]; exact hf it0
  · rw [if_neg hk] at hi
    exact absurd (by simp [hr, hi]) hk

end Sys2Proof.Machine
end

section
/-! The life of a launch: what starts it, and what each of its commands does (02 R74, R80; 05 R210 to R212;
11 R432). -/
namespace Sys2Proof.Machine

/-! ### The start state of a control core -/

/-- A register other than x0 reads as it was written. -/
theorem Hart.getX_setX_same (h : Hart) {r : Nat} (v : W64) (hr : r ≠ 0) : (h.setX r v).getX r = v := by
  simp [Hart.getX, Hart.setX, hr]

/-- Every other register reads as before. -/
theorem Hart.getX_setX_other (h : Hart) {r q : Nat} (v : W64) (hq : q ≠ r) : (h.setX r v).getX q = h.getX q := by
  unfold Hart.setX
  split
  · rfl
  · simp only [Hart.getX, tget_tset_other _ _ hq]

/-- A write of an x register leaves pc, the f registers and fcsr. -/
theorem Hart.setX_rest (h : Hart) (r : Nat) (v : W64) :
    (h.setX r v).pc = h.pc ∧ (h.setX r v).f = h.f ∧ (h.setX r v).fcsr = h.fcsr := by
  unfold Hart.setX
  split <;> exact ⟨rfl, rfl, rfl⟩

section
variable (l : Launch) (t rank : Nat)

theorem coreStart_rest : (coreStart l t rank).pc = l.entry ∧ (coreStart l t rank).f = [] ∧ (coreStart l t rank).fcsr = 0 := by
  simp [coreStart, Hart.setX_rest]

/-- The five registers that a start sets (05 R210). -/
theorem coreStart_getX_set : (coreStart l t rank).getX 2 = 0xF000000000100000#64 ∧ (coreStart l t rank).getX 10 = l.arg ∧
    (coreStart l t rank).getX 11 = w64 t ∧ (coreStart l t rank).getX 12 = w64 rank ∧
    (coreStart l t rank).getX 13 = w64 l.tiles.length := by
  simp [coreStart, Hart.getX_setX_same, Hart.getX_setX_other]

theorem coreStart_getX_zero {r : Nat} (hr : r ∉ [2, 10, 11, 12, 13]) : (coreStart l t rank).getX r = 0 := by
  simp only [List.mem_cons, List.not_mem_nil, or_false, not_or] at hr
  obtain ⟨h2, h10, h11, h12, h13⟩ := hr
  simp only [coreStart, Hart.getX_setX_other, h2, h10, h11, h12, h13, ne_eq, not_false_eq_true]
  simp [Hart.getX, tget]

end

/-! ### Launch items -/

/-- A released launch item of the asked type without a launch becomes one. -/
theorem Dev.makeLaunch_due {d : Dev} {ring index : Nat} {it : Item} (hit : d.item? ring index = some it)
    (hph : it.phase = .released) (hl : it.isLaunch = true) (hnone : d.launch? ring index = none) :
    d.makeLaunch ring index it.typ = { d with launches := d.launches ++ [it.launchOf] } := by
  obtain ⟨hr, hi⟩ := Dev.item_key hit
  refine Dev.onItem_hit _ hit hph ?_
  simp [Dev.launchDue, hph, hl, hr, hi, hnone]

theorem exec_launchTiles (ring index : Nat) (s : State) : exec (.launchTiles ring index) s = execLaunchTiles ring index s := rfl
theorem exec_launchGangs (ring index : Nat) (s : State) : exec (.launchGangs ring index) s = execLaunchGangs ring index s := rfl
theorem exec_launchStart (ring index : Nat) (s : State) : exec (.launchStart ring index) s = execLaunchStart ring index s := rfl
theorem exec_overrunStop (ring index : Nat) (s : State) : exec (.overrunStop ring index) s = execOverrunStop ring index s := rfl
theorem exec_tileEnd (t : Nat) (s : State) : exec (.tileEnd t) s = execTileEnd t s := rfl
theorem exec_launchComplete (ring index : Nat) (s : State) :
    exec (.launchComplete ring index) s = execLaunchComplete ring index s := rfl

theorem does_launchTiles {s : State} (ring index : Nat) (hup : Up s) :
    Does (.launchTiles ring index) s (s.dev.makeLaunch ring index tLaunchTiles) :=
  does_of_actUp hup (exec_launchTiles ring index s)

theorem does_launchGangs {s : State} (ring index : Nat) (hup : Up s) :
    Does (.launchGangs ring index) s (s.dev.makeLaunch ring index tLaunchGangs) :=
  does_of_actUp hup (exec_launchGangs ring index s)

/-- BUDGET is the low half of W3. -/
theorem Item.launchOf_budget (it : Item) : it.launchOf.budget = it.w 3 % 2 ^ 32 := by
  change it.w 3 / 2 ^ 0 % 2 ^ 32 = _
  rw [Nat.pow_zero, Nat.div_one]

/-- The tile mask of a launch stands in W3 from bit 32. -/
theorem Item.launchOf_tiles (it : Item) : it.launchOf.tiles =
    it.launchOf.clusters.flatMap (fun lc => ((List.range 8).filter (fun i => bit (it.w 3) (32 + i))).map (8 * lc + ·)) := by
  have hmask : (List.range 8).filter (fun i => bit (it.f 3 39 32) i) = (List.range 8).filter (fun i => bit (it.w 3) (32 + i)) := by
    refine List.filter_congr fun i hi => ?_
    have hi : i < 8 := List.mem_range.1 hi
    simp [bit, Item.f, testBit_bits, hi]
  change it.launchTiles = it.launchClusters.flatMap _
  rw [Item.launchTiles, hmask]

/-! ### Start -/

/-- A launch starts only when the launches that share a cluster with it wait and were admitted no earlier. -/
theorem Dev.mayStart_clear {d : Dev} {l o : Launch} (h : d.mayStart l = true) (ho : o ∈ d.launches) {lc : Nat}
    (hl : lc ∈ l.clusters) (hlo : lc ∈ o.clusters) : o.start = none ∧ l.order ≤ o.order := by
  have hshare : sharesCluster o.clusters l.clusters = true :=
    List.any_eq_true.2 ⟨lc, hlo, List.contains_iff_mem.2 hl⟩
  simp only [Dev.mayStart, Bool.and_eq_true, Bool.not_eq_true'] at h
  obtain ⟨⟨⟨-, hothers⟩, -⟩, -⟩ := h
  have := List.any_eq_false.1 hothers o ho
  simpa [hshare] using this

theorem does_launchStart {s : State} {ring index : Nat} {l : Launch} (hup : Up s) (hl : s.dev.launch? ring index = some l) :
    Does (.launchStart ring index) s
      (if l.start = none ∧ l.status = none ∧ s.dev.clustersUp l.clusters = false then s.dev.dropLaunch l
       else if s.dev.mayStart l then s.dev.startLaunch l (((s.dev.item? ring index).map Item.wbBefore).getD false) else s.dev) := by
  have h := does_of_actUp hup (exec_launchStart ring index s)
  simpa only [hl, Bool.and_eq_true, Option.isNone_iff_eq_none, Bool.not_eq_true', and_assoc] using h

/-! ### Stop, end and completion -/

theorem does_overrunStop {s : State} {ring index : Nat} {l : Launch} {t : Nat} (hup : Up s)
    (hl : s.dev.launch? ring index = some l) (ht : l.start = some t) (hst : l.status = none) (hend : s.dev.allEnded l = false) :
    Does (.overrunStop ring index) s (if l.stopAt ≤ s.dev.now then
      (s.dev.note 0x7202 (s.dev.locLaunch l)).failLaunch ring index 0x15 (refCycles (s.dev.now - t)) else s.dev) := by
  have h := does_of_actUp hup (exec_overrunStop ring index s)
  simpa only [hl, ht, hst, hend, Option.isNone_none, Bool.not_false, Bool.true_and, decide_eq_true_eq] using h

theorem does_tileEnd {s : State} {t : Nat} {l : Launch} (hup : Up s) (hl : s.dev.launchOn t = some l)
    (hrun : s.dev.tileState t = 2) (hq : (s.dev.tile t).quiet = true) (hrun' : (s.dev.wbCluster (t / 8)).1.tileState t = 2) :
    Does (.tileEnd t) s (((s.dev.wbCluster (t / 8)).1.setTileState t 3).modLaunch l.ring l.index
      (fun x => { x with endNs := (s.dev.wbCluster (t / 8)).1.now })) := by
  have h := does_of_actUp hup (exec_tileEnd t s)
  simpa only [hl, hrun, hq, hrun', decide_true, Bool.and_self, if_true] using h

theorem does_launchComplete {s : State} {ring index : Nat} {l : Launch} (hup : Up s) (hl : s.dev.launch? ring index = some l) :
    Does (.launchComplete ring index) s (if l.start.isSome && s.dev.allEnded l then s.dev.completeLaunch l else s.dev) := by
  have h := does_of_actUp hup (exec_launchComplete ring index s)
  simpa only [hl] using h

/-- What completes a launch last is the end of its item. -/
theorem Dev.completeLaunch_eq (d : Dev) (l : Launch) : ∃ (d' : Dev) (l' : Launch) (f : Item → Item), d.completeLaunch l = d'.modItem l'.ring l'.index f ∧
    l'.ring = l.ring ∧ l'.index = l.index ∧ ∀ it, (f it).phase = .finished ∧ (f it).status ≠ none := by
  refine ⟨_, _, _, rfl, (Dev.launch_getD_key _ l).1, (Dev.launch_getD_key _ l).2, fun it => ?_⟩
  dsimp only
  split <;> exact Item.finish_ended it _ _

/-- A completed launch's item has ended with a status. -/
theorem Dev.completeLaunch_ends (d : Dev) (l : Launch) : ∀ it ∈ (d.completeLaunch l).items, it.ring = l.ring → it.index = l.index →
    it.phase = .finished ∧ it.status ≠ none := by
  obtain ⟨d', l', f, heq, hr, hi, hf⟩ := d.completeLaunch_eq l
  rw [heq, ← hr, ← hi]
  exact d'.modItem_all hf

end Sys2Proof.Machine
end

section
/-! The obligation on launches. -/
namespace Sys2Proof.Machine

/-- Settles O27, from what each command of a launch does at each point of its life. -/
theorem launchesFromStartToEnd : Obligations.LaunchesFromStartToEnd := by
  unfold Obligations.LaunchesFromStartToEnd
  refine ⟨⟨fun l t rank => ?core, fun d d1 l wb hd => ?start, fun d l o h ho ⟨lc, hl, hlo⟩ => Dev.mayStart_clear h ho hl hlo⟩,
    fun s ring index hup => ⟨fun it ⟨hit, hph⟩ hnone => ?items, fun l wb hl hwb => ?starts, fun l t hl ht hst hend => ?stops⟩,
    fun s t l d1 hup hl hrun hq hd hrun' => ?tileEnds, fun s ring index l hup hl => ?completes⟩
  case core =>
    obtain ⟨hpc, hf, hfcsr⟩ := coreStart_rest l t rank
    obtain ⟨h2, h10, h11, h12, h13⟩ := coreStart_getX_set l t rank
    exact ⟨hpc, h2, h10, h11, h12, h13, fun r _ hr => coreStart_getX_zero l t rank hr, fun r => by rw [Hart.getF, hf]; rfl, hfcsr⟩
  case start => rw [hd]; rfl
  case items =>
    refine ⟨fun htyp => ?_, fun htyp => ?_, it.launchOf_budget, rfl, it.launchOf_tiles, rfl, rfl⟩
    · have hmade := Dev.makeLaunch_due hit hph (by simp [Item.isLaunch, htyp]) hnone
      rw [htyp] at hmade
      exact hmade ▸ does_launchTiles ring index hup
    · have hmade := Dev.makeLaunch_due hit hph (by simp [Item.isLaunch, htyp]) hnone
      rw [htyp] at hmade
      exact hmade ▸ does_launchGangs ring index hup
  case starts =>
    have hdoes := does_launchStart hup hl
    rw [← hwb] at hdoes
    refine ⟨fun hclu => ?_, fun hclu hstart hst => ?_⟩
    · rw [if_neg (by simp [hclu])] at hdoes
      refine ⟨fun hmay => ?_, fun hmay => ?_⟩
      · rwa [if_pos hmay] at hdoes
      · rwa [if_neg (by simp [hmay])] at hdoes
    · rwa [if_pos ⟨hstart, hst, hclu⟩] at hdoes
  case stops =>
    have hdoes := does_overrunStop hup hl ht hst hend
    refine ⟨fun hdue => ?_, fun hearly => ?_⟩
    · rwa [if_pos hdue] at hdoes
    · rwa [if_neg (Nat.not_le.2 hearly)] at hdoes
  case tileEnds =>
    subst hd
    exact does_tileEnd hup hl hrun hq hrun'
  case completes =>
    have hdoes := does_launchComplete hup hl
    obtain ⟨rfl, rfl⟩ := Dev.launch_key hl
    refine ⟨fun hstart hend => ⟨_, ?_, rfl, s.dev.completeLaunch_ends l⟩, fun hnot => ?_⟩
    · rwa [hstart, hend, Bool.and_self, if_pos rfl] at hdoes
    · rcases hnot with h | h <;> simpa [h] using hdoes

end Sys2Proof.Machine
end

section
/-! Maintenance of spares, repairs and the ledger by items (01 R34 to R37; 03 R138; 17 R642, R643, R646). -/
namespace Sys2Proof.Machine

theorem exec_spareTest (ring index : Nat) (r : MaintResult) (s : State) :
    exec (.spareTest ring index r) s = execSpareTest ring index r s := rfl
theorem exec_repair (ring index : Nat) (r : MaintResult) (s : State) : exec (.repair ring index r) s = execRepair ring index r s := rfl
theorem exec_pageRetire (ring index : Nat) (r : MaintResult) (s : State) :
    exec (.pageRetire ring index r) s = execPageRetire ring index r s := rfl
theorem exec_ledgerClear (ring index : Nat) (r : MaintResult) (s : State) :
    exec (.ledgerClear ring index r) s = execLedgerClear ring index r s := rfl

/-- A repair record of a die and a spare is fused; it counts from the next reset on (01 R36). -/
def Dev.fuseRepair (d : Dev) (ld phys : Nat) : Dev :=
  { d with fuses := { d.fuses with repairs := d.fuses.repairs ++ [(ld, phys)] } }

/-- The arm is consumed, and the entries named are marked for removal at the next DEV_WARM (03 R138). -/
def Dev.clearLedger (d : Dev) (it : Item) : Dev :=
  ((d.flag F.mntLedgerArm_ARMED false).ledgerChange (fun l => { l with
    removeAll := l.removeAll || it.b 2 63
    removals := if it.b 2 63 then l.removals else it.f 2 11 0 :: l.removals })).note
    0x9402 0 [(4, if it.b 2 63 then d.ledger.data.retired.length else 1)]

/-- A free spare that passed its self-test on the die's own deck is the one chosen (01 R34). -/
theorem Dev.chooseSpare_own {d : Dev} {k : Nat} (hk : k < 8) (hp : d.get F.dckSpareStatus_PRESENT k = 1)
    (hr : d.get F.dckSpareStatus_RESULT k = 1) (hs : inService d.fuses (6 * k + d.get F.dckSpareStatus_SITE k) = false) :
    d.chooseSpare k = some k := by
  refine if_pos (List.contains_iff_mem.2 (List.mem_filter.2 ⟨List.mem_range.2 hk, ?_⟩))
  rw [hp, hr, hs]; rfl

section
variable {s : State} {ring index : Nat} {it : Item} (r : MaintResult) (hup : Up s) (hit : InHand s ring index it) (htyp : it.typ = tMaint)
include hit htyp

/-- A MAINT item in hand is acted on by the command of its activity. -/
theorem Dev.onMaint_hit (f : Item → Dev) {act : Nat} (hact : it.activity = act) : s.dev.onMaint ring index act f = f it := by
  obtain ⟨hfound, hph⟩ := hit
  exact Dev.onItem_hit f hfound hph (by simp [htyp, hact])

include hup

theorem does_spareTest (hact : it.activity = 9) : Does (.spareTest ring index r) s
    (if r.ok = false then s.dev.finishAt ring index 0x13 0
     else (s.dev.modPilot (fun p => { p with spareTests := if p.spareTests.contains ((deckAt it.target).getD 0) then p.spareTests
       else p.spareTests ++ [(deckAt it.target).getD 0] })).sliceDone ring index) := by
  have h := does_of_actUp hup (exec_spareTest ring index r s)
  simpa only [Dev.onMaint_hit hit htyp _ hact, Bool.not_eq_true'] using h

/-- REPAIR fails without a die, a spare, room for a record, or when its operation fails. -/
theorem does_repair_fails (hact : it.activity = 10) (hno : r.ok = false ∨ ∀ ld, s.dev.dieAt it.target = some ld →
      s.dev.chooseSpare (s.dev.deckOfDie ld) = none ∨ 4 ≤ s.dev.fuses.repairs.length) :
    Does (.repair ring index r) s (s.dev.finishAt ring index 0x13 0) := by
  have h := does_of_actUp hup (exec_repair ring index r s)
  simp only [Dev.onMaint_hit hit htyp _ hact] at h
  cases hdie : s.dev.dieAt it.target with
  | none => simpa only [hdie] using h
  | some ld =>
    cases hsp : s.dev.chooseSpare (s.dev.deckOfDie ld) with
    | none => simpa only [hdie, hsp] using h
    | some k =>
      have hfail : (decide (4 ≤ s.dev.fuses.repairs.length) || !r.ok) = true := by
        rcases hno with hok | hfull
        · simp [hok]
        · simpa [hsp] using Or.inl (hfull ld hdie)
      simpa only [hdie, hsp, hfail, if_true] using h

theorem does_repair_fuses (hact : it.activity = 10) (hok : r.ok = true) {ld k : Nat} (hdie : s.dev.dieAt it.target = some ld)
    (hsp : s.dev.chooseSpare (s.dev.deckOfDie ld) = some k) (hroom : s.dev.fuses.repairs.length < 4) :
    Does (.repair ring index r) s
      ((s.dev.fuseRepair ld (6 * k + s.dev.get F.dckSpareStatus_SITE k)).sliceDone ring index) := by
  have h := does_of_actUp hup (exec_repair ring index r s)
  simpa only [Dev.onMaint_hit hit htyp _ hact, hdie, hsp, hok, decide_eq_false (Nat.not_le.2 hroom), Bool.not_true,
    Bool.or_self, Bool.false_eq_true, if_false, Dev.fuseRepair] using h

theorem does_pageRetire (hact : it.activity = 11) : Does (.pageRetire ring index r) s
    (if r.ok = false then s.dev.finishAt ring index 0x13 0
     else (s.dev.retire { pending := false, reason := 5, count := it.w 3, first := it.w 2 / 2 ^ 21 }).sliceDone ring index) := by
  have h := does_of_actUp hup (exec_pageRetire ring index r s)
  simpa only [Dev.onMaint_hit hit htyp _ hact, Bool.not_eq_true'] using h

theorem does_ledgerClear (hact : it.activity = 12) : Does (.ledgerClear ring index r) s
    (if s.dev.ledgerArmed = false then (s.dev.note 0x9404 0).finishAt ring index 0x19 0
     else if r.ok = false then s.dev.finishAt ring index 0x13 0
     else (s.dev.clearLedger it).sliceDone ring index) := by
  have h := does_of_actUp hup (exec_ledgerClear ring index r s)
  simpa only [Dev.onMaint_hit hit htyp _ hact, Dev.clearLedger, Bool.not_eq_true'] using h

end

/-- Without ALL the entry named is marked. -/
theorem Dev.clearLedger_named (d : Dev) {it : Item} (hall : it.b 2 63 = false) : d.clearLedger it =
    ((d.flag F.mntLedgerArm_ARMED false).ledgerChange (fun l => { l with removals := it.f 2 11 0 :: l.removals })).note 0x9402 0 [(4, 1)] := by
  simp only [Dev.clearLedger, hall, Bool.or_false, Bool.false_eq_true, if_false]

/-- Under ALL every entry is. -/
theorem Dev.clearLedger_all (d : Dev) {it : Item} (hall : it.b 2 63 = true) : d.clearLedger it =
    ((d.flag F.mntLedgerArm_ARMED false).ledgerChange (fun l => { l with removeAll := true })).note 0x9402 0
      [(4, d.ledger.data.retired.length)] := by
  simp only [Dev.clearLedger, hall, Bool.or_true, if_true]

end Sys2Proof.Machine
end

section
/-! Upkeep of the ledger's flash copies, the vault and the rate windows (17 R642, R643, R652, R656). -/
namespace Sys2Proof.Machine

theorem exec_ledgerArmExpiry (s : State) : exec .ledgerArmExpiry s = execLedgerArmExpiry s := rfl
theorem exec_ledgerFlashWrite (ok : Bool) (s : State) : exec (.ledgerFlashWrite ok) s = execLedgerFlashWrite ok s := rfl
theorem exec_vaultMirror (ok : Bool) (s : State) : exec (.vaultMirror ok) s = execVaultMirror ok s := rfl
theorem exec_rateWindowEnd (code : Nat) (s : State) : exec (.rateWindowEnd code) s = execRateWindowEnd code s := rfl

/-! ### The arm -/

theorem does_ledgerArmExpiry {s : State} (hc : s.dev.clocked = true) : Does .ledgerArmExpiry s
    (if s.dev.get F.mntLedgerArm_ARMED = 1 ∧ s.dev.ledger.armedAt + 10 ^ 10 ≤ s.dev.now then s.dev.flag F.mntLedgerArm_ARMED false
     else s.dev) := by
  have h := does_of_actOn hc (exec_ledgerArmExpiry s)
  simpa only [Bool.and_eq_true, decide_eq_true_eq] using h

/-! ### The ledger's copies in flash -/

/-- The flash copy that the next write of the ledger replaces: one that is absent, or the older (17 R642). -/
def Ledger.olderCopy (l : Ledger) : Nat :=
  match l.copy0, l.copy1 with
  | none, _ => 0
  | some _, none => 1
  | some a, some b => if b.1 < a.1 then 1 else 0

theorem Ledger.olderCopy_eq_zero {l : Ledger}
    (h : l.copy0 = none ∨ ∃ a b, l.copy0 = some a ∧ l.copy1 = some b ∧ a.1 ≤ b.1) : l.olderCopy = 0 := by
  obtain h0 | ⟨a, b, h0, h1, hab⟩ := h
  · simp only [Ledger.olderCopy, h0]
  · simp only [Ledger.olderCopy, h0, h1, if_neg (Nat.not_lt.2 hab)]

theorem Ledger.olderCopy_eq_one {l : Ledger} {a : Nat × LedgerData} (h0 : l.copy0 = some a)
    (h : l.copy1 = none ∨ ∃ b, l.copy1 = some b ∧ b.1 < a.1) : l.olderCopy = 1 := by
  obtain h1 | ⟨b, h1, hba⟩ := h
  · simp only [Ledger.olderCopy, h0, h1]
  · simp only [Ledger.olderCopy, h0, h1, if_pos hba]

/-- The ledger once it has been written to a copy with the next sequence number. -/
def Ledger.flashed (l : Ledger) (k : Nat) : Ledger :=
  let l := { l with seq := l.seq + 1, dirty := false }
  if k = 0 then { l with copy0 := some (l.seq, l.data) } else { l with copy1 := some (l.seq, l.data) }

theorem does_ledgerFlashWrite_idle {s : State} (ok : Bool) (hc : s.dev.clocked = true)
    (h : s.dev.ledger.dirty = false ∨ s.dev.get F.pilStatus_FLASH_RELEASED = 1) : Does (.ledgerFlashWrite ok) s s.dev := by
  have hdoes := does_of_actOn hc (exec_ledgerFlashWrite ok s)
  rwa [if_pos (by simpa using h)] at hdoes

section
variable {s : State} (hc : s.dev.clocked = true) (hd : s.dev.ledger.dirty = true) (hf : s.dev.get F.pilStatus_FLASH_RELEASED = 0)
include hc hd hf

theorem does_ledgerFlashWrite_writes : Does (.ledgerFlashWrite true) s
    (({ s.dev with ledger := s.dev.ledger.flashed s.dev.ledger.olderCopy } : Dev).note 0x9401 0
      [(1, s.dev.ledger.olderCopy), (4, s.dev.ledger.seq + 1)]) := by
  have hdoes := does_of_actOn hc (exec_ledgerFlashWrite true s)
  rwa [if_neg (by simp [hd, hf]), if_neg (by decide)] at hdoes

theorem does_ledgerFlashWrite_fails : Does (.ledgerFlashWrite false) s
    ((s.dev.flag F.logVaultStatus_ERROR true).note 0xF003 0 [(4, 0x0FC20000 + 0x40000 * s.dev.ledger.olderCopy)]) := by
  have hdoes := does_of_actOn hc (exec_ledgerFlashWrite false s)
  rwa [if_neg (by simp [hd, hf]), if_pos (by decide)] at hdoes

end

/-! ### Flash bytes and the vault -/

/-- Bytes are written one after another. -/
theorem Dev.writeFlash_cons (d : Dev) (a : Nat) (b : Byte) (bs : List Byte) : d.writeFlash a (b :: bs) =
    (d.modPilot (fun p => { p with flash := tset 0xFF p.flash a b })).writeFlash (a + 1) bs := rfl

/-- Flash outside the bytes written reads as before. -/
theorem Dev.writeFlash_outside (d : Dev) (a : Nat) (bs : List Byte) {j : Nat} (h : j < a ∨ a + bs.length ≤ j) :
    tget 0xFF (d.writeFlash a bs).pilot.flash j = tget 0xFF d.pilot.flash j := by
  induction bs generalizing d a with
  | nil => rfl
  | cons b bs ih =>
    rw [List.length_cons] at h
    rw [Dev.writeFlash_cons, ih _ _ (by omega)]
    exact tget_tset_other _ _ (by omega)

/-- A byte written reads as it was written. -/
theorem Dev.writeFlash_inside (d : Dev) (a : Nat) (bs : List Byte) {i : Nat} (h : i < bs.length) :
    tget 0xFF (d.writeFlash a bs).pilot.flash (a + i) = bs[i] := by
  induction bs generalizing d a i with
  | nil => exact absurd h (Nat.not_lt_zero i)
  | cons b bs ih =>
    rw [Dev.writeFlash_cons]
    cases i with
    | zero =>
      rw [Dev.writeFlash_outside _ _ _ (by omega)]
      exact tget_tset_same _ _ _
    | succ i =>
      have hi := ih (d.modPilot (fun p => { p with flash := tset 0xFF p.flash a b })) (a + 1) (Nat.lt_of_succ_lt_succ h)
      rwa [Nat.add_right_comm] at hi

/-- The flash address of the record next due in the current vault slot (17 R656). -/
def Dev.vaultNext (d : Dev) : Nat :=
  0x0FC01000 + 0x10000 * d.get F.logVaultStatus_SLOT + 64 * d.get F.logVaultStatus_MIRRORED

theorem does_vaultMirror_idle {s : State} (ok : Bool) (hc : s.dev.clocked = true)
    (h : s.dev.get F.logVaultStatus_GENERATION = 0 ∨ s.dev.get F.pilStatus_FLASH_RELEASED = 1 ∨
      256 ≤ s.dev.get F.logVaultStatus_MIRRORED ∨ s.dev.get F.logStatus_COUNT ≤ s.dev.get F.logVaultStatus_MIRRORED) :
    Does (.vaultMirror ok) s s.dev := by
  have hdoes := does_of_actOn hc (exec_vaultMirror ok s)
  rwa [if_pos (by simpa [or_assoc] using h)] at hdoes

section
variable {s : State} (hc : s.dev.clocked = true) (hgen : 0 < s.dev.get F.logVaultStatus_GENERATION)
  (hf : s.dev.get F.pilStatus_FLASH_RELEASED = 0) (hslot : s.dev.get F.logVaultStatus_MIRRORED < 256)
  (hdue : s.dev.get F.logVaultStatus_MIRRORED < s.dev.get F.logStatus_COUNT)
include hc hgen hf hslot hdue

theorem does_vaultMirror_copies : Does (.vaultMirror true) s
    ((s.dev.writeFlash s.dev.vaultNext (s.dev.logBytes (s.dev.get F.logVaultStatus_MIRRORED))).put F.logVaultStatus_MIRRORED
      (s.dev.get F.logVaultStatus_MIRRORED + 1)) := by
  have hdoes := does_of_actOn hc (exec_vaultMirror true s)
  rwa [if_neg (by simp [hf]; omega), if_neg (by decide)] at hdoes

theorem does_vaultMirror_fails : Does (.vaultMirror false) s
    ((s.dev.flag F.logVaultStatus_ERROR true).note 0xF003 0 [(4, s.dev.vaultNext)]) := by
  have hdoes := does_of_actOn hc (exec_vaultMirror false s)
  rwa [if_neg (by simp [hf]; omega), if_pos (by decide)] at hdoes

end

/-! ### Rate windows -/

/-- A window not yet over stays; one that is over goes, with a summary of what it counted (17 R652). -/
theorem does_rateWindowEnd {s : State} {code : Nat} {w : RateWindow} (hc : s.dev.clocked = true)
    (hw : s.dev.log.windows.find? (fun e => e.1 == code) = some (code, w)) {d1 : Dev}
    (hd : d1 = { s.dev with log := { s.dev.log with windows := s.dev.log.windows.filter (fun e => e.1 != code) } }) :
    Does (.rateWindowEnd code) s (if s.dev.windowOver w = true then
      if 0 < w.counted then d1.logWrite code 0 w.counted (payload []) else d1 else s.dev) := by
  have h := does_of_actOn hc (exec_rateWindowEnd code s)
  simpa only [Dev.endWindow, hw, hd] using h

end Sys2Proof.Machine
end

section
/-! The obligation on repairs, the ledger and the vault. -/
namespace Sys2Proof.Machine

/-- Settles O42, from what each command does with an item in hand, with flash and with a window. -/
theorem repairsLedgerAndVault : Obligations.RepairsLedgerAndVault := by
  unfold Obligations.RepairsLedgerAndVault
  refine ⟨fun s ring index it r hup hit htyp hok => ?failed, fun s ring index it r hup hit htyp hok => ?worked,
    fun d k hk hp hr hs => Dev.chooseSpare_own hk hp hr hs, fun s hc harm => ?expiry, fun s ok l hc hl => ?flash,
    fun s n a hc hn ha => ?mirror, fun s code w d1 hc hw hd => ?window⟩
  case failed =>
    refine ⟨fun hact => ?_, fun hact => does_repair_fails r hup hit htyp hact (.inl hok), fun hact => ?_, fun hact harm => ?_⟩
    · have hdoes := does_spareTest r hup hit htyp hact
      rwa [if_pos hok] at hdoes
    · have hdoes := does_pageRetire r hup hit htyp hact
      rwa [if_pos hok] at hdoes
    · have hdoes := does_ledgerClear r hup hit htyp hact
      rwa [if_neg (by simp [harm]), if_pos hok] at hdoes
  case worked =>
    have hok' : ¬ r.ok = false := by simp [hok]
    refine ⟨fun k hact hk => ?_, fun ld hact hdie => ⟨fun hno => ?_, fun k hsp hroom => ?_⟩, fun hact => ?_, fun hact => ?_⟩
    · have hdoes := does_spareTest r hup hit htyp hact
      rwa [if_neg hok', hk] at hdoes
    · refine does_repair_fails r hup hit htyp hact (.inr fun ld' hdie' => ?_)
      rwa [← Option.some.inj (hdie.symm.trans hdie')]
    · exact does_repair_fuses r hup hit htyp hact hok hdie hsp hroom
    · have hdoes := does_pageRetire r hup hit htyp hact
      rwa [if_neg hok'] at hdoes
    · have hdoes := does_ledgerClear r hup hit htyp hact
      refine ⟨fun harm => ?_, fun harm hall => ?_, fun harm hall => ?_⟩
      · rwa [if_pos harm] at hdoes
      · rwa [if_neg (by simp [harm]), if_neg hok', Dev.clearLedger_named _ hall] at hdoes
      · rwa [if_neg (by simp [harm]), if_neg hok', Dev.clearLedger_all _ hall] at hdoes
  case expiry =>
    have hdoes := does_ledgerArmExpiry hc
    refine ⟨fun hold => ?_, fun hyoung => ?_⟩
    · rwa [if_pos ⟨harm, hold⟩] at hdoes
    · rwa [if_neg fun h => Nat.not_le.2 hyoung h.2] at hdoes
  case flash =>
    subst hl
    refine ⟨fun hidle => does_ledgerFlashWrite_idle ok hc hidle, fun hd hf => ?_⟩
    have hwrites := does_ledgerFlashWrite_writes hc hd hf
    have hfails := does_ledgerFlashWrite_fails hc hd hf
    refine ⟨fun hcopy => ?_, fun a h0 hcopy => ?_⟩
    · rw [Ledger.olderCopy_eq_zero hcopy] at hwrites hfails
      exact ⟨hwrites, hfails⟩
    · rw [Ledger.olderCopy_eq_one h0 hcopy] at hwrites hfails
      exact ⟨hwrites, hfails⟩
  case mirror =>
    subst hn ha
    exact ⟨fun hidle ok => does_vaultMirror_idle ok hc (by omega), fun hgen hslot hf hdue =>
      ⟨does_vaultMirror_copies hc hgen hf hslot hdue, fun i h => Dev.writeFlash_inside _ _ _ h,
        fun j h => Dev.writeFlash_outside _ _ _ h, does_vaultMirror_fails hc hgen hf hslot hdue⟩⟩
  case window =>
    have hdoes := does_rateWindowEnd hc hw hd
    refine ⟨fun hopen => ?_, fun hover hnone => ?_, fun hover hsome => ?_⟩
    · rwa [if_neg (by simp [hopen])] at hdoes
    · rwa [if_pos hover, if_neg (by omega)] at hdoes
    · rwa [if_pos hover, if_pos hsome] at hdoes

end Sys2Proof.Machine
end

section
/-! Folds that leave a part of the device as it is, and commands that act on the item in hand. -/
namespace Sys2Proof.Machine

/-- What no step of a fold changes, the fold does not change. -/
theorem foldl_keeps {α β γ : Type} {f : β → α → β} (g : β → γ) (h : ∀ b a, g (f b a) = g b) (l : List α) (b : β) :
    g (l.foldl f b) = g b :=
  List.foldlRecOn l f (motive := fun b' => g b' = g b) rfl fun b' hb a _ => (h b' a).trans hb

/-- A command that acts on the item in hand leaves what it makes of it. -/
theorem does_onItem {s : State} {c : Instr} {ring index : Nat} {it : Item} {p : Item → Bool} {f : Dev → Item → Dev}
    (hup : Up s) (hit : InHand s ring index it) (h : exec c s = actUp s fun d => d.onItem ring index p (f d))
    (hp : p it = true) : Does c s (f s.dev it) := by
  obtain ⟨hfound, hph⟩ := hit
  have hdoes := does_of_actUp hup h
  rwa [Dev.onItem_hit _ hfound hph hp] at hdoes

end Sys2Proof.Machine
end

section
/-! The admission cut: what a cut gives a cluster stays within cap(c) (02 R66, R72, R79). -/
namespace Sys2Proof.Machine

/-! ### Capacity -/

/-- Before rounding, CAP is 700 reference cycles per thousand nanoseconds, less the reserve (02 R66). -/
theorem capOf_thousands (k r : Nat) : capOf (1000 * k) r = 700 * k * (256 - r) / 256 := by
  have htc : 1000 * k * 7 / 10 = 700 * k := by omega
  rw [capOf, htc]

/-! ### What a cut has given -/

/-- An amount added once at each key of a list without repetition. -/
theorem tget_foldl_add {l : List Nat} (hl : l.Nodup) (t : Tbl Nat) (b q : Nat) :
    tget 0 (l.foldl (fun t k => tset 0 t k (tget 0 t k + b)) t) q = tget 0 t q + if q ∈ l then b else 0 := by
  induction l generalizing t with
  | nil => rfl
  | cons k l ih =>
    obtain ⟨hk, hl⟩ := List.nodup_cons.1 hl
    rw [List.foldl_cons, ih hl]
    by_cases hq : q = k
    · subst hq
      simp [hk]
    · simp [tget_tset_other _ _ hq, hq]

theorem Item.launchClusters_nodup (it : Item) : it.launchClusters.Nodup := List.nodup_range.filter _

/-- An item once it has been admitted as number `n` for tide `tide`, with the engine chosen for it. -/
def Item.admitted (it : Item) (tide n : Nat) (engine : Option Nat) : Item :=
  if it.phase ≠ .fetched then it else { it with
    phase := .admitted, cut := tide, order := n, promoted := false, engine := engine.getD 0, assigned := engine.isSome }

section
variable (c : Cut) (it : Item) (share : Bool)

/-- Of the device, an admission changes the item and the count of admissions. -/
theorem Cut.admitItem_d : (c.admitItem it share).d =
    { c.d.modItem it.ring it.index (fun i => i.admitted (c.d.get F.tideCount_VALUE + 1) c.d.orders (c.d.chooseEngine it)) with
      orders := c.d.orders + 1 } := by
  unfold Cut.admitItem
  split <;> rfl

theorem Cut.admitItem_used_free (h : c.d.takesCapacity it = false) : (c.admitItem it share).used = c.used := by
  rw [Cut.admitItem, h]
  rfl

/-- A launch takes its budget on each cluster that it names. -/
theorem Cut.admitItem_used_launch (h : c.d.takesCapacity it = true) (lc : Nat) :
    tget 0 (c.admitItem it share).used lc = tget 0 c.used lc + if lc ∈ it.launchClusters then it.budget else 0 := by
  rw [Cut.admitItem, h]
  exact tget_foldl_add it.launchClusters_nodup _ _ _

end

/-- Whether AGEING runs does not turn on an admission: the item has ended neither before nor after it. -/
theorem Cut.admitItem_ageingOn (c : Cut) (it : Item) (share : Bool) (ld : Nat) :
    (c.admitItem it share).d.ageingOn ld = c.d.ageingOn ld := by
  rw [Cut.admitItem_d, Dev.ageingOn, Dev.modItem, List.any_map]
  refine congrArg (List.any c.d.items) (funext fun i => ?_)
  dsimp only [Function.comp]
  split
  · unfold Item.admitted
    split
    · rfl
    next hph =>
      have hph : i.phase = .fetched := Decidable.of_not_not hph
      simp only [hph]
      rfl
  · rfl

theorem Cut.admitItem_cap10 (c : Cut) (it : Item) (share : Bool) (lc : Nat) :
    (c.admitItem it share).d.cap10 lc = c.d.cap10 lc := by
  rw [Dev.cap10, Cut.admitItem_ageingOn, Cut.admitItem_d]
  rfl

/-! ### The passes -/

section
variable {c : Cut}

/-- Only an item that fits is admitted, so that what it takes is there to be given. -/
theorem Cut.Within.admitItem (h : c.Within) {it : Item} (hfits : c.fits it = true) (share : Bool) :
    (c.admitItem it share).Within := by
  intro lc
  rw [Cut.admitItem_cap10]
  cases htakes : c.d.takesCapacity it with
  | false => rw [Cut.admitItem_used_free c it share htakes]; exact h lc
  | true =>
    rw [Cut.admitItem_used_launch c it share htakes]
    split
    next hlc =>
      have hall : ∀ lc ∈ it.launchClusters, 10 * (tget 0 c.used lc + it.budget) ≤ c.d.cap10 lc := by
        simpa [Cut.fits, htakes] using hfits
      exact .inr (hall lc hlc)
    next => exact h lc

theorem Cut.Within.promotedRing (h : c.Within) (n : Nat) : (c.promotedRing n).Within := by
  unfold Cut.promotedRing
  split
  next it _ =>
    split
    · by_cases hfits : c.fits it = true
      · rw [if_pos hfits]; exact h.admitItem hfits false
      · rw [if_neg hfits]; exact h
    · exact h
  next => exact h

theorem Cut.Within.ring (n fuel : Nat) (share : Option Nat) (h : c.Within) : (Cut.ring n share fuel c).Within := by
  induction fuel generalizing c with
  | zero => exact h
  | succ fuel ih =>
    rw [Cut.ring]
    cases c.d.head? n with
    | none => exact h
    | some it =>
      refine iteInduction (fun hadmit => ?_) (fun _ => h)
      simp only [Bool.and_eq_true] at hadmit
      obtain ⟨⟨⟨-, hfits⟩, -⟩, -⟩ := hadmit
      exact ih (h.admitItem hfits share.isSome)

end

/-- Settles O25: an admission keeps the bound, so every pass does. -/
theorem cutStaysWithinCapacity : Obligations.CutStaysWithinCapacity := by
  unfold Obligations.CutStaysWithinCapacity
  exact ⟨fun d lc => .inl rfl, fun c n h => h.promotedRing n, fun c n fuel share h => h.ring n fuel share⟩

/-- Settles O24: rounding down by a division is the greatest whole number not above the quotient. -/
theorem tideCapacity : Obligations.TideCapacity := by
  unfold Obligations.TideCapacity
  refine ⟨fun k r _ => ?_, by decide, by decide, by decide, by decide⟩
  rw [capOf_thousands]
  exact ⟨Nat.mul_div_le _ _, Nat.lt_mul_div_succ _ (by decide)⟩

end Sys2Proof.Machine
end

section
/-! The admission cut's effect on the tide, the tick, and coupled mode (02 R59 to R63, R67, R72, R86 to R91). -/
namespace Sys2Proof.Machine

/-! ### The cut -/

/-- The period and the reserve that the tide being admitted will run with (02 R66). -/
def Dev.nextTide (d : Dev) : Nat × Nat := (d.nextPeriod, d.reserve)

theorem LogsOnly.nextTide {d d' : Dev} (h : LogsOnly d d') : d'.nextTide = d.nextTide := by
  obtain ⟨⟨_, _, _, rfl⟩, -⟩ := h
  rfl

theorem Dev.promote_nextTide (d : Dev) (n : Nat) : (d.promote n).nextTide = d.nextTide := by
  unfold Dev.promote
  split
  · split
    · exact (Dev.note_logsOnly _ _ _ _).nextTide
    · rfl
  · rfl

theorem Dev.held_nextTide (d : Dev) (n : Nat) : (d.held n).nextTide = d.nextTide := by
  unfold Dev.held
  split
  · exact Dev.promote_nextTide _ n
  · rfl

theorem Dev.chargeAll_nextTide (d : Dev) : d.chargeAll.nextTide = d.nextTide := rfl

theorem Cut.admitItem_nextTide (c : Cut) (it : Item) (share : Bool) : (c.admitItem it share).d.nextTide = c.d.nextTide := by
  rw [Cut.admitItem_d]
  rfl

theorem Cut.promotedRing_nextTide (c : Cut) (n : Nat) : (c.promotedRing n).d.nextTide = c.d.nextTide := by
  unfold Cut.promotedRing
  split
  next it _ =>
    split
    · by_cases hfits : c.fits it = true
      · rw [if_pos hfits]
        exact c.admitItem_nextTide it false
      · rw [if_neg hfits]
    · rfl
  next => rfl

theorem Cut.ring_nextTide (n fuel : Nat) (share : Option Nat) (c : Cut) : (Cut.ring n share fuel c).d.nextTide = c.d.nextTide := by
  induction fuel generalizing c with
  | zero => rfl
  | succ fuel ih =>
    rw [Cut.ring]
    cases c.d.head? n with
    | none => rfl
    | some it =>
      refine iteInduction (motive := fun c' : Cut => c'.d.nextTide = c.d.nextTide) (fun _ => ?_) (fun _ => rfl)
      exact (ih _).trans (c.admitItem_nextTide it share.isSome)

/-- The cut is made for the period and reserve then set (02 R72). -/
theorem Dev.cut_nextTide (d : Dev) : d.cut.nextTide = (d.get F.tidePeriodNs_PERIOD, d.get F.tideReserve_RESERVE) := by
  unfold Dev.cut
  extract_lets d0 rings fuel d1 c1 c2 first c3 d2
  -- The rings are taken as any list, so that no step evaluates the passes.
  clear_value rings
  calc
    _ = d2.nextTide := rfl
    _ = (rings.foldl Dev.held c3.d).nextTide := Dev.chargeAll_nextTide _
    _ = c3.d.nextTide := foldl_keeps Dev.nextTide Dev.held_nextTide rings c3.d
    _ = c2.d.nextTide := foldl_keeps (fun c : Cut => c.d.nextTide) (fun c n => Cut.ring_nextTide n fuel none c) _ c2
    _ = c1.d.nextTide := foldl_keeps (fun c : Cut => c.d.nextTide)
      (fun c n => Cut.ring_nextTide n fuel (some (c.d.share n)) { c with own := [] }) rings c1
    _ = d1.nextTide := foldl_keeps (fun c : Cut => c.d.nextTide) Cut.promotedRing_nextTide rings { d := d1 }
    _ = d0.nextTide := foldl_keeps Dev.nextTide Dev.promote_nextTide rings d0
    _ = _ := rfl

theorem Dev.cut_done (d : Dev) : d.cut.cutDone = true := by
  unfold Dev.cut
  extract_lets
  rfl

theorem exec_admissionCut (s : State) : exec .admissionCut s = execAdmissionCut s := rfl

theorem Dev.cutDue_iff (d : Dev) : d.cutDue = true ↔
    d.cutDone = false ∧ d.reset = none ∧ 15 * d.period ≤ 16 * (d.now - d.get F.tideLastTickNs_VALUE) := by
  simp only [Dev.cutDue, Bool.and_eq_true, Bool.not_eq_true', Option.isNone_iff_eq_none, decide_eq_true_eq, and_assoc]

theorem does_admissionCut {s : State} (hup : Up s) : Does .admissionCut s (if s.dev.cutDue then s.dev.cut else s.dev) :=
  does_of_actUp (f := fun d => if d.cutDue then d.cut else d) hup (exec_admissionCut s)

/-! ### The tick -/

theorem exec_tick (m : Telemetry) (s : State) : exec (.tick m) s = execTick m s := rfl

/-- Its time has come: the period is over and the cut made, or a reset waits for it (02 R59, R62). -/
def Dev.tickDue (d : Dev) : Prop := d.periodOver = true ∧ (d.cutDone = true ∨ d.reset ≠ none)

theorem Dev.tickDue_iff (d : Dev) : (d.periodOver && (d.cutDone || d.reset.isSome)) = true ↔ d.tickDue := by
  rw [Bool.and_eq_true, Bool.or_eq_true, Option.isSome_iff_ne_none, Dev.tickDue]

section
variable {s : State} (m : Telemetry) (hup : Up s)
include hup

theorem does_tick_early (h : ¬ s.dev.tickDue) : Does (.tick m) s s.dev := by
  have hdoes := does_of_actUp hup (exec_tick m s)
  rwa [if_pos (by rw [Bool.not_eq_true', ← Bool.not_eq_true, Dev.tickDue_iff]; exact h)] at hdoes

theorem does_tick_due (h : s.dev.tickDue) : Does (.tick m) s
    (if (s.dev.coupled && !s.dev.beaconsIn) = true then s.dev.holdTick else s.dev.tick m) := by
  have hdoes := does_of_actUp hup (exec_tick m s)
  rwa [if_neg (by rw [(Dev.tickDue_iff _).2 h]; exact Bool.false_ne_true)] at hdoes

end

/-- A tick takes over the period decided at the cut, counts the tide and notes its time. -/
theorem Dev.newTide_eq (d : Dev) : d.newTide.period = d.nextPeriod ∧ d.newTide.cutDone = false ∧
    d.newTide.get F.tideCount_VALUE = (d.get F.tideCount_VALUE + 1) % 2 ^ 64 ∧
    d.newTide.get F.tideLastTickNs_VALUE = d.now % 2 ^ 64 := by
  refine ⟨rfl, rfl, ?count, ?time⟩
  case count =>
    rw [Dev.newTide, Dev.flag, Dev.get_congr (Dev.put_reg_other _ _ (by decide)),
      Dev.get_congr (Dev.put_reg_other _ _ (by decide)), Dev.addWrap, Dev.put_get_same _ _ _ _ (by decide)]
    rfl
  case time =>
    rw [Dev.newTide, Dev.flag, Dev.get_congr (Dev.put_reg_other _ _ (by decide)), Dev.put_get_same _ _ _ _ (by decide)]
    rfl

theorem Dev.holdTick_again {d : Dev} (h : d.heldCounted = true) : d.holdTick = d := if_pos h

theorem LogsOnly.heldCounted {d d' : Dev} (h : LogsOnly d d') : d'.heldCounted = d.heldCounted := by
  obtain ⟨⟨_, _, _, rfl⟩, -⟩ := h
  rfl

/-- What the logbook takes of a held tick: a record, a count within a second of the latest, or nothing when it
is full (02 R89, 17 R650). -/
def Dev.logHeld (d : Dev) : Dev :=
  let quiet := match d.log.heldLast with | some t => decide (d.now < t + 10 ^ 9) | none => false
  if d.get F.logStatus_FULL = 1 then d.addSat F.logStatus_DROPPED 1
  else if quiet then { d with log := { d.log with heldCount := d.log.heldCount + 1 } }
  else
    let n := d.log.heldCount
    let log := if d.get F.logStatus_COUNT < 4095 then { d.log with heldLast := some d.now, heldCount := 0 }
      else { d.log with heldCount := n + 1 }
    (({ d with log := log } : Dev)).logWrite 0x7204 0 n (payload [])

theorem Dev.logHeld_logsOnly (d : Dev) : LogsOnly d d.logHeld := by
  refine iteInduction (motive := LogsOnly d) (fun _ => ?full) (fun _ => ?_)
  case full => exact logsOnly_put d F.logStatus_DROPPED _ rfl
  refine iteInduction (motive := LogsOnly d) (fun _ => ?quiet) (fun _ => ?logged)
  case quiet => exact logsOnly_log d _ d.pins
  case logged => exact (logsOnly_log d _ d.pins).trans (logsOnly_logWrite _ _ _ _ _)

/-- A held tick is counted and noted in TIDE_STATUS, and the logbook takes it (02 R89). -/
theorem Dev.holdTick_eq {d : Dev} (h : d.heldCounted = false) : d.holdTick =
    ((({ d with heldCounted := true } : Dev).addWrap F.tideHeldCount_VALUE 1).flag F.tideStatus_HOLDING true).logHeld := by
  rw [Dev.holdTick, if_neg (by simp [h])]
  rfl

theorem Dev.holdTick_first {d : Dev} (h : d.heldCounted = false) : d.holdTick.heldCounted = true := by
  rw [Dev.holdTick_eq h, (Dev.logHeld_logsOnly _).heldCounted]
  rfl

/-! ### Beacons -/

theorem exec_beaconSend (s : State) : exec .beaconSend s = execBeaconSend s := rfl
theorem exec_beacon (port k per node : Nat) (s : State) : exec (.beacon port k per node) s = execBeacon port k per node s := rfl
theorem exec_beaconTimeout (port : Nat) (s : State) : exec (.beaconTimeout port) s = execBeaconTimeout port s := rfl
theorem exec_joinTimeout (port : Nat) (s : State) : exec (.joinTimeout port) s = execJoinTimeout port s := rfl

/-- A port of the coupled set leaves it (02 R90). -/
theorem Dev.uncouple_member {d : Dev} {port : Nat} (h : port ∈ d.coupledPorts) :
    d.uncouple port = (d.putBit F.tideStatus_COUPLED_SET port false).note 0x7205 (locPort port) [(1, port)] :=
  if_pos (List.mem_filter.1 h).2

section
variable {s : State} (hup : Up s)
include hup

/-- Beacon k goes out on every coupled port once (02 R87). -/
theorem does_beaconSend (hcoupled : s.dev.coupled = true) (hunsent : s.dev.sentBeacon = false) (hover : s.dev.periodOver = true)
    (hclosed : ∀ c ∈ s.dev.closing, s.dev.closed c = true) :
    Does .beaconSend s (s.dev.coupledPorts.foldl (fun d p => d.portSend p { plainMsg (d.neighbour d.node (p / 2) (p % 2 == 1)) 0 0
      (MsgBody.beacon (s.dev.get F.tideCoupledCount_VALUE) (s.dev.get F.tidePeriodNs_PERIOD) s.dev.node) with src := d.node })
      { s.dev with sentBeacon := true }) := by
  have hdoes := does_of_actUp hup (exec_beaconSend s)
  rwa [if_pos (by simpa [hcoupled, hunsent, hover] using hclosed)] at hdoes

/-- A beacon that arrives on a port that is up is noted; one of a different period is a mismatch (02 R88, R91). -/
theorem does_beacon {port : Nat} (k per node : Nat) (hport : port < 6) (hpu : s.dev.portUp port = true) {d1 : Dev}
    (hd : d1 = s.dev.linkReceived port (plainMsg s.dev.node 0 0 (.beacon k per node))) :
    Does (.beacon port k per node) s ((if per = d1.get F.tidePeriodNs_PERIOD then d1
      else (d1.flag F.tideStatus_PERIOD_MISMATCH true).note 0x7206 (locPort port)).modPort port (fun x =>
        { x with beacons := if x.beacons.contains k then x.beacons else x.beacons ++ [k], joined := true })) := by
  subst hd
  have hdoes := does_of_actUp hup (exec_beacon port k per node s)
  rwa [if_pos (by simp [hport, hpu])] at hdoes

/-- An expected beacon that is TIMEOUT periods late takes its port out of the set (02 R90). -/
theorem does_beaconTimeout {port : Nat} (hcoupled : s.dev.coupled = true) (hport : port ∈ s.dev.coupledPorts)
    (hjoined : (tget Port.new s.dev.ports port).joined = true)
    (hmissing : s.dev.get F.tideCoupledCount_VALUE ∉ (tget Port.new s.dev.ports port).beacons)
    (hlate : s.dev.get F.tideLastTickNs_VALUE + s.dev.period + s.dev.get F.tideBeaconCfg_TIMEOUT * s.dev.period ≤ s.dev.now) :
    Does (.beaconTimeout port) s (s.dev.uncouple port) := by
  have hdoes := does_of_actUp hup (exec_beaconTimeout port s)
  rwa [if_pos (by simp [hcoupled, hport, hjoined, hmissing, hlate])] at hdoes

/-- So does a first beacon later than JOIN_LIMIT_MS (02 R90). -/
theorem does_joinTimeout {port : Nat} (hcoupled : s.dev.coupled = true) (hport : port ∈ s.dev.coupledPorts)
    (hjoined : (tget Port.new s.dev.ports port).joined = false)
    (hlate : (tget Port.new s.dev.ports port).coupledSince + s.dev.get F.tideBeaconCfg_JOIN_LIMIT_MS * 10 ^ 6 ≤ s.dev.now) :
    Does (.joinTimeout port) s (s.dev.uncouple port) := by
  have hdoes := does_of_actUp hup (exec_joinTimeout port s)
  rwa [if_pos (by simpa [hcoupled, hport, hjoined] using hlate)] at hdoes

end

/-- Settles O26, from what each command does when its time has come and before. -/
theorem cutsTicksAndBeacons : Obligations.CutsTicksAndBeacons := by
  unfold Obligations.CutsTicksAndBeacons
  refine ⟨⟨fun s hup => ⟨fun hdone hreset htime => ?cut, fun hno => ?noCut⟩,
      fun s m hup hover hdue => ⟨fun hin => ?tick, fun hcoupled hmissing => ?held⟩, fun s m hup hearly => ?early, Dev.newTide_eq,
      fun d => Dev.holdTick_again, fun d => Dev.holdTick_first⟩,
    fun s hup => ⟨does_beaconSend hup, fun port k per node d1 hport hpu hd => does_beacon hup k per node hport hpu hd,
      fun port hcoupled hport hjoined hmissing hlate => ?timeout, fun port hcoupled hport hjoined hlate => ?join⟩⟩
  case cut =>
    have hdoes := does_admissionCut hup
    rw [if_pos ((Dev.cutDue_iff _).2 ⟨hdone, hreset, htime⟩)] at hdoes
    exact ⟨hdoes, s.dev.cut_done, Prod.mk.inj s.dev.cut_nextTide⟩
  case noCut =>
    have hdoes := does_admissionCut hup
    rwa [if_neg] at hdoes
    rw [Dev.cutDue_iff]
    rintro ⟨hdone, hreset, htime⟩
    rcases hno with h | h | h
    · exact absurd h (by simp [hdone])
    · exact h hreset
    · omega
  case tick =>
    have hdoes := does_tick_due m hup ⟨hover, hdue⟩
    rw [if_neg (by rcases hin with h | h <;> simp [h])] at hdoes
    exact hdoes
  case held =>
    have hdoes := does_tick_due m hup ⟨hover, hdue⟩
    rwa [if_pos (by simp [hcoupled, hmissing])] at hdoes
  case early =>
    refine does_tick_early m hup ?_
    rintro ⟨hover, hdue⟩
    rcases hearly with h | ⟨hdone, hreset⟩
    · exact absurd hover (by simp [h])
    · rcases hdue with h | h
      · exact absurd h (by simp [hdone])
      · exact h hreset
  case timeout =>
    rw [← Dev.uncouple_member hport]
    exact does_beaconTimeout hup hcoupled hport hjoined hmissing hlate
  case join =>
    rw [← Dev.uncouple_member hport]
    exact does_joinTimeout hup hcoupled hport hjoined hlate

end Sys2Proof.Machine
end

section
/-! Cranes that work unit by unit (02 R77; 09 R346 to R348). -/
namespace Sys2Proof.Machine

/-! ### The loop over units -/

section
variable {it : Item} {f : Nat → EM URes} {n u : Nat} {d d' : Dev}

/-- Units worked with success are behind the loop: it goes on with the units that are left. -/
theorem Dev.engLoop_carried (k : Nat) (fin : Dev → Dev) (rest : Nat) (h : Carried it f n u d d') :
    d.engLoop it it.eng k f fin (n + rest) u = d'.engLoop it it.eng k f fin rest (u + n) := by
  induction n generalizing u d with
  | zero =>
    obtain rfl : d' = d := h
    rw [Nat.zero_add, Nat.add_zero]
  | succ n ih =>
    obtain ⟨d1, r, hunit, hrest⟩ := h
    rw [Nat.add_right_comm, Dev.engLoop, hunit]
    exact (ih hrest).trans (by rw [Nat.add_assoc u, Nat.add_comm 1])

/-- After the last unit comes `fin`. -/
theorem Dev.engLoop_finishes (k : Nat) (fin : Dev → Dev) (h : Carried it f n u d d') :
    d.engLoop it it.eng k f fin n u = fin d' := Dev.engLoop_carried k fin 0 h

/-- The first unit that fails ends the item at the unit's position. -/
theorem Dev.engLoop_fails (k : Nat) (fin : Dev → Dev) {total : Nat} {d1 : Dev} {x : UErr} (hn : n < total)
    (h : Carried it f n u d d') (hfail : (it.eng.unit f (u + n)).go d' = (d1, .error x)) :
    d.engLoop it it.eng k f fin total u = d1.engFail it (k * (u + n)) x := by
  obtain ⟨rest, rfl⟩ := Nat.exists_eq_add_of_lt hn
  rw [Nat.add_assoc, Dev.engLoop_carried k fin (rest + 1) h, Dev.engLoop, hfail]

end

/-! ### The commands -/

theorem exec_craneUnitOps : ∀ e ∈ craneUnitOps, ∀ (ring index : Nat) (s : State), exec (e.1 ring index) s =
    actUp s fun d => d.onCrane ring index e.2.1 e.2.2.1 fun it => d.craneUnits it (e.2.2.2.2 it) e.2.2.2.1 := by
  simp only [craneUnitOps, List.forall_mem_cons]
  exact ⟨fun _ _ _ => rfl, fun _ _ _ => rfl, fun _ _ _ => rfl, fun _ _ _ => rfl, fun _ _ _ => rfl, fun _ _ _ => rfl,
    fun _ _ _ => rfl, fun _ _ _ => rfl, fun _ _ _ => rfl, fun _ _ _ => rfl, fun _ _ _ => rfl, fun _ _ _ => rfl, nofun⟩

/-- A CRANE item that is its crane's next is acted on. -/
theorem CraneNext.onCrane {s : State} {ring index kind op : Nat} {it : Item} (h : CraneNext s ring index kind op it)
    (f : Item → Dev) : s.dev.onCrane ring index kind op f = f it := by
  obtain ⟨-, ⟨hfound, hph⟩, htyp, hkind, hop, hbusy⟩ := h
  exact Dev.onItem_hit f hfound hph (by simp [htyp, hkind, hop, hbusy])

theorem does_craneUnits {e : (Nat → Nat → Instr) × Nat × Nat × Nat × (Item → Nat → EM URes)} (he : e ∈ craneUnitOps)
    {s : State} {ring index : Nat} {it : Item} (h : CraneNext s ring index e.2.1 e.2.2.1 it) :
    Does (e.1 ring index) s (s.dev.craneUnits it (e.2.2.2.2 it) e.2.2.2.1) := by
  have hdoes := does_of_actUp h.1 (exec_craneUnitOps e he ring index s)
  rwa [h.onCrane] at hdoes

/-- Settles O13: the loop works the units in order, until one fails. -/
theorem craneUnitsAndFailures : Obligations.CraneUnitsAndFailures := by
  unfold Obligations.CraneUnitsAndFailures
  refine ⟨fun e he s ring index it d' hnext hall => ?done, fun e he s ring index it m d' d1 x hnext hm hall hfail => ?fails⟩
  case done =>
    obtain ⟨rfl, rfl⟩ := Dev.item_key hnext.2.1.1
    have hdoes := does_craneUnits he hnext
    rwa [Dev.craneUnits, Dev.engLoop_finishes _ _ hall] at hdoes
  case fails =>
    have hdoes := does_craneUnits he hnext
    rwa [Dev.craneUnits, Dev.engLoop_fails _ _ hm hall hfail] at hdoes

end Sys2Proof.Machine
end

section
/-! MOVE items and inline writes (02 R77; 11 R433 to R438). -/
namespace Sys2Proof.Machine

/-! ### The addresses of an element -/

/-- Of a position, the fastest dimension gives the remainder and the others the quotient. -/
theorem indexVec_cons {n i : Nat} (rest : List Nat) (q : Nat) (h : i < n) :
    indexVec (n :: rest) (i + n * q) = i :: indexVec rest q := by
  have hn : 0 < n := Nat.zero_lt_of_lt h
  rw [indexVec, Nat.add_mul_mod_self_left, Nat.mod_eq_of_lt h, Nat.add_mul_div_left _ _ hn, Nat.div_eq_of_lt h, Nat.zero_add]

theorem indexVec_five {n0 n1 n2 n3 n4 i0 i1 i2 i3 i4 : Nat} (h0 : i0 < n0) (h1 : i1 < n1) (h2 : i2 < n2) (h3 : i3 < n3)
    (h4 : i4 < n4) :
    indexVec [n0, n1, n2, n3, n4] (i0 + n0 * (i1 + n1 * (i2 + n2 * (i3 + n3 * i4)))) = [i0, i1, i2, i3, i4] := by
  rw [indexVec_cons _ _ h0, indexVec_cons _ _ h1, indexVec_cons _ _ h2, indexVec_cons _ _ h3, indexVec,
    Nat.mod_eq_of_lt h4, indexVec]

theorem Item.dot_five (it : Item) (k i0 i1 i2 i3 i4 : Nat) : it.dot k [i0, i1, i2, i3, i4] =
    i0 * it.stride k + i1 * it.stride (k + 1) + i2 * it.stride (k + 2) + i3 * it.stride (k + 3) + i4 * it.stride (k + 4) := by
  have hsum : ∀ a b c d e : Int, [a, b, c, d, e].foldl (· + ·) 0 = a + b + c + d + e := by
    intro a b c d e
    simp only [List.foldl_cons, List.foldl_nil, Int.zero_add]
  exact hsum _ _ _ _ _

theorem vaAdd_eq (va : Nat) (o : Int) : vaAdd va o = (((va : Int) + o) % 2 ^ 64).toNat := by
  rw [vaAdd, ofInt]
  omega

/-- The places of an element are the bases plus its size times the strides' sum (11 R434). -/
theorem Item.moveAddr_of_indexVec {it : Item} {p i0 i1 i2 i3 i4 : Nat} (h : indexVec it.dims p = [i0, i1, i2, i3, i4]) :
    it.moveAddr p =
      (((((it.w 2 : Int) + it.elemSize * (i0 * it.stride 3 + i1 * it.stride 4 + i2 * it.stride 5 + i3 * it.stride 6 + i4 * it.stride 7)) % 2 ^ 64).toNat),
       ((((it.w 3 : Int) + it.elemSize * (i0 * it.stride 8 + i1 * it.stride 9 + i2 * it.stride 10 + i3 * it.stride 11 + i4 * it.stride 12)) % 2 ^ 64).toNat)) := by
  rw [Item.moveAddr, h, Item.dot_five, Item.dot_five, vaAdd_eq, vaAdd_eq]

/-! ### The loop over elements -/

section
variable {it : Item} {n p : Nat} {o o' : Overwritten} {d d' : Dev}

/-- Elements copied with success are behind the loop: it goes on with those that are left. -/
theorem Dev.moveLoop_moved (rest : Nat) (h : Moved it n p o d o' d') :
    d.moveLoop it o (n + rest) p = d'.moveLoop it o' rest (p + n) := by
  induction n generalizing p o d with
  | zero =>
    obtain ⟨rfl, rfl⟩ : d' = d ∧ o' = o := h
    rw [Nat.zero_add, Nat.add_zero]
  | succ n ih =>
    obtain ⟨d1, o1, helem, hrest⟩ := h
    rw [Nat.add_right_comm, Dev.moveLoop, helem]
    exact (ih hrest).trans (by rw [Nat.add_assoc p, Nat.add_comm 1])

/-- After the last element the slice is carried out. -/
theorem Dev.moveLoop_finishes (h : Moved it n p o d o' d') :
    d.moveLoop it o n p = d'.moveSliced it.ring it.index o' := Dev.moveLoop_moved 0 h

/-- The first element that fails ends the item at the element's position. -/
theorem Dev.moveLoop_fails {total va : Nat} {d1 : Dev} {x : XFail} (hn : n < total) (h : Moved it n p o d o' d')
    (hfail : d'.moveElem it o' (p + n) = (d1, .error (x, va))) :
    d.moveLoop it o total p = d1.xfail it.ring it.index (p + n) x va := by
  obtain ⟨rest, rfl⟩ := Nat.exists_eq_add_of_lt hn
  rw [Nat.add_assoc, Dev.moveLoop_moved (rest + 1) h, Dev.moveLoop, hfail]

end

/-! ### The commands -/

theorem exec_move (ring index : Nat) (s : State) : exec (.move ring index) s = execMove ring index s := rfl
theorem exec_inlineWrite (ring index : Nat) (s : State) : exec (.inlineWrite ring index) s = execInlineWrite ring index s := rfl

section
variable {s : State} {ring index : Nat} {it : Item} (hup : Up s) (hit : InHand s ring index it)
include hup hit

theorem does_move (htyp : it.typ = tMove) :
    Does (.move ring index) s (s.dev.moveLoop it it.overwritten (it.sliceEnd - it.pos) it.pos) :=
  does_onItem hup hit (exec_move ring index s) (beq_iff_eq.2 htyp)

theorem does_inlineWrite (htyp : it.typ = tInline) : Does (.inlineWrite ring index) s
    (match s.dev.dmaWrite .harbourmaster it.ctx (BitVec.ofNat 64 (it.w 1)) it.inlineData with
      | (d, .ok ()) => d.finish ring index 0
      | (d, .error x) => d.xfail ring index 0 x (it.w 1)) :=
  does_onItem hup hit (exec_inlineWrite ring index s) (beq_iff_eq.2 htyp)

end

/-- The data of an inline write are the first LENGTH of 40 bytes (11 R436). -/
theorem Item.inlineData_eq (it : Item) : it.inlineData =
    (leBytes 8 (it.w 3) ++ leBytes 8 (it.w 4) ++ leBytes 8 (it.w 5) ++ leBytes 8 (it.w 6) ++ leBytes 8 (it.w 7)).take (it.w 2 % 64) := by
  have hwords : (rangeFrom 3 5).flatMap (fun k => leBytes 8 (it.w k)) =
      leBytes 8 (it.w 3) ++ leBytes 8 (it.w 4) ++ leBytes 8 (it.w 5) ++ leBytes 8 (it.w 6) ++ leBytes 8 (it.w 7) := by
    simp [rangeFrom, List.range_succ]
  have hlen : it.f 2 5 0 = it.w 2 % 64 := by
    change it.w 2 / 1 % 64 = it.w 2 % 64
    rw [Nat.div_one]
  rw [Item.inlineData, hwords, hlen]

/-- Settles O21: the loop copies the elements in order, until one fails. -/
theorem movesAndInlineWrites : Obligations.MovesAndInlineWrites := by
  unfold Obligations.MovesAndInlineWrites
  refine ⟨fun s ring index it d1 o hup hit htyp => ?moves,
    fun it n0 n1 n2 n3 n4 i0 i1 i2 i3 i4 hdims h0 h1 h2 h3 h4 =>
      Item.moveAddr_of_indexVec (hdims ▸ indexVec_five h0 h1 h2 h3 h4),
    fun s ring index it d' hup hit htyp => ⟨it.inlineData_eq, fun hok => ?written, fun x herr => ?refused⟩⟩
  case moves =>
    obtain ⟨rfl, rfl⟩ := Dev.item_key hit.1
    have hdoes := does_move hup hit htyp
    refine ⟨fun hall => ?_, fun m d2 x va hm hsome hfail => ?_⟩
    · rwa [Dev.moveLoop_finishes hall] at hdoes
    · rwa [Dev.moveLoop_fails hm hsome hfail] at hdoes
  case written =>
    have hdoes := does_inlineWrite hup hit htyp
    rwa [hok] at hdoes
  case refused =>
    have hdoes := does_inlineWrite hup hit htyp
    rwa [herr] at hdoes

end Sys2Proof.Machine
end

section
/-! Small items, hints, slices and records (02 R76; 11 R428 to R452; 15 R582, R583). -/
namespace Sys2Proof.Machine

/-! ### Items found after a change -/

/-- A change that keeps ring and index is found where the item was. -/
theorem Dev.modItem_item (d : Dev) {f : Item → Item} (hf : ∀ it, (f it).ring = it.ring ∧ (f it).index = it.index)
    (ring index r i : Nat) : (d.modItem ring index f).item? r i =
      (d.item? r i).map (fun it => if it.ring == ring && it.index == index then f it else it) := by
  have hkey : ((fun it : Item => it.ring == r && it.index == i) ∘
      fun it => if it.ring == ring && it.index == index then f it else it) = fun it => it.ring == r && it.index == i := by
    funext it
    obtain ⟨hr, hi⟩ := hf it
    rw [Function.comp]
    split
    · rw [hr, hi]
    · rfl
  rw [Dev.modItem, Dev.item?, List.find?_map, hkey]
  rfl

theorem Dev.modItem_item_same {d : Dev} {f : Item → Item} (hf : ∀ it, (f it).ring = it.ring ∧ (f it).index = it.index)
    {ring index : Nat} {it : Item} (h : d.item? ring index = some it) :
    (d.modItem ring index f).item? ring index = some (f it) := by
  obtain ⟨hr, hi⟩ := Dev.item_key h
  rw [Dev.modItem_item d hf, h, Option.map_some, if_pos (by simp [hr, hi])]

theorem Dev.modItem_item_other (d : Dev) {f : Item → Item} (hf : ∀ it, (f it).ring = it.ring ∧ (f it).index = it.index)
    {ring index r i : Nat} (h : (r, i) ≠ (ring, index)) : (d.modItem ring index f).item? r i = d.item? r i := by
  rw [Dev.modItem_item d hf]
  cases hit : d.item? r i with
  | none => rfl
  | some it =>
    obtain ⟨rfl, rfl⟩ := Dev.item_key hit
    rw [Option.map_some, if_neg fun hk => h (by simpa using hk)]

theorem Item.finish_key (status detail : Nat) (it : Item) :
    (it.finish status detail).ring = it.ring ∧ (it.finish status detail).index = it.index := by
  unfold Item.finish
  split <;> exact ⟨rfl, rfl⟩

/-! ### Fences, waits and signals -/

theorem exec_fenceRing (ring index : Nat) (s : State) : exec (.fenceRing ring index) s = execFenceRing ring index s := rfl
theorem exec_fenceContext (ring index : Nat) (s : State) : exec (.fenceContext ring index) s = execFenceContext ring index s := rfl
theorem exec_wait (ring index : Nat) (s : State) : exec (.wait ring index) s = execWait ring index s := rfl
theorem exec_signalAdd (ring index : Nat) (s : State) : exec (.signalAdd ring index) s = execSignalAdd ring index s := rfl
theorem exec_signalSet (ring index : Nat) (s : State) : exec (.signalSet ring index) s = execSignalSet ring index s := rfl

section
variable {s : State} {ring index : Nat} {it : Item} (hup : Up s) (hit : InHand s ring index it)
include hup hit

theorem does_fenceRing (htyp : it.typ = tFence) (hscope : it.f 1 0 0 = 0) :
    Does (.fenceRing ring index) s (s.dev.finish ring index 0) :=
  does_onItem hup hit (exec_fenceRing ring index s) (by simp [htyp, hscope])

theorem does_fenceContext (htyp : it.typ = tFence) (hscope : it.f 1 0 0 = 1) :
    Does (.fenceContext ring index) s (s.dev.finish ring index 0) :=
  does_onItem hup hit (exec_fenceContext ring index s) (by simp [htyp, hscope])

theorem does_wait (htyp : it.typ = tWait) : Does (.wait ring index) s (s.dev.finish ring index 0) :=
  does_onItem hup hit (exec_wait ring index s) (by simp [htyp])

theorem does_signalAdd (htyp : it.typ = tSignal) (hop : it.f 1 16 16 = 0) : Does (.signalAdd ring index) s
    ((s.dev.setEvent it.event (s.dev.event it.event + BitVec.ofNat 64 (it.w 2))).finish ring index 0) :=
  does_onItem hup hit (exec_signalAdd ring index s) (by simp [htyp, hop])

theorem does_signalSet (htyp : it.typ = tSignal) (hop : it.f 1 16 16 = 1) : Does (.signalSet ring index) s
    ((s.dev.setEvent it.event (BitVec.ofNat 64 (it.w 2))).finish ring index 0) :=
  does_onItem hup hit (exec_signalSet ring index s) (by simp [htyp, hop])

end

/-- A signal writes its event and ends its item; no other event, no other item and nothing else changes. -/
theorem Dev.signalled {d : Dev} {ring index : Nat} {it : Item} (hit : d.item? ring index = some it) (v : W64)
    {d' : Dev} (hd : d' = (d.setEvent it.event v).finish ring index 0) :
    d'.event it.event = v ∧ (∀ e, e ≠ it.event → d'.event e = d.event e) ∧
      d'.item? ring index = some (it.finish 0) ∧ (∀ r i, (r, i) ≠ (ring, index) → d'.item? r i = d.item? r i) ∧
      { d' with events := d.events, items := d.items } = d := by
  subst hd
  exact ⟨tget_tset_same _ _ _, fun e he => tget_tset_other _ _ he, Dev.modItem_item_same (Item.finish_key 0 0) hit,
    fun r i hri => Dev.modItem_item_other _ (Item.finish_key 0 0) hri, by rw [Dev.finish, Dev.modItem, Dev.setEvent]⟩

/-! ### Hints -/

theorem exec_hintOps : ∀ e ∈ hintOps, ∀ (ring index : Nat) (s : State),
    exec (e.1 ring index) s = actUp s fun d => d.onHint ring index e.2 := by
  simp only [hintOps, List.forall_mem_cons]
  exact ⟨fun _ _ _ => rfl, fun _ _ _ => rfl, fun _ _ _ => rfl, fun _ _ _ => rfl, nofun⟩

theorem does_hint {e : (Nat → Nat → Instr) × Nat} (he : e ∈ hintOps) {s : State} {ring index : Nat} {it : Item}
    (hup : Up s) (hit : InHand s ring index it) (htyp : it.typ = tHint) (hkind : it.f 1 3 0 = e.2) :
    Does (e.1 ring index) s (s.dev.hint it) :=
  does_onItem (p := fun it => it.typ == tHint && it.f 1 3 0 == e.2) hup hit (exec_hintOps e he ring index s)
    (by simp [htyp, hkind])

/-! ### Slices and records -/

theorem exec_sliceComplete (ring index : Nat) (s : State) : exec (.sliceComplete ring index) s = execSliceComplete ring index s := rfl
theorem exec_recordWrite (ring index : Nat) (s : State) : exec (.recordWrite ring index) s = execRecordWrite ring index s := rfl

section
variable {s : State} {ring index : Nat} {it : Item} (hup : Up s) (hit : s.dev.item? ring index = some it)
include hup hit

theorem does_sliceComplete (hph : it.phase = .sliceDone) : Does (.sliceComplete ring index) s
    ((if it.last ≤ it.sliceEnd then s.dev.finishAt ring index 0 it.last
      else s.dev.modItem ring index (fun x => { x with pos := x.sliceEnd, phase := .between })).craneIdle it) := by
  have h := does_of_actUp hup (exec_sliceComplete ring index s)
  simpa only [hit, hph, beq_self_eq_true, if_true] using h

theorem does_recordWrite : Does (.recordWrite ring index) s
    (if it.phase = .finished ∧ s.dev.launch? ring index = none then (s.dev.writeRecord it).1 else s.dev) := by
  have h := does_of_actUp hup (exec_recordWrite ring index s)
  simpa only [hit, Bool.and_eq_true, beq_iff_eq, Option.isNone_iff_eq_none] using h

end

/-! ### The record's words -/

theorem leBytes_length (n v : Nat) : (leBytes n v).length = n := by
  induction n generalizing v with
  | zero => rfl
  | succ n ih => rw [leBytes, List.length_cons, ih]

theorem leNat_leBytes (n v : Nat) : leNat (leBytes n v) = v % 256 ^ n := by
  induction n generalizing v with
  | zero => rw [leBytes, leNat, Nat.pow_zero, Nat.mod_one]
  | succ n ih =>
    rw [leBytes, leNat, ih, BitVec.toNat_ofNat, Nat.pow_succ' (m := 256)]
    exact Nat.mod_mul.symm

/-- Bytes 8k to 8k+7 of a list of words are word k. -/
theorem leNat_wordsBytes (ws : List Nat) (k : Nat) : leNat (((wordsBytes ws).drop (8 * k)).take 8) = ws.getD k 0 % 2 ^ 64 := by
  induction ws generalizing k with
  | nil => simp [wordsBytes, leNat]
  | cons w ws ih =>
    rw [wordsBytes, List.flatMap_cons]
    cases k with
    | zero =>
      rw [Nat.mul_zero, List.drop_zero, List.take_left' (leBytes_length 8 w), List.getD_cons_zero]
      exact leNat_leBytes 8 w
    | succ k =>
      have hdrop : (leBytes 8 w ++ wordsBytes ws).drop (8 * (k + 1)) = (wordsBytes ws).drop (8 * k) := by
        rw [Nat.mul_succ, Nat.add_comm, ← List.drop_drop, List.drop_left' (leBytes_length 8 w)]
      rw [List.getD_cons_succ, ← ih k, ← hdrop]
      rfl

/-- A record says in its four words what it is the record of (11 R442). -/
theorem Dev.recordBytes_words (d : Dev) {it : Item} (j : Nat) {st : Nat} (hindex : it.index < 2 ^ 32) (hpos : it.pos < 2 ^ 32)
    (hsat : it.sat < 2 ^ 32) (hflushed : it.flushed < 2 ^ 32) (hstatus : it.status = some st) (hst : st < 256) :
    leNat ((d.recordBytes it j).take 8) = it.index * 2 ^ 32 + it.tag ∧
    leNat (((d.recordBytes it j).drop 8).take 8) = (if it.sliced then it.pos else 0) * 2 ^ 32 + phaseOf j (d.cqLog it.ring) * 2 ^ 16 + it.typ * 2 ^ 8 + st ∧
    leNat (((d.recordBytes it j).drop 16).take 8) = it.sat * 2 ^ 32 + it.flushed ∧
    leNat (((d.recordBytes it j).drop 24).take 8) = d.recordDetail it % 2 ^ 64 := by
  have htag : it.tag < 2 ^ 32 := bits_lt _ _ _
  have htyp : it.typ < 2 ^ 8 := bits_lt _ _ _
  have hphase : phaseOf j (d.cqLog it.ring) < 2 := Nat.mod_lt _ (by decide)
  have hrecPos : it.recordPos = if it.sliced then it.pos else 0 := by rw [Item.recordPos, Nat.mod_eq_of_lt hpos]
  have hposLt : (if it.sliced then it.pos else 0) < 2 ^ 32 := by split <;> omega
  have hword := leNat_wordsBytes [it.index % 2 ^ 32 * 2 ^ 32 + it.tag,
    it.recordPos * 2 ^ 32 + phaseOf j (d.cqLog it.ring) * 2 ^ 16 + it.typ * 2 ^ 8 + it.status.getD 0 % 256,
    it.sat % 2 ^ 32 * 2 ^ 32 + it.flushed % 2 ^ 32, d.recordDetail it]
  refine ⟨(hword 0).trans ?_, (hword 1).trans ?_, (hword 2).trans ?_, hword 3⟩
  · change (it.index % 2 ^ 32 * 2 ^ 32 + it.tag) % 2 ^ 64 = _
    omega
  · change (it.recordPos * 2 ^ 32 + phaseOf j (d.cqLog it.ring) * 2 ^ 16 + it.typ * 2 ^ 8 + it.status.getD 0 % 256) % 2 ^ 64 = _
    rw [hrecPos, hstatus, Option.getD_some]
    omega
  · change (it.sat % 2 ^ 32 * 2 ^ 32 + it.flushed % 2 ^ 32) % 2 ^ 64 = _
    omega

/-- DETAIL of a success that is no launch counts whole reference cycles (11 R444; log entry 36). -/
theorem Dev.recordDetail_eq (d : Dev) {it : Item} {st : Nat} (hstatus : it.status = some st) : d.recordDetail it =
    if st = 0 ∧ it.isLaunch = false then (d.now - it.relNs) * 7 / 10 else it.detail.toNat := by
  refine ite_congr (propext ?_) (fun _ => rfl) (fun _ => rfl)
  simp only [hstatus, Option.some.injEq, Bool.and_eq_true, decide_eq_true_eq, Bool.not_eq_true']

/-! ### Writing a record -/

@[simp] theorem Dev.addWrap_items (d : Dev) (f : Fld) (n i : Nat) : (d.addWrap f n i).items = d.items := rfl
@[simp] theorem Dev.addWrap_closing (d : Dev) (f : Fld) (n i : Nat) : (d.addWrap f n i).closing = d.closing := rfl

/-- A record that its slot takes moves CQ_PI on, is counted and takes its item out of hand; nothing more happens
for an item without an engine, a connection or an interrupt of its own in a ring that is not HELD. -/
theorem Dev.writeRecord_taken {d d1 : Dev} {it : Item} (hheld : d.ringState it.ring ≠ 3) (hirq : it.irq = false)
    (hmsi : d.get F.hmRingMsi_ERR_IRQ it.ring = 0 ∨ it.status = some 0 ∨ it.status = some 1)
    (hcrane : it.typ ≠ tCrane) (hmaint : it.typ ≠ tMaint) (hremote : it.typ ≠ tRemote) (hcoll : it.typ ≠ tCollective)
    (hwrite : d.hubWrite (d.cqBase it.ring + d.cqPi it.ring % 2 ^ d.cqLog it.ring * 32) (d.recordBytes it (d.cqPi it.ring)) = .ok d1) :
    d.writeRecord it = (((({ ((d1.addWrap F.hmRecordCount_RECORDS 1).put F.hmRingIndex_CQ_PI (d.cqPi it.ring + 1) it.ring) with
      items := d1.items.filter (fun o => !(o.ring == it.ring && o.index == it.index))
      closing := d1.closing.filter (fun c => c != (it.ring, it.index)) } : Dev).writeShadow it.ring).drained it.ring), true) := by
  have hnone : (it.irq || (d.get F.hmRingMsi_ERR_IRQ it.ring = 1 && it.status ≠ some 0 && it.status ≠ some 1)) = false := by
    rcases hmsi with h | h | h <;> simp [hirq, h]
  simp only [Dev.writeRecord, hwrite, hnone, hheld, hcrane, hmaint, hremote, hcoll, decide_false, Bool.false_and, Bool.or_self,
    Bool.false_eq_true, if_false]
  rw [Dev.put_items, Dev.put_closing, Dev.addWrap_items, Dev.addWrap_closing]

/-- Settles O20, from what each command does with an item in hand or finished. -/
theorem itemsTakeEffectAndRecord : Obligations.ItemsTakeEffectAndRecord := by
  unfold Obligations.ItemsTakeEffectAndRecord
  refine ⟨⟨fun s ring index it hup hit => ⟨does_fenceRing hup hit, does_fenceContext hup hit, does_wait hup hit, ?signals⟩,
      fun e he s ring index it n hup hit htyp hkind hn => ?hints⟩,
    fun s ring index it hup hit hph => ?slices, fun s ring index it hup hit => ?records,
    fun d it j st hindex hpos hsat hflushed hstatus hst => ?words,
    fun d d1 it hheld hirq hmsi hcrane hmaint hremote hcoll hwrite =>
      Dev.writeRecord_taken hheld hirq hmsi hcrane hmaint hremote hcoll hwrite⟩
  case signals =>
    rintro c v htyp (⟨hop, rfl, rfl⟩ | ⟨hop, rfl, rfl⟩)
    · exact ⟨_, does_signalAdd hup hit htyp hop, Dev.signalled hit.1 _ rfl⟩
    · exact ⟨_, does_signalSet hup hit htyp hop, Dev.signalled hit.1 _ rfl⟩
  case hints =>
    obtain ⟨rfl, rfl⟩ := Dev.item_key hit.1
    subst hn
    have hdoes := does_hint he hup hit htyp hkind
    rwa [Dev.hint, hkind] at hdoes
  case slices =>
    have hdoes := does_sliceComplete hup hit hph
    refine ⟨fun hlast => ?_, fun hmore => ?_⟩
    · rwa [if_pos hlast] at hdoes
    · rwa [if_neg (Nat.not_le.2 hmore)] at hdoes
  case records =>
    have hdoes := does_recordWrite hup hit
    refine ⟨fun hph hnone => ?_, fun hph => ?_⟩
    · rwa [if_pos ⟨hph, hnone⟩] at hdoes
    · rwa [if_neg fun h => hph h.1] at hdoes
  case words =>
    have hwords := d.recordBytes_words j hindex hpos hsat hflushed hstatus hst
    rwa [Dev.recordDetail_eq d hstatus] at hwords

end Sys2Proof.Machine
end

section
/-! A step of the block: the front command, or one nanosecond of idle time (02 R59; 15 R572; 19 R696). -/
namespace Sys2Proof.Machine

/-! ### Edges of the JTAG port -/

/-- `d'` is `d` but for the JTAG port and the free values drawn for it. -/
def JtagOnly (d d' : Dev) : Prop := ∃ jtag fresh, d' = { d with jtag := jtag, fresh := fresh }

theorem JtagOnly.trans {a b c : Dev} (hab : JtagOnly a b) (hbc : JtagOnly b c) : JtagOnly a c := by
  obtain ⟨_, _, rfl⟩ := hab
  obtain ⟨j, f, rfl⟩ := hbc
  exact ⟨j, f, rfl⟩

theorem Dev.jtagCapture_only (d : Dev) : JtagOnly d d.jtagCapture.1 := by
  unfold Dev.jtagCapture
  split
  · exact ⟨_, _, rfl⟩
  · exact ⟨_, _, rfl⟩
  · split <;> exact ⟨_, _, rfl⟩

theorem Dev.jtagClock_only (d : Dev) (tms tdi : Bool) : JtagOnly d (d.jtagClock tms tdi) := by
  unfold Dev.jtagClock
  split
  · exact d.jtagCapture_only.trans ⟨_, _, rfl⟩
  all_goals exact ⟨_, _, rfl⟩

theorem Dev.jtagEdge_only (d : Dev) (e : JtagEdge) : JtagOnly d (d.jtagEdge e) := by
  cases e with
  | trst => exact ⟨_, _, rfl⟩
  | tck tms tdi => exact d.jtagClock_only tms tdi

theorem Dev.jtagRun_only (d : Dev) : JtagOnly d d.jtagRun :=
  List.foldlRecOn _ _ (motive := JtagOnly d) ⟨_, _, rfl⟩ fun _ h e _ => h.trans (Dev.jtagEdge_only _ e)

@[simp] theorem Dev.jtagRun_clocked (d : Dev) : d.jtagRun.clocked = d.clocked := by
  obtain ⟨_, _, h⟩ := d.jtagRun_only
  rw [h]
  rfl

@[simp] theorem Dev.jtagRun_reset (d : Dev) : d.jtagRun.reset = d.reset := by
  obtain ⟨_, _, h⟩ := d.jtagRun_only
  rw [h]

theorem Dev.jtagRun_quiet {d : Dev} (h : d.jtag.edges = []) : d.jtagRun = d := by
  rw [Dev.jtagRun, h, List.foldl_nil, ← h]

/-! ### A nanosecond passes -/

@[simp] theorem Dev.beginTiles_reset (d : Dev) (lc : Nat) : (d.beginTiles lc).reset = d.reset :=
  foldl_keeps Dev.reset (fun d t => by split <;> rfl) (rangeFrom (8 * lc) 8) d

@[simp] theorem Dev.endZeroing_reset (d : Dev) : d.endZeroing.reset = d.reset := by
  refine foldl_keeps Dev.reset (fun d e => ?_) d.clusters d
  split
  · split
    · exact d.beginTiles_reset e.1
    · rfl
  · rfl

@[simp] theorem Dev.endCraneResets_reset (d : Dev) : d.endCraneResets.reset = d.reset := by
  refine foldl_keeps Dev.reset (fun d e => ?_) d.cranes d
  split
  · split <;> rfl
  · rfl

theorem Dev.idle_stopped {d : Dev} (h : d.clocked = false) : d.idle = d.jtagRun := by
  rw [Dev.idle, Dev.jtagRun_clocked, h]
  rfl

theorem Dev.idle_running {d : Dev} (h : d.clocked = true) (hr : d.reset = none) :
    d.idle = ({ d.jtagRun with now := d.jtagRun.now + 1 } : Dev).returnCredits.endZeroing.endCraneResets := by
  have hnone : ({ d.jtagRun with now := d.jtagRun.now + 1 } : Dev).returnCredits.endZeroing.endCraneResets.reset = none := by
    rw [Dev.endCraneResets_reset, Dev.endZeroing_reset, ← hr]
    exact d.jtagRun_reset
  rw [Dev.idle, Dev.jtagRun_clocked, h]
  simp only [hnone, Bool.not_true, Bool.false_eq_true, if_false]

/-- Settles O1: `step` takes the front command, and the idle step is `Dev.idle`. -/
theorem stepTakesTheFrontCommand : Obligations.StepTakesTheFrontCommand := by
  unfold Obligations.StepTakesTheFrontCommand
  exact ⟨fun c rest d => rfl, fun d => rfl, fun d => Dev.idle_stopped, fun d => Dev.jtagRun_quiet, fun d => Dev.idle_running⟩

end Sys2Proof.Machine
end

section
/-! Taking the instruction at the head of a tile's vector queue (05 R216; 07 R260), and the arms of the vector
commands. -/
namespace Sys2Proof.Machine

/-! ### The head of the queue -/

/-- The head of a vector queue is its first instruction, and has the key asked for. -/
theorem Dev.vecHead_queue {d : Dev} {t : Nat} {key : Nat × Nat} {o : VecOp} (h : d.vecHead t key = some o) :
    (∃ rest, (d.tile t).vec.queue = o :: rest) ∧ queueOp o.word = some key := by
  unfold Dev.vecHead at h
  split at h
  · cases h
  split at h
  · cases h
  split at h
  · cases h
  next o' rest hq =>
    split at h
    next hkey =>
      cases h
      exact ⟨⟨rest, hq⟩, hkey⟩
    next => cases h

/-- A custom-3 key is that of a custom-3 word, and its operation is the word's funct7 (07 R267). -/
theorem queueOp_custom3 {w : W32} {k : Nat} (h : queueOp w = some (3, k)) : opc w = 0x7B ∧ f7Of w = k := by
  dsimp only [queueOp] at h
  split at h
  next => split at h <;> simp at h
  next => split at h <;> simp at h
  next hopc =>
    split at h
    · cases h
    · obtain ⟨-, hk⟩ : _ ∧ f7Of w = k := by simpa using h
      exact ⟨hopc, hk⟩
  next => cases h

section
variable {d : Dev} {t : Nat} {key : Nat × Nat} {o : VecOp} (f : Dev → VecOp → Vec → Dev) (hhead : d.vecHead t key = some o)
include hhead

/-- An encoding that no chapter assigns traps, whatever VL is (05 R216). -/
theorem Dev.vecRun_illegal (hlegal : vecLegal o.word = false) : d.vecRun t key f = (d.vecTaken t).vecIllegal t o.pc := by
  simp only [Dev.vecRun, hhead, hlegal, Bool.not_false, if_true]
  rfl

/-- An assigned encoding is carried out unless VL is 0 and it is no configuration (07 R260). -/
theorem Dev.vecRun_legal (hlegal : vecLegal o.word = true)
    (hacts : ((d.vecTaken t).tile t).vec.vl ≠ 0 ∨ key = (0, 0x3C) ∨ key = (0, 0x3E) ∨ key = (0, 0x3F)) :
    d.vecRun t key f = f (d.vecTaken t) o ((d.vecTaken t).tile t).vec := by
  have hgo : (decide (((d.vecTaken t).tile t).vec.vl = 0) && !(decide (key = (0, 0x3C)) || decide (key = (0, 0x3E)) || decide (key = (0, 0x3F)))) = false := by
    rcases hacts with h | h | h | h <;> simp [h]
  simp only [Dev.vecRun, hhead, hlegal, Bool.not_true, Bool.false_eq_true, if_false]
  exact if_neg (ne_true_of_eq_false hgo)

end

/-! ### The arms -/

theorem exec_vecIntOps : ∀ e ∈ vecIntOps, ∃ f, ∀ (t : Nat) (s : State), exec (e.1 t) s = actUp s fun d => d.vecInt t e.2.1 f := by
  simp only [vecIntOps, List.forall_mem_cons, List.not_mem_nil, false_implies, implies_true, and_true]
  and_intros
  all_goals exact ⟨_, fun _ _ => rfl⟩

theorem exec_vecFloatOps : ∀ e ∈ vecFloatOps, ∀ (t : Nat) (s : State), exec (e.1 t) s = actUp s fun d => d.vecFloat t e.2.1 e.2.2 := by
  simp only [vecFloatOps, List.forall_mem_cons]
  exact ⟨fun _ _ => rfl, fun _ _ => rfl, fun _ _ => rfl, fun _ _ => rfl, fun _ _ => rfl, fun _ _ => rfl, nofun⟩

theorem exec_vecCmpOps : ∀ e ∈ vecCmpOps, ∀ (t : Nat) (s : State), exec (e.1 t) s = actUp s fun d => d.vecCmp t e.2.1 e.2.2 := by
  simp only [vecCmpOps, List.forall_mem_cons]
  exact ⟨fun _ _ => rfl, fun _ _ => rfl, fun _ _ => rfl, fun _ _ => rfl, fun _ _ => rfl, fun _ _ => rfl, nofun⟩

theorem exec_vecMaskOps : ∀ e ∈ vecMaskOps, ∀ (t : Nat) (s : State), exec (e.1 t) s = actUp s fun d => d.vecMask t e.2.1 e.2.2 := by
  simp only [vecMaskOps, List.forall_mem_cons]
  exact ⟨fun _ _ => rfl, fun _ _ => rfl, fun _ _ => rfl, fun _ _ => rfl, fun _ _ => rfl, nofun⟩

theorem exec_vecSfOps : ∀ e ∈ vecSfOps, ∀ (t : Nat) (s : State), exec (e.1 t) s = actUp s fun d => d.vecSf t e.2 := by
  simp only [vecSfOps, List.forall_mem_cons, List.not_mem_nil, false_implies, implies_true, and_true]
  and_intros
  all_goals exact fun _ _ => rfl

/-! ### Encodings that no chapter assigns -/

/-- A command whose key is `key` takes an encoding that no chapter assigns from the head of the queue and traps. -/
def TrapsIllegal (c : Nat → Instr) (key : Nat × Nat) : Prop :=
  ∀ (s : State) (t : Nat) (o : VecOp), Up s → s.dev.vecHead t key = some o → vecLegal o.word = false →
    Does (c t) s ((s.dev.vecTaken t).vecIllegal t o.pc)

section
variable {c : Nat → Instr} {op : Nat}

theorem TrapsIllegal.of_vecSrcOp {f : VecOp → Vec → Bool → (Nat → Nat) → Option Vec}
    (h : ∀ (t : Nat) (s : State), exec (c t) s = actUp s fun d => d.vecSrcOp t op f) : TrapsIllegal c (0, op) :=
  fun s t _ hup hhead hlegal => Dev.vecRun_illegal _ hhead hlegal ▸ does_of_actUp hup (h t s)

theorem TrapsIllegal.of_vecScalar {f : VecOp → Vec → Vec × Nat × Bool}
    (h : ∀ (t : Nat) (s : State), exec (c t) s = actUp s fun d => d.vecScalar t op f) : TrapsIllegal c (0, op) :=
  fun s t _ hup hhead hlegal => Dev.vecRun_illegal _ hhead hlegal ▸ does_of_actUp hup (h t s)

theorem TrapsIllegal.of_vecConfig {f : VecOp → Vec → Option Vec}
    (h : ∀ (t : Nat) (s : State), exec (c t) s = actUp s fun d => d.vecConfig t op f) : TrapsIllegal c (0, op) :=
  fun s t _ hup hhead hlegal => Dev.vecRun_illegal _ hhead hlegal ▸ does_of_actUp hup (h t s)

theorem TrapsIllegal.of_vecRun3 {ok : Vec → Bool} {f : Nat → Dev → VecOp → Vec → Dev}
    (h : ∀ (t : Nat) (s : State), exec (c t) s = actUp s fun d => d.vecRun3 t op ok (f t)) : TrapsIllegal c (3, op) :=
  fun s t _ hup hhead hlegal => Dev.vecRun_illegal _ hhead hlegal ▸ does_of_actUp hup (h t s)

theorem Dev.vecSf_illegal {d : Dev} {t slot : Nat} {o : VecOp} (hhead : d.vecHead t (3, 0x40 + slot) = some o)
    (hlegal : vecLegal o.word = false) : d.vecSf t slot = (d.vecTaken t).vecIllegal t o.pc := by
  rw [Dev.vecSf, Dev.vecRun3, Dev.vecRun_illegal _ hhead hlegal]

end

theorem exec_vRedrow (t : Nat) (s : State) : exec (.vRedrow t) s = execVRedrow t s := rfl
theorem exec_vSetl (t : Nat) (s : State) : exec (.vSetl t) s = execVSetl t s := rfl

/-- V.REDROW draws no free value for such an encoding (07 R280). -/
theorem vRedrow_trapsIllegal : TrapsIllegal .vRedrow (0, 0x34) := by
  intro s t o hup hhead hlegal
  have hdoes := does_of_actUp hup (exec_vRedrow t s)
  simp only [hhead, Option.any_some, hlegal, Bool.false_and, Bool.false_eq_true, if_false] at hdoes
  rwa [Dev.vecSrcOp, Dev.vecRun_illegal _ hhead hlegal] at hdoes

theorem vSetl_trapsIllegal : TrapsIllegal .vSetl (0, 0x3F) := by
  intro s t o hup hhead hlegal
  have hdoes := does_of_actUp hup (exec_vSetl t s)
  rwa [Dev.vecRun_illegal _ hhead hlegal] at hdoes

/-- Every vector command traps an encoding that no chapter assigns (05 R216). -/
theorem vecCommands_trapIllegal : ∀ e ∈ vecCommands ++ vecConfigs, TrapsIllegal e.1 e.2 := by
  simp only [vecCommands, List.forall_mem_append, List.forall_mem_map]
  refine ⟨⟨⟨⟨⟨⟨fun e he => ?_, fun e he => .of_vecSrcOp (exec_vecFloatOps e he)⟩, fun e he => .of_vecSrcOp (exec_vecCmpOps e he)⟩,
    fun e he => .of_vecSrcOp (exec_vecMaskOps e he)⟩, ?_⟩, fun e he s t o hup hhead hlegal => ?_⟩, ?_⟩
  · obtain ⟨f, hf⟩ := exec_vecIntOps e he
    exact .of_vecSrcOp hf
  · simp only [List.forall_mem_cons]
    exact ⟨.of_vecSrcOp fun _ _ => rfl, vRedrow_trapsIllegal, .of_vecSrcOp fun _ _ => rfl, .of_vecSrcOp fun _ _ => rfl,
      .of_vecSrcOp fun _ _ => rfl, .of_vecSrcOp fun _ _ => rfl, .of_vecSrcOp fun _ _ => rfl, .of_vecSrcOp fun _ _ => rfl,
      .of_vecScalar fun _ _ => rfl, .of_vecScalar fun _ _ => rfl, .of_vecScalar fun _ _ => rfl, .of_vecScalar fun _ _ => rfl,
      .of_vecScalar fun _ _ => rfl, .of_vecRun3 fun _ _ => rfl, .of_vecRun3 fun _ _ => rfl, .of_vecRun3 fun _ _ => rfl,
      .of_vecRun3 fun _ _ => rfl, .of_vecRun3 fun _ _ => rfl, .of_vecRun3 fun _ _ => rfl, .of_vecRun3 fun _ _ => rfl,
      .of_vecRun3 fun _ _ => rfl, .of_vecRun3 fun _ _ => rfl, .of_vecRun3 fun _ _ => rfl, .of_vecRun3 fun _ _ => rfl, nofun⟩
  · have hdoes := does_of_actUp hup (exec_vecSfOps e he t s)
    rwa [Dev.vecSf_illegal hhead hlegal] at hdoes
  · simp only [vecConfigs, List.forall_mem_cons]
    exact ⟨.of_vecConfig fun _ _ => rfl, .of_vecConfig fun _ _ => rfl, vSetl_trapsIllegal, nofun⟩

end Sys2Proof.Machine
end

section
/-! Scalar results and the configuration of the vector engine (07 R259, R260, R265, R266, R287). -/
namespace Sys2Proof.Machine

theorem VecReady.up {s : State} {t : Nat} {key : Nat × Nat} {o : VecOp} (h : VecReady s t key o) : Up s := h.1

theorem VecReady.vecRun {s : State} {t : Nat} {key : Nat × Nat} {o : VecOp} (h : VecReady s t key o)
    (f : Dev → VecOp → Vec → Dev) : s.dev.vecRun t key f = f (s.dev.vecTaken t) o (vecAt s t) := by
  obtain ⟨-, hhead, hlegal, hvl, -⟩ := h
  exact Dev.vecRun_legal f hhead hlegal (.inl hvl)

/-- A configuration instruction is carried out whatever VL is (07 R260). -/
theorem vecRun_config {s : State} {t op : Nat} {o : VecOp} (hlegal : vecLegal o.word = true)
    (hhead : s.dev.vecHead t (0, op) = some o) (hop : op = 0x3C ∨ op = 0x3E ∨ op = 0x3F) (f : Dev → VecOp → Vec → Dev) :
    s.dev.vecRun t (0, op) f = f (s.dev.vecTaken t) o (vecAt s t) :=
  Dev.vecRun_legal f hhead hlegal (.inr (by simpa using hop))

/-! ### Scalar results -/

section
variable {s : State} {t op n : Nat} {o : VecOp} {v' : Vec} {c : Instr} {f : VecOp → Vec → Vec × Nat × Bool}
  (hready : VecReady s t (0, op) o) (hexec : exec c s = actUp s fun d => d.vecScalar t op f)
include hready hexec

/-- A scalar result for the x registers is written to x[rd] (07 R287). -/
theorem does_vecScalar_x (hf : f o (vecAt s t) = (v', n, false)) :
    Does c s (((s.dev.vecTaken t).setVec t v').vecSetX t (rdOf o.word) (w64 n)) := by
  have hdoes := does_of_actUp hready.up hexec
  simpa only [Dev.vecScalar, hready.vecRun, hf, Bool.false_eq_true, if_false] using hdoes

/-- A scalar result for the f registers is written to f[rd] (07 R287). -/
theorem does_vecScalar_f (hf : f o (vecAt s t) = (v', n, true)) :
    Does c s (((s.dev.vecTaken t).setVec t v').vecSetF t (rdOf o.word) (vecAt s t).ew n) := by
  have hdoes := does_of_actUp hready.up hexec
  simpa only [Dev.vecScalar, hready.vecRun, hf, if_true] using hdoes

end

theorem exec_vSumx (t : Nat) (s : State) : exec (.vSumx t) s = execVSumx t s := rfl
theorem exec_vMaxx (t : Nat) (s : State) : exec (.vMaxx t) s = execVMaxx t s := rfl
theorem exec_vAny (t : Nat) (s : State) : exec (.vAny t) s = execVAny t s := rfl
theorem exec_vAll (t : Nat) (s : State) : exec (.vAll t) s = execVAll t s := rfl
theorem exec_vCnt (t : Nat) (s : State) : exec (.vCnt t) s = execVCnt t s := rfl

/-- A truth value is the scalar 1 or 0, as V.ANY and V.ALL write it. -/
theorem w64_b2n {b : Bool} {p : Prop} [Decidable p] (h : b = true ↔ p) : w64 (b2n b) = if p then 1 else 0 := by
  by_cases hp : p
  · rw [if_pos hp, h.2 hp]; rfl
  · rw [if_neg hp, Bool.eq_false_iff.2 fun hb => hp (h.1 hb)]; rfl

section
variable {s : State} {t : Nat} {o : VecOp} {v : Vec} (hv : v = vecAt s t)
include hv

theorem does_vAny (hready : VecReady s t (0, 0x3A) o) : Does (.vAny t) s (((s.dev.vecTaken t).setVec t v).vecSetX t (rdOf o.word)
    (if ∃ i, i < v.vl ∧ bit (v.mask (rs1Of o.word)) i = true then 1 else 0)) := by
  subst hv
  have hbits : (List.range (vecAt s t).vl).any (fun i => bit ((vecAt s t).mask (rs1Of o.word)) i) = true ↔ _ := List.any_eq_true
  simp only [List.mem_range] at hbits
  rw [← w64_b2n hbits]
  exact does_vecScalar_x hready (exec_vAny t s) rfl

theorem does_vAll (hready : VecReady s t (0, 0x3B) o) : Does (.vAll t) s (((s.dev.vecTaken t).setVec t v).vecSetX t (rdOf o.word)
    (if ∀ i, i < v.vl → bit (v.mask (rs1Of o.word)) i = true then 1 else 0)) := by
  subst hv
  have hbits : (List.range (vecAt s t).vl).all (fun i => bit ((vecAt s t).mask (rs1Of o.word)) i) = true ↔ _ := List.all_eq_true
  simp only [List.mem_range] at hbits
  rw [← w64_b2n hbits]
  exact does_vecScalar_x hready (exec_vAll t s) rfl

end

/-! ### Configuration -/

section
variable {s : State} {t op : Nat} {o : VecOp} {c : Instr} {f : VecOp → Vec → Option Vec} (hup : Up s) (hlegal : vecLegal o.word = true)
  (hop : op = 0x3C ∨ op = 0x3E ∨ op = 0x3F) (hexec : exec c s = actUp s fun d => d.vecConfig t op f) (hhead : s.dev.vecHead t (0, op) = some o)
include hup hlegal hop hexec hhead

/-- A configuration instruction sets the engine, whatever VL is (07 R260). -/
theorem does_vecConfig_sets {v' : Vec} (hf : f o (vecAt s t) = some v') : Does c s ((s.dev.vecTaken t).setVec t v') := by
  have hdoes := does_of_actUp hup hexec
  simpa only [Dev.vecConfig, vecRun_config hlegal hhead hop, hf] using hdoes

/-- A value that it does not take traps (07 R259, R266). -/
theorem does_vecConfig_traps (hf : f o (vecAt s t) = none) : Does c s ((s.dev.vecTaken t).vecIllegal t o.pc) := by
  have hdoes := does_of_actUp hup hexec
  simpa only [Dev.vecConfig, vecRun_config hlegal hhead hop, hf] using hdoes

end

/-- V.SETL refuses a reserved bit or code (07 R259). -/
theorem setlOf_reserved {o : VecOp} (v : Vec) (h : 32 ≤ o.rs2.toNat ∨ bits o.rs2.toNat 3 2 = 3 ∨ bits o.rs2.toNat 1 0 = 3) :
    setlOf o v = none :=
  if_pos (by simpa [or_assoc] using h)

/-- V.SETL sets width, rounding and flushing, and VL up to VLMAX of the width (07 R259). -/
theorem setlOf_assigned {o : VecOp} (v : Vec) {ew : Nat} (hbits : o.rs2.toNat < 32) (hround : bits o.rs2.toNat 3 2 ≠ 3)
    (hew : (bits o.rs2.toNat 1 0 = 0 ∧ ew = 16) ∨ (bits o.rs2.toNat 1 0 = 1 ∧ ew = 32) ∨ (bits o.rs2.toNat 1 0 = 2 ∧ ew = 64)) :
    setlOf o v = some { v with vl := min o.rs1.toNat (8192 / ew), ew := ew, round := bits o.rs2.toNat 3 2, flush := bit o.rs2.toNat 4 } := by
  have hcode : bits o.rs2.toNat 1 0 ≠ 3 ∧ 16 * 2 ^ bits o.rs2.toNat 1 0 = ew := by
    rcases hew with ⟨h, rfl⟩ | ⟨h, rfl⟩ | ⟨h, rfl⟩ <;> rw [h] <;> decide
  obtain ⟨hcode, rfl⟩ := hcode
  exact if_neg (by simp [Nat.not_le.2 hbits, hround, hcode])

section
variable {s : State} {t : Nat} {o : VecOp} (hup : Up s) (hlegal : vecLegal o.word = true) (hhead : s.dev.vecHead t (0, 0x3F) = some o)
include hup hlegal hhead

theorem does_vSetl_sets {v' : Vec} (hset : setlOf o (vecAt s t) = some v') :
    Does (.vSetl t) s (((s.dev.vecTaken t).setVec t v').vecSetX t (rdOf o.word) (w64 v'.vl)) := by
  have hdoes := does_of_actUp hup (exec_vSetl t s)
  simpa only [vecRun_config hlegal hhead (.inr (.inr rfl)), hset] using hdoes

theorem does_vSetl_traps (hset : setlOf o (vecAt s t) = none) : Does (.vSetl t) s ((s.dev.vecTaken t).vecIllegal t o.pc) := by
  have hdoes := does_of_actUp hup (exec_vSetl t s)
  simpa only [vecRun_config hlegal hhead (.inr (.inr rfl)), hset] using hdoes

end

theorem exec_vSeta (t : Nat) (s : State) : exec (.vSeta t) s = execVSeta t s := rfl
theorem exec_vSeed (t : Nat) (s : State) : exec (.vSeed t) s = execVSeed t s := rfl
theorem exec_vSfImageSlot (t : Nat) (s : State) : exec (.vSfImageSlot t) s = execVSfImageSlot t s := rfl

/-- A word of an image slot's function is V.SF of that slot (07 R289). -/
theorem does_vSfImageSlot {s : State} {t slot : Nat} {o : VecOp} (hup : Up s) (hslot : 16 ≤ slot)
    (hhead : s.dev.vecHead t (3, 0x40 + slot) = some o) : Does (.vSfImageSlot t) s (s.dev.vecSf t slot) := by
  obtain ⟨⟨rest, hqueue⟩, hkey⟩ := Dev.vecHead_queue hhead
  obtain ⟨hopc, hf7⟩ := queueOp_custom3 hkey
  have hdoes := does_of_actUp hup (exec_vSfImageSlot t s)
  have himage : (0x50 : Nat) ≤ 0x40 + slot := by omega
  simpa [hqueue, hopc, hf7, himage] using hdoes

/-- Settles O8, from what each scalar result and each configuration does and from what an unassigned encoding is. -/
theorem vectorScalarsAndConfiguration : Obligations.VectorScalarsAndConfiguration := by
  unfold Obligations.VectorScalarsAndConfiguration
  refine ⟨fun s t o v el hv hel => ?scalars, fun s t o v hup hv hlegal => ?configs,
    fun s t o hup hlegal => ⟨fun e he hhead => vecCommands_trapIllegal e he s t o hup hhead hlegal, fun slot hslot _ hhead => ?slots⟩⟩
  case scalars =>
    obtain rfl : el = fun i => elemOf v.ew (v.reg (rs1Of o.word)) i := funext hel
    subst hv
    refine ⟨fun hr hform => does_vecScalar_x hr (exec_vSumx t s) (by rw [hform]; rfl),
      fun hr hform => does_vecScalar_f hr (exec_vSumx t s) (by rw [hform]; rfl),
      fun hr hform => does_vecScalar_x hr (exec_vMaxx t s) (by rw [hform]; rfl),
      fun hr hform => does_vecScalar_f hr (exec_vMaxx t s) (by rw [hform]; rfl), does_vAny rfl, does_vAll rfl,
      fun hr => does_vecScalar_x hr (exec_vCnt t s) rfl⟩
  case configs =>
    subst hv
    refine ⟨fun ew hhead hbits hround hew => does_vSetl_sets hup hlegal hhead (setlOf_assigned _ hbits hround hew),
      fun hhead hres => does_vSetl_traps hup hlegal hhead (setlOf_reserved _ hres), fun hhead hin => ?inside, fun hhead hout => ?outside,
      fun hhead => does_vecConfig_sets hup hlegal (.inr (.inl rfl)) (exec_vSeed t s) hhead rfl⟩
    case inside =>
      exact does_vecConfig_sets hup hlegal (.inl rfl) (exec_vSeta t s) hhead (if_pos (decide_eq_true hin))
    case outside =>
      refine does_vecConfig_traps hup hlegal (.inl rfl) (exec_vSeta t s) hhead (if_neg fun h => ?_)
      have := of_decide_eq_true h
      omega
  case slots =>
    have hdoes := does_vSfImageSlot hup hslot hhead
    rwa [Dev.vecSf_illegal hhead hlegal] at hdoes

end Sys2Proof.Machine
end

section
/-! What the decoder makes of a word (05 R200 to R205, R211, R214, R215; 08 R306), and what the control core's next
word asks for. -/
namespace Sys2Proof.Machine

/-! ### The decoder by opcode -/

section
variable {c : RvCfg} {h : Hart} {w : W32}

theorem rvDecode_op (hopc : opc w = 0x33) :
    rvDecode c h w = retireX h w (aluOp c.core (f7Of w) (f3Of w) (h.getX (rs1Of w)) (h.getX (rs2Of w))) := by
  simp only [rvDecode, hopc]

theorem rvDecode_addi (hopc : opc w = 0x13) (hf3 : f3Of w = 0) :
    rvDecode c h w = .next (h.setX (rdOf w) (h.getX (rs1Of w) + immI w)).retire := by
  simp only [rvDecode, hopc, aluImm, hf3, retireX]

theorem rvDecode_lui (hopc : opc w = 0x37) : rvDecode c h w = .next (h.setX (rdOf w) (immU w)).retire := by
  simp only [rvDecode, hopc]

theorem rvDecode_auipc (hopc : opc w = 0x17) : rvDecode c h w = .next (h.setX (rdOf w) (h.pc + immU w)).retire := by
  simp only [rvDecode, hopc]

theorem rvDecode_jal (hopc : opc w = 0x6F) (hto : (h.pc + immJ w).toNat % 4 = 0) :
    rvDecode c h w = .next ((h.setX (rdOf w) (h.pc + 4)).jump (h.pc + immJ w)) := by
  have hjump : jumpTo (h.setX (rdOf w) (h.pc + 4)) (h.pc + immJ w) = .next ((h.setX (rdOf w) (h.pc + 4)).jump (h.pc + immJ w)) := if_pos hto
  simp only [rvDecode, hopc, hjump]

theorem rvDecode_beq (hopc : opc w = 0x63) (hf3 : f3Of w = 0) (hto : (h.pc + immB w).toNat % 4 = 0) :
    rvDecode c h w = .next (if h.getX (rs1Of w) = h.getX (rs2Of w) then h.jump (h.pc + immB w) else h.retire) := by
  by_cases heq : h.getX (rs1Of w) = h.getX (rs2Of w)
  · simp only [rvDecode, hopc, branchTaken, hf3, jumpTo, hto, if_true, heq, beq_self_eq_true]
  · simp only [rvDecode, hopc, branchTaken, hf3, heq, if_false, beq_eq_false_iff_ne.2 heq]

theorem rvDecode_fence (hopc : opc w = 0x0F) (hf3 : f3Of w = 0) : rvDecode c h w = .fence := by
  simp only [rvDecode, hopc, hf3, if_true]

theorem rvDecode_fenceI (hopc : opc w = 0x0F) (hf3 : f3Of w = 1) (hcore : c.core = true) : rvDecode c h w = .fenceI := by
  simp [rvDecode, hopc, hf3, hcore]

theorem rvDecode_load (hopc : opc w = 0x03) (hf3 : f3Of w ≠ 7) : rvDecode c h w =
    .load (rdOf w) false (2 ^ (f3Of w % 4)) (decide (f3Of w < 4)) (h.getX (rs1Of w) + immI w) := by
  simp only [rvDecode, hopc, hf3, if_false]

theorem rvDecode_store (hopc : opc w = 0x23) (hf3 : f3Of w < 4) : rvDecode c h w =
    .store (2 ^ f3Of w) (h.getX (rs1Of w) + immS w) ((h.getX (rs2Of w)).toNat % 2 ^ (8 * 2 ^ f3Of w)) := by
  simp only [rvDecode, hopc, Nat.not_le.2 hf3, if_false]

theorem rvDecode_loadF (hopc : opc w = 0x07) (hf3 : f3Of w = 2 ∨ f3Of w = 3) (hcore : c.core = true) : rvDecode c h w =
    .load (rdOf w) true (2 ^ f3Of w) false (h.getX (rs1Of w) + immI w) := by
  simp [rvDecode, hopc, hcore, hf3]

theorem rvDecode_storeF (hopc : opc w = 0x27) (hf3 : f3Of w = 2 ∨ f3Of w = 3) (hcore : c.core = true) : rvDecode c h w =
    .store (2 ^ f3Of w) (h.getX (rs1Of w) + immS w) ((h.getF (rs2Of w)).toNat % 2 ^ (8 * 2 ^ f3Of w)) := by
  simp [rvDecode, hopc, hcore, hf3]

theorem rvDecode_amo {op : AtomicOp} {wide : Bool} (hopc : opc w = 0x2F) (hf3 : f3Of w = if wide then 3 else 2)
    (hop : amoOp? (wbits w 31 27) = some op) :
    rvDecode c h w = .amo (rdOf w) op wide (h.getX (rs1Of w)) (h.getX (rs2Of w)) := by
  simp only [rvDecode, hopc, amoAct]
  rw [if_pos (by cases wide <;> simp [hf3])]
  split
  next hlr => rw [hlr] at hop; cases hop
  next hsc => rw [hsc] at hop; cases hop
  next => cases wide <;> simp [hop, hf3]

theorem rvDecode_lr {size : Nat} (hopc : opc w = 0x2F) (hsize : f3Of w = 2 ∧ size = 4 ∨ f3Of w = 3 ∧ size = 8)
    (hlr : wbits w 31 27 = 2) (hrs2 : rs2Of w = 0) : rvDecode c h w = .lr (rdOf w) size (h.getX (rs1Of w)) := by
  rcases hsize with ⟨hf3, rfl⟩ | ⟨hf3, rfl⟩ <;> simp [rvDecode, hopc, amoAct, hf3, hlr, hrs2]

theorem rvDecode_sc {size : Nat} (hopc : opc w = 0x2F) (hsize : f3Of w = 2 ∧ size = 4 ∨ f3Of w = 3 ∧ size = 8)
    (hsc : wbits w 31 27 = 3) : rvDecode c h w =
    .sc (rdOf w) size (h.getX (rs1Of w)) ((h.getX (rs2Of w)).toNat % 2 ^ (8 * size)) := by
  rcases hsize with ⟨hf3, rfl⟩ | ⟨hf3, rfl⟩ <;> simp [rvDecode, hopc, amoAct, hf3, hsc]

theorem rvDecode_ecall : rvDecode c h 0x00000073#32 = .ecall := rfl

theorem rvDecode_ebreak : rvDecode c h 0x00100073#32 = .ebreak := rfl

/-- The words of the custom opcode spaces (05 R215). -/
theorem rvDecode_custom (hopc : opc w = 0x0B ∨ opc w = 0x2B ∨ opc w = 0x5B ∨ opc w = 0x7B) : ∃ k, rvDecode c h w = .custom k := by
  rcases hopc with h | h | h | h <;> simp [rvDecode, h]

end

/-- Each register-register instruction of the table has its result (05 R200). -/
theorem aluOp_coreRegOps : ∀ e ∈ coreRegOps, ∀ a b : W64, aluOp true e.1 e.2.1 a b = some (e.2.2 a b) := by
  simp only [coreRegOps, List.forall_mem_cons]
  refine ⟨fun _ _ => rfl, fun _ _ => rfl, fun _ _ => rfl, fun _ _ => rfl, fun _ _ => rfl, fun _ _ => rfl, fun _ _ => rfl,
    fun _ _ => rfl, fun a b => ?slt, fun a b => ?sltu, fun _ _ => rfl, fun _ _ => rfl, fun _ _ => rfl, fun _ _ => rfl,
    fun _ _ => rfl, fun _ _ => rfl, fun _ _ => rfl, fun _ _ => rfl, nofun⟩
  case slt => exact congrArg some (by cases h : a.slt b <;> rfl)
  case sltu => exact congrArg some (by cases h : a.ult b <;> rfl)

/-- funct7 0x7F names no register-register instruction. -/
theorem aluOp_unassigned (zb : Bool) (f3 : Nat) (a b : W64) : aluOp zb 0x7F f3 a b = none := rfl

/-- A vector or matrix word is one of its three opcode spaces (05 R215). -/
theorem queueOp_opc {w : W32} (h : (queueOp w).isSome = true) : opc w = 0x0B ∨ opc w = 0x2B ∨ opc w = 0x7B := by
  dsimp only [queueOp] at h
  split at h
  next hopc => exact .inl hopc
  next hopc => exact .inr (.inl hopc)
  next hopc => exact .inr (.inr hopc)
  next => cases h

/-! ### The core's next word -/

/-- A word asks a control core with the register context `h` for `a`, whatever its CSRs read as. -/
def CoreDecodes (h : Hart) (w : W32) (a : RvAct) : Prop := ∀ c : RvCfg, c.core = true → rvDecode c h w = a

section
variable {s : State} {t : Nat} {w : W32} {d : Dev} {h : Hart} (hat : CoreAt s t w d h)
include hat

theorem CoreAt.up : Up s := hat.1

theorem CoreAt.launched : ∃ l, s.dev.coreLaunch t = some l := Option.isSome_iff_exists.1 hat.2.1

theorem CoreAt.hart : h = (d.tile t).core := hat.2.2.2

theorem CoreAt.coreNext_launch {l : Launch} (hl : s.dev.coreLaunch t = some l) :
    s.dev.coreNext t = (d, .act l w (rvDecode (d.coreCfg t l) h w)) := by
  obtain ⟨-, -, hfetch, rfl⟩ := hat
  simp only [Dev.coreNext, hl, hfetch]

theorem CoreAt.coreNext {a : RvAct} (hdec : CoreDecodes h w a) : ∃ l, s.dev.coreNext t = (d, .act l w a) := by
  obtain ⟨l, hl⟩ := hat.launched
  refine ⟨l, ?_⟩
  rw [hat.coreNext_launch hl, hdec _ rfl]

end

end Sys2Proof.Machine
end

section
/-! The control core's commands: what each does with the word that the core has fetched (05 R200 to R205, R213;
13 R511). -/
namespace Sys2Proof.Machine

theorem exec_controlCoreInstruction (i : TileIssue) (s : State) :
    exec (.controlCoreInstruction i) s = execControlCoreInstruction i s := rfl
theorem exec_ccLoad (t : Nat) (s : State) : exec (.ccLoad t) s = execCcLoad t s := rfl
theorem exec_ccStore (t : Nat) (s : State) : exec (.ccStore t) s = execCcStore t s := rfl
theorem exec_ccAmo (t : Nat) (s : State) : exec (.ccAmo t) s = execCcAmo t s := rfl
theorem exec_ccLrSc (t : Nat) (s : State) : exec (.ccLrSc t) s = execCcLrSc t s := rfl
theorem exec_ccFence (t : Nat) (s : State) : exec (.ccFence t) s = execCcFence t s := rfl
theorem exec_ccFenceI (t : Nat) (s : State) : exec (.ccFenceI t) s = execCcFenceI t s := rfl

/-- A parity error in a register file traps at the pc, whatever the core would do next (13 R511). -/
theorem does_coreParity {s : State} {t : Nat} (hup : Up s) (hl : (s.dev.coreLaunch t).isSome = true) :
    Does (.controlCoreInstruction ⟨t, true⟩) s (s.dev.coreParity t (s.dev.tile t).core.pc) := by
  simpa only [hl, Bool.and_self, if_true] using does_of_actUp hup (exec_controlCoreInstruction ⟨t, true⟩ s)

section
variable {s : State} {t : Nat} {w : W32} {d : Dev} {h : Hart} (hat : CoreAt s t w d h)
include hat

/-! ### Instructions without an access -/

section
variable (hstall : s.dev.coreStalls t w false = false)
include hstall

theorem CoreAt.does_next {h' : Hart} (hdec : CoreDecodes h w (.next h')) :
    Does (.controlCoreInstruction ⟨t, false⟩) s (d.setCore t h') := by
  obtain ⟨l, hnext⟩ := hat.coreNext hdec
  simpa only [Bool.false_and, Bool.false_eq_true, if_false, hnext, hstall] using
    does_of_actUp hat.up (exec_controlCoreInstruction ⟨t, false⟩ s)

theorem CoreAt.does_op (hopc : opc w = 0x33) {e : Nat × Nat × (W64 → W64 → W64)} (he : e ∈ coreRegOps)
    (hf7 : f7Of w = e.1) (hf3 : f3Of w = e.2.1) : Does (.controlCoreInstruction ⟨t, false⟩) s
    (d.setCore t (h.setX (rdOf w) (e.2.2 (h.getX (rs1Of w)) (h.getX (rs2Of w)))).retire) := by
  refine hat.does_next hstall fun c hc => ?_
  rw [rvDecode_op hopc, hc, hf7, hf3, aluOp_coreRegOps e he, retireX]

/-- A vector or matrix word enters its queue (05 R201). -/
theorem CoreAt.does_enqueue (hop : (queueOp w).isSome = true) : Does (.controlCoreInstruction ⟨t, false⟩) s (d.coreEnqueue t w) := by
  have hopc := queueOp_opc hop
  obtain ⟨l, hl⟩ := hat.launched
  have hnext := hat.coreNext_launch hl
  obtain ⟨k, hk⟩ := rvDecode_custom (c := d.coreCfg t l) (h := h) (w := w) (by omega)
  rw [hk] at hnext
  simpa only [Bool.false_and, Bool.false_eq_true, if_false, hnext, hstall, Option.isNone_eq_false_iff.2 hop] using
    does_of_actUp hat.up (exec_controlCoreInstruction ⟨t, false⟩ s)

end

/-! ### Accesses -/

section
variable (hstall : s.dev.coreStalls t w true = false)
include hstall

theorem CoreAt.does_fence (hdec : CoreDecodes h w .fence) : Does (.ccFence t) s (d.setCore t h.retire) := by
  obtain ⟨l, hnext⟩ := hat.coreNext hdec
  obtain rfl := hat.hart
  simpa only [hnext, hstall, Bool.false_eq_true, if_false] using does_of_actUp hat.up (exec_ccFence t s)

theorem CoreAt.does_fenceI (hdec : CoreDecodes h w .fenceI) :
    Does (.ccFenceI t) s (d.modTile t (fun x => { x with core := h.retire, icache := [] })) := by
  obtain ⟨l, hnext⟩ := hat.coreNext hdec
  obtain rfl := hat.hart
  have hdoes := does_of_actUp hat.up (exec_ccFenceI t s)
  simp only [hnext, hstall, Bool.false_eq_true, if_false] at hdoes
  exact hdoes

section
variable {rd size : Nat} {fp sg : Bool} {va : W64} (hdec : CoreDecodes h w (.load rd fp size sg va))
include hdec

theorem CoreAt.does_load {d2 : Dev} {bs : List Byte} {h' : Hart} (hload : d.tileLoad t va.toNat size size 1 = (d2, .ok bs))
    (hloaded : ∀ c : RvCfg, c.core = true → c.loaded (d2.tile t).core rd fp size sg (leNat bs) = h') :
    Does (.ccLoad t) s (d2.setCore t h') := by
  obtain ⟨l, hnext⟩ := hat.coreNext hdec
  have hdoes := does_of_actUp hat.up (exec_ccLoad t s)
  simpa only [hnext, hstall, hload, hloaded (d2.coreCfg t l) rfl, Bool.false_eq_true, if_false] using hdoes

theorem CoreAt.does_load_fails {d2 : Dev} {e : TFault} (hload : d.tileLoad t va.toNat size size 1 = (d2, .error e)) :
    Does (.ccLoad t) s (d2.coreFault t (s.dev.tile t).core.pc e va.toNat) := by
  obtain ⟨l, hnext⟩ := hat.coreNext hdec
  simpa only [hnext, hstall, hload, Bool.false_eq_true, if_false] using does_of_actUp hat.up (exec_ccLoad t s)

end

section
variable {size val : Nat} {va : W64} (hdec : CoreDecodes h w (.store size va val))
include hdec

theorem CoreAt.does_store {d2 : Dev} (hstore : d.tileStore t va.toNat size (leBytes size val) = (d2, .ok ())) :
    Does (.ccStore t) s (d2.setCore t (d2.tile t).core.retire) := by
  obtain ⟨l, hnext⟩ := hat.coreNext hdec
  simpa only [hnext, hstall, hstore, Bool.false_eq_true, if_false] using does_of_actUp hat.up (exec_ccStore t s)

theorem CoreAt.does_store_fails {d2 : Dev} {e : TFault} (hstore : d.tileStore t va.toNat size (leBytes size val) = (d2, .error e)) :
    Does (.ccStore t) s (d2.coreFault t (s.dev.tile t).core.pc e va.toNat) := by
  obtain ⟨l, hnext⟩ := hat.coreNext hdec
  simpa only [hnext, hstall, hstore, Bool.false_eq_true, if_false] using does_of_actUp hat.up (exec_ccStore t s)

end

section
variable {rd : Nat} {op : AtomicOp} {wide : Bool} {va x : W64} {d2 : Dev} (hdec : CoreDecodes h w (.amo rd op wide va x))
include hdec

theorem CoreAt.does_amo {old : Nat}
    (hamo : d.tileAtomic t va.toNat (if wide then 8 else 4) (fun old => atomicNew op wide old x.toNat 0) = (d2, .ok old)) :
    Does (.ccAmo t) s (d2.setCore t ((d2.tile t).core.setX rd (amoOld wide old)).retire) := by
  obtain ⟨l, hnext⟩ := hat.coreNext hdec
  simpa only [hnext, hstall, hamo, Bool.false_eq_true, if_false] using does_of_actUp hat.up (exec_ccAmo t s)

theorem CoreAt.does_amo_fails {e : TFault}
    (hamo : d.tileAtomic t va.toNat (if wide then 8 else 4) (fun old => atomicNew op wide old x.toNat 0) = (d2, .fail e)) :
    Does (.ccAmo t) s (d2.coreFault t (s.dev.tile t).core.pc e va.toNat) := by
  obtain ⟨l, hnext⟩ := hat.coreNext hdec
  simpa only [hnext, hstall, hamo, Bool.false_eq_true, if_false] using does_of_actUp hat.up (exec_ccAmo t s)

theorem CoreAt.does_amo_waits
    (hamo : d.tileAtomic t va.toNat (if wide then 8 else 4) (fun old => atomicNew op wide old x.toNat 0) = (d2, .wait)) :
    Does (.ccAmo t) s s.dev := by
  obtain ⟨l, hnext⟩ := hat.coreNext hdec
  simpa only [hnext, hstall, hamo, Bool.false_eq_true, if_false] using does_of_actUp hat.up (exec_ccAmo t s)

end

section
variable {rd size val : Nat} {va : W64} {d2 : Dev} {e : TFault}

theorem CoreAt.does_lr (hdec : CoreDecodes h w (.lr rd size va)) (hlr : d.coreLr t rd size va.toNat = (d2, .ok ())) :
    Does (.ccLrSc t) s d2 := by
  obtain ⟨l, hnext⟩ := hat.coreNext hdec
  simpa only [hnext, hstall, hlr, Bool.false_eq_true, if_false] using does_of_actUp hat.up (exec_ccLrSc t s)

theorem CoreAt.does_lr_fails (hdec : CoreDecodes h w (.lr rd size va)) (hlr : d.coreLr t rd size va.toNat = (d2, .error e)) :
    Does (.ccLrSc t) s (d2.coreFault t (s.dev.tile t).core.pc e va.toNat) := by
  obtain ⟨l, hnext⟩ := hat.coreNext hdec
  simpa only [hnext, hstall, hlr, Bool.false_eq_true, if_false] using does_of_actUp hat.up (exec_ccLrSc t s)

theorem CoreAt.does_sc (hdec : CoreDecodes h w (.sc rd size va val)) (hsc : d.coreSc t rd size va.toNat val = (d2, .ok ())) :
    Does (.ccLrSc t) s d2 := by
  obtain ⟨l, hnext⟩ := hat.coreNext hdec
  simpa only [hnext, hstall, hsc, Bool.false_eq_true, if_false] using does_of_actUp hat.up (exec_ccLrSc t s)

theorem CoreAt.does_sc_fails (hdec : CoreDecodes h w (.sc rd size va val)) (hsc : d.coreSc t rd size va.toNat val = (d2, .error e)) :
    Does (.ccLrSc t) s (d2.coreFault t (s.dev.tile t).core.pc e va.toNat) := by
  obtain ⟨l, hnext⟩ := hat.coreNext hdec
  simpa only [hnext, hstall, hsc, Bool.false_eq_true, if_false] using does_of_actUp hat.up (exec_ccLrSc t s)

end

end

end

/-! ### LR and SC on own local memory (05 R203) -/

/-- The value of x[rd] by the bytes read (05 R203). -/
theorem amoOld_size (size v : Nat) : amoOld (size == 8) v = if size = 8 then w64 v else sext 32 v := by
  by_cases h : size = 8
  · subst h; rfl
  · rw [if_neg h, beq_eq_false_iff_ne.2 h]; rfl

section
variable {d : Dev} {t size va : Nat} (rd val : Nat)

theorem Dev.coreLr_outside {e : TFault} (hva : resvAddr t va size = .error e) : d.coreLr t rd size va = (d, .error e) := by
  simp only [Dev.coreLr, hva]

theorem Dev.coreSc_outside {e : TFault} (hva : resvAddr t va size = .error e) : d.coreSc t rd size va val = (d, .error e) := by
  simp only [Dev.coreSc, hva]

variable {pa : Nat} (hva : resvAddr t va size = .ok pa)
include hva

/-- LR reads and holds a reservation of its address and size. -/
theorem Dev.coreLr_reads {bs : List Byte} (hread : d.readPa pa size = .ok bs) : d.coreLr t rd size va =
    (d.setCore t { ((d.tile t).core.setX rd (if size = 8 then w64 (leNat bs) else sext 32 (leNat bs))).retire with
      resv := some (pa, size) }, .ok ()) := by
  simp only [Dev.coreLr, hva, hread, amoOld_size]

theorem Dev.coreLr_fails {e : AccErr} (hread : d.readPa pa size = .error e) :
    d.coreLr t rd size va = (d.tileErr t e, .error (accTFault e)) := by
  simp only [Dev.coreLr, hva, hread]

/-- SC with its reservation writes, gives 0 and ends it. -/
theorem Dev.coreSc_writes {d2 : Dev} (hresv : (d.tile t).core.resv = some (pa, size))
    (hwrite : d.writePa pa (leBytes size val) = .ok d2) : d.coreSc t rd size va val =
    (d2.setCore t { ((d2.tile t).core.setX rd 0).retire with resv := none }, .ok ()) := by
  simp only [Dev.coreSc, hva, hresv, hwrite, decide_true, if_true]

theorem Dev.coreSc_fails {e : AccErr} (hresv : (d.tile t).core.resv = some (pa, size))
    (hwrite : d.writePa pa (leBytes size val) = .error e) :
    d.coreSc t rd size va val = (d.tileErr t e, .error (accTFault e)) := by
  simp only [Dev.coreSc, hva, hresv, hwrite, decide_true, if_true]

/-- SC without its reservation writes nothing, gives 1 and ends any other. -/
theorem Dev.coreSc_lost (hresv : (d.tile t).core.resv ≠ some (pa, size)) : d.coreSc t rd size va val =
    (d.setCore t { ((d.tile t).core.setX rd 1).retire with resv := none }, .ok ()) := by
  simp only [Dev.coreSc, hva, hresv, decide_false, Bool.false_eq_true, if_false]

end

end Sys2Proof.Machine
end

section
/-! The obligation on the control core's instructions. -/
namespace Sys2Proof.Machine

/-- A load for the x registers is extended as it asks for (05 R200). -/
theorem RvCfg.loaded_x (c : RvCfg) (h : Hart) (rd size : Nat) {sg : Bool} {p : Prop} [Decidable p] (hsg : sg = decide p) (v : Nat) :
    c.loaded h rd false size sg v = (h.setX rd (if p then sext (8 * size) v else w64 v)).retire := by
  subst hsg
  simp only [RvCfg.loaded, Bool.false_eq_true, if_false, decide_eq_true_eq]

/-- A load for the f registers of the core is written whole or boxed (05 R200). -/
theorem RvCfg.loaded_f {c : RvCfg} (hc : c.core = true) (h : Hart) (rd : Nat) {size : Nat} (sg : Bool) (hsize : size = 4 ∨ size = 8) (v : Nat) :
    c.loaded h rd true size sg v = (h.setF rd (if size = 8 then w64 v else boxS v)).retire := by
  rcases hsize with rfl | rfl <;> simp [RvCfg.loaded, RvCfg.setS, hc]

/-- Settles O28, from what the decoder makes of each word and what each command does with it. -/
theorem controlCoreInstructions : Obligations.ControlCoreInstructions := by
  unfold Obligations.ControlCoreInstructions
  refine ⟨fun s t w d h hat => ⟨fun hstall => ?plain, fun hstall hopc => ?fences⟩, fun s t w d h hat hstall =>
    ⟨?loads, ?floats, ?stores, ?amos, ?outside, ?reserved⟩, fun s t hup hl => does_coreParity hup hl⟩
  case plain =>
    exact ⟨fun e he hopc hf7 hf3 => hat.does_op hstall hopc he hf7 hf3,
      fun hopc hf3 => hat.does_next hstall fun _ _ => rvDecode_addi hopc hf3,
      fun hopc => hat.does_next hstall fun _ _ => rvDecode_lui hopc,
      fun hopc => hat.does_next hstall fun _ _ => rvDecode_auipc hopc,
      fun hopc hto => hat.does_next hstall fun _ _ => rvDecode_jal hopc hto,
      fun hopc hf3 hto => hat.does_next hstall fun _ _ => rvDecode_beq hopc hf3 hto, hat.does_enqueue hstall⟩
  case fences =>
    exact ⟨fun hf3 => hat.does_fence hstall fun _ _ => rvDecode_fence hopc hf3,
      fun hf3 => hat.does_fenceI hstall fun _ hc => rvDecode_fenceI hopc hf3 hc⟩
  case loads =>
    rintro _ _ hopc hf3 rfl rfl
    have hdec : CoreDecodes h w _ := fun _ _ => rvDecode_load hopc hf3
    exact ⟨fun d2 bs hload => hat.does_load hstall hdec hload fun c _ => c.loaded_x _ _ _ rfl _,
      fun d2 e hload => hat.does_load_fails hstall hdec hload⟩
  case floats =>
    rintro size _ hopc hsize rfl
    have hf3 : (f3Of w = 2 ∨ f3Of w = 3) ∧ (size = 4 ∨ size = 8) ∧ 2 ^ f3Of w = size := by
      rcases hsize with ⟨h, rfl⟩ | ⟨h, rfl⟩ <;> simp [h]
    obtain ⟨hf3, hsize, rfl⟩ := hf3
    have hdec : CoreDecodes h w _ := fun _ hc => rvDecode_loadF hopc hf3 hc
    exact ⟨fun d2 bs hload => hat.does_load hstall hdec hload fun c hc => RvCfg.loaded_f hc _ _ _ hsize _,
      fun d2 e hload => hat.does_load_fails hstall hdec hload⟩
  case stores =>
    rintro _ _ x hword rfl rfl
    have hdec : CoreDecodes h w (.store (2 ^ f3Of w) (h.getX (rs1Of w) + immS w) (x.toNat % 2 ^ (8 * 2 ^ f3Of w))) := by
      intro c hc
      rcases hword with ⟨hopc, hf3, rfl⟩ | ⟨hopc, hf3, rfl⟩
      · exact rvDecode_store hopc hf3
      · exact rvDecode_storeF hopc hf3 hc
    exact ⟨fun d2 hstore => hat.does_store hstall hdec hstore, fun d2 e hstore => hat.does_store_fails hstall hdec hstore⟩
  case amos =>
    rintro wide op _ hopc hf3 hop rfl
    have hdec : CoreDecodes h w _ := fun _ _ => rvDecode_amo hopc hf3 hop
    exact ⟨fun d2 old hamo => hat.does_amo hstall hdec hamo, fun d2 e hamo => hat.does_amo_fails hstall hdec hamo,
      fun d2 hamo => hat.does_amo_waits hstall hdec hamo⟩
  case outside =>
    rintro size e hopc hsize (⟨hlr, hrs2⟩ | hsc) hva
    · exact hat.does_lr_fails hstall (fun _ _ => rvDecode_lr hopc hsize hlr hrs2) (Dev.coreLr_outside _ hva)
    · exact hat.does_sc_fails hstall (fun _ _ => rvDecode_sc hopc hsize hsc) (Dev.coreSc_outside _ _ hva)
  case reserved =>
    intro size pa hopc hsize hva
    obtain rfl : h = (d.tile t).core := hat.hart
    refine ⟨fun hlr hrs2 bs hread => ?reads, fun hlr hrs2 e hread => ?lrFails, fun hsc hresv e hwrite => ?scFails,
      fun hsc hresv d2 hwrite => ?writes, fun hsc hresv => ?lost⟩
    case reads => exact hat.does_lr hstall (fun _ _ => rvDecode_lr hopc hsize hlr hrs2) (Dev.coreLr_reads _ hva hread)
    case lrFails => exact hat.does_lr_fails hstall (fun _ _ => rvDecode_lr hopc hsize hlr hrs2) (Dev.coreLr_fails _ hva hread)
    case scFails => exact hat.does_sc_fails hstall (fun _ _ => rvDecode_sc hopc hsize hsc) (Dev.coreSc_fails _ _ hva hresv hwrite)
    case writes => exact hat.does_sc hstall (fun _ _ => rvDecode_sc hopc hsize hsc) (Dev.coreSc_writes _ _ hva hresv hwrite)
    case lost => exact hat.does_sc hstall (fun _ _ => rvDecode_sc hopc hsize hsc) (Dev.coreSc_lost _ _ hva hresv)

end Sys2Proof.Machine
end

section
/-! The end of a program and traps (05 R211, R213, R214, R216; 08 R332, R334). -/
namespace Sys2Proof.Machine

theorem exec_ecall (t : Nat) (s : State) : exec (.ecall t) s = execEcall t s := rfl
theorem exec_ebreak (t : Nat) (s : State) : exec (.ebreak t) s = execEbreak t s := rfl

/-! ### Which of the two runs on a tile -/

/-- A tile whose control core issues runs no gangs (08 R310). -/
theorem Dev.coreLaunch_runsGangs {d : Dev} {t : Nat} {l : Launch} (h : d.coreLaunch t = some l) : d.runsGangs t = false := by
  unfold Dev.coreLaunch at h
  unfold Dev.runsGangs
  split at h
  next => cases h
  next l hl =>
    split at h
    next hrun =>
      simp only [Bool.and_eq_true, Bool.not_eq_true'] at hrun
      simp only [hl, hrun]
    next => cases h

/-- A tile whose gang processor issues runs gangs (08 R310). -/
theorem Dev.gangNext_runsGangs {d d' : Dev} {t : Nat} {i : Issue} (h : d.gangNext t = (d', .issue i)) : d.runsGangs t = true := by
  unfold Dev.gangNext at h
  split at h
  next l g hl _ =>
    unfold Dev.gangLaunch at hl
    unfold Dev.runsGangs
    split at hl
    next => cases hl
    next l' hl' =>
      split at hl
      next hrun =>
        simp only [Bool.and_eq_true] at hrun
        simp only [hl', hrun]
      next => cases hl
  next => cases h

/-! ### On the control core -/

section
variable {s : State} {t : Nat} {w : W32} {d : Dev} {h : Hart} (hat : CoreAt s t w d h)
include hat

theorem CoreAt.noGangs : s.dev.runsGangs t = false := by
  obtain ⟨l, hl⟩ := hat.launched
  exact Dev.coreLaunch_runsGangs hl

theorem CoreAt.does_ecall (hstall : s.dev.coreStalls t w false = false) (hw : w = 0x00000073#32) : Does (.ecall t) s
    (d.modTile t (fun x => { x with core := { x.core with instret := x.core.instret + 1 }, ecall := true })) := by
  obtain ⟨l, hnext⟩ := hat.coreNext fun c _ => hw ▸ rvDecode_ecall
  simpa only [hat.noGangs, Dev.coreEcall, hnext, hstall, Bool.false_eq_true, if_false] using
    does_of_actUp hat.up (exec_ecall t s)

theorem CoreAt.does_ebreak (hstall : s.dev.coreStalls t w false = false) (hw : w = 0x00100073#32) : Does (.ebreak t) s
    (if s.dev.tileDebug then d.setTileState t 5 else d.coreTrap t 3 0x12 (s.dev.tile t).core.pc 0) := by
  obtain ⟨l, hnext⟩ := hat.coreNext fun c _ => hw ▸ rvDecode_ebreak
  simpa only [hat.noGangs, Dev.coreEbreak, hnext, hstall, Bool.false_eq_true, if_false] using
    does_of_actUp hat.up (exec_ebreak t s)

/-- A word that decodes to no instruction traps, whatever the queues hold (05 R216). -/
theorem CoreAt.does_illegal {l : Launch} (hl : s.dev.coreLaunch t = some l) (hdec : rvDecode (d.coreCfg t l) h w = .illegal) :
    Does (.controlCoreInstruction ⟨t, false⟩) s (d.coreIllegal t (s.dev.tile t).core.pc) := by
  have hnext := hat.coreNext_launch hl
  rw [hdec] at hnext
  simpa only [Bool.false_and, Bool.false_eq_true, if_false, hnext] using
    does_of_actUp hat.up (exec_controlCoreInstruction ⟨t, false⟩ s)

/-- A word of a custom space that no chapter assigns traps where it is found, or waits to be (05 R216). -/
theorem CoreAt.does_unassigned (hopc : opc w = 0x0B ∨ opc w = 0x2B ∨ opc w = 0x5B ∨ opc w = 0x7B) (hop : queueOp w = none) :
    Does (.controlCoreInstruction ⟨t, false⟩) s ((d.coreUnassigned t w (s.dev.tile t).core.pc).getD s.dev) := by
  obtain ⟨l, hl⟩ := hat.launched
  have hnext := hat.coreNext_launch hl
  obtain ⟨k, hk⟩ := rvDecode_custom (c := d.coreCfg t l) (h := h) hopc
  rw [hk] at hnext
  simpa only [Bool.false_and, Bool.false_eq_true, if_false, hnext, hop, Option.isNone_none, if_true] using
    does_of_actUp hat.up (exec_controlCoreInstruction ⟨t, false⟩ s)

/-- One of a gang's opcode or the matrix unit's traps at once (05 R216). -/
theorem CoreAt.does_unassigned_core (hopc : opc w = 0x2B ∨ opc w = 0x5B) (hop : queueOp w = none) :
    Does (.controlCoreInstruction ⟨t, false⟩) s (d.coreIllegal t (s.dev.tile t).core.pc) := by
  have hcore : ¬(decide (opc w = 0x0B) || decide (opc w = 0x7B)) = true := by simp; omega
  have hdoes := hat.does_unassigned (by omega) hop
  rwa [Dev.coreUnassigned, if_neg hcore] at hdoes

/-- One of the vector engine's opcodes traps once the vector queue is empty (07 R304; log entry 237). -/
theorem CoreAt.does_unassigned_vector (hopc : opc w = 0x0B ∨ opc w = 0x7B) (hop : queueOp w = none) :
    Does (.controlCoreInstruction ⟨t, false⟩) s
      (if (d.tile t).vec.queue = [] then d.vecIllegal t (s.dev.tile t).core.pc else s.dev) := by
  have hvec : (decide (opc w = 0x0B) || decide (opc w = 0x7B)) = true := by simpa using hopc
  have hdoes := hat.does_unassigned (by omega) hop
  rw [Dev.coreUnassigned, if_pos hvec] at hdoes
  simpa only [List.isEmpty_iff, apply_ite (Option.getD · s.dev), Option.getD_some, Option.getD_none] using hdoes

end

/-! ### A trap -/

/-- A trap fails the launch that runs on the tile with W3 the pc, or the address of the failed access, logs it
and kills the context (05 R213). -/
theorem Dev.coreTrap_launch {d : Dev} {t : Nat} {l : Launch} (h : d.launchOn t = some l) (row status va : Nat) (pc : W64) :
    d.coreTrap t row status pc va = ((d.draw.note 0x6101 (d.locTile t) [(1, Config.causeCode 0x6101 row), (8, pc.toNat),
      (8, if row = 1 ∨ row = 3 then (Config.freeValue d.fresh).toNat else va), (2, d.locTile t)]).failLaunch
      l.ring l.index status (if row = 1 ∨ row = 3 then pc.toNat else va)).killCtx l.ctx 0x6101 := by
  have hdraw : d.draw.launchOn t = some l := h
  simp only [Dev.coreTrap, Dev.tileFault, hdraw, Bool.or_eq_true, decide_eq_true_eq]
  rfl

/-! ### In a group -/

section
variable {s : State} {t : Nat} {i : Issue} {d : Dev} (hat : GroupAt s t i d)
include hat

theorem GroupAt.does_ecall (hw : i.word = 0x00000073#32) : Does (.ecall t) s ((d.gangExit t i).gangSettle t i.g.idx) := by
  obtain ⟨hup, d', hnext, rfl⟩ := hat
  have hact : d'.threadAct t i i.low = .ecall := by rw [Dev.threadAct, hw, rvDecode_ecall]
  simpa only [Dev.gangNext_runsGangs hnext, if_true, hnext, hact] using does_of_actUp hup (exec_ecall t s)

theorem GroupAt.does_ebreak (hw : i.word = 0x00100073#32) : Does (.ebreak t) s (if d.tileDebug then
    d.modGang t i.g.idx (fun g => { g with threads := g.threads.zipIdx.map (fun e =>
      if i.group.contains e.2 then { e.1 with state := 4 } else e.1) }) else d.gangTrap t 4 i.pc i.low i.g.idx) := by
  obtain ⟨hup, d', hnext, rfl⟩ := hat
  have hact : d'.threadAct t i i.low = .ebreak := by rw [Dev.threadAct, hw, rvDecode_ebreak]
  simpa only [Dev.gangNext_runsGangs hnext, if_true, hnext, hact] using does_of_actUp hup (exec_ebreak t s)

end

/-- Settles O29: what ends a program on the core, what traps there, what a trap does, and what ends a group. -/
theorem programEndsAndTraps : Obligations.ProgramEndsAndTraps := by
  unfold Obligations.ProgramEndsAndTraps
  refine ⟨fun s t w d h hat => ⟨fun hstall => ⟨hat.does_ecall hstall, fun hw hdebug => ?halts, fun hw hdebug => ?breaks⟩,
      fun l hl hdec => hat.does_illegal hl hdec, ?atOnce, fun hopc hop => ⟨fun hq => ?empty, fun hq => ?waits⟩⟩,
    fun d t row status va pc l hl => ⟨fun h1 h3 => ?access, fun hrow => ?atPc⟩,
    fun s t i d hat => ⟨hat.does_ecall, fun hw hdebug => ?gangHalts, fun hw hdebug => ?gangBreaks⟩⟩
  case halts => simpa only [hdebug, if_true] using hat.does_ebreak hstall hw
  case breaks => simpa only [hdebug, Bool.false_eq_true, if_false] using hat.does_ebreak hstall hw
  case atOnce =>
    rintro (hopc | ⟨hopc, hop⟩ | ⟨hopc, hf7⟩)
    · have hop : queueOp w = none := Option.not_isSome_iff_eq_none.1 fun hsome => by
        have := queueOp_opc hsome
        omega
      exact hat.does_unassigned_core (.inr hopc) hop
    · exact hat.does_unassigned_core (.inl hopc) hop
    · obtain ⟨l, hl⟩ := hat.launched
      exact hat.does_illegal hl (by rw [rvDecode_op hopc, hf7, aluOp_unassigned, retireX])
  case empty => simpa only [if_pos hq] using hat.does_unassigned_vector hopc hop
  case waits => simpa only [if_neg hq] using hat.does_unassigned_vector hopc hop
  case access => rw [Dev.coreTrap_launch hl, if_neg (by omega), if_neg (by omega)]
  case atPc => rw [Dev.coreTrap_launch hl, if_pos hrow, if_pos hrow]
  case gangHalts => simpa only [hdebug, if_true] using hat.does_ebreak hw
  case gangBreaks => simpa only [hdebug, Bool.false_eq_true, if_false] using hat.does_ebreak hw

end Sys2Proof.Machine
end

section
/-! X.MMA, X.WAIT and X.STAT, from the control core's matrix queue and from a group's uniform path (06 R223, R226 to
R228; 08 R325). -/
namespace Sys2Proof.Machine

theorem exec_xMma (t : Nat) (s : State) : exec (.xMma t) s = execXMma t s := rfl
theorem exec_xWait (t : Nat) (s : State) : exec (.xWait t) s = execXWait t s := rfl
theorem exec_xStatCounts (t : Nat) (s : State) : exec (.xStatCounts t) s = actUp s fun d => d.xStat t 0 := rfl
theorem exec_xStatProgress (t : Nat) (s : State) : exec (.xStatProgress t) s = actUp s fun d => d.xStat t 1 := rfl
theorem exec_xStatState (t : Nat) (s : State) : exec (.xStatState t) s = actUp s fun d => d.xStat t 2 := rfl

/-! ### Tokens -/

theorem Matrix.tokenOk_eq_true {m : Matrix} {tok : W64} :
    m.tokenOk tok = true ↔ tok.toNat < 2 ^ 32 ∧ tok.toNat ≠ 0 ∧ tok.toNat ≤ m.seq := by
  simp only [Matrix.tokenOk, decide_eq_true_eq]

/-- The three properties of a token that cannot be (06 R228). -/
theorem Matrix.tokenOk_eq_false {m : Matrix} {tok : W64} :
    m.tokenOk tok = false ↔ tok.toNat / 2 ^ 32 ≠ 0 ∨ tok.toNat = 0 ∨ m.seq < tok.toNat := by
  rw [← Bool.not_eq_true, Matrix.tokenOk_eq_true]
  omega

section
variable {m : Matrix} {n : Nat}

/-- Of a job that is not among the 8 latest X.WAIT answers 0 (06 R226). -/
theorem Matrix.waitValue_old (hold : n + 8 ≤ m.seq) : m.waitValue n = some 0 := by
  simp only [Matrix.waitValue, Matrix.recent, Nat.not_lt.2 hold, decide_false, Bool.false_eq_true, if_false]

/-- Of one that is not X.STAT answers RETIRED, or 0 (06 R227). -/
theorem Matrix.statValue_old (hold : n + 8 ≤ m.seq) (sel : Nat) : m.statValue sel n = if sel = 2 then 3 else 0 := by
  simp only [Matrix.statValue, Matrix.recent, Nat.not_lt.2 hold, decide_false, Bool.false_eq_true, if_false]

variable {j : Job} (hrecent : m.seq < n + 8) (hj : m.job? n = some j)
include hrecent hj

theorem Matrix.waitValue_complete (hstate : j.state = 2) : m.waitValue n = some (j.stop - j.start) := by
  simp only [Matrix.waitValue, Matrix.recent, hrecent, decide_true, if_true, hj, hstate]

theorem Matrix.waitValue_pending (hstate : j.state ≠ 2) : m.waitValue n = none := by
  simp only [Matrix.waitValue, Matrix.recent, hrecent, decide_true, if_true, hj, hstate, if_false]

theorem Matrix.statValue_counts : m.statValue 0 n = j.sat * 2 ^ 32 + j.flushed := by
  simp only [Matrix.statValue, Matrix.recent, hrecent, decide_true, if_true, hj]

theorem Matrix.statValue_blocks : m.statValue 1 n = j.blocks := by
  simp only [Matrix.statValue, Matrix.recent, hrecent, decide_true, if_true, hj]

theorem Matrix.statValue_state : m.statValue 2 n = j.state := by
  simp only [Matrix.statValue, Matrix.recent, hrecent, decide_true, if_true, hj]

end

/-- Reading the progress of a job that is not running writes nothing (06 R227). -/
theorem Dev.jobProgress_not_running {d : Dev} {t n : Nat} (h : ∀ j, (d.tile t).mat.job? n = some j → j.state ≠ 1) :
    d.jobProgress t n = (d, true) := by
  unfold Dev.jobProgress
  split
  next => rfl
  next j hj => simp only [h j hj, decide_false, Bool.false_and, Bool.false_eq_true, if_false]

theorem Dev.jobProgress_still {d : Dev} {t n : Nat} {j : Job} (hj : (d.tile t).mat.job? n = some j) (h : j.state ≠ 1) :
    d.jobProgress t n = (d, true) :=
  Dev.jobProgress_not_running fun k hk => by
    obtain rfl : j = k := Option.some.inj (hj.symm.trans hk)
    exact h

/-- What X.STAT does before it reads its value: a state is read as it stands, and for the counts and the blocks
written the job's progress is settled first; false where a block could not be written. -/
def Dev.statRead (d : Dev) (t sel seq : Nat) : Dev × Bool := if sel = 2 then (d, true) else d.jobProgress t seq

theorem Dev.statRead_state (d : Dev) (t seq : Nat) : d.statRead t 2 seq = (d, true) := rfl

/-! ### On the control core -/

section
variable {d : Dev} {t : Nat} {o : MatOp}

section
variable (hhead : d.matHead t 0 = some o) {d1 : Dev}
include hhead

theorem Dev.coreMma_wait (h : d.mma t o.rs1 = (d1, .wait)) : d.coreMma t = d := by
  simp only [Dev.coreMma, hhead, h]

theorem Dev.coreMma_token {n : Nat} (h : d.mma t o.rs1 = (d1, .token n)) : d.coreMma t = d1.matRetire t o n := by
  simp only [Dev.coreMma, hhead, h]

theorem Dev.coreMma_ended (h : d.mma t o.rs1 = (d1, .ended)) : d.coreMma t = d1 := by
  simp only [Dev.coreMma, hhead, h]

theorem Dev.coreMma_fault {e : TFault} {va : Nat} (h : d.mma t o.rs1 = (d1, .fault e va)) :
    d.coreMma t = d1.coreFault t o.pc e va := by
  simp only [Dev.coreMma, hhead, h]

end

section
variable (hhead : d.matHead t 1 = some o)
include hhead

theorem Dev.coreWait_illegal (htok : (d.tile t).mat.tokenOk o.rs1 = false) : d.coreWait t = d.coreIllegal t o.pc := by
  simp only [Dev.coreWait, hhead, htok, Bool.not_false, if_true]

theorem Dev.coreWait_waits (htok : (d.tile t).mat.tokenOk o.rs1 = true) (h : (d.tile t).mat.waitValue o.rs1.toNat = none) :
    d.coreWait t = d := by
  simp only [Dev.coreWait, hhead, htok, Bool.not_true, Bool.false_eq_true, if_false, h]

theorem Dev.coreWait_retires (htok : (d.tile t).mat.tokenOk o.rs1 = true) {v : Nat}
    (h : (d.tile t).mat.waitValue o.rs1.toNat = some v) : d.coreWait t = d.matRetire t o v := by
  simp only [Dev.coreWait, hhead, htok, Bool.not_true, Bool.false_eq_true, if_false, h]

end

section
variable {sel : Nat} (hhead : d.matHead t (2 + sel) = some o)
include hhead

theorem Dev.coreStat_illegal (htok : (d.tile t).mat.tokenOk o.rs1 = false) : d.coreStat t sel = d.coreIllegal t o.pc := by
  simp only [Dev.coreStat, hhead, htok, Bool.not_false, if_true]

theorem Dev.coreStat_retires (htok : (d.tile t).mat.tokenOk o.rs1 = true) {d1 : Dev}
    (hread : d.statRead t sel o.rs1.toNat = (d1, true)) :
    d.coreStat t sel = d1.matRetire t o ((d1.tile t).mat.statValue sel o.rs1.toNat) := by
  rw [Dev.statRead] at hread
  simp only [Dev.coreStat, hhead, htok, Bool.not_true, Bool.false_eq_true, if_false, hread]

theorem Dev.coreStat_fault (htok : (d.tile t).mat.tokenOk o.rs1 = true) {d1 : Dev}
    (hread : d.statRead t sel o.rs1.toNat = (d1, false)) : d.coreStat t sel = d1 := by
  rw [Dev.statRead] at hread
  simp only [Dev.coreStat, hhead, htok, Bool.not_true, Bool.false_eq_true, if_false, hread]

end

end

section
variable {s : State} {t : Nat} (hup : Up s) (hcore : s.dev.runsGangs t = false)
include hup hcore

theorem does_xMma_core : Does (.xMma t) s (s.dev.coreMma t) := by
  simpa only [hcore, Bool.false_eq_true, if_false] using does_of_actUp hup (exec_xMma t s)

theorem does_xWait_core : Does (.xWait t) s (s.dev.coreWait t) := by
  simpa only [hcore, Bool.false_eq_true, if_false] using does_of_actUp hup (exec_xWait t s)

theorem does_xStat_core {c : Instr} {sel : Nat} (hexec : exec c s = actUp s fun d => d.xStat t sel) :
    Does c s (s.dev.coreStat t sel) := by
  simpa only [Dev.xStat, hcore, Bool.false_eq_true, if_false] using does_of_actUp hup hexec

end

section
variable {s : State} {t : Nat} {o : MatOp} (hup : Up s) (hcore : s.dev.runsGangs t = false)
  (htok : (s.dev.tile t).mat.tokenOk o.rs1 = true)
include hup hcore htok

theorem does_xWait_retires (hhead : s.dev.matHead t 1 = some o) {v : Nat}
    (hv : (s.dev.tile t).mat.waitValue o.rs1.toNat = some v) : Does (.xWait t) s (s.dev.matRetire t o v) := by
  rw [← Dev.coreWait_retires hhead htok hv]
  exact does_xWait_core hup hcore

theorem does_xWait_waits (hhead : s.dev.matHead t 1 = some o) (hv : (s.dev.tile t).mat.waitValue o.rs1.toNat = none) :
    Does (.xWait t) s s.dev := by
  have hdoes := does_xWait_core hup hcore
  rwa [Dev.coreWait_waits hhead htok hv] at hdoes

section
variable {c : Instr} {sel : Nat} (hexec : exec c s = actUp s fun d => d.xStat t sel) (hhead : s.dev.matHead t (2 + sel) = some o)
  {d1 : Dev}
include hexec hhead

theorem does_xStat_retires (hread : s.dev.statRead t sel o.rs1.toNat = (d1, true)) {v : Nat}
    (hv : (d1.tile t).mat.statValue sel o.rs1.toNat = v) : Does c s (d1.matRetire t o v) := by
  rw [← hv, ← Dev.coreStat_retires hhead htok hread]
  exact does_xStat_core hup hcore hexec

theorem does_xStat_fault (hread : s.dev.statRead t sel o.rs1.toNat = (d1, false)) : Does c s d1 := by
  have hdoes := does_xStat_core hup hcore hexec
  rwa [Dev.coreStat_fault hhead htok hread] at hdoes

end

end

/-! ### From a group -/

section
variable {d : Dev} {t : Nat} {i : Issue}

section
variable {va : W64} {d1 : Dev}

theorem Dev.gangMma_wait (h : d.mma t va = (d1, .wait)) : d.gangMma t i va = d.gangWaits t i true va := by
  simp only [Dev.gangMma, h]

theorem Dev.gangMma_token {n : Nat} (h : d.mma t va = (d1, .token n)) :
    d.gangMma t i va = (d1.gangRetire t i).setU t i.g.idx (rdOf i.word) (w64 n) := by
  simp only [Dev.gangMma, h]

theorem Dev.gangMma_ended (h : d.mma t va = (d1, .ended)) : d.gangMma t i va = d1 := by
  simp only [Dev.gangMma, h]

theorem Dev.gangMma_fault {e : TFault} {w : Nat} (h : d.mma t va = (d1, .fault e w)) :
    d.gangMma t i va = d1.gangFault t (gangRow e) e.status w i.pc w i.low i.g.idx := by
  simp only [Dev.gangMma, h]

end

section
variable {tok : W64}

theorem Dev.gangWait_illegal (htok : (d.tile t).mat.tokenOk tok = false) : d.gangWait t i tok = d.gangIllegal t i i.low := by
  simp only [Dev.gangWait, htok, Bool.not_false, if_true]

theorem Dev.gangWait_waits (htok : (d.tile t).mat.tokenOk tok = true) (h : (d.tile t).mat.waitValue tok.toNat = none) :
    d.gangWait t i tok = d.gangWaits t i false tok := by
  simp only [Dev.gangWait, htok, Bool.not_true, Bool.false_eq_true, if_false, h]

theorem Dev.gangWait_retires (htok : (d.tile t).mat.tokenOk tok = true) {v : Nat}
    (h : (d.tile t).mat.waitValue tok.toNat = some v) :
    d.gangWait t i tok = (d.gangRetire t i).setU t i.g.idx (rdOf i.word) (w64 v) := by
  simp only [Dev.gangWait, htok, Bool.not_true, Bool.false_eq_true, if_false, h]

end

end

section
variable {s : State} {t : Nat} {i : Issue} {d : Dev} (hat : GroupAt s t i d)
include hat

theorem GroupAt.runsGangs : s.dev.runsGangs t = true := by
  obtain ⟨-, d', hnext, -⟩ := hat
  exact Dev.gangNext_runsGangs hnext

/-- A group's matrix instruction is carried out once, on what its issue leaves (08 R325). -/
theorem GroupAt.gangX {key : Nat} (hop : queueOp i.word = some (1, key)) (f : Dev → Issue → Dev) : s.dev.gangX t key f = f d i := by
  obtain ⟨-, d', hnext, rfl⟩ := hat
  simp only [Dev.gangX, hnext, hop, if_true]

theorem GroupAt.does_xMma (hheld : s.dev.heldIssue t true = none) (hop : queueOp i.word = some (1, 0)) :
    Does (.xMma t) s (d.gangMma t i (i.g.getU (rs1Of i.word))) := by
  simpa only [hat.runsGangs, if_true, hheld, hat.gangX hop] using does_of_actUp hat.1 (exec_xMma t s)

theorem GroupAt.does_xWait (hheld : s.dev.heldIssue t false = none) (hop : queueOp i.word = some (1, 1)) :
    Does (.xWait t) s (d.gangWait t i (i.g.getU (rs1Of i.word))) := by
  simpa only [hat.runsGangs, if_true, hheld, hat.gangX hop] using does_of_actUp hat.1 (exec_xWait t s)

section
variable {c : Instr} {sel : Nat} (hexec : exec c s = actUp s fun d => d.xStat t sel) (hop : queueOp i.word = some (1, 2 + sel))
include hexec hop

theorem GroupAt.does_xStat_illegal (htok : (d.tile t).mat.tokenOk (i.g.getU (rs1Of i.word)) = false) :
    Does c s (d.gangIllegal t i i.low) := by
  simpa only [Dev.xStat, hat.runsGangs, if_true, hat.gangX hop, htok, Bool.not_false] using does_of_actUp hat.1 hexec

variable (htok : (d.tile t).mat.tokenOk (i.g.getU (rs1Of i.word)) = true) {d1 : Dev}
include htok

theorem GroupAt.does_xStat_retires (hread : d.statRead t sel (i.g.getU (rs1Of i.word)).toNat = (d1, true)) :
    Does c s ((d1.gangRetire t i).setU t i.g.idx (rdOf i.word)
      (w64 ((d1.tile t).mat.statValue sel (i.g.getU (rs1Of i.word)).toNat))) := by
  rw [Dev.statRead] at hread
  simpa only [Dev.xStat, hat.runsGangs, if_true, hat.gangX hop, htok, Bool.not_true, Bool.false_eq_true, if_false, hread] using
    does_of_actUp hat.1 hexec

theorem GroupAt.does_xStat_fault (hread : d.statRead t sel (i.g.getU (rs1Of i.word)).toNat = (d1, false)) : Does c s d1 := by
  rw [Dev.statRead] at hread
  simpa only [Dev.xStat, hat.runsGangs, if_true, hat.gangX hop, htok, Bool.not_true, Bool.false_eq_true, if_false, hread] using
    does_of_actUp hat.1 hexec

end

end

section
variable {s : State} {t : Nat} {i : Issue} {d : Dev}

/-- The instruction held longest whose wait is over comes before the next issue, and is carried out with the operand
it holds (08 R325). -/
theorem does_xMma_gang {va : W64}
    (h : GroupAt s t i d ∧ s.dev.heldIssue t true = none ∧ queueOp i.word = some (1, 0) ∧ va = i.g.getU (rs1Of i.word) ∨
      Up s ∧ s.dev.runsGangs t = true ∧ s.dev.heldIssue t true = some (i, va) ∧ d = s.dev) :
    Does (.xMma t) s (d.gangMma t i va) := by
  rcases h with ⟨hat, hheld, hop, rfl⟩ | ⟨hup, hgangs, hheld, rfl⟩
  · exact hat.does_xMma hheld hop
  · simpa only [hgangs, if_true, hheld] using does_of_actUp hup (exec_xMma t s)

theorem does_xWait_gang {tok : W64}
    (h : GroupAt s t i d ∧ s.dev.heldIssue t false = none ∧ queueOp i.word = some (1, 1) ∧ tok = i.g.getU (rs1Of i.word) ∨
      Up s ∧ s.dev.runsGangs t = true ∧ s.dev.heldIssue t false = some (i, tok) ∧ d = s.dev) :
    Does (.xWait t) s (d.gangWait t i tok) := by
  rcases h with ⟨hat, hheld, hop, rfl⟩ | ⟨hup, hgangs, hheld, rfl⟩
  · exact hat.does_xWait hheld hop
  · simpa only [hgangs, if_true, hheld] using does_of_actUp hup (exec_xWait t s)

end

end Sys2Proof.Machine
end

section
/-! The obligation on tokens that cannot be. -/
namespace Sys2Proof.Machine

/-- A command traps wherever the token of its operation `key` at the head of the core's queue, or of the group that
issues next, is not accepted. -/
def TrapsBadToken (c : Nat → Instr) (key : Nat) : Prop :=
  ∀ (s : State) (t : Nat) (tok : W64), (s.dev.tile t).mat.tokenOk tok = false →
    (∀ o, Up s → s.dev.runsGangs t = false → s.dev.matHead t key = some o → o.rs1 = tok →
      Does (c t) s (s.dev.coreIllegal t o.pc)) ∧
    (∀ i d, GroupAt s t i d → (key = 1 → s.dev.heldIssue t false = none) → queueOp i.word = some (1, key) →
      i.g.getU (rs1Of i.word) = tok → (d.tile t).mat.tokenOk tok = false → Does (c t) s (d.gangIllegal t i i.low))

theorem trapsBadToken_xWait : TrapsBadToken (fun t => .xWait t) 1 := by
  refine fun s t tok hbad => ⟨fun o hup hcore hhead ho => ?_, fun i d hat hheld hop htok hbad' => ?_⟩
  · subst ho
    rw [← Dev.coreWait_illegal hhead hbad]
    exact does_xWait_core hup hcore
  · subst htok
    rw [← Dev.gangWait_illegal hbad']
    exact hat.does_xWait (hheld rfl) hop

theorem trapsBadToken_xStat {c : Nat → Instr} {sel : Nat} (hexec : ∀ t s, exec (c t) s = actUp s fun d => d.xStat t sel) :
    TrapsBadToken c (2 + sel) := by
  refine fun s t tok hbad => ⟨fun o hup hcore hhead ho => ?_, fun i d hat _ hop htok hbad' => ?_⟩
  · subst ho
    rw [← Dev.coreStat_illegal hhead hbad]
    exact does_xStat_core hup hcore (hexec t s)
  · subst htok
    exact hat.does_xStat_illegal (hexec t s) hop hbad'

/-- Settles O32: such a token is not accepted, and each of the four forms traps where its token is not. -/
theorem tokenFormsThatTrap : Obligations.TokenFormsThatTrap := by
  unfold Obligations.TokenFormsThatTrap
  intro e he s t tok hform
  have htraps : TrapsBadToken e.1 e.2 := by
    revert e
    simp only [List.forall_mem_cons]
    exact ⟨trapsBadToken_xWait, trapsBadToken_xStat exec_xStatCounts, trapsBadToken_xStat exec_xStatProgress,
      trapsBadToken_xStat exec_xStatState, nofun⟩
  obtain ⟨hcore, hgang⟩ := htraps s t tok (Matrix.tokenOk_eq_false.2 hform)
  refine ⟨hcore, fun i d hat _ hheld hop htok hseq => hgang i d hat hheld hop htok ?_⟩
  rwa [Matrix.tokenOk_eq_false, hseq]

end Sys2Proof.Machine
end

section
/-! What X.MMA answers (06 R223, R225, R229, R234, R235). -/
namespace Sys2Proof.Machine

/-- The least element of a sorted list that satisfies a test is the one found. -/
theorem find?_eq_some_of_least {l : List Nat} (hsorted : l.Pairwise (· < ·)) {p : Nat → Bool} {n : Nat} (hn : n ∈ l)
    (hp : p n = true) (hleast : ∀ k ∈ l, k < n → p k = false) : l.find? p = some n := by
  obtain ⟨before, after, rfl⟩ := List.append_of_mem hn
  rw [List.find?_eq_some_iff_append]
  refine ⟨hp, before, after, rfl, fun k hk => ?_⟩
  have hlt : k < n := (List.pairwise_append.1 hsorted).2.2 k hk n List.mem_cons_self
  rw [hleast k (List.mem_append_left _ hk) hlt, Bool.not_false]

/-- The numbers of the conditions of 06 R234. -/
theorem mem_conditions {n : Nat} : n ∈ rangeFrom 1 9 ↔ 1 ≤ n ∧ n ≤ 9 := by
  simp only [rangeFrom, List.mem_map, List.mem_range]
  exact ⟨by rintro ⟨k, hk, rfl⟩; omega, fun h => ⟨n - 1, by omega, by omega⟩⟩

/-- An accepted job as it joins the tile's: one that computes nothing is RUNNING from its token on (06 R251). -/
def Job.admitted (j : Job) (now : Nat) : Job := if j.idle then { j with state := 1, start := now } else j

/-- Being admitted changes no field that the descriptors give. -/
theorem Job.admitted_fields (j : Job) (now : Nat) :
    { j.admitted now with start := 0, state := 0 } = { j with start := 0, state := 0 } := by
  unfold Job.admitted
  split <;> rfl

/-- The offsets of the operand descriptors of A, B and C in a job descriptor (06 R229). -/
def jobOffsets (jw : List Nat) : List Nat := [bits (jw.getD 2 0) 19 0, bits (jw.getD 2 0) 39 20, bits (jw.getD 2 0) 59 40]

theorem jobOffsets_any_misaligned {jw : List Nat} : (jobOffsets jw).any (fun o => o % 32 ≠ 0) = true ↔
    bits (jw.getD 2 0) 19 0 % 32 ≠ 0 ∨ bits (jw.getD 2 0) 39 20 % 32 ≠ 0 ∨ bits (jw.getD 2 0) 59 40 % 32 ≠ 0 := by
  simp only [jobOffsets, List.any_cons, List.any_nil, Bool.or_false, Bool.or_eq_true, decide_eq_true_eq]

/-- The check of 05 R705 lets an address of the tile's own local memory pass. -/
theorem not_outside_local {va : Nat} (hseg : va / 2 ^ 60 = 15) (hlocal : va % 2 ^ 60 < 2 ^ 20) :
    ¬ (!(decide (va / 2 ^ 60 = 15) && decide (va % 2 ^ 60 < 2 ^ 20))) = true := by
  rw [decide_eq_true hseg, decide_eq_true hlocal, Bool.and_self, Bool.not_true]
  exact Bool.false_ne_true

/-- It stops every other address. -/
theorem outside_local {va : Nat} (h : ¬ (va / 2 ^ 60 = 15 ∧ va % 2 ^ 60 < 2 ^ 20)) :
    (!(decide (va / 2 ^ 60 = 15) && decide (va % 2 ^ 60 < 2 ^ 20))) = true := by
  rw [← Bool.decide_and, decide_eq_false h, Bool.not_false]

section
variable {d : Dev} {t : Nat} {va : W64}

theorem Dev.mma_full (hfull : 8 ≤ (d.tile t).mat.outstanding) : d.mma t va = (d, .wait) := by
  rw [Dev.mma, if_pos hfull]

variable (hfree : (d.tile t).mat.outstanding < 8)
include hfree

theorem Dev.mma_misaligned (hva : va.toNat % 64 ≠ 0) : d.mma t va = (d, .fault .misaligned va.toNat) := by
  rw [Dev.mma, if_neg (Nat.not_le.2 hfree), if_pos hva]

variable (hva : va.toNat % 64 = 0)
include hva

theorem Dev.mma_segment (hseg : ¬ (va.toNat / 2 ^ 60 = 15 ∧ va.toNat % 2 ^ 60 < 2 ^ 20)) :
    d.mma t va = (d, .fault .segment va.toNat) := by
  rw [Dev.mma, if_neg (Nat.not_le.2 hfree), if_neg (not_not_intro hva), if_pos (outside_local hseg)]

variable (hseg : va.toNat / 2 ^ 60 = 15) (hlocal : va.toNat % 2 ^ 60 < 2 ^ 20)
  {jw : List Nat} (hjw : d.mmaWords t (va.toNat % 2 ^ 20) 8 = .ok jw)
include hseg hlocal hjw

/-- A misaligned descriptor offset breaks condition 7, and no operand descriptor is read (06 R235). -/
theorem Dev.mma_misaligned_offset (hoff : (jobOffsets jw).any (fun o => o % 32 ≠ 0) = true) :
    d.mma t va = (d.mmaRefused t (([1, 2, 8, 9].find? (fun n => jobCond n jw)).getD 7) va, .ended) := by
  rw [Dev.mma, if_neg (Nat.not_le.2 hfree), if_neg (not_not_intro hva), if_neg (not_outside_local hseg hlocal), hjw]
  exact if_pos hoff

variable (hoff : (jobOffsets jw).any (fun o => o % 32 ≠ 0) = false) {a b c : List Nat}
  (ha : d.mmaWords t (bits (jw.getD 2 0) 19 0) 4 = .ok a) (hb : d.mmaWords t (bits (jw.getD 2 0) 39 20) 4 = .ok b)
  (hc : d.mmaWords t (bits (jw.getD 2 0) 59 40) 4 = .ok c)
include hoff ha hb hc

theorem Dev.mma_refused {n : Nat} (hfind : (rangeFrom 1 9).find? (fun n => jobBreaks n jw [a, b, c]
    (jobOf ((d.tile t).mat.seq + 1) jw a b c)) = some n) : d.mma t va = (d.mmaRefused t n va, .ended) := by
  rw [Dev.mma, if_neg (Nat.not_le.2 hfree), if_neg (not_not_intro hva), if_neg (not_outside_local hseg hlocal), hjw]
  refine (if_neg (ne_true_of_eq_false hoff)).trans ?_
  simp only [List.getD_cons_zero, List.getD_cons_succ, ha, hb, hc, hfind]

theorem Dev.mma_accepted (hfind : (rangeFrom 1 9).find? (fun n => jobBreaks n jw [a, b, c]
    (jobOf ((d.tile t).mat.seq + 1) jw a b c)) = none) :
    d.mma t va = (d.modTile t (fun x => { x with mat := { x.mat with
      seq := x.mat.seq + 1
      jobs := keepJobs ((jobOf ((d.tile t).mat.seq + 1) jw a b c).admitted (d.cycles (t / 8)) :: x.mat.jobs) } }),
      .token ((d.tile t).mat.seq + 1)) := by
  rw [Dev.mma, if_neg (Nat.not_le.2 hfree), if_neg (not_not_intro hva), if_neg (not_outside_local hseg hlocal), hjw]
  refine (if_neg (ne_true_of_eq_false hoff)).trans ?_
  simp only [List.getD_cons_zero, List.getD_cons_succ, ha, hb, hc, hfind]
  rfl

end

end Sys2Proof.Machine
end

section
/-! The obligation on X.MMA. -/
namespace Sys2Proof.Machine

/-- Settles O30: what either path makes of X.MMA's answer, and that answer by the first check that fails. -/
theorem matrixJobAdmission : Obligations.MatrixJobAdmission := by
  unfold Obligations.MatrixJobAdmission
  refine ⟨fun s t o hup hcore hhead => ?core, fun s t i d d1 va hturn => ?gang, fun d t va => ⟨Dev.mma_full, fun hfree =>
    ⟨Dev.mma_misaligned hfree, Dev.mma_segment hfree, fun jw hva hseg hlocal hjw => ⟨fun hoff => ?offset, ?described⟩⟩⟩⟩
  case core =>
    have hdoes := does_xMma_core hup hcore
    refine ⟨fun hfull => ?_, fun d n h => ?_, fun d h => ?_, fun d e va h => ?_⟩
    · rwa [Dev.coreMma_wait hhead (Dev.mma_full hfull)] at hdoes
    · rwa [Dev.coreMma_token hhead h] at hdoes
    · rwa [Dev.coreMma_ended hhead h] at hdoes
    · rwa [Dev.coreMma_fault hhead h] at hdoes
  case gang =>
    have hdoes := does_xMma_gang hturn
    refine ⟨fun h => ?_, fun n h => ?_, fun h => ?_, fun e w h => ?_⟩
    · rwa [Dev.gangMma_wait h] at hdoes
    · rwa [Dev.gangMma_token h] at hdoes
    · rwa [Dev.gangMma_ended h] at hdoes
    · rwa [Dev.gangMma_fault h] at hdoes
  case offset =>
    have hmma := Dev.mma_misaligned_offset hfree hva hseg hlocal hjw (jobOffsets_any_misaligned.2 hoff)
    refine ⟨fun n hn hbreaks hleast => ?_, fun hnone => ?_⟩
    · rw [hmma, find?_eq_some_of_least (by decide) hn hbreaks hleast, Option.getD_some]
    · rw [hmma, List.find?_eq_none.2 (by simpa using hnone), Option.getD_none]
  case described =>
    intro a b c hoffA hoffB hoffC ha hb hc
    have hoff : (jobOffsets jw).any (fun o => o % 32 ≠ 0) = false := by
      rw [← Bool.not_eq_true, jobOffsets_any_misaligned]
      omega
    refine ⟨fun n hn1 hn9 hbreaks hleast => ?_, fun hnone => ?_⟩
    · refine Dev.mma_refused hfree hva hseg hlocal hjw hoff ha hb hc ?_
      refine find?_eq_some_of_least (by decide) (mem_conditions.2 ⟨hn1, hn9⟩) hbreaks fun k hk hlt => ?_
      exact hleast k (mem_conditions.1 hk).1 hlt
    · have hmma := Dev.mma_accepted hfree hva hseg hlocal hjw hoff ha hb hc (List.find?_eq_none.2 fun k hk => by
        rw [hnone k (mem_conditions.1 hk).1 (mem_conditions.1 hk).2]; exact Bool.false_ne_true)
      exact ⟨(jobOf ((d.tile t).mat.seq + 1) jw a b c).admitted (d.cycles (t / 8)), congrArg Prod.snd hmma,
        Job.admitted_fields _ _, congrArg Prod.fst hmma⟩

end Sys2Proof.Machine
end

section
/-! The start and the completion of matrix jobs (06 R244 to R246, R250, R251, R253). -/
namespace Sys2Proof.Machine

theorem exec_matrixJobStart (t seq : Nat) (s : State) : exec (.matrixJobStart t seq) s = execMatrixJobStart t seq s := rfl
theorem exec_matrixJobComplete (t seq : Nat) (s : State) : exec (.matrixJobComplete t seq) s = execMatrixJobComplete t seq s := rfl

/-- Every earlier job has completed or, without SERIAL, has run to the end of its reduction (06 R245, R246). -/
theorem Matrix.canStart_eq_true {m : Matrix} {now : Nat} {j : Job} : m.canStart now j = true ↔
    j.state = 0 ∧ ∀ k ∈ m.jobs, k.seq < j.seq →
      k.state = 2 ∨ (j.serial = false ∧ k.state = 1 ∧ (k.idle = true ∨ k.start + (k.cycles - 56) ≤ now)) := by
  simp only [Matrix.canStart, Bool.and_eq_true, beq_iff_eq, List.all_eq_true, List.mem_filter, decide_eq_true_eq,
    and_imp, Bool.or_eq_true, Bool.not_eq_true', and_assoc]
  rfl

/-- Every job with a smaller sequence number has completed. -/
theorem earlier_complete_eq_true {jobs : List Job} {seq : Nat} :
    (jobs.filter (fun k => k.seq < seq)).all (fun k => k.state == 2) = true ↔ ∀ k ∈ jobs, k.seq < seq → k.state = 2 := by
  simp only [List.all_eq_true, List.mem_filter, decide_eq_true_eq, beq_iff_eq, and_imp]

/-- Nothing keeps a job of a running tile from completing once its time has come and the earlier jobs have completed. -/
theorem jobComplete_goes {s : State} {t seq : Nat} {j : Job} (hrun : s.dev.tileState t = 2 ∨ s.dev.tileState t = 5)
    (hearlier : ∀ k ∈ (s.dev.tile t).mat.jobs, k.seq < seq → k.state = 2) (hstate : j.state = 1)
    (htime : j.start + (if j.idle then 8 else j.cycles) ≤ s.dev.cycles (t / 8)) :
    ¬ (!((s.dev.tile t).mat.jobs.filter (fun k => k.seq < seq)).all (fun k => k.state == 2) ||
    !decide (j.state = 1 ∧ j.start + (if j.idle then 8 else j.cycles) ≤ s.dev.cycles (t / 8)) ||
    !(decide (s.dev.tileState t = 2) || decide (s.dev.tileState t = 5))) = true := by
  rw [earlier_complete_eq_true.2 hearlier, decide_eq_true ⟨hstate, htime⟩, ← Bool.decide_or, decide_eq_true hrun]
  decide

section
variable {s : State} {t seq : Nat} {l : Launch} {j : Job} (hup : Up s) (hl : s.dev.launchOn t = some l)
  (hj : (s.dev.tile t).mat.job? seq = some j)
include hup hl hj

theorem does_matrixJobStart_waits (hcan : (s.dev.tile t).mat.canStart (s.dev.cycles (t / 8)) j = false) :
    Does (.matrixJobStart t seq) s s.dev := by
  simpa only [hl, hj, hcan, Bool.false_and, Bool.false_eq_true, if_false] using does_of_actUp hup (exec_matrixJobStart t seq s)

theorem does_matrixJobComplete_waits (h : (∃ k ∈ (s.dev.tile t).mat.jobs, k.seq < seq ∧ k.state ≠ 2) ∨
    ¬ (j.state = 1 ∧ j.start + (if j.idle then 8 else j.cycles) ≤ s.dev.cycles (t / 8))) :
    Does (.matrixJobComplete t seq) s s.dev := by
  have hstop : (!((s.dev.tile t).mat.jobs.filter (fun k => k.seq < seq)).all (fun k => k.state == 2) ||
      !decide (j.state = 1 ∧ j.start + (if j.idle then 8 else j.cycles) ≤ s.dev.cycles (t / 8))) = true := by
    rcases h with ⟨k, hk, hlt, hstate⟩ | h
    · rw [Bool.or_eq_true, Bool.not_eq_true', ← Bool.not_eq_true, earlier_complete_eq_true]
      exact .inl fun hall => hstate (hall k hk hlt)
    · rw [decide_eq_false h, Bool.not_false, Bool.or_true]
  have hdoes := does_of_actUp hup (exec_matrixJobComplete t seq s)
  simp only [hl, hj] at hdoes
  rwa [hstop, Bool.true_or, if_pos rfl] at hdoes

variable (hrun : s.dev.tileState t = 2 ∨ s.dev.tileState t = 5)
include hrun

theorem does_matrixJobStart {d : Dev} {blocks : List JobBlock} {err : Option (TFault × Nat)}
    (hcan : (s.dev.tile t).mat.canStart (s.dev.cycles (t / 8)) j = true) (hcompute : s.dev.jobCompute t j = (d, blocks, err)) :
    Does (.matrixJobStart t seq) s (d.modJob t seq (fun j => { j with
      state := 1, start := s.dev.cycles (t / 8), todo := blocks, fault := err.map (fun e => (e.1.row, e.1.status, e.2)) })) := by
  simpa only [hl, hj, hcan, hrun, hcompute, Bool.true_and, ← Bool.decide_or, decide_true, if_true] using
    does_of_actUp hup (exec_matrixJobStart t seq s)

section
variable (hearlier : ∀ k ∈ (s.dev.tile t).mat.jobs, k.seq < seq → k.state = 2) (hstate : j.state = 1)
  (htime : j.start + (if j.idle then 8 else j.cycles) ≤ s.dev.cycles (t / 8))
include hearlier hstate htime

variable {d : Dev}

theorem does_matrixJobComplete_cut (hadvance : s.dev.jobAdvance t seq j.todo.length = (d, false)) :
    Does (.matrixJobComplete t seq) s d := by
  simpa only [hl, hj, if_neg (jobComplete_goes hrun hearlier hstate htime), hadvance] using
    does_of_actUp hup (exec_matrixJobComplete t seq s)

variable (hadvance : s.dev.jobAdvance t seq j.todo.length = (d, true))
include hadvance

theorem does_matrixJobComplete_fault {row status va : Nat} (hfault : j.fault = some (row, status, va)) :
    Does (.matrixJobComplete t seq) s (d.jobFault t row status seq va) := by
  simpa only [hl, hj, if_neg (jobComplete_goes hrun hearlier hstate htime), hadvance, hfault] using
    does_of_actUp hup (exec_matrixJobComplete t seq s)

theorem does_matrixJobComplete (hfault : j.fault = none) : Does (.matrixJobComplete t seq) s
    (((d.modJob t seq (fun j => { j with state := 2, stop := s.dev.cycles (t / 8) })).modTile t
      (fun x => { x with mat := { x.mat with jobs := keepJobs x.mat.jobs } })).modLaunch l.ring l.index (fun l => { l with
        sat := satAdd32 l.sat (((d.tile t).mat.job? seq).getD j).sat
        flushed := satAdd32 l.flushed (((d.tile t).mat.job? seq).getD j).flushed })) := by
  simpa only [hl, hj, if_neg (jobComplete_goes hrun hearlier hstate htime), hadvance, hfault] using
    does_of_actUp hup (exec_matrixJobComplete t seq s)

end

end

end Sys2Proof.Machine
end

section
/-! The obligation on matrix jobs, X.WAIT and X.STAT. -/
namespace Sys2Proof.Machine

/-- Settles O31: what the two commands of a job do at each point of its life, and what each path makes of the value a
token's job gives X.WAIT and X.STAT. -/
theorem matrixJobsRunAndReport : Obligations.MatrixJobsRunAndReport := by
  unfold Obligations.MatrixJobsRunAndReport
  refine ⟨fun s t seq l j hup hl hj hrun => ?job, fun m now j => Matrix.canStart_eq_true,
    fun s t n o hup hcore hn hpos hlt hle => ?core, fun s t i d tok m hm htok => ⟨fun hturn => ?gangWait, fun hat htok' => ?gangStat⟩⟩
  case job =>
    refine ⟨fun d blocks err => does_matrixJobStart hup hl hj hrun, does_matrixJobStart_waits hup hl hj,
      fun hearlier => does_matrixJobComplete_waits hup hl hj (.inl hearlier),
      fun hearly => does_matrixJobComplete_waits hup hl hj (.inr (by omega)), fun d hearlier hstate htime => ?_⟩
    exact ⟨does_matrixJobComplete_cut hup hl hj hrun hearlier hstate htime, fun hadvance =>
      ⟨fun row status va => does_matrixJobComplete_fault hup hl hj hrun hearlier hstate htime hadvance,
        does_matrixJobComplete hup hl hj hrun hearlier hstate htime hadvance⟩⟩
  case core =>
    have htok : (s.dev.tile t).mat.tokenOk o.rs1 = true := Matrix.tokenOk_eq_true.2 (by omega)
    subst hn
    have hcounts {d1 v} := does_xStat_retires (d1 := d1) (v := v) hup hcore htok (exec_xStatCounts t s)
    have hblocks {d1 v} := does_xStat_retires (d1 := d1) (v := v) hup hcore htok (exec_xStatProgress t s)
    have hstate {v} hhead := does_xStat_retires (v := v) hup hcore htok (exec_xStatState t s) hhead (Dev.statRead_state ..)
    refine ⟨fun hhead => ?wait, fun hold => ?old, fun j hrecent hj => ?recent⟩
    case wait =>
      exact ⟨fun j hrecent hj hdone => does_xWait_retires hup hcore htok hhead (Matrix.waitValue_complete hrecent hj hdone),
        fun j hrecent hj hnot => does_xWait_waits hup hcore htok hhead (Matrix.waitValue_pending hrecent hj hnot),
        fun hold => does_xWait_retires hup hcore htok hhead (Matrix.waitValue_old hold)⟩
    case old =>
      refine ⟨fun hhead => hstate hhead (Matrix.statValue_old hold 2), fun hstill => ?_⟩
      have hread := Dev.jobProgress_not_running hstill
      exact ⟨fun hhead => hcounts hhead hread (Matrix.statValue_old hold 0),
        fun hhead => hblocks hhead hread (Matrix.statValue_old hold 1)⟩
    case recent =>
      refine ⟨fun hhead => hstate hhead (Matrix.statValue_state hrecent hj),
        fun hstill hhead => hcounts hhead (Dev.jobProgress_still hj hstill) (Matrix.statValue_counts hrecent hj),
        fun hstill hhead => hblocks hhead (Dev.jobProgress_still hj hstill) (Matrix.statValue_blocks hrecent hj),
        fun d1 hread => ⟨fun hhead => hcounts hhead hread rfl, fun hhead => hblocks hhead hread rfl⟩, fun d1 hread => ?_⟩
      exact ⟨fun hhead => does_xStat_fault hup hcore htok (exec_xStatCounts t s) hhead hread,
        fun hhead => does_xStat_fault hup hcore htok (exec_xStatProgress t s) hhead hread⟩
  case gangWait =>
    subst hm
    have hdoes := does_xWait_gang hturn
    refine ⟨fun hv => ?_, fun v hv => ?_⟩
    · rwa [Dev.gangWait_waits htok hv] at hdoes
    · rwa [Dev.gangWait_retires htok hv] at hdoes
  case gangStat =>
    subst hm htok'
    exact ⟨fun hop => hat.does_xStat_retires (exec_xStatState t s) hop htok (Dev.statRead_state ..),
      fun d1 hread => ⟨fun hop => hat.does_xStat_retires (exec_xStatCounts t s) hop htok hread,
        fun hop => hat.does_xStat_retires (exec_xStatProgress t s) hop htok hread⟩,
      fun d1 hread => ⟨fun hop => hat.does_xStat_fault (exec_xStatCounts t s) hop htok hread,
        fun hop => hat.does_xStat_fault (exec_xStatProgress t s) hop htok hread⟩⟩

end Sys2Proof.Machine
end

section
/-! Writing results: elements of a vector register, the counts of rounded results, and bits of a mask
register (07 R256, R261, R270, R272). -/
namespace Sys2Proof.Machine

/-! ### Chosen elements -/

theorem Vec.mem_actives {v : Vec} {masked : Bool} {i : Nat} : i ∈ v.actives masked ↔ v.active masked i = true := by
  simp [Vec.actives, Vec.active]

/-- In an unmasked form the active elements are those below VL (07 R261). -/
theorem Vec.active_unmasked (v : Vec) (i : Nat) : v.active false i = decide (i < v.vl) := by
  simp [Vec.active]

theorem Vec.actives_unmasked (v : Vec) : v.actives false = List.range v.vl := by
  simp [Vec.actives, Vec.active]

/-- Putting elements rewrites them. -/
theorem rewrites_putElems (v : Vec) (r : Nat) (sel : Nat → Bool) (f : Nat → Nat) : Rewrites v (v.putElems r sel f) r sel f :=
  ⟨fun _ hi => v.putElems_elem r sel f hi, fun _ hq => v.putElems_other sel f hq, rfl⟩

/-- Only which elements are chosen, and the chosen values modulo 2^EW, matter. -/
theorem Rewrites.congr {v w : Vec} {r : Nat} {sel sel' : Nat → Bool} {f f' : Nat → Nat} (h : Rewrites v w r sel f)
    (hsel : ∀ i, sel' i = sel i) (hf : ∀ i, sel i = true → f' i % 2 ^ v.ew = f i % 2 ^ v.ew) : Rewrites v w r sel' f' := by
  obtain ⟨helem, hother, hmask⟩ := h
  refine ⟨fun i hi => ?_, hother, hmask⟩
  rw [helem i hi, hsel i]
  cases hs : sel i with
  | true => exact (hf i hs).symm
  | false => rfl

/-! ### Values listed by element -/

/-- The elements that a list of (element, value) pairs names. -/
theorem any_fst_eq {α : Type} (l : List (Nat × α)) (i : Nat) : l.any (fun e => e.1 == i) = decide (i ∈ l.map Prod.fst) := by
  rw [List.any_eq]
  simp

/-- The pair found for an element named by a list holds the element's value. -/
theorem find_indexed {α : Type} (f : Nat → α) {l : List Nat} {i : Nat} (h : i ∈ l) :
    (l.map fun i => (i, f i)).find? (fun e => e.1 == i) = some (i, f i) := by
  induction l with
  | nil => cases h
  | cons j rest ih =>
    rw [List.map_cons, List.find?_cons]
    by_cases hj : j = i
    · subst hj
      simp
    · rw [beq_false_of_ne hj]
      exact ih ((List.mem_cons.1 h).resolve_left (Ne.symm hj))

/-! ### Rounded results -/

/-- SRC alone moves on, and only under SR (07 R270). -/
theorem Vec.rounded_eq (v : Vec) (any : Bool) :
    v.rounded any = { v with src := if v.round = 2 ∧ any = true then v.src + 1 else v.src } := by
  unfold Vec.rounded
  by_cases h : v.round = 2 ∧ any = true
  · rw [if_pos (by simpa using h), if_pos h]
  · rw [if_neg (by simpa using h), if_neg h]

/-- Counting results and moving SRC on is what `Counts` says of an engine that differs in its registers only. -/
theorem counts_rounded {v w : Vec} (hframe : { w with v := v.v } = v) (es : List Enc) (any : Bool) :
    Counts v ((w.count es).rounded any) es any := by
  obtain ⟨regs, rfl⟩ : ∃ regs, w = { v with v := regs } := ⟨w.v, by rw [← hframe]⟩
  rw [Vec.rounded_eq]
  exact ⟨rfl, rfl, rfl, rfl⟩

/-- Results listed by element rewrite these elements, are counted, and move SRC on when they are rounded
(07 R261, R270, R272). -/
theorem putEncs_indexed (v : Vec) (r : Nat) (rounds : Bool) (l : List Nat) (enc : Nat → Enc) :
    Rewrites v (v.putEncs r rounds (l.map fun i => (i, enc i))) r (fun i => decide (i ∈ l)) (fun i => (enc i).code) ∧
    Counts v (v.putEncs r rounds (l.map fun i => (i, enc i))) (l.map enc) (rounds && !l.isEmpty) := by
  have hsel : ∀ i, (l.map fun i => (i, enc i)).any (fun e => e.1 == i) = decide (i ∈ l) := fun i => by
    rw [any_fst_eq, List.map_map, show Prod.fst ∘ (fun i => (i, enc i)) = id from rfl, List.map_id]
  rw [Vec.putEncs, List.isEmpty_map, List.map_map]
  refine ⟨?_, counts_rounded (v.putElems_frame r _ _) _ _⟩
  rw [Vec.rounded_eq]
  refine Rewrites.congr (rewrites_putElems v r _ _) (fun i => (hsel i).symm) fun i hi => ?_
  rw [hsel, decide_eq_true_eq] at hi
  rw [find_indexed enc hi]
  rfl

/-- Results of the active elements (07 R261). -/
theorem putEncs_actives (v : Vec) (r : Nat) (rounds masked : Bool) (enc : Nat → Enc) :
    Rewrites v (v.putEncs r rounds ((v.actives masked).map fun i => (i, enc i))) r (v.active masked) (fun i => (enc i).code) ∧
    Counts v (v.putEncs r rounds ((v.actives masked).map fun i => (i, enc i))) ((v.actives masked).map enc)
      (rounds && !(v.actives masked).isEmpty) := by
  obtain ⟨hrew, hcounts⟩ := putEncs_indexed v r rounds (v.actives masked) enc
  exact ⟨hrew.congr (fun i => by simp only [Vec.mem_actives, Bool.decide_eq_true]) fun _ _ => rfl, hcounts⟩

/-! ### Bits of a mask register -/

/-- Bits set one after another: those of the list as given, the others as before. -/
theorem bit_foldl_setBits (f : Nat → Bool) (l : List Nat) (m j : Nat) :
    bit (l.foldl (fun m i => setBits m i i (b2n (f i))) m) j = if j ∈ l then f j else bit m j := by
  induction l generalizing m with
  | nil => simp
  | cons i rest ih =>
    have hset : bit (setBits m i i (b2n (f i))) j = if j = i then f i else bit m j := by
      rw [bit, testBit_setBits]
      by_cases hj : j = i
      · subst hj
        cases h : f j <;> simp [b2n]
      · rw [if_neg (by omega), if_neg hj, bit]
    rw [List.foldl_cons, ih, hset]
    by_cases hj : j = i
    · subst hj
      simp
    · simp [hj]

/-- Writing a mask register whose bits below 512 are the given ones. -/
theorem remasks_setMask {v : Vec} {r n : Nat} {sel f : Nat → Bool}
    (h : ∀ i, bit n i = if sel i then f i else bit (v.mask r) i) : Remasks v (v.setMask r n) r sel f := by
  refine ⟨fun i hi => ?_, fun q hq => ?_, rfl⟩
  · rw [← h i, Vec.mask, Vec.setMask, tget_tset_same, bit, BitVec.testBit_toNat, BitVec.getLsbD_ofNat, decide_eq_true hi,
      Bool.true_and, bit]
  · rw [Vec.mask, Vec.setMask, tget_tset_other _ _ hq, Vec.mask]

end Sys2Proof.Machine
end

section
/-! Vector instructions of custom-0: their encodings, their sources, and what they leave (05 R216; 07 R264,
R265). -/
namespace Sys2Proof.Machine

/-! ### Encodings -/

/-- A custom-0 key is that of a custom-0 word, and its operation is the word's OP (07 R265). -/
theorem queueOp_custom0 {w : W32} {k : Nat} (h : queueOp w = some (0, k)) : opc w = 0x0B ∧ wbits w 31 26 = k := by
  dsimp only [queueOp] at h
  split at h
  next hopc =>
    split at h
    · cases h
    · exact ⟨hopc, by simpa using h⟩
  next => split at h <;> simp at h
  next => split at h <;> simp at h
  next => cases h

/-- The operations whose source is always vector register rs1: mask instructions, conversions and reductions
(07 R265, R280). -/
def vvOps : List Nat := [0x28, 0x29, 0x2A, 0x2B, 0x2C, 0x30, 0x31, 0x32, 0x34, 0x35]

/-- Their assigned encodings are in the VV form, masked or not (07 R265, R280). -/
theorem legal0_vvForm {w : W32} (h : legal0 w = true) (hop : wbits w 31 26 ∈ vvOps) : formOf w = 0 ∨ formOf w = 4 := by
  simp only [vvOps, List.mem_cons, List.not_mem_nil, or_false] at hop
  unfold legal0 at h
  rcases hop with hop | hop | hop | hop | hop | hop | hop | hop | hop | hop <;> simp [hop] at h
  all_goals omega

/-- FORM's low two bits choose the source (07 R264). -/
theorem wbits_source (w : W32) : wbits w 13 12 = formOf w % 4 := by
  simp only [formOf, f3Of, wbits, bits]
  omega

section
variable {s : State} {t op : Nat} {o : VecOp} (hready : VecReady s t (0, op) o)
include hready

theorem VecReady.legal0 : legal0 o.word = true ∧ wbits o.word 31 26 = op := by
  obtain ⟨-, hhead, hlegal, -, -⟩ := hready
  obtain ⟨-, hkey⟩ := Dev.vecHead_queue hhead
  obtain ⟨hopc, hop⟩ := queueOp_custom0 hkey
  rw [vecLegal, if_neg (by rw [hopc]; decide)] at hlegal
  exact ⟨hlegal, hop⟩

theorem VecReady.vvSource (hop : op ∈ vvOps) : wbits o.word 13 12 = 0 := by
  obtain ⟨hlegal, rfl⟩ := hready.legal0
  rw [wbits_source]
  rcases legal0_vvForm hlegal hop with h | h <;> rw [h]

end

/-! ### Sources -/

/-- In the VV form the source is vector register rs1 (07 R264). -/
theorem Dev.vecSrc_vv (d : Dev) (t : Nat) {o : VecOp} (v : Vec) (h : wbits o.word 13 12 = 0) :
    d.vecSrc t o v = (d, .ok fun i => elemOf v.ew (v.reg (rs1Of o.word)) i) := by
  simp only [Dev.vecSrc, h]

/-- A source in a register is read without any effect (07 R264). -/
theorem Dev.vecSrc_register (d : Dev) (t : Nat) {o : VecOp} (v : Vec) (h : wbits o.word 13 12 ≠ 3) :
    ∃ src, d.vecSrc t o v = (d, .ok src) := by
  have hlt : wbits o.word 13 12 < 4 := bits_lt _ _ _
  obtain h | h | h : wbits o.word 13 12 = 0 ∨ wbits o.word 13 12 = 1 ∨ wbits o.word 13 12 = 2 := by omega
  all_goals
    simp only [Dev.vecSrc, h]
    exact ⟨_, rfl⟩

/-! ### What the instruction leaves -/

section
variable {s : State} {t op : Nat} {o : VecOp} {d' : Dev} {src : Nat → Nat} {f : VecOp → Vec → Bool → (Nat → Nat) → Option Vec}
  (hready : VecReady s t (0, op) o) (hsrc : (s.dev.vecTaken t).vecSrc t o (vecAt s t) = (d', .ok src))
include hready hsrc

/-- An instruction whose source can be read leaves the engine that its function gives. -/
theorem VecReady.vecSrcOp_sets {v' : Vec} (hf : f o (vecAt s t) (maskedForm o.word) src = some v') :
    s.dev.vecSrcOp t op f = d'.setVec t v' := by
  simp only [Dev.vecSrcOp, hready.vecRun, hsrc, hf]

/-- One that its function refuses is an illegal instruction. -/
theorem VecReady.vecSrcOp_traps (hf : f o (vecAt s t) (maskedForm o.word) src = none) :
    s.dev.vecSrcOp t op f = d'.vecIllegal t o.pc := by
  simp only [Dev.vecSrcOp, hready.vecRun, hsrc, hf]

variable {c : Instr} (hexec : exec c s = actUp s fun d => d.vecSrcOp t op f)
include hexec

theorem does_vecSrcOp_sets {v' : Vec} (hf : f o (vecAt s t) (maskedForm o.word) src = some v') : Does c s (d'.setVec t v') :=
  hready.vecSrcOp_sets hsrc hf ▸ does_of_actUp hready.up hexec

theorem does_vecSrcOp_traps (hf : f o (vecAt s t) (maskedForm o.word) src = none) : Does c s (d'.vecIllegal t o.pc) :=
  hready.vecSrcOp_traps hsrc hf ▸ does_of_actUp hready.up hexec

end

/-! ### Instructions of which none is refused -/

/-- A command carries out a custom-0 instruction that no state of the engine makes illegal: `g` gives the engine it
leaves. -/
def AlwaysSets (c : Nat → Instr) (op : Nat) (g : VecOp → Vec → Bool → (Nat → Nat) → Vec) : Prop :=
  ∀ (t : Nat) (s : State), exec (c t) s = actUp s fun d => d.vecSrcOp t op fun o v masked src => some (g o v masked src)

/-- The integer, float, comparison, mask, selection and conversion instructions that no state of the engine makes
illegal, with space and operation (07 R265). -/
def vecRegisterOps : List ((Nat → Instr) × Nat × Nat) :=
  vecIntOps.map (fun e => (e.1, 0, e.2.1)) ++ vecFloatOps.map (fun e => (e.1, 0, e.2.1)) ++
  vecCmpOps.map (fun e => (e.1, 0, e.2.1)) ++ vecMaskOps.map (fun e => (e.1, 0, e.2.1)) ++
  ([(.vSel, 0, 0x0E), (.vFmin, 0, 0x15), (.vFmax, 0, 0x16), (.vCvtif, 0, 0x30), (.vCvtfi, 0, 0x31)] : List ((Nat → Instr) × Nat × Nat))

theorem vecRegisterOps_alwaysSet : ∀ e ∈ vecRegisterOps, e.2.1 = 0 ∧ ∃ g, AlwaysSets e.1 e.2.2 g := by
  simp only [vecRegisterOps, List.forall_mem_append, List.forall_mem_map, true_and]
  refine ⟨⟨⟨⟨fun e he => ?_, fun e he => ⟨_, exec_vecFloatOps e he⟩⟩, fun e he => ⟨_, exec_vecCmpOps e he⟩⟩,
    fun e he => ⟨_, exec_vecMaskOps e he⟩⟩, ?_⟩
  · obtain ⟨f, hf⟩ := exec_vecIntOps e he
    exact ⟨_, hf⟩
  · simp only [List.forall_mem_cons, true_and]
    exact ⟨⟨_, fun _ _ => rfl⟩, ⟨_, fun _ _ => rfl⟩, ⟨_, fun _ _ => rfl⟩, ⟨_, fun _ _ => rfl⟩, ⟨_, fun _ _ => rfl⟩, nofun⟩

/-- A changed vector engine is the only difference. -/
theorem Dev.setVec_vecTaken_frame (d : Dev) (t : Nat) (v' : Vec) :
    (∀ k, k ≠ t → ((d.vecTaken t).setVec t v').tile k = d.tile k) ∧
    { ((d.vecTaken t).setVec t v').tile t with vec := (d.tile t).vec } = d.tile t := by
  refine ⟨fun k hk => ?_, ?_⟩
  · rw [Dev.setVec, Dev.modTile_tile_other _ _ hk, Dev.vecTaken, Dev.modTile_tile_other _ _ hk]
  · simp only [Dev.setVec, Dev.vecTaken, Dev.modTile_tile_same]

end Sys2Proof.Machine
end

section
/-! Vector instructions on registers leave memory and every other unit as they were (07 R261, R265). -/
namespace Sys2Proof.Machine

/-- Settling changes memory only. -/
theorem Dev.settle_frame (d : Dev) (tiles : Tbl Tile) (mem : Mem) :
    { d.settle with tiles := tiles, mem := mem } = { d with tiles := tiles, mem := mem } := rfl

/-- Changing a tile changes the tiles only. -/
theorem Dev.modTile_frame (d : Dev) (t : Nat) (f : Tile → Tile) (tiles : Tbl Tile) (mem : Mem) :
    { d.modTile t f with tiles := tiles, mem := mem } = { d with tiles := tiles, mem := mem } := rfl

/-- Settles O12: such an instruction reads its source without effect and then sets its tile's vector engine. -/
theorem vectorRegisterFrame : Obligations.VectorRegisterFrame := by
  unfold Obligations.VectorRegisterFrame
  intro e he s u t o hready hreg hexec
  obtain ⟨h0, g, hg⟩ := vecRegisterOps_alwaysSet e he
  obtain ⟨c, k, op⟩ := e
  obtain rfl : k = 0 := h0
  obtain ⟨src, hsrc⟩ := (s.dev.vecTaken t).vecSrc_register t (vecAt s t) hreg
  have hdoes := does_vecSrcOp_sets hready hsrc (hg t s) rfl
  rw [Does, hexec] at hdoes
  injection hdoes with hu
  subst hu
  obtain ⟨htiles, htile⟩ := s.dev.setVec_vecTaken_frame t (g o (vecAt s t) (maskedForm o.word) src)
  exact ⟨fun a => Dev.settle_byte _ a, rfl, htiles, htile,
    (Dev.settle_frame _ _ _).trans ((Dev.modTile_frame _ t _ _ _).trans (Dev.modTile_frame s.dev t _ _ _))⟩

end Sys2Proof.Machine
end

section
/-! Integer, selection, comparison and mask instructions (07 R265, R271). -/
namespace Sys2Proof.Machine

/-! ### Signed codes -/

/-- The code of a code's signed value is the code (00 R9). -/
theorem ofInt_toInt (n v : Nat) : ofInt n (toInt n v) = v % 2 ^ n := by
  have hlt : v % 2 ^ n < 2 ^ n := Nat.mod_lt _ (Nat.two_pow_pos n)
  have hself : ((v % 2 ^ n : Nat) : Int) % (2 ^ n : Nat) = (v % 2 ^ n : Nat) :=
    Int.emod_eq_of_lt (Int.natCast_nonneg _) (Int.ofNat_lt.2 hlt)
  unfold ofInt toInt
  dsimp only
  split
  · rw [hself, Int.toNat_natCast]
  · rw [Int.sub_emod_right, hself, Int.toNat_natCast]

theorem ofInt_mod (n : Nat) (x : Int) : ofInt n x % 2 ^ n = ofInt n x := by
  refine Nat.mod_eq_of_lt ?_
  have hpos : (0 : Int) < (2 ^ n : Nat) := Int.ofNat_lt.2 (Nat.two_pow_pos n)
  have := Int.emod_lt_of_pos x hpos
  have := Int.emod_nonneg x (Int.ne_of_gt hpos)
  unfold ofInt
  omega

/-- The lesser signed value is that of the operand that compares less (07 R265). -/
theorem ofInt_min (n a b : Nat) : ofInt n (min (toInt n a) (toInt n b)) % 2 ^ n = (if toInt n b < toInt n a then b else a) % 2 ^ n := by
  rw [ofInt_mod]
  split
  next h => rw [Int.min_eq_right (Int.le_of_lt h), ofInt_toInt]
  next h => rw [Int.min_eq_left (Int.not_lt.1 h), ofInt_toInt]

theorem ofInt_max (n a b : Nat) : ofInt n (max (toInt n a) (toInt n b)) % 2 ^ n = (if toInt n a < toInt n b then b else a) % 2 ^ n := by
  rw [ofInt_mod]
  split
  next h => rw [Int.max_eq_right (Int.le_of_lt h), ofInt_toInt]
  next h => rw [Int.max_eq_left (Int.not_lt.1 h), ofInt_toInt]

/-- A difference wraps as the sum with the two's complement does (07 R271). -/
theorem ofInt_sub (n a b : Nat) : ofInt n ((a : Int) - (b : Int)) % 2 ^ n = (a + (2 ^ n - b % 2 ^ n)) % 2 ^ n := by
  have hle : b % 2 ^ n ≤ 2 ^ n := Nat.le_of_lt (Nat.mod_lt _ (Nat.two_pow_pos n))
  have hcomm : ∀ x y z : Int, x + y - z = x - z + y := by omega
  have hdiff : ((a : Int) - b) % (2 ^ n : Nat) = ((a + (2 ^ n - b % 2 ^ n) : Nat) : Int) % (2 ^ n : Nat) := by
    rw [Int.natCast_add, Int.natCast_sub hle, Int.natCast_emod, ← Int.add_sub_assoc, Int.sub_emod_emod, hcomm, Int.add_emod_right]
  rw [ofInt_mod, ofInt, hdiff, ← Int.natCast_emod, Int.toNat_natCast]

/-! ### Element-wise instructions -/

/-- Each integer instruction computes, modulo 2^EW, its operation of vs2 and src (07 R265). -/
theorem exec_vecIntOps_computes : ∀ e ∈ vecIntOps, ∃ f, (∀ (t : Nat) (s : State), exec (e.1 t) s = actUp s fun d => d.vecInt t e.2.1 f) ∧
    ∀ ew a b, e.2.2 ew a b % 2 ^ ew = f ew a b % 2 ^ ew := by
  simp only [vecIntOps, List.forall_mem_cons]
  refine ⟨⟨_, fun _ _ => rfl, fun _ _ _ => rfl⟩, ⟨_, fun _ _ => rfl, ofInt_sub⟩, ⟨_, fun _ _ => rfl, fun _ _ _ => rfl⟩,
    ⟨_, fun _ _ => rfl, ofInt_min⟩, ⟨_, fun _ _ => rfl, ofInt_max⟩, ⟨_, fun _ _ => rfl, fun _ _ _ => rfl⟩,
    ⟨_, fun _ _ => rfl, fun _ _ _ => rfl⟩, ⟨_, fun _ _ => rfl, fun _ _ _ => rfl⟩, ⟨_, fun _ _ => rfl, fun _ _ _ => rfl⟩,
    ⟨_, fun _ _ => rfl, fun _ _ _ => rfl⟩, ⟨_, fun _ _ => rfl, fun ew a b => ?sll⟩, ⟨_, fun _ _ => rfl, fun ew a b => ?srl⟩,
    ⟨_, fun _ _ => rfl, fun ew a b => ?sra⟩, ⟨_, fun _ _ => rfl, fun _ _ _ => rfl⟩, ⟨_, fun _ _ => rfl, fun _ _ _ => rfl⟩,
    ⟨_, fun _ _ => rfl, fun _ _ _ => rfl⟩, nofun⟩
  case sll => rw [Nat.shiftLeft_eq]
  case srl => rw [Nat.shiftRight_eq_div_pow]
  case sra => rw [Int.natCast_pow]; rfl

section
variable {s : State} {t op : Nat} {o : VecOp} {d' : Dev} {src : Nat → Nat} {c : Instr} (hready : VecReady s t (0, op) o)
  (hsrc : (s.dev.vecTaken t).vecSrc t o (vecAt s t) = (d', .ok src))
include hready hsrc

theorem does_vecInt {f g : Nat → Nat → Nat → Nat} (hexec : exec c s = actUp s fun d => d.vecInt t op f)
    (hfg : ∀ ew a b, g ew a b % 2 ^ ew = f ew a b % 2 ^ ew) :
    ∃ v', Does c s (d'.setVec t v') ∧ { v' with v := (vecAt s t).v } = vecAt s t ∧
      Rewrites (vecAt s t) v' (rdOf o.word) ((vecAt s t).active (maskedForm o.word))
        (fun i => g (vecAt s t).ew (elemOf (vecAt s t).ew ((vecAt s t).reg (rs2Of o.word)) i) (src i)) := by
  refine ⟨_, does_vecSrcOp_sets hready hsrc hexec rfl, Vec.putElems_frame _ _ _ _, ?_⟩
  exact (rewrites_putElems _ _ _ _).congr (fun _ => rfl) fun i _ => by rw [hfg, Nat.mod_mod]

theorem does_vecFminmax {isMax : Bool} (hexec : exec c s = actUp s fun d => d.vecFminmax t op isMax) {enc : Nat → Enc}
    (henc : ∀ i, enc i = (vecAt s t).encCode (fminmaxCode (vecAt s t) isMax (elemOf (vecAt s t).ew ((vecAt s t).reg (rs2Of o.word)) i) (src i))) :
    ∃ v', Does c s (d'.setVec t v') ∧
      Rewrites (vecAt s t) v' (rdOf o.word) ((vecAt s t).active (maskedForm o.word)) (fun i => (enc i).code) ∧
      Counts (vecAt s t) v' (((vecAt s t).actives (maskedForm o.word)).map enc) false := by
  obtain rfl := funext henc
  exact ⟨_, does_vecSrcOp_sets hready hsrc hexec rfl, putEncs_actives _ _ false _ _⟩

theorem does_vecCmp {f : Vec → Nat → Nat → Bool} (hexec : exec c s = actUp s fun d => d.vecCmp t op f) :
    ∃ v', Does c s (d'.setVec t v') ∧ Remasks (vecAt s t) v' (rdOf o.word) ((vecAt s t).active (maskedForm o.word))
      (fun i => f (vecAt s t) (elemOf (vecAt s t).ew ((vecAt s t).reg (rs2Of o.word)) i) (src i)) := by
  refine ⟨_, does_vecSrcOp_sets hready hsrc hexec rfl, remasks_setMask fun i => ?_⟩
  simp only [bit_foldl_setBits, Vec.mem_actives]

end

/-- A mask instruction reads masks only, so no source fails it (07 R265). -/
theorem does_vecMask {s : State} {t op : Nat} {o : VecOp} {c : Instr} {f : Bool → Bool → Bool} (hready : VecReady s t (0, op) o)
    (hop : op ∈ vvOps) (hexec : exec c s = actUp s fun d => d.vecMask t op f) :
    ∃ v', Does c s ((s.dev.vecTaken t).setVec t v') ∧ Remasks (vecAt s t) v' (rdOf o.word) (fun i => decide (i < (vecAt s t).vl))
      (fun i => f (bit ((vecAt s t).mask (rs2Of o.word)) i) (bit ((vecAt s t).mask (rs1Of o.word)) i)) := by
  refine ⟨_, does_vecSrcOp_sets hready (Dev.vecSrc_vv _ t _ (hready.vvSource hop)) hexec rfl, remasks_setMask fun i => ?_⟩
  simp only [bit_foldl_setBits, List.mem_range, decide_eq_true_eq]

theorem vecMaskOps_vv : ∀ e ∈ vecMaskOps, e.2.1 ∈ vvOps := by
  simp only [vecMaskOps, vvOps, List.forall_mem_cons]
  decide

theorem exec_vSel (t : Nat) (s : State) : exec (.vSel t) s = execVSel t s := rfl
theorem exec_vFmin (t : Nat) (s : State) : exec (.vFmin t) s = execVFmin t s := rfl
theorem exec_vFmax (t : Nat) (s : State) : exec (.vFmax t) s = execVFmax t s := rfl

/-- Settles O5, from what each kind of instruction writes to the active elements or bits. -/
theorem vectorIntegersSelectsMasks : Obligations.VectorIntegersSelectsMasks := by
  unfold Obligations.VectorIntegersSelectsMasks
  refine ⟨fun e he s t o src d' hready hsrc => ?ints, ⟨?minmax, fun s t o src d' v hready hv hsrc => ?sel⟩,
    fun e he s t o src d' v hready hv hsrc => ?cmps, fun e he s t o v hready hv => ?masks⟩
  case ints =>
    obtain ⟨f, hexec, hf⟩ := exec_vecIntOps_computes e he
    exact does_vecInt hready hsrc (hexec t s) hf
  case minmax =>
    simp only [List.forall_mem_cons]
    refine ⟨fun s t o src d' v hready hv hsrc => ?_, fun s t o src d' v hready hv hsrc => ?_, nofun⟩ <;> subst hv
    · obtain ⟨v', hdoes, hwrites⟩ := does_vecFminmax hready hsrc (exec_vFmin t s) (fun _ => rfl)
      exact ⟨v', _, hdoes, fun _ => rfl, hwrites⟩
    · obtain ⟨v', hdoes, hwrites⟩ := does_vecFminmax hready hsrc (exec_vFmax t s) (fun _ => rfl)
      exact ⟨v', _, hdoes, fun _ => rfl, hwrites⟩
  case sel =>
    subst hv
    refine ⟨_, does_vecSrcOp_sets hready hsrc (exec_vSel t s) rfl, Vec.putElems_frame _ _ _ _, ?_⟩
    exact (rewrites_putElems _ _ _ _).congr (fun i => (Vec.active_unmasked _ i).symm) fun _ _ => rfl
  case cmps =>
    subst hv
    exact does_vecCmp hready hsrc (exec_vecCmpOps e he t s)
  case masks =>
    subst hv
    exact does_vecMask hready (vecMaskOps_vv e he) (exec_vecMaskOps e he t s)

end Sys2Proof.Machine
end

section
/-! Float instructions and conversions (07 R265, R266, R269 to R272). -/
namespace Sys2Proof.Machine

section
variable {s : State} {t op : Nat} {o : VecOp} (hready : VecReady s t (0, op) o)
include hready

/-- A float instruction rounds each exact value once (07 R269). -/
theorem does_vecFloat {d' : Dev} {src : Nat → Nat} {c : Instr} {f : FV → FV → FV → FV} {enc : Nat → Enc}
    (hsrc : (s.dev.vecTaken t).vecSrc t o (vecAt s t) = (d', .ok src)) (hexec : exec c s = actUp s fun d => d.vecFloat t op f)
    (henc : ∀ i, enc i = (vecAt s t).enc ((vecAt s t).mode i)
      (f ((vecAt s t).dec (elemOf (vecAt s t).ew ((vecAt s t).reg (rs2Of o.word)) i)) ((vecAt s t).dec (src i))
        ((vecAt s t).dec (elemOf (vecAt s t).ew ((vecAt s t).reg (rdOf o.word)) i)))) :
    ∃ v', Does c s (d'.setVec t v') ∧
      Rewrites (vecAt s t) v' (rdOf o.word) ((vecAt s t).active (maskedForm o.word)) (fun i => (enc i).code) ∧
      Counts (vecAt s t) v' (((vecAt s t).actives (maskedForm o.word)).map enc) (!((vecAt s t).actives (maskedForm o.word)).isEmpty) := by
  obtain rfl := funext henc
  exact ⟨_, does_vecSrcOp_sets hready hsrc hexec rfl, putEncs_actives _ _ true _ _⟩

/-- A conversion of register vs1 whose function gives the rounded results `enc` writes and counts them. -/
theorem does_vecConvert {c : Instr} {f : VecOp → Vec → Bool → (Nat → Nat) → Option Vec} {enc : Nat → Enc} (hop : op ∈ vvOps)
    (hexec : exec c s = actUp s fun d => d.vecSrcOp t op f)
    (hf : f o (vecAt s t) (maskedForm o.word) (fun i => elemOf (vecAt s t).ew ((vecAt s t).reg (rs1Of o.word)) i) =
      some ((vecAt s t).putEncs (rdOf o.word) true (((vecAt s t).actives (maskedForm o.word)).map fun i => (i, enc i)))) :
    ∃ v', Does c s ((s.dev.vecTaken t).setVec t v') ∧
      Rewrites (vecAt s t) v' (rdOf o.word) ((vecAt s t).active (maskedForm o.word)) (fun i => (enc i).code) ∧
      Counts (vecAt s t) v' (((vecAt s t).actives (maskedForm o.word)).map enc) (!((vecAt s t).actives (maskedForm o.word)).isEmpty) :=
  ⟨_, does_vecSrcOp_sets hready (Dev.vecSrc_vv _ t _ (hready.vvSource hop)) hexec hf, putEncs_actives _ _ true _ _⟩

end

theorem exec_vCvtif (t : Nat) (s : State) : exec (.vCvtif t) s = execVCvtif t s := rfl
theorem exec_vCvtfi (t : Nat) (s : State) : exec (.vCvtfi t) s = execVCvtfi t s := rfl
theorem exec_vCvtff (t : Nat) (s : State) : exec (.vCvtff t) s = execVCvtff t s := rfl

/-- Settles O6, from what float instructions and conversions write and count. -/
theorem vectorFloatsAndConversions : Obligations.VectorFloatsAndConversions := by
  unfold Obligations.VectorFloatsAndConversions
  refine ⟨fun e he s t o src d' v el enc hready hv hsrc hel henc => ?floats, fun s t o v enc c op hready hv hc => ?conversions,
    fun s t o hready hwide => ?illegal⟩
  case floats =>
    subst hv
    simp only [hel] at henc
    exact does_vecFloat hready hsrc (exec_vecFloatOps e he t s) henc
  case conversions =>
    subst hv
    obtain ⟨rfl, rfl, henc⟩ | ⟨rfl, rfl, henc⟩ | ⟨rfl, rfl, hfits, henc⟩ := hc
    all_goals obtain rfl := funext henc
    · exact does_vecConvert hready (by decide) (exec_vCvtif t s) rfl
    · exact does_vecConvert hready (by decide) (exec_vCvtfi t s) rfl
    · exact does_vecConvert hready (by decide) (exec_vCvtff t s) (if_neg (Nat.not_lt.2 hfits))
  case illegal =>
    exact does_vecSrcOp_traps hready (Dev.vecSrc_vv _ t _ (hready.vvSource (by decide))) (exec_vCvtff t s) (if_pos hwide)

end Sys2Proof.Machine
end

section
/-! Reductions of a tile of eight registers (07 R280 to R286). -/
namespace Sys2Proof.Machine

/-! ### V.REDCOL -/

theorem exec_vRedcol (t : Nat) (s : State) : exec (.vRedcol t) s = execVRedcol t s := rfl

section
variable {s : State} {t : Nat} {o : VecOp} (hready : VecReady s t (0, 0x35) o)
include hready

theorem does_vRedcol_traw (hok : redOk (rs2Of o.word) (vecAt s t).ew (vecAt s t).vl = true) (hkind : rs2Of o.word = 4) :
    Does (.vRedcol t) s ((s.dev.vecTaken t).setVec t ((vecAt s t).traw (rdOf o.word) (rs1Of o.word) (maskedForm o.word))) := by
  refine does_vecSrcOp_sets hready (Dev.vecSrc_vv _ t _ (hready.vvSource (by decide))) (exec_vRedcol t s) ?_
  simp only [hok, Bool.not_true, Bool.false_eq_true, if_false, if_pos hkind]

theorem does_vRedcol (hok : redOk (rs2Of o.word) (vecAt s t).ew (vecAt s t).vl = true) (hkind : rs2Of o.word ≠ 4) {enc : Nat → Enc}
    (henc : ∀ i, enc i = (vecAt s t).reduce (rs2Of o.word) i 0
      (if rs2Of o.word = 0 then (vecAt s t).fsumCol ((List.range 8).map (fun r => elemOf (vecAt s t).ew ((vecAt s t).reg (rs1Of o.word + r)) i))
        else ⟨0, false, false⟩)
      ((List.range 8).map (fun r => (r, elemOf (vecAt s t).ew ((vecAt s t).reg (rs1Of o.word + r)) i)))) :
    ∃ v', Does (.vRedcol t) s ((s.dev.vecTaken t).setVec t v') ∧
      Rewrites (vecAt s t) v' (rdOf o.word) ((vecAt s t).active (maskedForm o.word)) (fun i => (enc i).code) ∧
      Counts (vecAt s t) v' (((vecAt s t).actives (maskedForm o.word)).map enc)
        (rs2Of o.word == 2 && !((vecAt s t).actives (maskedForm o.word)).isEmpty) := by
  refine ⟨_, does_vecSrcOp_sets hready (Dev.vecSrc_vv _ t _ (hready.vvSource (by decide))) (exec_vRedcol t s) ?_,
    putEncs_actives _ _ _ _ enc⟩
  simp only [hok, Bool.not_true, Bool.false_eq_true, if_false, if_neg hkind, henc, List.map_map]
  rfl

theorem does_vRedcol_traps (hok : redOk (rs2Of o.word) (vecAt s t).ew (vecAt s t).vl = false) :
    Does (.vRedcol t) s ((s.dev.vecTaken t).vecIllegal t o.pc) := by
  refine does_vecSrcOp_traps hready (Dev.vecSrc_vv _ t _ (hready.vvSource (by decide))) (exec_vRedcol t s) ?_
  simp only [hok, Bool.not_false, if_true]

end

/-! ### V.REDROW -/

/-- The engine that V.REDROW leaves, none where the width is not the kind's: `free` stands for the extreme of no
elements (07 R281, R285). -/
def redrowOf (free : Nat) (o : VecOp) (v : Vec) (masked : Bool) : Option Vec :=
  if !redOk (rs2Of o.word) v.ew v.vl then none
  else if rs2Of o.word = 3 then some (v.tsumr (rdOf o.word) (rs1Of o.word) masked)
  else some (v.putEncs (rdOf o.word) (rs2Of o.word == 2) ((List.range 8).map fun r =>
    (r, v.reduce (rs2Of o.word) r (free % 2 ^ v.ew)
      (if rs2Of o.word = 0 then v.fsumRow (v.active masked) (fun i => elemOf v.ew (v.reg (rs1Of o.word + r)) i) else ⟨0, false, false⟩)
      ((v.actives masked).map (fun i => (i, elemOf v.ew (v.reg (rs1Of o.word + r)) i))))))

/-- Drawing a free value changes nothing that an instruction at the head of a queue depends on. -/
theorem VecReady.draw {s : State} {t : Nat} {key : Nat × Nat} {o : VecOp} (h : VecReady s t key o) :
    VecReady { s with dev := s.dev.draw } t key o := h

/-- V.REDROW draws the free value and then sets the engine (07 R281). -/
theorem does_vRedrow_draws {s : State} {t : Nat} {o : VecOp} (hready : VecReady s t (0, 0x34) o) :
    Does (.vRedrow t) s (s.dev.draw.vecSrcOp t 0x34 fun o v masked _ => redrowOf (Config.freeValue s.dev.fresh).toNat o v masked) := by
  have hdoes := does_of_actUp hready.up (exec_vRedrow t s)
  obtain ⟨-, hhead, hlegal, hvl, -⟩ := hready
  have hvl : (s.dev.tile t).vec.vl ≠ 0 := by simpa [vecAt, Dev.vecTaken] using hvl
  have hdraw : ((s.dev.vecHead t (0, 0x34)).any (fun o => vecLegal o.word) && decide ((s.dev.tile t).vec.vl ≠ 0)) = true := by
    simp [hhead, hlegal, hvl]
  simp only [hdraw, if_true] at hdoes
  exact hdoes

section
variable {s : State} {t : Nat} {o : VecOp} (hready : VecReady s t (0, 0x34) o)
include hready

theorem does_vRedrow_sets {v' : Vec} (h : redrowOf (Config.freeValue s.dev.fresh).toNat o (vecAt s t) (maskedForm o.word) = some v') :
    Does (.vRedrow t) s ((s.dev.draw.vecTaken t).setVec t v') := by
  have hdoes := does_vRedrow_draws hready
  rwa [hready.draw.vecSrcOp_sets (Dev.vecSrc_vv _ t _ (hready.vvSource (by decide))) h] at hdoes

theorem does_vRedrow_traps (hok : redOk (rs2Of o.word) (vecAt s t).ew (vecAt s t).vl = false) :
    Does (.vRedrow t) s ((s.dev.draw.vecTaken t).vecIllegal t o.pc) := by
  have hnone : redrowOf (Config.freeValue s.dev.fresh).toNat o (vecAt s t) (maskedForm o.word) = none := by
    rw [redrowOf, hok]; rfl
  have hdoes := does_vRedrow_draws hready
  rwa [hready.draw.vecSrcOp_traps (Dev.vecSrc_vv _ t _ (hready.vvSource (by decide))) hnone] at hdoes

end

/-! ### Widths -/

/-- The widths and lengths that a reduction kind does not take (07 R280, R286). -/
theorem redOk_false (kind ew vl : Nat) : redOk kind ew vl = false ↔
    (kind = 2 ∧ ew = 64) ∨ (kind = 3 ∧ ew ≠ 32) ∨ (kind = 4 ∧ (ew ≠ 32 ∨ vl % 4 ≠ 0)) := by
  unfold redOk
  split
  next h => simp [h]
  split
  next h => simp [h]
  split
  next h => simp [h, Decidable.imp_iff_not_or]
  next h2 h3 h4 => simp [h2, h3, h4]

/-- Settles O7, from the engine that each reduction leaves. -/
theorem vectorReductions : Obligations.VectorReductions := by
  unfold Obligations.VectorReductions
  refine ⟨fun s t o v hready hv hok => ⟨fun hkind => ?tsumr, fun hkind enc henc => ?rows⟩,
    fun s t o v hready hv hok => ⟨fun hkind => ?traw, fun hkind enc henc => ?columns⟩,
    fun s t o hok => ⟨fun hready => does_vRedrow_traps hready hok, fun hready => does_vRedcol_traps hready hok⟩, redOk_false⟩
  all_goals subst hv
  case tsumr => exact does_vRedrow_sets hready (by rw [redrowOf, hok, if_pos hkind]; rfl)
  case rows =>
    obtain rfl := funext henc
    obtain ⟨hrew, hcounts⟩ := putEncs_indexed (vecAt s t) (rdOf o.word) (rs2Of o.word == 2) (List.range 8) _
    rw [show (!(List.range 8).isEmpty) = true from rfl, Bool.and_true] at hcounts
    refine ⟨_, does_vRedrow_sets hready (by rw [redrowOf, hok, if_neg hkind]; rfl), ?_, hcounts⟩
    exact hrew.congr (fun i => by simp) fun _ _ => rfl
  case traw => exact does_vRedcol_traw hready hok hkind
  case columns => exact does_vRedcol hready hok hkind henc

end Sys2Proof.Machine
end

section
/-! Vector instructions while VL is 0 (07 R260). -/
namespace Sys2Proof.Machine

/-- The keys of V.SETA, V.SEED and V.SETL, which act whatever VL is (07 R260). -/
def configKeys : List (Nat × Nat) := [(0, 0x3C), (0, 0x3E), (0, 0x3F)]

/-- A command whose key is `key` takes an assigned encoding from the head of the queue while VL is 0, and does nothing
else. -/
def IdlesAtZero (c : Nat → Instr) (key : Nat × Nat) : Prop :=
  ∀ (s : State) (t : Nat) (o : VecOp), Up s → s.dev.vecHead t key = some o → vecLegal o.word = true → (vecAt s t).vl = 0 →
    Does (c t) s (s.dev.vecTaken t)

/-- While VL is 0 an instruction that is no configuration is only taken (07 R260). -/
theorem Dev.vecRun_zero {d : Dev} {t : Nat} {key : Nat × Nat} {o : VecOp} (f : Dev → VecOp → Vec → Dev) (hhead : d.vecHead t key = some o)
    (hlegal : vecLegal o.word = true) (hvl : ((d.vecTaken t).tile t).vec.vl = 0) (hkey : key ∉ configKeys) :
    d.vecRun t key f = d.vecTaken t := by
  have hidle : (decide (((d.vecTaken t).tile t).vec.vl = 0) && !(decide (key = (0, 0x3C)) || decide (key = (0, 0x3E)) || decide (key = (0, 0x3F)))) = true := by
    simp only [configKeys, List.mem_cons, List.not_mem_nil, or_false, not_or] at hkey
    simp [hvl, hkey]
  simp only [Dev.vecRun, hhead, hlegal, Bool.not_true, Bool.false_eq_true, if_false]
  exact if_pos hidle

section
variable {c : Nat → Instr} {op : Nat}

theorem IdlesAtZero.of_vecSrcOp {f : VecOp → Vec → Bool → (Nat → Nat) → Option Vec}
    (h : ∀ (t : Nat) (s : State), exec (c t) s = actUp s fun d => d.vecSrcOp t op f) (hkey : (0, op) ∉ configKeys) : IdlesAtZero c (0, op) :=
  fun s t _ hup hhead hlegal hvl => Dev.vecRun_zero _ hhead hlegal hvl hkey ▸ does_of_actUp hup (h t s)

theorem IdlesAtZero.of_vecScalar {f : VecOp → Vec → Vec × Nat × Bool}
    (h : ∀ (t : Nat) (s : State), exec (c t) s = actUp s fun d => d.vecScalar t op f) (hkey : (0, op) ∉ configKeys) : IdlesAtZero c (0, op) :=
  fun s t _ hup hhead hlegal hvl => Dev.vecRun_zero _ hhead hlegal hvl hkey ▸ does_of_actUp hup (h t s)

theorem IdlesAtZero.of_vecRun3 {ok : Vec → Bool} {f : Nat → Dev → VecOp → Vec → Dev}
    (h : ∀ (t : Nat) (s : State), exec (c t) s = actUp s fun d => d.vecRun3 t op ok (f t)) : IdlesAtZero c (3, op) :=
  fun s t _ hup hhead hlegal hvl => Dev.vecRun_zero _ hhead hlegal hvl (by simp [configKeys]) ▸ does_of_actUp hup (h t s)

theorem Dev.vecSf_zero {d : Dev} {t slot : Nat} {o : VecOp} (hhead : d.vecHead t (3, 0x40 + slot) = some o)
    (hlegal : vecLegal o.word = true) (hvl : ((d.vecTaken t).tile t).vec.vl = 0) : d.vecSf t slot = d.vecTaken t := by
  rw [Dev.vecSf, Dev.vecRun3, Dev.vecRun_zero _ hhead hlegal hvl (by simp [configKeys])]

end

/-- V.REDROW draws no free value while VL is 0. -/
theorem vRedrow_idlesAtZero : IdlesAtZero .vRedrow (0, 0x34) := by
  intro s t o hup hhead hlegal hvl
  have hdoes := does_of_actUp hup (exec_vRedrow t s)
  have hvl' : (s.dev.tile t).vec.vl = 0 := by simpa [vecAt, Dev.vecTaken] using hvl
  simp only [hvl', ne_eq, not_true_eq_false, decide_false, Bool.and_false, Bool.false_eq_true, if_false] at hdoes
  rwa [Dev.vecSrcOp, Dev.vecRun_zero _ hhead hlegal hvl (by decide)] at hdoes

/-- Every vector command but the configurations idles while VL is 0 (07 R260). -/
theorem vecCommands_idleAtZero : ∀ e ∈ vecCommands, IdlesAtZero e.1 e.2 := by
  have hkeys : (∀ e ∈ vecIntOps, (0, e.2.1) ∉ configKeys) ∧ (∀ e ∈ vecFloatOps, (0, e.2.1) ∉ configKeys) ∧
      (∀ e ∈ vecCmpOps, (0, e.2.1) ∉ configKeys) ∧ ∀ e ∈ vecMaskOps, (0, e.2.1) ∉ configKeys := by decide
  obtain ⟨hint, hfloat, hcmp, hmask⟩ := hkeys
  simp only [vecCommands, List.forall_mem_append, List.forall_mem_map]
  refine ⟨⟨⟨⟨⟨fun e he => ?_, fun e he => .of_vecSrcOp (exec_vecFloatOps e he) (hfloat e he)⟩,
    fun e he => .of_vecSrcOp (exec_vecCmpOps e he) (hcmp e he)⟩, fun e he => .of_vecSrcOp (exec_vecMaskOps e he) (hmask e he)⟩, ?_⟩,
    fun e he s t o hup hhead hlegal hvl => Dev.vecSf_zero hhead hlegal hvl ▸ does_of_actUp hup (exec_vecSfOps e he t s)⟩
  · obtain ⟨f, hf⟩ := exec_vecIntOps e he
    exact .of_vecSrcOp hf (hint e he)
  · simp only [List.forall_mem_cons]
    exact ⟨.of_vecSrcOp (fun _ _ => rfl) (by decide), vRedrow_idlesAtZero, .of_vecSrcOp (fun _ _ => rfl) (by decide),
      .of_vecSrcOp (fun _ _ => rfl) (by decide), .of_vecSrcOp (fun _ _ => rfl) (by decide), .of_vecSrcOp (fun _ _ => rfl) (by decide),
      .of_vecSrcOp (fun _ _ => rfl) (by decide), .of_vecSrcOp (fun _ _ => rfl) (by decide), .of_vecScalar (fun _ _ => rfl) (by decide),
      .of_vecScalar (fun _ _ => rfl) (by decide), .of_vecScalar (fun _ _ => rfl) (by decide), .of_vecScalar (fun _ _ => rfl) (by decide),
      .of_vecScalar (fun _ _ => rfl) (by decide), .of_vecRun3 fun _ _ => rfl, .of_vecRun3 fun _ _ => rfl, .of_vecRun3 fun _ _ => rfl,
      .of_vecRun3 fun _ _ => rfl, .of_vecRun3 fun _ _ => rfl, .of_vecRun3 fun _ _ => rfl, .of_vecRun3 fun _ _ => rfl,
      .of_vecRun3 fun _ _ => rfl, .of_vecRun3 fun _ _ => rfl, .of_vecRun3 fun _ _ => rfl, .of_vecRun3 fun _ _ => rfl, nofun⟩

/-- Settles O11: the instruction is taken from the queue, and not carried out. -/
theorem vectorNoOpAtZeroLength : Obligations.VectorNoOpAtZeroLength := by
  unfold Obligations.VectorNoOpAtZeroLength
  refine ⟨fun e he s t o => vecCommands_idleAtZero e he s t o, fun s t slot o hslot _ hup hhead hlegal hvl => ?_⟩
  exact Dev.vecSf_zero hhead hlegal hvl ▸ does_vSfImageSlot hup hslot hhead

end Sys2Proof.Machine
end

section
/-! Special functions (07 R289 to R294). -/
namespace Sys2Proof.Machine

/-! ### Custom-3 instructions -/

section
variable {s : State} {t f7 : Nat} {o : VecOp} {ok : Vec → Bool} (hready : VecReady s t (3, f7) o) (f : Dev → VecOp → Vec → Dev)
include hready

/-- A custom-3 instruction is carried out where the state of the engine allows it. -/
theorem VecReady.vecRun3_acts (hok : ok (vecAt s t) = true) : s.dev.vecRun3 t f7 ok f = f (s.dev.vecTaken t) o (vecAt s t) := by
  rw [Dev.vecRun3, hready.vecRun, if_pos hok]

/-- Elsewhere it is an illegal instruction (07 R294, R296, R298, R302). -/
theorem VecReady.vecRun3_traps (hok : ok (vecAt s t) = false) : s.dev.vecRun3 t f7 ok f = (s.dev.vecTaken t).vecIllegal t o.pc := by
  rw [Dev.vecRun3, hready.vecRun, if_neg (ne_true_of_eq_false hok)]

variable {c : Instr} {f}

theorem does_vecRun3_acts (hexec : exec c s = actUp s fun d => d.vecRun3 t f7 ok f) (hok : ok (vecAt s t) = true) :
    Does c s (f (s.dev.vecTaken t) o (vecAt s t)) :=
  hready.vecRun3_acts f hok ▸ does_of_actUp hready.up hexec

theorem does_vecRun3_traps (hexec : exec c s = actUp s fun d => d.vecRun3 t f7 ok f) (hok : ok (vecAt s t) = false) :
    Does c s ((s.dev.vecTaken t).vecIllegal t o.pc) :=
  hready.vecRun3_traps f hok ▸ does_of_actUp hready.up hexec

end

/-! ### V.SF -/

/-- V.SF of a shipped slot, and of an image slot whose instruction is at the head of the queue (07 R289). -/
theorem does_vecSf {c : Nat → Instr} {slot : Nat} {s : State} {t : Nat} {o : VecOp} (hup : Up s)
    (hc : (c, slot) ∈ vecSfOps ∨ (c = (fun t => .vSfImageSlot t) ∧ 16 ≤ slot ∧ slot < 64)) (hhead : s.dev.vecHead t (3, 0x40 + slot) = some o) :
    Does (c t) s (s.dev.vecSf t slot) := by
  rcases hc with hc | ⟨rfl, hslot, -⟩
  · exact does_of_actUp hup (exec_vecSfOps _ hc t s)
  · exact does_vSfImageSlot hup hslot hhead

theorem vecSfOps_slot : ∀ e ∈ vecSfOps, e.2 < 16 := by decide

/-- Where V.SF of a slot is legal: not at EW 64, the slot loaded, and a loaded function's width supported (07 R294). -/
def sfLegal (x : Tile) (slot : Nat) (v : Vec) : Bool :=
  v.narrow && bit x.sfLoaded slot && (decide (slot < 16) || Config.slotSupports x.sfVersion slot v.ew)

theorem sfLegal_true {x : Tile} {slot : Nat} {v : Vec} (hew : v.ew ≠ 64) (hloaded : bit x.sfLoaded slot = true)
    (hwidth : 16 ≤ slot → Config.slotSupports x.sfVersion slot v.ew = true) : sfLegal x slot v = true := by
  rcases Nat.lt_or_ge slot 16 with h | h
  · simp [sfLegal, Vec.narrow, hew, hloaded, h]
  · simp [sfLegal, Vec.narrow, hew, hloaded, hwidth h]

theorem sfLegal_false {x : Tile} {slot : Nat} {v : Vec}
    (h : v.ew = 64 ∨ bit x.sfLoaded slot = false ∨ (16 ≤ slot ∧ Config.slotSupports x.sfVersion slot v.ew = false)) :
    sfLegal x slot v = false := by
  rcases h with h | h | ⟨hslot, h⟩
  · simp [sfLegal, Vec.narrow, h]
  · simp [sfLegal, h]
  · simp [sfLegal, h, Nat.not_lt.2 hslot]

/-- Settles O10, from where V.SF of a slot is legal. -/
theorem vectorSpecialFunctions : Obligations.VectorSpecialFunctions := by
  unfold Obligations.VectorSpecialFunctions
  intro c slot s t o v enc hc hv hready henc
  subst hv
  obtain rfl := funext henc
  obtain ⟨hup, hhead, -⟩ := id hready
  have hdoes := does_vecSf hup hc hhead
  refine ⟨fun hew hloaded hwidth => ⟨_, ?_, putEncs_actives _ _ false _ _⟩, fun hillegal => ?_⟩
  · have hrun : s.dev.vecSf t slot = _ := hready.vecRun3_acts _ (sfLegal_true hew hloaded hwidth)
    rwa [hrun] at hdoes
  · have hrun : s.dev.vecSf t slot = _ := hready.vecRun3_traps _ (sfLegal_false hillegal)
    rwa [hrun] at hdoes

end Sys2Proof.Machine
end

section
/-! Loads of a tile from its own local memory, and element loads and stores in order (05 R209; 07 R273, R277,
R278). -/
namespace Sys2Proof.Machine

/-! ### Local memory -/

theorem Dev.note_tiles (d : Dev) (code loc : Nat) (vs : List (Nat × Nat)) : (d.note code loc vs).tiles = d.tiles := by
  obtain ⟨⟨l, p, rs, h⟩, -⟩ := d.note_logsOnly code loc vs
  rw [h]

/-- Recording an uncorrectable unit touches no tile (03 R118). -/
theorem Dev.notePoison_tiles (d : Dev) (pa : Nat) : (d.notePoison pa).tiles = d.tiles := by
  have hcounted : ∀ (d : Dev) (code loc : Nat) (vs : List (Nat × Nat)) (f : Fld) (i : Nat),
      ((d.note code loc vs).addSat f 1 i).tiles = d.tiles := fun d code loc vs f i =>
    (Dev.put_tiles _ f _ i).trans (d.note_tiles code loc vs)
  unfold Dev.notePoison
  dsimp only
  split
  · rw [Dev.modStack, hcounted]
  · rw [Dev.modDeck, hcounted]
  · rw [Dev.note_tiles]

theorem Dev.findCold_tiles (d : Dev) (us : List Nat) : (d.findCold us).tiles = d.tiles := by
  unfold Dev.findCold
  split
  · rfl
  · refine foldl_keeps Dev.tiles (fun d1 u => ?_) us d
    split
    · exact d1.notePoison_tiles u
    · rfl

/-- Meeting the memory of a read touches no tile (03 R118). -/
theorem Dev.meet_tiles (d : Dev) (pa len : Nat) : (d.meet pa len).tiles = d.tiles := by
  unfold Dev.meet
  split
  · rfl
  · exact d.findCold_tiles _

section
variable {d d1 : Dev} {t va align len kind : Nat}

/-- An address of segment 0xF that decodes lies in the tile's own local memory (05 R209). -/
theorem Dev.tileXlate_local {r : XOk} (hseg : va / 2 ^ 60 = 15) (h : d.tileXlate t va align len kind = (d1, .ok r)) :
    d1 = d ∧ va % 2 ^ 60 < 2 ^ 20 ∧ r = localOk (localBase t + va % 2 ^ 60) := by
  unfold Dev.tileXlate at h
  dsimp only at h
  split at h
  · cases h
  · split at h
    next hin =>
      cases h
      exact ⟨rfl, hin, rfl⟩
    next => cases h

theorem pool_le_localBase (t off : Nat) : 2 ^ 40 ≤ localBase t + off := by
  rw [localBase]
  omega

/-- Memory outside the pool is in no cache of the cluster, so a read of it only meets its home (03 R96). -/
theorem Dev.tileRead_uncached (d : Dev) (t ctx va len : Nat) {r : XOk} (hpa : 2 ^ 40 ≤ r.pa) (hshared : r.hostShared = false) :
    (d.tileRead t ctx va r len).1.tiles = d.tiles := by
  simp only [Dev.tileRead, hpa, hshared, decide_true, Bool.true_or, if_true, Bool.false_eq_true, if_false]
  exact d.meet_tiles _ _

/-- A load from segment 0xF that succeeds lies in local memory and touches no tile. -/
theorem Dev.tileLoad_local {bs : List Byte} (hseg : va / 2 ^ 60 = 15) (h : d.tileLoad t va align len kind = (d1, .ok bs)) :
    va % 2 ^ 60 < 2 ^ 20 ∧ d1.tiles = d.tiles := by
  unfold Dev.tileLoad at h
  split at h
  next => cases h
  next d2 r hx =>
    obtain ⟨rfl, hin, rfl⟩ := Dev.tileXlate_local hseg hx
    have hread := d2.tileRead_uncached t (d2.tileCtx t) va len (r := localOk _) (pool_le_localBase t (va % 2 ^ 60)) rfl
    split at h
    next d3 bs' hr =>
      cases h
      rw [hr] at hread
      exact ⟨hin, hread⟩
    next => cases h

end

/-! ### Element loads -/

/-- Loads of elements at their addresses that all succeed, one after another: they give `vs` and leave `d'`. -/
def LoadedElems (t ew : Nat) : List (Nat × Nat) → Dev → Dev → List (Nat × Nat) → Prop
  | [], d, d', vs => d' = d ∧ vs = []
  | e :: rest, d, d', vs => ∃ d1 bs r, d.tileLoad t e.2 (ew / 8) (ew / 8) 1 = (d1, .ok bs) ∧ LoadedElems t ew rest d1 d' r ∧
      vs = (e.1, leNat bs) :: r

/-- One step of `Dev.loadElems`. -/
def Dev.loadStep (t ew : Nat) (acc : Dev × List (Nat × Nat) × Option (TFault × Nat)) (e : Nat × Nat) :
    Dev × List (Nat × Nat) × Option (TFault × Nat) :=
  match acc.2.2 with
  | some _ => acc
  | none =>
    match acc.1.tileLoad t e.2 (ew / 8) (ew / 8) 1 with
    | (d, .ok bs) => (d, acc.2.1 ++ [(e.1, leNat bs)], none)
    | (d, .error x) => (d, acc.2.1, some (x, e.2))

theorem Dev.loadElems_eq (d : Dev) (t ew : Nat) (els : List (Nat × Nat)) :
    d.loadElems t ew els = els.foldl (Dev.loadStep t ew) (d, [], none) := rfl

section
variable {t ew : Nat} {els : List (Nat × Nat)} {d d' : Dev} {vs : List (Nat × Nat)}

/-- A failure ends the loads. -/
theorem foldl_loadStep_failed (els : List (Nat × Nat)) (d : Dev) (vs : List (Nat × Nat)) (x : TFault × Nat) :
    els.foldl (Dev.loadStep t ew) (d, vs, some x) = (d, vs, some x) := by
  induction els with
  | nil => rfl
  | cons e rest ih => exact ih

theorem loadedElems_of_foldl {acc : List (Nat × Nat)} (h : els.foldl (Dev.loadStep t ew) (d, acc, none) = (d', vs, none)) :
    ∃ r, vs = acc ++ r ∧ LoadedElems t ew els d d' r := by
  induction els generalizing d acc with
  | nil =>
    cases h
    exact ⟨[], (List.append_nil _).symm, rfl, rfl⟩
  | cons e rest ih =>
    rw [List.foldl_cons, Dev.loadStep] at h
    dsimp only at h
    split at h
    next d1 bs hload =>
      obtain ⟨r, hvs, hrest⟩ := ih h
      exact ⟨(e.1, leNat bs) :: r, by rw [hvs, List.append_assoc]; rfl, d1, bs, r, hload, hrest, rfl⟩
    next d1 x hload =>
      rw [foldl_loadStep_failed] at h
      cases h

theorem loadedElems_of_loadElems (h : d.loadElems t ew els = (d', vs, none)) : LoadedElems t ew els d d' vs := by
  rw [Dev.loadElems_eq] at h
  obtain ⟨r, rfl, hloaded⟩ := loadedElems_of_foldl h
  exact hloaded

/-- A value is loaded for each element. -/
theorem LoadedElems.keys (h : LoadedElems t ew els d d' vs) : vs.map Prod.fst = els.map Prod.fst := by
  induction els generalizing d vs with
  | nil => rw [h.2]
  | cons e rest ih =>
    obtain ⟨d1, bs, r, -, hrest, rfl⟩ := h
    rw [List.map_cons, List.map_cons, ih hrest]

/-- Each element's load has succeeded. -/
theorem LoadedElems.each (h : LoadedElems t ew els d d' vs) : ∀ e ∈ els, ∃ d1 d2 bs, Dev.tileLoad d1 t e.2 (ew / 8) (ew / 8) 1 = (d2, .ok bs) := by
  induction els generalizing d vs with
  | nil => nofun
  | cons e rest ih =>
    obtain ⟨d1, bs, r, hload, hrest, -⟩ := h
    exact List.forall_mem_cons.2 ⟨⟨d, d1, bs, hload⟩, ih hrest⟩

/-- Loads from segment 0xF touch no tile. -/
theorem LoadedElems.tiles (h : LoadedElems t ew els d d' vs) (hseg : ∀ e ∈ els, e.2 / 2 ^ 60 = 15) : d'.tiles = d.tiles := by
  induction els generalizing d vs with
  | nil => rw [h.1]
  | cons e rest ih =>
    obtain ⟨hhead, hrest⟩ := List.forall_mem_cons.1 hseg
    obtain ⟨d1, bs, r, hload, htail, -⟩ := h
    rw [ih htail hrest, (Dev.tileLoad_local hhead hload).2]

/-- Elements in a row from a slot of the operand cache lie in local memory if all can be loaded: the first one past
its end could not (05 R209; 07 R278). -/
theorem LoadedElems.slot_local {slot n : Nat} (hslot : slot < 64) (hew : ew / 8 ∣ 1024) (hpos : 0 < ew / 8)
    (h : LoadedElems t ew ((List.range n).map fun i => (i, slotVa slot + i * (ew / 8))) d d' vs) :
    ∀ e ∈ (List.range n).map fun i => (i, slotVa slot + i * (ew / 8)), e.2 / 2 ^ 60 = 15 := by
  obtain ⟨k, hk⟩ := hew
  have hlast : n ≤ (1024 - slot) * k := by
    refine Nat.le_of_not_lt fun hn => ?_
    obtain ⟨d1, d2, bs, hload⟩ := h.each _ (List.mem_map_of_mem (List.mem_range.2 hn))
    have hend : slotVa slot + (1024 - slot) * k * (ew / 8) = 15 * 2 ^ 60 + 2 ^ 20 := by
      rw [slotVa, Nat.mul_assoc, Nat.mul_comm k, ← hk]
      omega
    dsimp only at hload
    rw [hend] at hload
    obtain ⟨hin, -⟩ := Dev.tileLoad_local (by decide) hload
    exact absurd hin (by decide)
  intro e he
  obtain ⟨i, hi, rfl⟩ := List.mem_map.1 he
  have hbytes : (i + 1) * (ew / 8) ≤ (1024 - slot) * 1024 := by
    calc (i + 1) * (ew / 8) ≤ (1024 - slot) * k * (ew / 8) := Nat.mul_le_mul_right _ (Nat.le_trans (List.mem_range.1 hi) hlast)
      _ = (1024 - slot) * 1024 := by rw [Nat.mul_assoc, Nat.mul_comm k, ← hk]
  rw [Nat.add_mul, Nat.one_mul] at hbytes
  dsimp only [slotVa]
  omega

end

/-! ### Stores -/

/-- Stores that all succeed are carried out in order. -/
theorem Dev.storeParts_all {t : Nat} (o : VecOp) {parts : List (Nat × List Byte)} {d d' : Dev} (h : StoredAll t parts d d') :
    d.storeParts t o parts = d' := by
  induction parts generalizing d with
  | nil => exact h.symm
  | cons p rest ih =>
    obtain ⟨d1, hstore, hrest⟩ := h
    rw [← ih hrest]
    simp only [Dev.storeParts, List.foldl_cons, hstore, Bool.false_eq_true, if_false]

end Sys2Proof.Machine
end

section
/-! Vector loads and stores, tables, normalisation and softmax (07 R267, R273 to R278, R296 to R302). -/
namespace Sys2Proof.Machine

/-! ### Loads -/

/-- A load whose elements are the active ones, each at an address of its own, writes the loaded values to them (07
R273, R274, R278). -/
theorem does_loadActive {s : State} {t f7 : Nat} {o : VecOp} {c : Instr} {f : Dev → VecOp → Vec → Dev} {masked : Bool} {addr : Nat → Nat}
    {vs : List (Nat × Nat)} {d' : Dev} (hready : VecReady s t (3, f7) o)
    (hexec : exec c s = actUp s fun d => d.vecRun3 t f7 (fun _ => true) f)
    (hf : f (s.dev.vecTaken t) o (vecAt s t) =
      (s.dev.vecTaken t).loadActive t o (vecAt s t) (((vecAt s t).actives masked).map fun i => (i, addr i)))
    (hload : (s.dev.vecTaken t).loadElems t (vecAt s t).ew (((vecAt s t).actives masked).map fun i => (i, addr i)) = (d', vs, none))
    (hvec : (d'.tile t).vec = vecAt s t) :
    ∃ v', Does c s (d'.setVec t v') ∧ { v' with v := (vecAt s t).v } = vecAt s t ∧
      Rewrites (vecAt s t) v' (rdOf o.word) ((vecAt s t).active masked) (loadedElem vs) := by
  have hdoes := does_vecRun3_acts hready hexec rfl
  rw [hf, Dev.loadActive] at hdoes
  simp only [hload, hvec] at hdoes
  have hkeys : vs.map Prod.fst = (vecAt s t).actives masked := by
    rw [(loadedElems_of_loadElems hload).keys, List.map_map]
    exact List.map_id _
  refine ⟨_, hdoes, Vec.putElems_frame _ _ _ _, (rewrites_putElems _ _ _ _).congr (fun i => ?_) fun _ _ => rfl⟩
  simp only [any_fst_eq, hkeys, Vec.mem_actives, Bool.decide_eq_true]

theorem exec_vLd_vLdx (indexed : Bool) (t : Nat) (s : State) : exec (if indexed then .vLdx t else .vLd t) s =
    actUp s fun d => d.vecLoad t (if indexed then 0x02 else 0x00) indexed := by
  cases indexed <;> rfl

theorem exec_vOcld (t : Nat) (s : State) : exec (.vOcld t) s = execVOcld t s := rfl

/-- The operand cache has 64 slots (07 R278). -/
theorem ocSlot_lt (w : W32) : ocSlot w < 64 := by
  have : rs1Of w < 32 := bits_lt _ _ _
  unfold ocSlot
  omega

theorem VecReady.width {s : State} {t : Nat} {key : Nat × Nat} {o : VecOp} (h : VecReady s t key o) :
    (vecAt s t).ew = 16 ∨ (vecAt s t).ew = 32 ∨ (vecAt s t).ew = 64 := by
  obtain ⟨-, -, -, -, hew⟩ := h
  simpa using hew

/-- The loads of V.OCLD leave the engine as it was, since they are of local memory (07 R278). -/
theorem ocld_vec {s : State} {t : Nat} {o : VecOp} {vs : List (Nat × Nat)} {d' : Dev} (hready : VecReady s t (3, 0x08) o)
    (hload : (s.dev.vecTaken t).loadElems t (vecAt s t).ew
      (((vecAt s t).actives false).map fun i => (i, slotVa (ocSlot o.word) + i * ((vecAt s t).ew / 8))) = (d', vs, none)) :
    (d'.tile t).vec = vecAt s t := by
  have hwidth : (vecAt s t).ew / 8 ∣ 1024 ∧ 0 < (vecAt s t).ew / 8 := by
    rcases hready.width with h | h | h <;> rw [h] <;> decide
  rw [Vec.actives_unmasked] at hload
  have hloaded := loadedElems_of_loadElems hload
  have htiles := hloaded.tiles (hloaded.slot_local (ocSlot_lt _) hwidth.1 hwidth.2)
  rw [Dev.tile, htiles]
  rfl

/-! ### Stores -/

section
variable {s : State} {t : Nat} {o : VecOp} {d' : Dev}

/-- A store whose parts can all be stored stores them in order (07 R273, R274, R278). -/
theorem does_storeParts {f7 : Nat} {c : Instr} {f : Dev → VecOp → Vec → Dev} {parts : List (Nat × List Byte)} (hready : VecReady s t (3, f7) o)
    (hexec : exec c s = actUp s fun d => d.vecRun3 t f7 (fun _ => true) f)
    (hf : f (s.dev.vecTaken t) o (vecAt s t) = (s.dev.vecTaken t).storeParts t o parts) (hall : StoredAll t parts (s.dev.vecTaken t) d') :
    Does c s d' := by
  have hdoes := does_vecRun3_acts hready hexec rfl
  rwa [hf, Dev.storeParts_all o hall] at hdoes

theorem exec_vSt_vStx (indexed : Bool) (t : Nat) (s : State) : exec (if indexed then .vStx t else .vSt t) s =
    actUp s fun d => d.vecStore t (if indexed then 0x03 else 0x01) indexed := by
  cases indexed <;> rfl

theorem does_vecStore {indexed : Bool} (hready : VecReady s t (3, if indexed then 0x03 else 0x01) o)
    (hall : StoredAll t (((vecAt s t).addrs o indexed).map
      (fun e => (e.2, leBytes ((vecAt s t).ew / 8) (elemOf (vecAt s t).ew ((vecAt s t).reg (rdOf o.word)) e.1)))) (s.dev.vecTaken t) d') :
    Does (if indexed then .vStx t else .vSt t) s d' :=
  does_storeParts hready (exec_vSt_vStx indexed t s) rfl hall

theorem exec_vOcev (t : Nat) (s : State) : exec (.vOcev t) s = execVOcev t s := rfl

theorem length_leBytes (n v : Nat) : (leBytes n v).length = n := by
  induction n generalizing v with
  | zero => rfl
  | succ n ih => rw [leBytes, List.length_cons, ih]

theorem does_vOcev {bytes : List Byte} (hready : VecReady s t (3, 0x09) o)
    (hbytes : bytes = leBytes ((vecAt s t).vl * ((vecAt s t).ew / 8)) ((vecAt s t).reg (rdOf o.word)))
    (hall : StoredAll t (((List.range (bytes.length / 8)).map (fun k => (8 * k, 8)) ++
      (rangeFrom (bytes.length / 8 * (64 / (vecAt s t).ew)) ((vecAt s t).vl - bytes.length / 8 * (64 / (vecAt s t).ew))).map
        (fun i => (i * ((vecAt s t).ew / 8), (vecAt s t).ew / 8))).map
        (fun (p : Nat × Nat) => (slotVa (ocSlot o.word) + p.1, (bytes.drop p.1).take p.2))) (s.dev.vecTaken t) d') :
    Does (.vOcev t) s d' := by
  have hwords : 64 / (vecAt s t).ew = 8 / ((vecAt s t).ew / 8) := by
    rcases hready.width with h | h | h <;> rw [h]
  subst hbytes
  rw [length_leBytes, hwords] at hall
  exact does_storeParts hready (exec_vOcev t s) rfl hall

end

/-! ### The lookup table -/

theorem exec_vLut (t : Nat) (s : State) : exec (.vLut t) s = execVLut t s := rfl

/-- The result of a lookup: the entry of the index, or the last one, which counts saturated (07 R296). -/
def lutEnc (v : Vec) (last j : Nat) : Enc :=
  ⟨leNat ((List.range (v.ew / 8)).map fun b => tget 0 v.lut (min j last * (v.ew / 8) + b)), decide (last < j), false⟩

theorem narrow_of_ne {v : Vec} (h : v.ew ≠ 64) : v.narrow = true := decide_eq_true h
theorem not_narrow {v : Vec} (h : v.ew = 64) : v.narrow = false := decide_eq_false (not_not_intro h)

theorem does_vLut {s : State} {t : Nat} {o : VecOp} {last : Nat} (hready : VecReady s t (3, 0x10) o) (hew : (vecAt s t).ew ≠ 64)
    (hlast : last = 4096 / ((vecAt s t).ew / 8) - 1) :
    ∃ v', Does (.vLut t) s ((s.dev.vecTaken t).setVec t v') ∧
      Rewrites (vecAt s t) v' (rdOf o.word) ((vecAt s t).active (maskedForm o.word)) (fun i =>
        (lutEnc (vecAt s t) last (elemOf (vecAt s t).ew ((vecAt s t).reg (rs1Of o.word)) i)).code) ∧
      Counts (vecAt s t) v' (((vecAt s t).actives (maskedForm o.word)).map fun i =>
        lutEnc (vecAt s t) last (elemOf (vecAt s t).ew ((vecAt s t).reg (rs1Of o.word)) i)) false := by
  subst hlast
  exact ⟨_, does_vecRun3_acts hready (exec_vLut t s) (narrow_of_ne hew), putEncs_actives _ _ false _ _⟩

/-- A fold whose step loads the next 64 bytes, while none has failed, loads them all. -/
theorem foldl_loadedAll {t : Nat} {addr : Nat → Nat} {step : Dev × List Byte × Option (TFault × Nat) → Nat → Dev × List Byte × Option (TFault × Nat)}
    (hstep : ∀ d acc i d1 b, Dev.tileLoad d t (addr i) 64 64 1 = (d1, .ok b) → step (d, acc, none) i = (d1, acc ++ b, none))
    {is : List Nat} {d d' : Dev} {bs : List Byte} (acc : List Byte) (h : LoadedAll t 64 (is.map addr) d d' bs) :
    is.foldl step (d, acc, none) = (d', acc ++ bs, none) := by
  induction is generalizing d bs acc with
  | nil =>
    obtain ⟨rfl, rfl⟩ := h
    rw [List.append_nil]
    rfl
  | cons i rest ih =>
    obtain ⟨d1, b, r, hload, hrest, rfl⟩ := h
    rw [List.foldl_cons, hstep d acc i d1 b hload, ← List.append_assoc]
    exact ih (acc ++ b) hrest

theorem exec_vLutld (t : Nat) (s : State) : exec (.vLutld t) s = execVLutld t s := rfl

theorem does_vLutld {s : State} {t : Nat} {o : VecOp} {bs : List Byte} {d' : Dev} (hready : VecReady s t (3, 0x11) o)
    (halign : o.rs1.toNat % 64 = 0) (hseg : o.rs1.toNat / 2 ^ 60 = 15)
    (hall : LoadedAll t 64 ((List.range 64).map fun i => (o.rs1.toNat + 64 * i) % 2 ^ 64) (s.dev.vecTaken t) d' bs) :
    Does (.vLutld t) s (d'.setVec t { vecAt s t with lut := byteTable bs }) := by
  have hdoes := does_vecRun3_acts hready (exec_vLutld t s) rfl
  extract_lets va at hdoes
  rw [if_neg (show ¬va % 64 ≠ 0 from not_not_intro halign), if_neg (show ¬va / 2 ^ 60 ≠ 15 from not_not_intro hseg)] at hdoes
  generalize hfold : List.foldl _ _ _ = loaded at hdoes
  have hloaded := hfold.symm.trans (foldl_loadedAll (fun d acc i d1 b hload => by simp only [va, hload]) [] hall)
  simpa only [hloaded, List.nil_append] using hdoes

/-! ### Normalisation and softmax -/

theorem exec_vNorm (t : Nat) (s : State) : exec (.vNorm t) s = execVNorm t s := rfl
theorem exec_vSmexp (t : Nat) (s : State) : exec (.vSmexp t) s = execVSmexp t s := rfl
theorem exec_vSmdiv (t : Nat) (s : State) : exec (.vSmdiv t) s = execVSmdiv t s := rfl

/-- Two lists of eight results, with the elements that they are written to. -/
theorem range_sixteen_map {α : Type} (f : Nat → α) :
    (List.range 16).map f = (List.range 8).map f ++ (List.range 8).map (fun r => f (8 + r)) := by
  rw [show 16 = 8 + 8 from rfl, List.range_add, List.map_append, List.map_map]
  rfl

/-- Element i of V.NORM's destination: the mean of row i below 8, and the variance of row i - 8 above (07 R298). -/
def normEnc (row : Nat → Enc × Enc) (i : Nat) : Enc := if i < 8 then (row i).1 else (row (i - 8)).2

theorem normEnc_low (row : Nat → Enc × Enc) : ∀ r ∈ List.range 8, normEnc row r = (row r).1 :=
  fun _ hr => if_pos (List.mem_range.1 hr)

theorem normEnc_high (row : Nat → Enc × Enc) (r : Nat) : normEnc row (8 + r) = (row r).2 := by
  rw [normEnc, if_neg (by omega), Nat.add_sub_cancel_left]

theorem map_normEnc (row : Nat → Enc × Enc) :
    (List.range 16).map (normEnc row) = (List.range 8).map (fun r => (row r).1) ++ (List.range 8).map (fun r => (row r).2) := by
  rw [range_sixteen_map, List.map_congr_left (normEnc_low row)]
  simp only [normEnc_high]

/-- V.NORM's results listed by element (07 R298). -/
theorem normEncs_indexed (row : Nat → Enc × Enc) :
    (List.range 8).map (fun r => (r, (((List.range 8).map row).getD r default).1)) ++
      (List.range 8).map (fun r => (8 + r, (((List.range 8).map row).getD r default).2)) =
    (List.range 16).map fun i => (i, normEnc row i) := by
  have hrow : ∀ r ∈ List.range 8, ((List.range 8).map row).getD r default = row r := fun r hr => by
    simp [List.getD_eq_getElem?_getD, List.mem_range.1 hr]
  have hlow : ∀ r ∈ List.range 8, (r, (((List.range 8).map row).getD r default).1) = (r, normEnc row r) := fun r hr => by
    rw [hrow r hr, normEnc_low row r hr]
  have hhigh : ∀ r ∈ List.range 8, (8 + r, (((List.range 8).map row).getD r default).2) = (8 + r, normEnc row (8 + r)) := fun r hr => by
    rw [hrow r hr, normEnc_high]
  rw [range_sixteen_map, List.map_congr_left hlow, List.map_congr_left hhigh]

theorem does_vNorm {s : State} {t : Nat} {o : VecOp} {row : Nat → Enc × Enc} (hready : VecReady s t (3, 0x18) o) (hew : (vecAt s t).ew ≠ 64)
    (hrow : ∀ r, row r = (vecAt s t).norm (((vecAt s t).actives (maskedForm o.word)).map
      (fun i => elemOf (vecAt s t).ew ((vecAt s t).reg (rs1Of o.word + r)) i))) :
    ∃ v', Does (.vNorm t) s ((s.dev.vecTaken t).setVec t v') ∧
      Rewrites (vecAt s t) v' (rdOf o.word) (fun i => decide (i ∈ List.range 16)) (fun i => (normEnc row i).code) ∧
      Counts (vecAt s t) v' ((List.range 16).map (normEnc row)) false := by
  have hdoes := does_vecRun3_acts hready (exec_vNorm t s) (narrow_of_ne hew)
  simp only [← hrow] at hdoes
  rw [normEncs_indexed] at hdoes
  exact ⟨_, hdoes, putEncs_indexed _ _ false _ _⟩

/-- Settles O9, from what each access and each table, normalisation or softmax instruction does. -/
theorem vectorMemoryTablesSoftmax : Obligations.VectorMemoryTablesSoftmax := by
  unfold Obligations.VectorMemoryTablesSoftmax
  refine ⟨⟨fun s t o v indexed vs d' hv hready hload hvec => ?loads, fun s t o v indexed d' hv hready hall => ?stores,
      fun s t o v vs d' hv hready hload => ?ocld, fun s t o v bytes d' hv hready hbytes hall => ?ocev⟩,
    fun s t o v last hv hready hew hlast => ?lut, fun s t o v bs d' hv hready halign hseg hall => ?lutld,
    fun s t o v row hv hready hew hrow => ?norm, fun s t o v hv hew => ?softmax, fun s t o hew => ?wide⟩
  case loads =>
    subst hv
    exact does_loadActive hready (exec_vLd_vLdx indexed t s) rfl hload hvec
  case stores =>
    subst hv
    exact does_vecStore hready hall
  case ocld =>
    subst hv
    exact does_loadActive hready (exec_vOcld t s) rfl hload (ocld_vec hready hload)
  case ocev =>
    subst hv
    exact does_vOcev hready hbytes hall
  case lut =>
    subst hv
    obtain ⟨v', hdoes, hrew, hsat, hflushed, hsrc, -⟩ := does_vLut hready hew hlast
    refine ⟨v', hdoes, hrew, ?_, ?_, ?_⟩
    · rw [hsat, List.filter_map, List.length_map]
      rfl
    · rw [hflushed, List.filter_map, List.length_map]
      exact congrArg (fun l : List Nat => satAdd32 _ l.length) (List.filter_eq_nil_iff.2 fun _ _ => Bool.false_ne_true)
    · rw [hsrc, if_neg fun h => Bool.false_ne_true h.2]
  case lutld =>
    subst hv
    exact does_vLutld hready halign hseg hall
  case norm =>
    subst hv
    obtain ⟨v', hdoes, hrew, hcounts⟩ := does_vNorm hready hew hrow
    rw [map_normEnc] at hcounts
    refine ⟨v', hdoes, hrew.congr (fun i => by simp) fun i _ => ?_, hcounts⟩
    simp only [normEnc, apply_ite Enc.code]
  case softmax =>
    subst hv
    refine ⟨fun hready => ?_, fun hready => ?_⟩
    · have hdoes := does_vecRun3_acts hready (exec_vSmexp t s) (narrow_of_ne hew)
      exact hdoes
    · have hdoes := does_vecRun3_acts hready (exec_vSmdiv t s) (narrow_of_ne hew)
      exact hdoes
  case wide =>
    simp only [List.forall_mem_cons]
    exact ⟨fun hready => does_vecRun3_traps hready (exec_vLut t s) (not_narrow hew),
      fun hready => does_vecRun3_traps hready (exec_vNorm t s) (not_narrow hew),
      fun hready => does_vecRun3_traps hready (exec_vSmexp t s) (not_narrow hew),
      fun hready => does_vecRun3_traps hready (exec_vSmdiv t s) (not_narrow hew), nofun⟩

end Sys2Proof.Machine
end

section
/-! The group that issues next and its custom-2 word: uniform instructions and branches, votes and shuffles (08 R307,
R323, R324, R336). -/
namespace Sys2Proof.Machine

/-! ### The arms -/

theorem exec_uniformOps : ∀ e ∈ uniformOps, ∀ (t : Nat) (s : State),
    exec (e.1 t) s = actUp s fun d => d.uniform t (2, e.2.1) e.2.2 := by
  have hslt : (fun a b : W64 => if a.slt b then (1 : W64) else 0) = fun a b => w64 (b2n (a.slt b)) :=
    funext fun _ => funext fun _ => (w64_b2n Iff.rfl).symm
  have hsltu : (fun a b : W64 => if a.ult b then (1 : W64) else 0) = fun a b => w64 (b2n (a.ult b)) :=
    funext fun _ => funext fun _ => (w64_b2n Iff.rfl).symm
  simp only [uniformOps, List.forall_mem_cons, hslt, hsltu]
  exact ⟨fun _ _ => rfl, fun _ _ => rfl, fun _ _ => rfl, fun _ _ => rfl, fun _ _ => rfl, fun _ _ => rfl, fun _ _ => rfl,
    fun _ _ => rfl, fun _ _ => rfl, fun _ _ => rfl, fun _ _ => rfl, nofun⟩

theorem exec_uniformBranches : ∀ e ∈ uniformBranches, ∀ (t : Nat) (s : State),
    exec (e.1 t) s = actUp s fun d => d.uBranch t e.2.1 e.2.2 := by
  simp only [uniformBranches, List.forall_mem_cons]
  exact ⟨fun _ _ => rfl, fun _ _ => rfl, fun _ _ => rfl, fun _ _ => rfl, nofun⟩

theorem exec_uAddi (t : Nat) (s : State) : exec (.uAddi t) s = execUAddi t s := rfl
theorem exec_uGet (t : Nat) (s : State) : exec (.uGet t) s = execUGet t s := rfl
theorem exec_uPut (t : Nat) (s : State) : exec (.uPut t) s = execUPut t s := rfl
theorem exec_gVoteAny (t : Nat) (s : State) : exec (.gVoteAny t) s = execGVoteAny t s := rfl
theorem exec_gVoteAll (t : Nat) (s : State) : exec (.gVoteAll t) s = execGVoteAll t s := rfl
theorem exec_gVoteBallot (t : Nat) (s : State) : exec (.gVoteBallot t) s = execGVoteBallot t s := rfl
theorem exec_gShfl (t : Nat) (s : State) : exec (.gShfl t) s = execGShfl t s := rfl
theorem exec_gShflF (t : Nat) (s : State) : exec (.gShflF t) s = execGShflF t s := rfl

/-! ### What a group's operation leaves -/

section
variable {s : State} {t : Nat} {i : Issue} {d : Dev} (hat : GroupAt s t i d)
include hat

/-- A custom-2 operation acts once for the group, on what its issue leaves, and barriers and ends are settled. -/
theorem GroupAt.gangRun {key : Nat × Nat} (hop : gangOp i.word = some key) (f : Dev → Issue → Dev) :
    s.dev.gangRun t key f = (f d i).gangSettle t i.g.idx := by
  obtain ⟨-, d', hnext, rfl⟩ := hat
  simp only [Dev.gangRun, hnext, hop, if_true]

theorem GroupAt.does_gangRun {c : Instr} {key : Nat × Nat} {f : Dev → Issue → Dev}
    (hexec : exec c s = actUp s fun d => d.gangRun t key f) (hop : gangOp i.word = some key) :
    Does c s ((f d i).gangSettle t i.g.idx) := by
  rw [← hat.gangRun hop f]
  exact does_of_actUp hat.1 hexec

section
variable {k : Nat} (hop : gangOp i.word = some (k, 0)) (f : W64 → W64 → Bool)
include hop

/-- A branch to an aligned target moves every thread there when its condition holds, and on otherwise. -/
theorem GroupAt.uBranch_aligned (htarget : (i.pc + immB i.word).toNat % 4 = 0) :
    s.dev.uBranch t k f = (d.setGroup t i (fun n => if f (i.g.getU (rs1Of i.word)) (i.g.getU (rs2Of i.word)) then
      (i.hart n).jump (i.pc + immB i.word) else (i.hart n).retire)).gangSettle t i.g.idx := by
  rw [Dev.uBranch, hat.gangRun hop]
  by_cases hf : f (i.g.getU (rs1Of i.word)) (i.g.getU (rs2Of i.word)) = true
  · simp only [if_pos hf, if_neg (not_not_intro htarget)]
    rfl
  · simp only [if_neg hf]
    rfl

theorem GroupAt.uBranch_misaligned (htarget : (i.pc + immB i.word).toNat % 4 ≠ 0)
    (hf : f (i.g.getU (rs1Of i.word)) (i.g.getU (rs2Of i.word)) = true) :
    s.dev.uBranch t k f = (d.gangMemFault t i i.low .misaligned (i.pc + immB i.word).toNat).gangSettle t i.g.idx := by
  rw [Dev.uBranch, hat.gangRun hop]
  simp only [if_pos hf, if_pos htarget]

end

end

/-! ### Votes -/

section
variable (i : Issue)

/-- Whether a thread's x[rs1] is not zero, which is what it votes (08 R323). -/
def Issue.votesYes (n : Nat) : Bool := decide ((i.hart n).getX (rs1Of i.word) ≠ 0)

theorem Issue.votes_eq : i.votes = i.group.filter i.votesYes := rfl

theorem Issue.voteAny_eq : w64 (b2n (!i.votes.isEmpty)) = if i.group.any i.votesYes then 1 else 0 := by
  refine w64_b2n ?_
  rw [i.votes_eq, Bool.not_eq_true', List.isEmpty_eq_false_iff, ne_eq, List.filter_eq_nil_iff, ← List.any_eq_false, Bool.not_eq_false]

theorem Issue.voteAll_eq : w64 (b2n (i.votes.length == i.group.length)) = if i.group.all i.votesYes then 1 else 0 := by
  refine w64_b2n ?_
  rw [i.votes_eq, beq_iff_eq, List.length_filter_eq_length_iff, List.all_eq_true]

theorem Issue.voteBallot_eq :
    i.votes.foldl (fun m n => m + 2 ^ n) 0 = ((i.group.filter i.votesYes).map (fun n => 2 ^ n)).sum := by
  rw [i.votes_eq, List.sum_eq_foldl, List.foldl_map]

end

/-- Settles O33, from what the one operation of each word does on what the issue leaves. -/
theorem gangUniformVotesAndShuffles : Obligations.GangUniformVotesAndShuffles := by
  unfold Obligations.GangUniformVotesAndShuffles
  refine ⟨fun s t i d hat => ⟨fun e he => hat.does_gangRun (exec_uniformOps e he t s), hat.does_gangRun (exec_uAddi t s),
      fun e he hop htarget => ?branch, fun e he hop htarget hf => ?fault, hat.does_gangRun (exec_uGet t s),
      hat.does_gangRun (exec_uPut t s)⟩,
    fun s t i d nz from' hat hnz hfrom => ?exchange⟩
  case branch =>
    rw [← hat.uBranch_aligned hop e.2.2 htarget]
    exact does_of_actUp hat.1 (exec_uniformBranches e he t s)
  case fault =>
    rw [← hat.uBranch_misaligned hop e.2.2 htarget hf]
    exact does_of_actUp hat.1 (exec_uniformBranches e he t s)
  case exchange =>
    obtain rfl : nz = i.votesYes := funext hnz
    obtain rfl : from' = i.from := funext hfrom
    rw [← i.voteAny_eq, ← i.voteAll_eq, ← i.voteBallot_eq]
    exact ⟨hat.does_gangRun (exec_gVoteAny t s), hat.does_gangRun (exec_gVoteAll t s), hat.does_gangRun (exec_gVoteBallot t s),
      hat.does_gangRun (exec_gShfl t s), hat.does_gangRun (exec_gShflF t s)⟩

end Sys2Proof.Machine
end

section
/-! A group's loads and stores, LR and SC, and its atomics, thread after thread (08 R326 to R331). -/
namespace Sys2Proof.Machine

theorem exec_threadMemoryAccess (t : Nat) (s : State) : exec (.threadMemoryAccess t) s = execThreadMemoryAccess t s := rfl
theorem exec_threadLrSc (t : Nat) (s : State) : exec (.threadLrSc t) s = execThreadLrSc t s := rfl

theorem exec_gangAtomicOps : ∀ e ∈ gangAtomicOps, ∀ (t : Nat) (s : State), exec (e.1 t) s = actUp s fun d => d.gangAmo t e.2 := by
  simp only [gangAtomicOps, List.forall_mem_cons]
  exact ⟨fun _ _ => rfl, fun _ _ => rfl, fun _ _ => rfl, fun _ _ => rfl, fun _ _ => rfl, fun _ _ => rfl, fun _ _ => rfl,
    fun _ _ => rfl, fun _ _ => rfl, fun _ _ => rfl, fun _ _ => rfl, nofun⟩

/-! ### One thread after another -/

/-- A fold over threads whose step goes on from each success runs through to what the last one leaves. -/
theorem foldl_threadsDone {f : Dev → Nat → Dev × Except (TFault × Nat) Unit} {step : Dev × Bool → Nat → Dev × Bool}
    (hstep : ∀ d n d1, f d n = (d1, .ok ()) → step (d, false) n = (d1, false)) {d2 : Dev} :
    ∀ {group : List Nat} {d : Dev}, ThreadsDone f group d d2 → group.foldl step (d, false) = (d2, false)
  | [], d, hdone => by
    obtain rfl : d2 = d := hdone
    rfl
  | n :: rest, d, hdone => by
    obtain ⟨d1, hone, hrest⟩ := hdone
    rw [List.foldl_cons, hstep d n d1 hone, foldl_threadsDone hstep hrest]

theorem groupRun_done {f : Dev → Nat → Dev × Except (TFault × Nat) Unit} {t : Nat} {i : Issue} {d d2 : Dev}
    (hdone : ThreadsDone f i.group d d2) : groupRun f t i d = d2 := by
  rw [groupRun, foldl_threadsDone (fun d n d1 hone => ?_) hdone]
  simp only [Bool.false_eq_true, if_false, hone]

/-- The same of atomics, each thread of which gets the old value. -/
theorem foldl_atomicsDone {t : Nat} {i : Issue} {op : AtomicOp} {wide : Bool}
    {step : Option (Dev × Bool) → Nat → Option (Dev × Bool)}
    (hstep : ∀ d n d1, AtomicsDone t i op wide [n] d d1 → step (some (d, false)) n = some (d1, false)) {d2 : Dev} :
    ∀ {group : List Nat} {d : Dev}, AtomicsDone t i op wide group d d2 → group.foldl step (some (d, false)) = some (d2, false)
  | [], d, hdone => by
    obtain rfl : d2 = d := hdone
    rfl
  | n :: rest, d, hdone => by
    obtain ⟨d1, old, hone, hrest⟩ := hdone
    rw [List.foldl_cons, hstep d n _ ⟨d1, old, hone, rfl⟩, foldl_atomicsDone hstep hrest]

theorem Dev.groupAtomics_done {d d2 : Dev} {t : Nat} {i : Issue} {op : AtomicOp} {wide : Bool}
    (hdone : AtomicsDone t i op wide i.group d d2) : d.groupAtomics t i op wide = some d2 := by
  rw [Dev.groupAtomics, foldl_atomicsDone (fun d n d1 hone => ?_) hdone, Option.map_some]
  obtain ⟨d0, old, hatomic, rfl⟩ := hone
  simp only [Issue.hart] at hatomic
  simp only [hatomic]

/-- A thread's store that succeeds moves the thread on and leaves its registers. -/
theorem Dev.threadMem_store {d d1 : Dev} {t n size val : Nat} {i : Issue} {va : W64}
    (hact : d.threadAct t i n = .store size va val) (hstore : d.tileStore t va.toNat size (leBytes size val) = (d1, .ok ())) :
    d.threadMem t i n =
      (d1.modGang t i.g.idx (fun g => g.modThread n (fun th => { th with hart := th.hart.retire })), .ok ()) := by
  simp only [Dev.threadMem, hact, hstore]

/-! ### The commands -/

section
variable {s : State} {t : Nat} {i : Issue} {d1 d2 : Dev} (hup : Up s) (hnext : s.dev.gangNext t = (d1, .issue i))
include hup hnext

theorem does_threadMemoryAccess
    (hact : (∃ rd fp size sg va, d1.threadAct t i i.low = .load rd fp size sg va) ∨
      ∃ size va val, d1.threadAct t i i.low = .store size va val)
    (hdone : ThreadsDone (fun d n => d.threadMem t i n) i.group (d1.gangIssued t i) d2) : Does (.threadMemoryAccess t) s d2 := by
  rcases hact with ⟨rd, fp, size, sg, va, hact⟩ | ⟨size, va, val, hact⟩ <;>
    simpa only [hnext, hact, groupRun_done hdone] using does_of_actUp hup (exec_threadMemoryAccess t s)

theorem does_threadLrSc
    (hact : (∃ rd size va, d1.threadAct t i i.low = .lr rd size va) ∨ ∃ rd size va val, d1.threadAct t i i.low = .sc rd size va val)
    (hdone : ThreadsDone (fun d n => d.threadResv t i n) i.group (d1.gangIssued t i) d2) : Does (.threadLrSc t) s d2 := by
  rcases hact with ⟨rd, size, va, hact⟩ | ⟨rd, size, va, val, hact⟩ <;>
    simpa only [hnext, hact, groupRun_done hdone] using does_of_actUp hup (exec_threadLrSc t s)

/-- A group's atomic leaves what its threads' operations leave, or nothing while one of them must wait. -/
theorem does_gangAmo {c : Instr} {op : AtomicOp} {wide : Bool} (hexec : exec c s = actUp s fun d => d.gangAmo t op)
    (hamo : d1.groupAmo t i = some (op, wide)) : Does c s (((d1.gangIssued t i).groupAtomics t i op wide).getD s.dev) := by
  have hdoes := does_of_actUp hup hexec
  simp only [Dev.gangAmo, hnext, hamo, if_true] at hdoes
  cases hatomics : (d1.gangIssued t i).groupAtomics t i op wide <;>
    simpa only [hatomics, Option.getD_none, Option.getD_some] using hdoes

end

/-- Settles O35, from a group's fold over its threads when each of them succeeds. -/
theorem gangMemoryAndAtomics : Obligations.GangMemoryAndAtomics := by
  unfold Obligations.GangMemoryAndAtomics
  refine ⟨fun s t i d d1 d2 hup hnext hd => ?commands, fun d t n i size va val hact d1 => Dev.threadMem_store hact⟩
  subst hd
  refine ⟨fun rd fp size sg va hact => does_threadMemoryAccess hup hnext (.inl ⟨rd, fp, size, sg, va, hact⟩),
    fun size va val hact => does_threadMemoryAccess hup hnext (.inr ⟨size, va, val, hact⟩),
    fun rd size va hact => does_threadLrSc hup hnext (.inl ⟨rd, size, va, hact⟩),
    fun rd size va val hact => does_threadLrSc hup hnext (.inr ⟨rd, size, va, val, hact⟩),
    fun e he wide hamo => ?atomics⟩
  have hdoes := does_gangAmo hup hnext (exec_gangAtomicOps e he t s) hamo
  refine ⟨fun hdone => ?_, fun hwait => ?_⟩
  · rwa [Dev.groupAtomics_done hdone] at hdoes
  · rwa [hwait] at hdoes

end Sys2Proof.Machine
end

section
/-! Which group of which gang issues next: ordinary instructions and faults, barriers and ends, and swaps (08 R309 to
R320, R332; 13 R511). -/
namespace Sys2Proof.Machine

theorem exec_gBar (t : Nat) (s : State) : exec (.gBar t) s = execGBar t s := rfl
theorem exec_gYield (t : Nat) (s : State) : exec (.gYield t) s = execGYield t s := rfl
theorem exec_gExit (t : Nat) (s : State) : exec (.gExit t) s = execGExit t s := rfl
theorem exec_gangThreadInstruction (turn : TileIssue) (s : State) :
    exec (.gangThreadInstruction turn) s = execGangThreadInstruction turn s := rfl
theorem exec_gangSwapOut (t gang : Nat) (s : State) : exec (.gangSwapOut t gang) s = execGangSwapOut t gang s := rfl
theorem exec_gangSwapIn (t : Nat) (s : State) : exec (.gangSwapIn t) s = execGangSwapIn t s := rfl

/-! ### Ordinary instructions -/

theorem Issue.low_mem {i : Issue} (h : i.group ≠ []) : i.low ∈ i.group := by
  obtain ⟨n, rest, hgroup⟩ := List.exists_cons_of_ne_nil h
  rw [Issue.low, hgroup]
  exact List.mem_cons_self

section
variable {d : Dev} {t : Nat} {i : Issue} {p : Nat × RvAct → Bool}

theorem Dev.groupActs_find_none (h : ∀ n ∈ i.group, p (n, d.threadAct t i n) = false) : (d.groupActs t i).find? p = none := by
  rw [Dev.groupActs, List.find?_map, Option.map_eq_none_iff, List.find?_eq_none]
  exact fun n hn => ne_true_of_eq_false (h n hn)

/-- The lowest thread whose act passes a test is the one found. -/
theorem Dev.groupActs_find_some {before after : List Nat} {n : Nat} (hgroup : i.group = before ++ n :: after)
    (hn : p (n, d.threadAct t i n) = true) (hbefore : ∀ m ∈ before, p (m, d.threadAct t i m) = false) :
    (d.groupActs t i).find? p = some (n, d.threadAct t i n) := by
  have hfind : i.group.find? (p ∘ fun n => (n, d.threadAct t i n)) = some n :=
    List.find?_eq_some_iff_append.2 ⟨hn, before, after, hgroup, fun m hm => by rw [Function.comp_apply, hbefore m hm]; rfl⟩
  rw [Dev.groupActs, List.find?_map, hfind, Option.map_some]

end

section
variable {s : State} {t : Nat} {i : Issue} {d1 : Dev} (hup : Up s) (hnext : s.dev.gangNext t = (d1, .issue i))
include hup hnext

/-- A parity error in a register file that the issue reads is a fault before anything is issued (13 R511). -/
theorem does_gangParity : Does (.gangThreadInstruction ⟨t, true⟩) s (s.dev.gangParity t i) := by
  simpa only [hnext, GangNext.issue?, Option.filter_some, if_true] using
    does_of_actUp hup (exec_gangThreadInstruction ⟨t, true⟩ s)

/-- The threads of a group whose acts all retire get the results of those acts. -/
theorem does_threadInstruction_next {f : Nat → Hart} (hne : i.group ≠ []) (hact : ∀ n ∈ i.group, d1.threadAct t i n = .next (f n)) :
    Does (.gangThreadInstruction ⟨t, false⟩) s ((d1.gangIssued t i).setGroup t i f) := by
  have hdoes := does_of_actUp hup (exec_gangThreadInstruction ⟨t, false⟩ s)
  simp only [hnext, GangNext.issue?, Option.filter_some, Bool.false_eq_true, if_false, hact _ (Issue.low_mem hne)] at hdoes
  rw [Dev.groupActs_find_none fun n hn => by rw [hact n hn]] at hdoes
  rw [Dev.groupActs, List.foldl_map, List.foldl_rel (r := Eq) (g := fun d n => d.setThread t i.g.idx n (f n)) rfl
    fun n hn d d' hd => ?_] at hdoes
  · exact hdoes
  · rw [hact n hn, hd]

/-- The lowest thread for which the word is illegal faults, when no lower one has a fault of its own. -/
theorem does_threadInstruction_illegal {before after : List Nat} {n : Nat} (hgroup : i.group = before ++ n :: after)
    (hact : d1.threadAct t i n = .illegal)
    (hbefore : ∀ m ∈ before, d1.threadAct t i m ≠ .illegal ∧ ∀ va, d1.threadAct t i m ≠ .misaligned va) :
    Does (.gangThreadInstruction ⟨t, false⟩) s ((d1.gangIssued t i).gangIllegal t i n) := by
  have hdoes := does_of_actUp hup (exec_gangThreadInstruction ⟨t, false⟩ s)
  simp only [hnext, GangNext.issue?, Option.filter_some, Bool.false_eq_true, if_false] at hdoes
  rw [Dev.groupActs_find_some hgroup (by rw [hact]) fun m hm => ?_, hact] at hdoes
  · exact hdoes
  obtain ⟨hill, hmis⟩ := hbefore m hm
  dsimp only
  split
  next h => exact absurd h hill
  next va h => exact absurd h (hmis va)
  next => rfl

end

/-! ### Barriers and ends -/

section
variable {d : Dev} {t k : Nat} {g : Gang} (hgang : d.gang? t k = some g)
include hgang

/-- A barrier at which every live thread waits completes (08 R320). -/
theorem Dev.gangSettle_barrier {b : Nat} (halive : g.alive ≠ []) (hwait : ∀ n ∈ g.alive, (g.thread n).state = 1)
    (hb : g.barriers = [b]) : d.gangSettle t k = d.modGang t k (fun g => { g with threads := g.threads.map (fun th =>
      if th.state == 1 then { th with state := 0, hart := th.hart.retire } else th) }) := by
  have hall : g.alive.all (fun n => (g.thread n).state == 1) = true :=
    List.all_eq_true.2 fun n hn => beq_iff_eq.2 (hwait n hn)
  simp only [Dev.gangSettle, hgang, List.isEmpty_eq_false_iff.2 halive, Bool.false_eq_true, if_false, hall, Bool.not_true, hb]

/-- The last gang ends the program of its tile (08 R332). -/
theorem Dev.gangSettle_last (halive : g.alive = []) (hlast : ∀ h ∈ (d.tile t).gangs, h.idx = k) :
    d.gangSettle t k = (d.modTile t (fun x => { x with gangs := [] })).modTile t (fun x => { x with ecall := true }) := by
  have hnone : (d.tile t).gangs.filter (fun h => h.idx ≠ k) = [] :=
    List.filter_eq_nil_iff.2 fun h hh => by simpa using hlast h hh
  have hmod : d.modTile t (fun x => { x with gangs := x.gangs.filter (fun h => h.idx ≠ k) }) =
      d.modTile t (fun x => { x with gangs := [] }) := by
    rw [Dev.tile] at hnone
    rw [Dev.modTile, Dev.modTile, hnone]
  simp only [Dev.gangSettle, hgang, halive, List.isEmpty_nil, if_true, hmod, Dev.modTile_tile_same]

end

/-! ### Swaps -/

section
variable {s : State} {t : Nat} {l : Launch} (hup : Up s) (hl : s.dev.gangLaunch t = some l)
include hup hl

section
variable {k : Nat} {g : Gang} (hgang : s.dev.gang? t k = some g)
include hgang

theorem does_gangSwapOut {d : Dev} (hactive : g.active = true) (hready : (s.dev.tile t).readyPending ≠ [])
    (hdue : s.dev.swapDue t g = true) (hwrite : s.dev.writePa (frameAt t l.pend k) g.frame = .ok d) : Does (.gangSwapOut t k) s
      ((d.modGang t k (fun g => g.park (d.tile t).nextPlace)).addSat F.cdGangStatus_SWAPS 1 (t / 32)) := by
  simpa only [hl, hgang, hactive, List.isEmpty_eq_false_iff.2 hready, hdue, Bool.not_false, Bool.and_self, ↓reduceIte, hwrite] using
    does_of_actUp hup (exec_gangSwapOut t k s)

theorem does_gangSwapOut_nothing
    (h : g.active = false ∨ (s.dev.tile t).readyPending = [] ∨ s.dev.swapDue t g = false) : Does (.gangSwapOut t k) s s.dev := by
  have hno : (g.active && !(s.dev.tile t).readyPending.isEmpty && s.dev.swapDue t g) = false := by
    rcases h with h | h | h <;> simp [h]
  simpa only [hl, hgang, hno, Bool.false_eq_true, ↓reduceIte] using does_of_actUp hup (exec_gangSwapOut t k s)

end

section
variable {g : Gang} {rest : List Gang} (hready : (s.dev.tile t).readyPending = g :: rest)
  (hplace : ((s.dev.tile t).gangs.filter (·.active)).length < 4)
include hready hplace

theorem does_gangSwapIn_new (hstarted : g.started = false) : Does (.gangSwapIn t) s (s.dev.modGang t g.idx (fun g => { g with
    active := true, started := true, activeSince := s.dev.cycles (t / 8) })) := by
  simpa only [hl, hready, hplace, hstarted, Bool.false_eq_true, ↓reduceIte] using does_of_actUp hup (exec_gangSwapIn t s)

theorem does_gangSwapIn_frame {bs : List Byte} (hstarted : g.started = true)
    (hread : s.dev.readPa (frameAt t l.pend g.idx) 17408 = .ok bs) : Does (.gangSwapIn t) s (s.dev.modGang t g.idx
      (fun g => { g.fromFrame bs with active := true, activeSince := s.dev.cycles (t / 8) })) := by
  simpa only [hl, hready, hplace, hstarted, ↓reduceIte, hread] using does_of_actUp hup (exec_gangSwapIn t s)

end

theorem does_gangSwapIn_nothing
    (h : 4 ≤ ((s.dev.tile t).gangs.filter (·.active)).length ∨ (s.dev.tile t).readyPending = []) : Does (.gangSwapIn t) s s.dev := by
  have hdoes := does_of_actUp hup (exec_gangSwapIn t s)
  cases hready : (s.dev.tile t).readyPending with
  | nil => simpa only [hl, hready] using hdoes
  | cons g rest =>
    have hfull : ¬ ((s.dev.tile t).gangs.filter (·.active)).length < 4 := by
      rw [hready] at h
      exact Nat.not_lt.2 (h.resolve_right (List.cons_ne_nil g rest))
    simpa only [hl, hready, hfull, ↓reduceIte] using hdoes

end

/-- The fold that keeps the earlier of two gangs answers one of the list that none of it precedes. -/
theorem foldl_earlier (p : Gang) (gs : List Gang) :
    gs.foldl (fun a b => if b.pendSince < a.pendSince then b else a) p ∈ p :: gs ∧
    ∀ h ∈ p :: gs, (gs.foldl (fun a b => if b.pendSince < a.pendSince then b else a) p).pendSince ≤ h.pendSince := by
  induction gs generalizing p with
  | nil => simp
  | cons q gs ih =>
    rw [List.foldl_cons]
    by_cases hlt : q.pendSince < p.pendSince
    · rw [if_pos hlt]
      obtain ⟨hmem, hleast⟩ := ih q
      exact ⟨List.mem_cons_of_mem p hmem,
        List.forall_mem_cons.2 ⟨Nat.le_trans (hleast q List.mem_cons_self) (Nat.le_of_lt hlt), hleast⟩⟩
    · rw [if_neg hlt]
      obtain ⟨hmem, hleast⟩ := ih p
      obtain ⟨hp, hgs⟩ := List.forall_mem_cons.1 hleast
      exact ⟨List.cons_subset_cons p (List.subset_cons_self q gs) hmem,
        List.forall_mem_cons.2 ⟨hp, List.forall_mem_cons.2 ⟨Nat.le_trans hp (Nat.not_lt.1 hlt), hgs⟩⟩⟩

/-- The gang that is swapped in is pending and ready, and none that is became pending before it (08 R315). -/
theorem Tile.readyPending_earliest {x : Tile} {g : Gang} {rest : List Gang} (h : x.readyPending = g :: rest) :
    g ∈ x.gangs ∧ g.active = false ∧ g.readyLanes x.mat ≠ [] ∧
    ∀ h ∈ x.gangs, h.active = false → h.readyLanes x.mat ≠ [] → g.pendSince ≤ h.pendSince := by
  have hmem (q : Gang) : q ∈ x.gangs.filter (fun g => !g.active && !(g.readyLanes x.mat).isEmpty) ↔
      q ∈ x.gangs ∧ q.active = false ∧ q.readyLanes x.mat ≠ [] := by
    simp only [List.mem_filter, Bool.and_eq_true, Bool.not_eq_true', List.isEmpty_eq_false_iff]
  rw [Tile.readyPending] at h
  split at h
  next => cases h
  next p ps hps =>
    obtain ⟨rfl, -⟩ := List.cons.inj h
    obtain ⟨hin, hleast⟩ := foldl_earlier p ps
    rw [← hps] at hin hleast
    obtain ⟨hgang, hpending, hready⟩ := (hmem _).1 hin
    exact ⟨hgang, hpending, hready, fun q hq hqp hqr => hleast q ((hmem q).2 ⟨hq, hqp, hqr⟩)⟩

/-- Settles O34, from what each word of a group, its barriers and ends, and each swap do. -/
theorem gangSchedulingAndSwaps : Obligations.GangSchedulingAndSwaps := by
  unfold Obligations.GangSchedulingAndSwaps
  refine ⟨⟨fun s t i d put hat hput => ?issues, fun d t k b g hgang => Dev.gangSettle_barrier hgang,
    fun d t k g hgang => Dev.gangSettle_last hgang⟩, fun s t l hup hl => ?swaps, fun x g rest => Tile.readyPending_earliest⟩
  case issues =>
    subst hput
    refine ⟨hat.does_gangRun (exec_gBar t s), hat.does_gangRun (exec_gYield t s), hat.does_gangRun (exec_gExit t s), ?_⟩
    obtain ⟨hup, d1, hnext, rfl⟩ := hat
    refine ⟨fun f hne hact => does_threadInstruction_next hup hnext hne (hact d1 hnext), fun n before after hgroup hact => ?_,
      does_gangParity hup hnext⟩
    obtain ⟨hill, hbefore⟩ := hact d1 hnext
    exact does_threadInstruction_illegal hup hnext hgroup hill hbefore
  case swaps =>
    exact ⟨fun k g hgang => ⟨fun d => does_gangSwapOut hup hl hgang, does_gangSwapOut_nothing hup hl hgang⟩,
      fun g rest hready hplace => ⟨does_gangSwapIn_new hup hl hready hplace, fun bs => does_gangSwapIn_frame hup hl hready hplace⟩,
      does_gangSwapIn_nothing hup hl⟩

end Sys2Proof.Machine
end

section
/-! Computations of an engine: what a sequence of them does (02 R77; 09 R346). -/
namespace Sys2Proof.Machine

theorem EM.go_pure {α : Type} (a : α) (d : Dev) : (pure a : EM α).go d = (d, .ok a) := rfl

theorem EM.go_dev (d : Dev) : EM.dev.go d = (d, .ok d) := rfl

/-- After a computation that succeeds comes the next, on the device that it left. -/
theorem EM.go_bind_ok {α β : Type} {m : EM α} {f : α → EM β} {d d1 : Dev} {a : α} (h : m.go d = (d1, .ok a)) :
    (m >>= f).go d = (f a).go d1 := by
  obtain ⟨hdev, hres⟩ := Prod.mk.inj h
  have hrun : m.run.run d = (.ok a, d1) := Prod.ext hres hdev
  rw [EM.go, ExceptT.run_bind, StateT.run_bind, hrun]
  rfl

end Sys2Proof.Machine
end

section
/-! Cranes whose slice is one piece of work, and digests (09 R362 to R375). -/
namespace Sys2Proof.Machine

/-! ### The work of a slice -/

section
variable {d d' : Dev} {it : Item} {m : EM URes}

/-- Work that succeeds adds its counts and marks the slice as carried out. -/
theorem Dev.engRun_ok {r : URes} (h : m.go d = (d', .ok r)) :
    d.engRun it m = (d'.countItem it.ring it.index r.sat r.flushed).sliceDone it.ring it.index := by
  rw [Dev.engRun, h]

/-- Work that fails ends the item at the position that it has noted as reached. -/
theorem Dev.engRun_error {x : UErr} (h : m.go d = (d', .error x)) :
    d.engRun it m = d'.engFail it (((d'.item? it.ring it.index).map (·.pos)).getD it.pos) x := by
  rw [Dev.engRun, h]

end

/-! ### The commands -/

theorem exec_craneSliceOps : ∀ e ∈ craneSliceOps, ∀ (ring index : Nat) (s : State), exec (e.1 ring index) s =
    actUp s fun d => d.onCrane ring index e.2.1 e.2.2.1 fun it => d.engRun it (e.2.2.2 it) := by
  simp only [craneSliceOps, List.forall_mem_cons]
  exact ⟨fun _ _ _ => rfl, fun _ _ _ => rfl, fun _ _ _ => rfl, fun _ _ _ => rfl, fun _ _ _ => rfl, fun _ _ _ => rfl,
    fun _ _ _ => rfl, nofun⟩

/-- FFT acts whatever OP says: each combination of INVERSE, SCALE and F64 (09 R369). -/
theorem exec_fft (ring index : Nat) (s : State) : exec (.fft ring index) s = actUp s fun d =>
    d.onItem ring index (fun it => it.typ == tCrane && it.kind == 4 && !d.craneBusy it) fun it => d.engRun it (it.fftSlice it.eng) := rfl

theorem exec_sha3256 (ring index : Nat) (s : State) : exec (.sha3256 ring index) s = execSha3256 ring index s := rfl
theorem exec_crc32c (ring index : Nat) (s : State) : exec (.crc32c ring index) s = execCrc32c ring index s := rfl

section
variable {s : State} {ring index : Nat} {it : Item}

/-- A command of a crane does to the item that is its crane's next what its arm says. -/
theorem CraneNext.does {c : Instr} {kind op : Nat} {f : Dev → Item → Dev} (h : CraneNext s ring index kind op it)
    (hexec : exec c s = actUp s fun d => d.onCrane ring index kind op (f d)) : Does c s (f s.dev it) := by
  have hdoes := does_of_actUp h.1 hexec
  rwa [h.onCrane] at hdoes

theorem does_craneSlice {e : (Nat → Nat → Instr) × Nat × Nat × (Item → EM URes)} (he : e ∈ craneSliceOps)
    (h : CraneNext s ring index e.2.1 e.2.2.1 it) : Does (e.1 ring index) s (s.dev.engRun it (e.2.2.2 it)) :=
  h.does (exec_craneSliceOps e he ring index s)

theorem does_fft {op : Nat} (h : CraneNext s ring index 4 op it) : Does (.fft ring index) s (s.dev.engRun it (it.fftSlice it.eng)) := by
  obtain ⟨hup, ⟨hfound, hph⟩, htyp, hkind, -, hbusy⟩ := h
  have hdoes := does_of_actUp hup (exec_fft ring index s)
  rwa [Dev.onItem_hit _ hfound hph (by simp [htyp, hkind, hbusy])] at hdoes

end

/-! ### Digests -/

section
variable {it : Item} {d d1 : Dev} (crc : Bool)

/-- A slice of a digest that is not the last reads its KiB. -/
theorem Dev.digestSlice_part (h : Carried it (it.digestUnit it.eng) (it.sliceEnd - it.pos) it.pos d d1) (hpart : it.sliceEnd < it.last) :
    d.digestSlice it crc = d1.sliceDone it.ring it.index := by
  rw [Dev.digestSlice, Dev.engLoop_finishes _ _ h, if_pos hpart]

/-- The last slice reads its KiB, and then works on the rest of the message. -/
theorem Dev.digestSlice_last (h : Carried it (it.digestUnit it.eng) (it.sliceEnd - it.pos) it.pos d d1) (hlast : it.last ≤ it.sliceEnd) :
    d.digestSlice it crc = d1.engRun { it with pos := it.sliceEnd } (it.digestLast it.eng crc) := by
  rw [Dev.digestSlice, Dev.engLoop_finishes _ _ h, if_neg (Nat.not_lt.2 hlast)]

/-- The rest of the message is read, and the digest of the bytes that the item then holds is written. -/
theorem Item.digestLast_ok {d2 d3 : Dev} {bs : List Byte}
    (hread : (it.readMsg it.eng (1024 * it.sliceEnd) (it.msgLen - 1024 * it.sliceEnd)).go d1 = (d2, .ok ()))
    (hbs : bs = ((d2.item? it.ring it.index).map (·.bytes)).getD [])
    (hwrite : (it.eng.commit ⟨[(it.w 3, digestOf crc bs)], 0, 0⟩).go d2 = (d3, .ok ())) :
    (it.digestLast it.eng crc).go d1 = (d3, .ok {}) := by
  subst hbs
  rw [Item.digestLast, EM.go_bind_ok hread, EM.go_bind_ok (EM.go_dev d2), EM.go_bind_ok hwrite, EM.go_pure]

end

/-- What the digest commands do, in terms of a slice of the digest crane. -/
theorem exec_digestOps : ∀ e ∈ [((fun r i => Instr.sha3256 r i), 0, false), ((fun r i => Instr.crc32c r i), 1, true)],
    ∀ (ring index : Nat) (s : State), exec (e.1 ring index) s =
      actUp s fun d => d.onCrane ring index 6 e.2.1 fun it => d.digestSlice it e.2.2 := by
  simp only [List.forall_mem_cons]
  exact ⟨exec_sha3256, exec_crc32c, nofun⟩

/-- Settles O14: a slice of a crane without units is one piece of work, and a digest is a loop over KiB with such a
piece after it. -/
theorem craneSlicesAndDigests : Obligations.CraneSlicesAndDigests := by
  unfold Obligations.CraneSlicesAndDigests
  refine ⟨⟨fun e he s ring index it d' hnext => ?slice, fun s ring index it d' hnext => ?fft⟩,
    fun e he s ring index it d1 hnext hread => ?digest⟩
  case slice =>
    obtain ⟨rfl, rfl⟩ := Dev.item_key hnext.2.1.1
    have hdoes := does_craneSlice he hnext
    exact ⟨fun r hok => Dev.engRun_ok hok ▸ hdoes, fun x herr => Dev.engRun_error herr ▸ hdoes⟩
  case fft =>
    obtain ⟨rfl, rfl⟩ := Dev.item_key hnext.2.1.1
    have hdoes := does_fft hnext
    exact ⟨fun r hok => Dev.engRun_ok hok ▸ hdoes, fun x herr => Dev.engRun_error herr ▸ hdoes⟩
  case digest =>
    obtain ⟨rfl, rfl⟩ := Dev.item_key hnext.2.1.1
    have hdoes := hnext.does (exec_digestOps e he it.ring it.index s)
    refine ⟨fun hpart => ?_, fun hlast d2 d3 bs hrest hbs hwrite => ?_⟩
    · rwa [Dev.digestSlice_part _ hread hpart] at hdoes
    · rwa [Dev.digestSlice_last _ hread hlast, Dev.engRun_ok (Item.digestLast_ok _ hrest hbs hwrite)] at hdoes

end Sys2Proof.Machine
end

section
/-! The random crane (09 R370, R371). -/
namespace Sys2Proof.Machine

/-! ### RAND -/

/-- A word mixed with its own high bits. -/
theorem toNat_xorShift (z : W64) (k : Nat) : (z ^^^ (z >>> k)).toNat = z.toNat ^^^ (z.toNat / 2 ^ k) := by
  rw [BitVec.toNat_xor, BitVec.toNat_ushiftRight, Nat.shiftRight_eq_div_pow]

theorem toNat_mul_add (x c y : W64) : (x * c + y).toNat = (x.toNat * c.toNat + y.toNat) % 2 ^ 64 := by
  rw [BitVec.toNat_add, BitVec.toNat_mul, Nat.mod_add_mod]

/-- Settles O15: the operations on words are those of numbers modulo 2^64, and a shift right divides. -/
theorem craneRandGenerator : Obligations.CraneRandGenerator := by
  unfold Obligations.CraneRandGenerator
  rintro k0 k1 pos z1 z2 z3 z4 rfl rfl rfl rfl
  rw [craneRand, toNat_xorShift, BitVec.toNat_mul, toNat_xorShift, BitVec.toNat_xor, BitVec.toNat_mul, toNat_xorShift, toNat_mul_add]
  rfl

/-! ### Random elements -/

section
variable (it : Item) (i : Nat)

theorem Item.randUnit_u32 : it.randUnit 0 i = ⟨[(vaAdd (it.w 3) (i * 4 : Nat), leBytes 4 ((it.rand i).toNat % 2 ^ 32))], 0, 0⟩ := rfl

theorem Item.randUnit_u64 : it.randUnit 1 i = ⟨[(vaAdd (it.w 3) (i * 8 : Nat), leBytes 8 (it.rand i).toNat)], 0, 0⟩ := rfl

theorem Item.randUnit_f32 : it.randUnit 2 i = ⟨[(vaAdd (it.w 3) (i * 4 : Nat),
    leBytes 4 (fpF32.rne (.of (QR.ofRat ((it.rand i).toNat / 2 ^ 40 % 2 ^ 24) (2 ^ 24)))))], 0, 0⟩ := rfl

theorem Item.randUnit_f64 : it.randUnit 3 i = ⟨[(vaAdd (it.w 3) (i * 8 : Nat),
    leBytes 8 (fpF64.rne (.of (QR.ofRat ((it.rand i).toNat / 2 ^ 11 % 2 ^ 53) (2 ^ 53)))))], 0, 0⟩ := rfl

end

/-- A sum of chosen powers of two below 2^n has exactly the chosen bits. -/
theorem foldl_add_two_pow (p : Nat → Bool) (n : Nat) :
    (List.range n).foldl (fun acc j => if p j then acc + 2 ^ j else acc) 0 < 2 ^ n ∧
    ∀ j < n, ((List.range n).foldl (fun acc j => if p j then acc + 2 ^ j else acc) 0).testBit j = p j := by
  induction n with
  | zero => simp
  | succ n ih =>
    obtain ⟨hlt, hbit⟩ := ih
    rw [List.range_succ, List.foldl_append, List.foldl_cons, List.foldl_nil]
    generalize (List.range n).foldl (fun acc j => if p j then acc + 2 ^ j else acc) 0 = v at hlt hbit
    have hstep : (if p n then v + 2 ^ n else v) = 2 ^ n * (p n).toNat + v := by cases p n <;> simp [Nat.add_comm]
    have hle : 2 ^ n * (p n).toNat ≤ 2 ^ n := by simpa using Nat.mul_le_mul_left (2 ^ n) (p n).toNat_le
    rw [hstep]
    refine ⟨by omega, fun j hj => ?_⟩
    rw [Nat.testBit_two_pow_mul_add _ hlt]
    split
    next hjn => exact hbit j hjn
    next hjn =>
      obtain rfl : j = n := by omega
      rw [Nat.sub_self]
      cases p j <;> rfl

/-- A byte of BERNOULLI (09 R371). -/
theorem Item.bernoulliUnit_eq (it : Item) (byte : Nat) : ∃ b, b < 256 ∧ it.bernoulliUnit byte = ⟨[(vaAdd (it.w 3) byte, leBytes 1 b)], 0, 0⟩ ∧
    ∀ j < 8, b.testBit j = (decide (8 * byte + j < it.f 5 31 0) && decide ((it.rand (8 * byte + j)).toNat % 2 ^ 32 < it.f 7 31 0)) := by
  obtain ⟨hlt, hbit⟩ := foldl_add_two_pow (fun j => decide (8 * byte + j < it.f 5 31 0) &&
    decide ((it.rand (8 * byte + j)).toNat % 2 ^ 32 < it.f 7 31 0)) 8
  exact ⟨_, hlt, rfl, hbit⟩

end Sys2Proof.Machine
end

section
/-! The units of GATHER and SCATTER_ADD, and the obligation on units' results (09 R357, R358, R360, R371). -/
namespace Sys2Proof.Machine

section
variable {it : Item} {e : Eng} {p i : Nat} {d d1 : Dev} (hindex : (it.gIndex e p).go d = (d1, .ok i))
include hindex

/-- An index below R gives the table's row. -/
theorem Item.gatherUnit_row {d2 : Dev} {bs : List Byte} (hi : i < it.gR)
    (hrow : (e.rd (vaAdd (it.w 2) (i * it.rowBytes : Nat)) it.rowBytes).go d1 = (d2, .ok bs)) :
    (it.gatherUnit e p).go d = (d2, .ok ⟨[(vaAdd (it.w 3) (p * it.rowBytes : Nat), bs)], 0, 0⟩) := by
  rw [Int.natCast_mul] at hrow
  rw [Item.gatherUnit, EM.go_bind_ok hindex, if_pos hi, EM.go_bind_ok hrow, EM.go_pure, decide_eq_false (Nat.not_le.2 hi), Int.natCast_mul]
  rfl

/-- An index of R or more gives a row of zeros and counts once as saturated. -/
theorem Item.gatherUnit_beyond (hi : it.gR ≤ i) :
    (it.gatherUnit e p).go d = (d1, .ok ⟨[(vaAdd (it.w 3) (p * it.rowBytes : Nat), List.replicate it.rowBytes 0)], 1, 0⟩) := by
  rw [Item.gatherUnit, EM.go_bind_ok hindex, if_neg (Nat.not_lt.2 hi), EM.go_bind_ok (EM.go_pure _ d1), EM.go_pure, decide_eq_true hi, Int.natCast_mul]
  rfl

/-- SCATTER_ADD skips an index of R or more and counts it once. -/
theorem Item.scatterUnit_beyond (hi : it.gR ≤ i) : (it.scatterUnit e p).go d = (d1, .ok ⟨[], 1, 0⟩) := by
  rw [Item.scatterUnit, EM.go_bind_ok hindex, if_pos hi, EM.go_pure]

end

/-- Settles O16: each element is written out in the model, and each of a byte's eight bits is added in once. -/
theorem craneUnitResults : Obligations.CraneUnitResults := by
  unfold Obligations.CraneUnitResults
  refine ⟨fun it i r hr => ?_, fun it e p i d d1 hindex => ⟨fun d2 bs => Item.gatherUnit_row hindex,
    fun hi => ⟨Item.gatherUnit_beyond hindex hi, Item.scatterUnit_beyond hindex hi⟩⟩⟩
  obtain rfl : r = (it.rand i).toNat := hr
  obtain ⟨b, hlt, hunit, hbit⟩ := it.bernoulliUnit_eq (i / 8)
  refine ⟨it.randUnit_u32 i, it.randUnit_u64 i, it.randUnit_f32 i, it.randUnit_f64 i, b, hlt, hunit, ?_⟩
  rw [hbit _ (Nat.mod_lt i (by decide)), Nat.div_add_mod]

end Sys2Proof.Machine
end

section
/-! The fence of a wharf complex raises the alert (10 R408; 17 R699; 19 R691). -/
namespace Sys2Proof.Machine

/-- A device that has been released, with nothing in hand: no fence, no wave, no item, and no alert. -/
def quietState : State := { pending := [], dev := ({ pins := { por := false } } : Dev).put F.pilBootProgress_PHASE 5 }

theorem up_quietState : Up quietState := ⟨rfl, show quietState.dev.ticking = true by decide +kernel⟩

theorem quietState_alert : quietState.dev.pins.alert = false := rfl

/-- The log record of the fence, 0x9320, is of a severity that asserts DEV_ALERT_N. -/
theorem wharfFence_alerts : ∃ t, exec (.wharfFence 0) quietState = .next t ∧ t.dev.pins.alert = true :=
  ⟨_, rfl, by decide +kernel⟩

/-- A command that completes with a device leaves its pins. -/
theorem Does.pins {c : Instr} {s t : State} {d : Dev} (hdoes : Does c s d) (hexec : exec c s = .next t) : t.dev.pins = d.pins := by
  injection hexec.symm.trans hdoes with hstate
  rw [hstate, Dev.settle_pins]

/-- Refutes O17: where no wave is in hand on any stack, the last clause lets WHARF_FENCE change only items, registers,
the log and the stacks, but logging 0x9320, an error by 17 R699, also asserts DEV_ALERT_N (19 R691). -/
theorem not_enginesAreFenced : ¬ Obligations.EnginesAreFenced := by
  unfold Obligations.EnginesAreFenced
  rintro ⟨-, hwharf⟩
  obtain ⟨-, hopen⟩ := hwharf quietState 0 up_quietState (by decide)
  obtain ⟨d', hdoes, -, -, -, -, -, -, -, hsame⟩ := hopen rfl
  obtain ⟨t, hexec, halert⟩ := wharfFence_alerts
  have hpins : d'.pins = quietState.dev.pins := (congrArg Dev.pins (hsame nofun) :)
  rw [hdoes.pins hexec, hpins, quietState_alert] at halert
  exact absurd halert Bool.false_ne_true

end Sys2Proof.Machine
end

section
/-! Ring pairs: enabling and disabling, the bell, fetching and the failing slot (11 R413 to R424). -/
namespace Sys2Proof.Machine

/-! ### The commands -/

theorem exec_ringEnable (hart n : Nat) (v : W64) (s : State) : exec (.ringEnable hart n v) s = execRingEnable hart n v s := rfl
theorem exec_ringDisable (hart n : Nat) (v : W64) (s : State) : exec (.ringDisable hart n v) s = execRingDisable hart n v s := rfl
theorem exec_bellLineWake (n : Nat) (s : State) : exec (.bellLineWake n) s = execBellLineWake n s := rfl
theorem exec_descriptorFetch (n : Nat) (s : State) : exec (.descriptorFetch n) s = execDescriptorFetch n s := rfl
theorem exec_slotRecheck (n : Nat) (s : State) : exec (.slotRecheck n) s = execSlotRecheck n s := rfl

/-- What SLOT_RECHECK makes of a ring whose slot at FI has failed since `t0` (11 R419). -/
def Dev.recheck (d : Dev) (n t0 : Nat) : Dev :=
  let d1 := d.look (d.slotPa n (d.fi n)) 64
  match d1.readSlot n (d.fi n) with
  | .failed e => d1.ringFault n (d.fi n) (d1.slotPa n (d.fi n)) e
  | .ok _ => ((d1.modRing n (fun r => { r with failing := none })).fetchLoop n (d1.published n)).writeShadow n
  | .stale =>
    if t0 + 2000 ≤ d1.now then
      ((((d1.modRing n (fun r => { r with failing := none, ahead := min 0xFFFFFFFF (r.ahead + 1) })).addSat
        F.hmRingStatus_BELL_AHEAD_COUNT 1 n).setRing n 2).note 0x7101 0 [(2, n), (4, d.fi n)]).writeShadow n
    else d1

section
variable {s : State} {n : Nat} (hup : Up s)
include hup

theorem does_ringEnable {hart : Nat} (v : W64) (hn : n < 1024) (hhart : s.dev.hartUp hart = true) :
    Does (.ringEnable hart n v) s (s.dev.writeRingCfg hart n (v ||| 0x8000000000000000#64)) := by
  have h := does_of_actUp hup (exec_ringEnable hart n v s)
  rwa [if_pos (by simp [hn, hhart])] at h

theorem does_ringDisable {hart : Nat} (v : W64) (hn : n < 1024) (hhart : s.dev.hartUp hart = true) :
    Does (.ringDisable hart n v) s (s.dev.writeRingCfg hart n (v &&& 0x7FFFFFFFFFFFFFFF#64)) := by
  have h := does_of_actUp hup (exec_ringDisable hart n v s)
  rwa [if_pos (by simp [hn, hhart])] at h

/-- A write to the bell line wakes the fetcher; changing the ring's own record leaves its state to read. -/
theorem does_bellLineWake {d1 : Dev} (hhit : (s.dev.ring n).bellHit = true)
    (hd1 : d1 = s.dev.modRing n (fun r => { r with bellHit := false, awake := true, failing := none })) :
    Does (.bellLineWake n) s (if s.dev.ringState n = 2 then d1.setRing n 1 else d1) := by
  have h := does_of_actUp hup (exec_bellLineWake n s)
  rw [if_pos hhit] at h
  rw [hd1]
  exact h

section
variable (hn : n < 1024) (hstate : s.dev.ringState n = 1) (hmay : s.dev.mayFetch = true)
include hn hstate hmay

theorem does_descriptorFetch (hawake : (s.dev.ring n).awake = true) : Does (.descriptorFetch n) s (s.dev.fetch n) := by
  have h := does_of_actUp hup (exec_descriptorFetch n s)
  rwa [if_pos (by simp [hn, hstate, hmay, hawake])] at h

theorem does_slotRecheck {t0 : Nat} (hfail : (s.dev.ring n).failing = some t0) :
    Does (.slotRecheck n) s (s.dev.recheck n t0) := by
  have h := does_of_actUp hup (exec_slotRecheck n s)
  rw [if_pos (by simp [hn, hstate, hmay]), hfail] at h
  exact h

end
end

/-! ### Writing the configuration of a ring -/

/-- Two written words that agree in every field below ENABLE. -/
def SameFields (v w : W64) : Prop := ∀ hi lo, hi < 63 → bits v.toNat hi lo = bits w.toNat hi lo

/-- Setting ENABLE leaves the fields below it. -/
theorem sameFields_setEnable (v : W64) : SameFields (v ||| 0x8000000000000000#64) v := by
  refine fun hi lo h => Nat.eq_of_testBit_eq fun j => ?_
  rw [testBit_bits, testBit_bits, BitVec.toNat_or, Nat.testBit_or, show (0x8000000000000000#64).toNat = 2 ^ 63 from rfl,
    Nat.testBit_two_pow]
  by_cases hj : j < hi + 1 - lo
  · have : 63 ≠ lo + j := by omega
    simp [this]
  · simp [hj]

/-- Clearing ENABLE leaves the fields below it. -/
theorem sameFields_clearEnable (v : W64) : SameFields (v &&& 0x7FFFFFFFFFFFFFFF#64) v := by
  refine fun hi lo h => Nat.eq_of_testBit_eq fun j => ?_
  rw [testBit_bits, testBit_bits, BitVec.toNat_and, Nat.testBit_and, show (0x7FFFFFFFFFFFFFFF#64).toNat = 2 ^ 63 - 1 from rfl,
    Nat.testBit_two_pow_sub_one]
  by_cases hj : j < hi + 1 - lo
  · have : lo + j < 63 := by omega
    simp [this]
  · simp [hj]

theorem bit_setEnable (v : W64) : bit (v ||| 0x8000000000000000#64).toNat 63 = true := by
  rw [bit, BitVec.toNat_or, Nat.testBit_or, show Nat.testBit (0x8000000000000000#64).toNat 63 = true from by decide, Bool.or_true]

theorem bit_clearEnable (v : W64) : bit (v &&& 0x7FFFFFFFFFFFFFFF#64).toNat 63 = false := by
  rw [bit, BitVec.toNat_and, Nat.testBit_and, show Nat.testBit (0x7FFFFFFFFFFFFFFF#64).toNat 63 = false from by decide, Bool.and_false]

/-- A written word whose S or C lies outside 4 to 16 (11 R424). -/
def BadSizes (v : W64) : Prop :=
  bits v.toNat 20 16 < 4 ∨ 16 < bits v.toNat 20 16 ∨ bits v.toNat 28 24 < 4 ∨ 16 < bits v.toNat 28 24

/-- A written word that changes a field other than ENABLE (11 R424). -/
def ChangesRing (d : Dev) (n : Nat) (v : W64) : Prop :=
  bits v.toNat 39 32 ≠ d.ringCtx n ∨ bits v.toNat 20 16 ≠ d.sqLog n ∨ bits v.toNat 28 24 ≠ d.cqLog n

/-- The fields of a written word other than ENABLE, in their places. -/
def ringFields (v : W64) : W64 :=
  BitVec.ofNat 64 (bits v.toNat 39 32 * 2 ^ 32 + bits v.toNat 28 24 * 2 ^ 24 + bits v.toNat 20 16 * 2 ^ 16)

section
variable {v w : W64} (h : SameFields v w)
include h

theorem SameFields.badSizes : BadSizes v ↔ BadSizes w := by
  simp only [BadSizes, h 20 16 (by decide), h 28 24 (by decide)]

theorem SameFields.changesRing (d : Dev) (n : Nat) : ChangesRing d n v ↔ ChangesRing d n w := by
  simp only [ChangesRing, h 39 32 (by decide), h 20 16 (by decide), h 28 24 (by decide)]

theorem SameFields.ringFields : ringFields v = ringFields w := by
  simp only [Machine.ringFields, h 39 32 (by decide), h 20 16 (by decide), h 28 24 (by decide)]

end

theorem bits_enable (v : Nat) : bits v 63 63 = (bit v 63).toNat := by
  rw [bit, Nat.toNat_testBit]
  rfl

/-- The word stored: the written fields, with ENABLE where bit 63 is set. -/
theorem ringCfg_word (v : W64) (b : Bool) (h : bit v.toNat 63 = b) :
    BitVec.ofNat 64 (2 ^ 63 * bits v.toNat 63 63 + bits v.toNat 39 32 * 2 ^ 32 + bits v.toNat 28 24 * 2 ^ 24 + bits v.toNat 20 16 * 2 ^ 16) =
      if b then ringFields v + 0x8000000000000000#64 else ringFields v := by
  rw [bits_enable, h, ringFields]
  cases b
  · simp only [Bool.toNat_false, Nat.mul_zero, Nat.zero_add, Bool.false_eq_true, if_false]
  · rw [if_pos rfl, show 0x8000000000000000#64 = BitVec.ofNat 64 (2 ^ 63) from rfl, ← BitVec.ofNat_add]
    congr 1
    simp only [Bool.toNat_true]
    omega

section
variable {d : Dev} {hart n : Nat} {v : W64}

/-- A size outside 4 to 16, or a field changed while the ring is not DISABLED, is refused. -/
theorem Dev.writeRingCfg_refused (hbad : BadSizes v ∨ d.ringState n ≠ 0 ∧ ChangesRing d n v) :
    d.writeRingCfg hart n v = d.refuse hart (Reg.offset .hmRingCfg n) := by
  unfold Dev.writeRingCfg
  by_cases hsizes : BadSizes v
  · rw [if_pos (by simpa [BadSizes, or_assoc] using hsizes)]
  · obtain ⟨hstate, hchange⟩ := hbad.resolve_left hsizes
    rw [if_neg (by simpa [BadSizes, or_assoc] using hsizes),
      if_pos (by simpa [ChangesRing, or_assoc] using And.intro hstate hchange)]

section
variable (hsizes : ¬ BadSizes v) (hkeep : d.ringState n = 0 ∨ ¬ ChangesRing d n v)
include hsizes hkeep

/-- ENABLE 1 starts a DISABLED ring, is accepted by one that fetches and refused by the others. -/
theorem Dev.writeRingCfg_enable (henable : bit v.toNat 63 = true) : d.writeRingCfg hart n v =
    if d.ringState n = 0 then ((d.setReg .hmRingCfg n (ringFields v + 0x8000000000000000#64)).enableRing n).accepted
    else if d.ringState n = 1 ∨ d.ringState n = 2 then d.accepted else d.refuse hart (Reg.offset .hmRingCfg n) := by
  unfold Dev.writeRingCfg
  dsimp only
  rw [if_neg (by simpa [BadSizes, or_assoc] using hsizes),
    if_neg (by simpa [ChangesRing, or_assoc, or_iff_not_imp_left] using hkeep), if_pos henable, ringCfg_word v true henable, if_pos rfl]
  simp only [Bool.or_eq_true, decide_eq_true_eq]

/-- ENABLE 0 writes the fields, and drains a ring that is not DISABLED. -/
theorem Dev.writeRingCfg_disable (henable : bit v.toNat 63 = false) : d.writeRingCfg hart n v =
    if d.ringState n = 0 then (d.setReg .hmRingCfg n (ringFields v)).accepted
    else ((((d.setReg .hmRingCfg n (ringFields v)).setRing n 6).unpin n).drained n).accepted := by
  unfold Dev.writeRingCfg
  dsimp only
  rw [if_neg (by simpa [BadSizes, or_assoc] using hsizes),
    if_neg (by simpa [ChangesRing, or_assoc, or_iff_not_imp_left] using hkeep), if_neg (by simp [henable]),
    ringCfg_word v false henable, if_neg Bool.false_ne_true]

end
end

/-! ### What a write of ENABLE does to a ring -/

section
variable {s : State} {hart n : Nat} {v : W64} (hup : Up s) (hn : n < 1024) (hhart : s.dev.hartUp hart = true)
include hup hn hhart

theorem does_ringCfg_refused (hbad : BadSizes v ∨ s.dev.ringState n ≠ 0 ∧ ChangesRing s.dev n v) :
    Does (.ringEnable hart n v) s (s.dev.refuse hart (Reg.offset .hmRingCfg n)) ∧
    Does (.ringDisable hart n v) s (s.dev.refuse hart (Reg.offset .hmRingCfg n)) := by
  have hon := does_ringEnable hup v hn hhart
  have hoff := does_ringDisable hup v hn hhart
  rw [Dev.writeRingCfg_refused (by rwa [(sameFields_setEnable v).badSizes, (sameFields_setEnable v).changesRing])] at hon
  rw [Dev.writeRingCfg_refused (by rwa [(sameFields_clearEnable v).badSizes, (sameFields_clearEnable v).changesRing])] at hoff
  exact ⟨hon, hoff⟩

variable (hsizes : ¬ BadSizes v) (hkeep : s.dev.ringState n = 0 ∨ ¬ ChangesRing s.dev n v)
include hsizes hkeep

theorem does_ringEnable_kept : Does (.ringEnable hart n v) s
    (if s.dev.ringState n = 0 then ((s.dev.setReg .hmRingCfg n (ringFields v + 0x8000000000000000#64)).enableRing n).accepted
      else if s.dev.ringState n = 1 ∨ s.dev.ringState n = 2 then s.dev.accepted
      else s.dev.refuse hart (Reg.offset .hmRingCfg n)) := by
  have hon := does_ringEnable hup v hn hhart
  have hsame := sameFields_setEnable v
  rwa [Dev.writeRingCfg_enable (by rwa [hsame.badSizes]) (by rwa [hsame.changesRing]) (bit_setEnable v), hsame.ringFields] at hon

theorem does_ringDisable_kept : Does (.ringDisable hart n v) s
    (if s.dev.ringState n = 0 then (s.dev.setReg .hmRingCfg n (ringFields v)).accepted
      else ((((s.dev.setReg .hmRingCfg n (ringFields v)).setRing n 6).unpin n).drained n).accepted) := by
  have hoff := does_ringDisable hup v hn hhart
  have hsame := sameFields_clearEnable v
  rwa [Dev.writeRingCfg_disable (by rwa [hsame.badSizes]) (by rwa [hsame.changesRing]) (bit_clearEnable v), hsame.ringFields] at hoff

end

/-! ### A ring just enabled -/

theorem hmRingStatus_offset (n : Nat) :
    Reg.offset .hmRingStatus n = if n < 960 then 0x21030 + 0x40 * n else 0xf0030 + 0x40 * (n - 960) := by
  by_cases h : n < 960
  · simp [Reg.offset, Reg.segs, dimsOffset, h, Nat.not_le.2 h, Nat.mul_comm]
  · simp [Reg.offset, Reg.segs, dimsOffset, h, Nat.not_lt.1 h, Nat.mul_comm]

theorem hmRingIndex_offset (n : Nat) : Reg.offset .hmRingIndex n = Reg.offset .hmRingStatus n + 8 := by
  by_cases h : n < 960
  · simp [Reg.offset, Reg.segs, dimsOffset, Nat.not_le.2 h, Nat.add_right_comm]
  · simp [Reg.offset, Reg.segs, dimsOffset, Nat.not_lt.1 h, Nat.add_right_comm]

theorem hmBellWatch_offset_lt (n : Nat) : Reg.offset .hmBellWatch 0 < Reg.offset .hmRingStatus n := by
  have hwatch : Reg.offset .hmBellWatch 0 = 0x20018 := by decide
  rw [hwatch, hmRingStatus_offset]
  split <;> omega

/-- Watching a bell line changes HM_BELL_WATCH and no other register. -/
theorem Dev.pin_reg (d : Dev) (n : Nat) {r : Reg} {i : Nat} (h : r.offset i ≠ Reg.offset .hmBellWatch 0) :
    (d.pin n).reg r i = d.reg r i := by
  unfold Dev.pin
  exact Dev.put_reg_other _ _ h

theorem Dev.pin_ring (d : Dev) (n k : Nat) : (d.pin n).ring k = d.ring k := rfl
theorem Dev.setRing_ring (d : Dev) (n st k : Nat) : (d.setRing n st).ring k = d.ring k := rfl
theorem Dev.modRing_ring_same (d : Dev) (n : Nat) (f : Ring → Ring) : (d.modRing n f).ring n = f (d.ring n) := tget_tset_same _ _ _

/-- FI and CQ_PI lie apart from the ring's state and from HM_BELL_WATCH, so enabling leaves them at 0. -/
theorem Dev.enableRing_index (d : Dev) (n : Nat) : (d.enableRing n).reg .hmRingIndex n = 0 := by
  have hwatch := hmBellWatch_offset_lt n
  have hindex := hmRingIndex_offset n
  have hapart : Reg.offset .hmRingIndex n ≠ Reg.offset .hmRingStatus n := by omega
  rw [Dev.enableRing, Dev.pin_reg _ _ (by omega), Dev.setRing, Dev.put_reg_other _ _ hapart]
  exact (Dev.setReg_other _ 0 hapart).trans (Dev.setReg_reg _ .hmRingIndex n 0)

theorem Dev.enableRing_state (d : Dev) (n : Nat) : (d.enableRing n).ringState n = 1 := by
  have hwatch : Reg.offset .hmRingStatus n ≠ Reg.offset .hmBellWatch 0 := (hmBellWatch_offset_lt n).ne'
  rw [Dev.enableRing, Dev.ringState, Dev.get_congr (Dev.pin_reg _ n hwatch), Dev.setRing,
    Dev.put_get_same _ F.hmRingStatus_STATE 1 n (by decide)]
  rfl

/-- An enabled ring is ACTIVE, with its indices 0 and its fetcher woken, whatever it held before. -/
theorem Dev.enableRing_starts (d : Dev) (n : Nat) : (d.enableRing n).ringState n = 1 ∧ (d.enableRing n).fi n = 0 ∧
    (d.enableRing n).cqPi n = 0 ∧ ((d.enableRing n).ring n).awake = true := by
  refine ⟨d.enableRing_state n, ?_, ?_, ?_⟩
  · rw [Dev.fi, Dev.get, Dev.enableRing_index]; decide
  · rw [Dev.cqPi, Dev.get, Dev.enableRing_index]; decide
  · rw [Dev.enableRing, Dev.pin_ring, Dev.setRing_ring, Dev.modRing_ring_same]

/-! ### One fetch -/

/-- Word 0 of the slot is its first eight bytes. -/
theorem bits_bytesWords_zero (bs : List Byte) {hi : Nat} (lo : Nat) (h : hi < 64) :
    bits ((bytesWords 8 bs).getD 0 0).toNat hi lo = bits (leNat (bs.take 8)) hi lo :=
  bits_ofNat (leNat (bs.take 8)) lo h

/-- The check of a slot read for index `i`: its sequence is i mod 256 and its phase is that of `i` (11 R417). -/
def SlotPasses (d : Dev) (n i : Nat) (bs : List Byte) : Prop :=
  bits (leNat (bs.take 8)) 23 16 = i % 256 ∧ bits (leNat (bs.take 8)) 24 24 = phaseOf i (d.sqLog n)

section
variable {d : Dev} {n i : Nat}

theorem Dev.readSlot_failed {e : AccErr} (hread : d.hubRead (d.slotPa n i) 64 = .error e) : d.readSlot n i = .failed e := by
  rw [Dev.readSlot, hread]

theorem Dev.readSlot_ok {bs : List Byte} (hread : d.hubRead (d.slotPa n i) 64 = .ok bs) (hpass : SlotPasses d n i bs) :
    d.readSlot n i = .ok (bytesWords 8 bs) := by
  obtain ⟨hseq, hphase⟩ := hpass
  rw [Dev.readSlot, hread]
  dsimp only
  rw [bits_bytesWords_zero bs 16 (by decide), bits_bytesWords_zero bs 24 (by decide), hseq, hphase, if_pos (by simp)]

theorem Dev.readSlot_stale {bs : List Byte} (hread : d.hubRead (d.slotPa n i) 64 = .ok bs) (hfails : ¬ SlotPasses d n i bs) :
    d.readSlot n i = .stale := by
  rw [Dev.readSlot, hread]
  dsimp only
  rw [bits_bytesWords_zero bs 16 (by decide), bits_bytesWords_zero bs 24 (by decide), if_neg (by simpa [SlotPasses] using hfails)]

end

/-- A ring has a descriptor to fetch and a completion slot free for it (11 R417). -/
def Dev.MayTake (d : Dev) (n : Nat) : Prop :=
  d.fi n ≠ (d.ring n).pi ∧ (d.fi n + 2 ^ 32 - (d.ring n).cqCi) % 2 ^ 32 < 2 ^ d.cqLog n

theorem Dev.fetchLoop_stops {d : Dev} {n : Nat} (h : ¬ d.MayTake n) (k : Nat) : d.fetchLoop n k = d := by
  cases k with
  | zero => rfl
  | succ k =>
    rw [Dev.fetchLoop, if_pos (by simpa [Dev.MayTake, or_iff_not_imp_left] using h)]

section
variable {d d1 : Dev} {n k : Nat} (hmay : d.MayTake n) (hd1 : d1 = d.look (d.slotPa n (d.fi n)) 64)
include hmay hd1

theorem Dev.fetchLoop_takes {ws : List W64} (hslot : d1.readSlot n (d.fi n) = .ok ws) :
    d.fetchLoop n (k + 1) = (d1.takeSlot n (d.fi n) ws).fetchLoop n k := by
  rw [Dev.fetchLoop, if_neg (by simpa [Dev.MayTake, not_or] using hmay), ← hd1]
  simp only [hslot]

theorem Dev.fetchLoop_waits (hslot : d1.readSlot n (d.fi n) = .stale) :
    d.fetchLoop n (k + 1) = d1.modRing n (fun r => { r with failing := some d1.now }) := by
  rw [Dev.fetchLoop, if_neg (by simpa [Dev.MayTake, not_or] using hmay), ← hd1]
  simp only [hslot]

theorem Dev.fetchLoop_faults {e : AccErr} (hslot : d1.readSlot n (d.fi n) = .failed e) :
    d.fetchLoop n (k + 1) = d1.ringFault n (d.fi n) (d1.slotPa n (d.fi n)) e := by
  rw [Dev.fetchLoop, if_neg (by simpa [Dev.MayTake, not_or] using hmay), ← hd1]
  simp only [hslot]

end

/-! ### The bell line -/

section
variable {d d1 : Dev} {n : Nat} (hd1 : d1 = (d.modRing n (fun r => { r with awake := false, failing := none })).look (d.ctrlBase n) 64)
include hd1

theorem Dev.fetch_faults {e : AccErr} (hread : d1.hubRead (d1.ctrlBase n) 64 = .error e) :
    d.fetch n = d1.ringFault n 0 (d1.ctrlBase n) e := by
  rw [Dev.fetch, ← hd1, hread]

variable {bs : List Byte} {pi : Nat} (hread : d1.hubRead (d1.ctrlBase n) 64 = .ok bs) (hpi : pi = leNat (bs.take 8) % 2 ^ 32)
include hread hpi

theorem Dev.fetch_invalidBell (hover : 2 ^ d1.sqLog n < (pi + 2 ^ 32 - d1.fi n) % 2 ^ 32) :
    d.fetch n = d1.note 0x7102 0 [(2, n), (4, pi), (4, d1.fi n)] := by
  subst hpi
  rw [Dev.fetch, ← hd1, hread]
  exact if_pos hover

theorem Dev.fetch_published {d2 : Dev} (hfits : (pi + 2 ^ 32 - d1.fi n) % 2 ^ 32 ≤ 2 ^ d1.sqLog n)
    (hd2 : d2 = d1.modRing n (fun r => { r with
      bellSeq := leNat (bs.take 8) / 2 ^ 32, pi := pi, cqCi := leNat ((bs.drop 8).take 8) % 2 ^ 32 })) :
    d.fetch n = (d2.fetchLoop n (d2.published n)).writeShadow n := by
  subst hpi hd2
  rw [Dev.fetch, ← hd1, hread]
  exact if_neg (Nat.not_lt.2 hfits)

end

/-! ### The failing slot -/

section
variable {d d1 : Dev} {n t0 : Nat} (hd1 : d1 = d.look (d.slotPa n (d.fi n)) 64)
include hd1

theorem Dev.recheck_takes {ws : List W64} (hslot : d1.readSlot n (d.fi n) = .ok ws) : d.recheck n t0 =
    ((d1.modRing n (fun r => { r with failing := none })).fetchLoop n (d1.published n)).writeShadow n := by
  rw [Dev.recheck, ← hd1, hslot]

theorem Dev.recheck_faults {e : AccErr} (hslot : d1.readSlot n (d.fi n) = .failed e) :
    d.recheck n t0 = d1.ringFault n (d.fi n) (d1.slotPa n (d.fi n)) e := by
  rw [Dev.recheck, ← hd1, hslot]

theorem Dev.recheck_waits (hslot : d1.readSlot n (d.fi n) = .stale) (hearly : d1.now < t0 + 2000) : d.recheck n t0 = d1 := by
  rw [Dev.recheck, ← hd1, hslot]
  exact if_neg (Nat.not_le.2 hearly)

theorem Dev.recheck_bellAhead (hslot : d1.readSlot n (d.fi n) = .stale) (hlate : t0 + 2000 ≤ d1.now) : d.recheck n t0 =
    ((((d1.modRing n (fun r => { r with failing := none, ahead := min 0xFFFFFFFF (r.ahead + 1) })).addSat
      F.hmRingStatus_BELL_AHEAD_COUNT 1 n).setRing n 2).note 0x7101 0 [(2, n), (4, d.fi n)]).writeShadow n := by
  rw [Dev.recheck, ← hd1, hslot]
  exact if_pos hlate

end

/-- Settles O23, from what a write of ENABLE, the bell, one fetch and the recheck of a failing slot each do. -/
theorem ringsEnableAndFetch : Obligations.RingsEnableAndFetch := by
  unfold Obligations.RingsEnableAndFetch
  refine ⟨fun s hart n v w hup hn hhart => ⟨fun hbad => ?refused, fun hs4 hs16 hc4 hc16 hw => ?kept, s.dev.enableRing_starts n⟩,
    ⟨fun s n d1 hup => does_bellLineWake hup, fun s n hup => ?awake, fun d d1 n hd1 => ?bell,
      fun d d1 n k hd1 hpi hroom => ?slot, fun d n k hstop => ?stops⟩,
    fun s n t0 d1 hup hn hstate hmay hfail hd1 => ?recheck⟩
  case refused => exact does_ringCfg_refused hup hn hhart (by simpa only [BadSizes, ChangesRing, or_assoc] using hbad)
  case kept =>
    have hsizes : ¬ BadSizes v := by unfold BadSizes; omega
    obtain rfl : w = ringFields v := hw
    refine ⟨fun hdis => ?_, fun hlive hctx hsq hcq => ?_⟩
    · have hon := does_ringEnable_kept hup hn hhart hsizes (.inl hdis)
      have hoff := does_ringDisable_kept hup hn hhart hsizes (.inl hdis)
      rw [if_pos hdis] at hon hoff
      exact ⟨hon, hoff⟩
    · have hkeep : ¬ ChangesRing s.dev n v := by simp [ChangesRing, hctx, hsq, hcq]
      have hon := does_ringEnable_kept hup hn hhart hsizes (.inr hkeep)
      have hoff := does_ringDisable_kept hup hn hhart hsizes (.inr hkeep)
      rw [if_neg hlive] at hon hoff
      refine ⟨fun hfetch => ?_, fun h1 h2 => ?_, hoff⟩
      · rwa [if_pos hfetch] at hon
      · rwa [if_neg (not_or.2 ⟨h1, h2⟩)] at hon
  case awake => exact fun hn hstate hawake hmay => does_descriptorFetch hup hn hstate hmay hawake
  case bell =>
    exact ⟨fun e => Dev.fetch_faults hd1, fun bs pi hread hpi => ⟨Dev.fetch_invalidBell hd1 hread hpi,
      fun hfits d2 => Dev.fetch_published hd1 hread hpi hfits⟩⟩
  case slot =>
    have hmay : d.MayTake n := ⟨hpi, hroom⟩
    refine ⟨fun e hread => Dev.fetchLoop_faults hmay hd1 (Dev.readSlot_failed hread), fun bs hread => ⟨fun hseq hphase => ?_, fun hbad => ?_⟩⟩
    · exact Dev.fetchLoop_takes hmay hd1 (Dev.readSlot_ok hread ⟨hseq, hphase⟩)
    · exact Dev.fetchLoop_waits hmay hd1 (Dev.readSlot_stale hread (not_and_or.2 hbad))
  case stops =>
    exact Dev.fetchLoop_stops (fun ⟨hpi, hroom⟩ => hstop.elim hpi (Nat.not_le.2 hroom)) k
  case recheck =>
    have hdoes := does_slotRecheck hup hn hstate hmay hfail
    refine ⟨fun ws hslot => ?_, fun e hslot => ?_, fun hslot hearly => ?_, fun hslot hlate => ?_⟩
    · rwa [Dev.recheck_takes hd1 hslot] at hdoes
    · rwa [Dev.recheck_faults hd1 hslot] at hdoes
    · rwa [Dev.recheck_waits hd1 hslot hearly] at hdoes
    · rwa [Dev.recheck_bellAhead hd1 hslot hlate] at hdoes

end Sys2Proof.Machine
end

section
/-! Reading the logbook through the register window: what LOG_INDEX latches and what LOG_DATA then holds (17 R653). -/
namespace Sys2Proof.Machine

theorem exec_logIndexWrite (h : Nat) (w : W64) (s : State) : exec (.logIndexWrite h w) s = execLogIndexWrite h w s := rfl

theorem does_logIndexWrite {s : State} {h : Nat} (w : W64) (hup : Up s) (hh : s.dev.hartUp h = true) :
    Does (.logIndexWrite h w) s ((s.dev.latchLog (w.toNat % 4096)).answer (.ok 0)) := by
  have hdoes := does_of_actUp hup (exec_logIndexWrite h w s)
  rwa [if_pos hh] at hdoes

/-- Putting a field of some instances leaves a register that lies at none of their offsets. -/
theorem Dev.foldl_put_other {f : Fld} {r : Reg} {j : Nat} (v : Nat → Nat) :
    ∀ (l : List Nat) (d : Dev), (∀ i ∈ l, r.offset j ≠ f.reg.offset i) → (l.foldl (fun d i => d.put f (v i) i) d).reg r j = d.reg r j
  | [], _, _ => rfl
  | i :: l, d, h => by
    rw [List.foldl_cons, Dev.foldl_put_other v l _ fun i hi => h i (List.mem_cons_of_mem _ hi)]
    exact d.put_reg_other _ (h i List.mem_cons_self)

/-- Putting a field of instances at different offsets, one after another, each holds its own value. -/
theorem Dev.foldl_put_mem {f : Fld} (hf : f.hi < 64) (v : Nat → Nat) {k : Nat} {l : List Nat}
    (hl : l.Pairwise (fun i j => f.reg.offset i ≠ f.reg.offset j)) (hk : k ∈ l) (d : Dev) :
    (l.foldl (fun d i => d.put f (v i) i) d).get f k = v k % 2 ^ (f.hi + 1 - f.lo) := by
  induction l generalizing d with
  | nil => simp at hk
  | cons i l ih =>
    obtain ⟨hi, hl⟩ := List.pairwise_cons.1 hl
    rw [List.foldl_cons]
    rcases List.mem_cons.1 hk with rfl | hk
    · rw [Dev.get_congr (Dev.foldl_put_other v l _ hi), Dev.put_get_same _ _ _ _ hf]
    · exact ih hl hk _

/-- A LOG_DATA register is one readable field, which nothing else shows. -/
theorem Dev.readReg_logData (d : Dev) (k : Nat) : d.readReg .logData k = BitVec.ofNat 64 (d.get F.logData_WORD k) := by
  have hmask : Reg.readMask .logData = 2 ^ 64 - 1 := by decide
  change BitVec.ofNat 64 ((d.reg .logData k).toNat &&& Reg.readMask .logData) = BitVec.ofNat 64 ((d.reg .logData k).toNat / 2 ^ 0 % 2 ^ 64)
  rw [hmask, Nat.and_two_pow_sub_one_eq_mod, Nat.pow_zero, Nat.div_one]

theorem Dev.latchLog_data (d : Dev) (i : Nat) {k : Nat} (hk : k < 8) :
    (d.latchLog i).readReg .logData k = BitVec.ofNat 64 (leNat (((d.logBytes i).drop (8 * k)).take 8)) := by
  rw [Dev.readReg_logData, Dev.latchLog,
    Dev.foldl_put_mem (by decide) (fun k => leNat (((d.logBytes i).drop (8 * k)).take 8)) (by decide) (List.mem_range.2 hk)]
  exact BitVec.eq_of_toNat_eq (by simp)

theorem leNat_replicate_zero (n : Nat) : leNat (List.replicate n 0) = 0 := by
  induction n with
  | zero => rfl
  | succ n ih => rw [List.replicate_succ, leNat, ih]; rfl

theorem Dev.logBytes_unwritten {d : Dev} {i : Nat} (h : d.log.recs[i]? = none) : d.logBytes i = List.replicate 64 0 := by
  rw [Dev.logBytes, h]

theorem Dev.latchLog_log (d : Dev) (i : Nat) : (d.latchLog i).log = d.log :=
  foldl_keeps (f := fun d k => Dev.put d F.logData_WORD _ k) Dev.log (fun _ _ => rfl) _ _

theorem logData_at {k : Nat} (hk : k < 8) : Reg.at? (Reg.offset .logData k) = some (.logData, k) ∧ Reg.offset .logData k % 8 = 0 ∧
    Reg.offset .logData k % 2 ^ 24 = Reg.offset .logData k ∧ earlyReg (Reg.offset .logData k) = true ∧ alwaysOnReg (Reg.offset .logData k) = true := by
  interval_cases k <;> decide

/-- The BMC reads the latched record before release too, and the read is noted for ALERT_ACK. -/
theorem Dev.bmcRead_logData (d : Dev) {k : Nat} (hk : k < 8) : d.bmcRead (Reg.offset .logData k) =
    ({ d with log := { d.log with bmcRead := max d.log.bmcRead (d.get F.logIndex_INDEX + 1) } } : Dev).answer (.ok (d.readReg .logData k)) := by
  obtain ⟨hat, hal, -, hearly, -⟩ := logData_at hk
  rw [Dev.bmcRead, if_neg (not_not_intro hal), hat]
  simp only [hearly, Bool.not_true, Bool.and_false, Bool.false_eq_true, if_false, if_true]
  rfl

theorem does_regRead_logData {s : State} {k : Nat} (hpor : s.dev.pins.por = false) (hk : k < 8) :
    Does (.regRead (Reg.offset .logData k)) s (s.dev.bmcRead (Reg.offset .logData k)) := by
  obtain ⟨-, -, hin, -, halways⟩ := logData_at hk
  have hopen : (s.dev.clocked || (s.dev.stopped && !s.dev.pins.por && alwaysOnReg (Reg.offset .logData k))) = true := by
    rw [halways, hpor, Dev.clocked, hpor]
    cases s.dev.stopped <;> rfl
  rw [Does, exec_regRead, execRegRead, act_eq, hin, if_pos hopen]

/-- Settles O60, from what LOG_INDEX latches and what a read of LOG_DATA answers. -/
theorem logRecordsReadThroughTheWindow : Obligations.LogRecordsReadThroughTheWindow := by
  unfold Obligations.LogRecordsReadThroughTheWindow
  refine ⟨fun s h w hup hh => does_logIndexWrite w hup hh, fun d i k _ hk => ⟨d.latchLog_data i hk, fun hnone => ?_, d.latchLog_log i⟩,
    fun s k hpor hk => ⟨_, does_regRead_logData hpor hk, ?_⟩⟩
  · rw [d.latchLog_data i hk, Dev.logBytes_unwritten hnone, List.drop_replicate, List.take_replicate, leNat_replicate_zero]
    rfl
  · rw [s.dev.bmcRead_logData hk]
    exact ⟨rfl, rfl, rfl⟩

end Sys2Proof.Machine
end

section
/-! Nonces, tokens and evidence (16 R611 to R618). -/
namespace Sys2Proof.Machine

variable (d : Dev)

/-! ### What recording an event and showing a nonce leave -/

@[simp] theorem Dev.note_pilot (code loc : Nat) (vs : List (Nat × Nat)) : (d.note code loc vs).pilot = d.pilot := by
  obtain ⟨⟨l, p, rs, h⟩, -⟩ := d.note_logsOnly code loc vs
  rw [h]

@[simp] theorem Dev.note_fuses (code loc : Nat) (vs : List (Nat × Nat)) : (d.note code loc vs).fuses = d.fuses := by
  obtain ⟨⟨l, p, rs, h⟩, -⟩ := d.note_logsOnly code loc vs
  rw [h]

@[simp] theorem Dev.logRaw_pilot (code loc : Nat) (pay : List Byte) : (d.logRaw code loc pay).pilot = d.pilot := by
  obtain ⟨⟨l, p, rs, h⟩, -⟩ := logsOnly_logRaw d code loc pay
  rw [h]

@[simp] theorem Dev.flag_pilot (f : Fld) (b : Bool) (i : Nat) : (d.flag f b i).pilot = d.pilot := rfl

/-- PIL_NONCE shows the host's nonce; what no put of it changes stays. -/
theorem Dev.showNonce_keeps {γ : Type} (g : Dev → γ) (hg : ∀ (d : Dev) (v k : Nat), g (d.put F.pilNonce_NONCE v k) = g d) :
    g d.showNonce = g d := by
  unfold Dev.showNonce
  exact foldl_keeps g (fun _ _ => hg _ _ _) _ _

@[simp] theorem Dev.showNonce_pilot : d.showNonce.pilot = d.pilot := d.showNonce_keeps Dev.pilot fun _ _ _ => rfl
@[simp] theorem Dev.showNonce_fuses : d.showNonce.fuses = d.fuses := d.showNonce_keeps Dev.fuses fun _ _ _ => rfl
@[simp] theorem Dev.showNonce_fresh : d.showNonce.fresh = d.fresh := d.showNonce_keeps Dev.fresh fun _ _ _ => rfl

/-- The channel other than a given one. -/
def otherChannel : Channel → Channel
  | .host => .bmc
  | .bmc => .host

/-- A fresh nonce replaces its channel's, and is the next free value (16 R613). -/
theorem Dev.newNonce_frame (c : Channel) : (d.newNonce c).nonceOf c = some (fit 32 (Config.nonce d.fresh)) ∧
    (d.newNonce c).nonceOf (otherChannel c) = d.nonceOf (otherChannel c) ∧ (d.newNonce c).fresh = d.fresh + 1 := by
  cases c with
  | host => exact ⟨congrArg Pilot.nonceHost (Dev.showNonce_pilot _), (congrArg Pilot.nonceBmc (Dev.showNonce_pilot _)).trans rfl, Dev.showNonce_fresh _⟩
  | bmc => exact ⟨rfl, rfl, rfl⟩

/-- A used nonce is gone, and the fuses stay. -/
theorem Dev.useNonce_frame (c : Channel) : (d.useNonce c).nonceOf c = none ∧ (d.useNonce c).fuses = d.fuses := by
  cases c with
  | host => exact ⟨congrArg Pilot.nonceHost (Dev.showNonce_pilot _), Dev.showNonce_fuses _⟩
  | bmc => exact ⟨rfl, rfl⟩

theorem Dev.nonceOf_congr {d d' : Dev} (h : d'.pilot = d.pilot) (c : Channel) : d'.nonceOf c = d.nonceOf c := by
  cases c
  · exact congrArg Pilot.nonceHost h
  · exact congrArg Pilot.nonceBmc h

/-! ### Reporting and the effect of a token -/

/-- A reported result is the answer; only registers change with it. -/
theorem Dev.tokResult_frame (c : Channel) (kind result : Nat) (judged : Bool) :
    (d.tokResult c kind result judged).resp = .token result ∧ (d.tokResult c kind result judged).pilot = d.pilot ∧
    (d.tokResult c kind result judged).fuses = d.fuses := by
  cases c with
  | host => cases judged <;> exact ⟨rfl, rfl, rfl⟩
  | bmc => exact ⟨rfl, rfl, rfl⟩

theorem Dev.setSlot_pilot (k st : Nat) (hash : List Byte) : (d.setSlot k st hash).pilot = d.pilot := by
  unfold Dev.setSlot
  by_cases hk : k = 0
  · simp only [if_pos hk, Dev.note_pilot]; rfl
  · simp only [if_neg hk, Dev.note_pilot]; rfl

theorem Dev.eraseFlash_nonceOf (a n : Nat) (k : Channel) : (d.eraseFlash a n).nonceOf k = d.nonceOf k := by
  cases k <;> rfl

/-- Clearing the logbook erases its vault slot in flash, and leaves the nonces. -/
theorem Dev.clearLog_nonceOf (c k : Channel) : (d.clearLog c).nonceOf k = d.nonceOf k := by
  rw [Dev.clearLog, Dev.nonceOf_congr (Dev.logRaw_pilot _ _ _ _) k, Dev.nonceOf_congr (Dev.put_pilot _ _ _ _) k, Dev.eraseFlash_nonceOf,
    Dev.nonceOf_congr (Dev.flag_pilot _ _ _ _) k, Dev.nonceOf_congr (Dev.put_pilot _ _ _ _) k, Dev.nonceOf_congr (Dev.put_pilot _ _ _ _) k]
  exact Dev.nonceOf_congr rfl k

/-- No kind of token sets a nonce. -/
theorem Dev.tokEffect_nonceOf (c k : Channel) (t : List Byte) : (d.tokEffect c t).nonceOf k = d.nonceOf k := by
  unfold Dev.tokEffect
  split
  · exact Dev.nonceOf_congr (Dev.note_pilot _ _ _ _) k
  · exact d.clearLog_nonceOf c k
  · exact Dev.nonceOf_congr (d.setSlot_pilot _ _ _) k
  · exact Dev.nonceOf_congr (d.setSlot_pilot _ _ _) k
  · exact Dev.nonceOf_congr rfl k

/-! ### Judging -/

variable {d} {c : Channel} {t : List Byte}

/-- The device on which a verdict is passed: the free value of a fuse write drawn, and the nonce consumed. -/
def Dev.judged (d : Dev) (c : Channel) (t : List Byte) : Dev := (if 3 ≤ tokKind t then d.draw else d).useNonce c

/-- What a rejection leaves (16 R615). -/
def Dev.rejected (d : Dev) (c : Channel) (t : List Byte) (r : Nat) : Dev :=
  ((d.judged c t).note 0x8011 0 [(2, tokKind t), (1, chanNo c), (1, r)]).tokResult c (tokKind t) r true

/-- What an acceptance leaves (16 R615). -/
def Dev.tokAccepted (d : Dev) (c : Channel) (t : List Byte) : Dev :=
  (((d.judged c t).tokEffect c t).note 0x8010 0 [(2, tokKind t), (1, chanNo c)]).tokResult c (tokKind t) 1 true

theorem Dev.judged_frame (d : Dev) (c : Channel) (t : List Byte) : (d.judged c t).nonceOf c = none ∧ (d.judged c t).fuses = d.fuses := by
  obtain ⟨hnonce, hfuses⟩ := (if 3 ≤ tokKind t then d.draw else d).useNonce_frame c
  refine ⟨hnonce, hfuses.trans ?_⟩
  split <;> rfl

theorem Dev.rejected_frame (d : Dev) (c : Channel) (t : List Byte) (r : Nat) : (d.rejected c t r).resp = .token r ∧
    (d.rejected c t r).nonceOf c = none ∧ (d.rejected c t r).fuses = d.fuses := by
  obtain ⟨hnonce, hfuses⟩ := d.judged_frame c t
  obtain ⟨hresp, hp, hf⟩ := ((d.judged c t).note 0x8011 0 [(2, tokKind t), (1, chanNo c), (1, r)]).tokResult_frame c (tokKind t) r true
  refine ⟨hresp, (Dev.nonceOf_congr (hp.trans (Dev.note_pilot _ _ _ _)) c).trans hnonce, hf.trans ?_⟩
  rw [Dev.note_fuses, hfuses]

theorem Dev.tokAccepted_frame (d : Dev) (c : Channel) (t : List Byte) : (d.tokAccepted c t).resp = .token 1 ∧ (d.tokAccepted c t).nonceOf c = none := by
  obtain ⟨hnonce, -⟩ := d.judged_frame c t
  obtain ⟨hresp, hp, -⟩ := (((d.judged c t).tokEffect c t).note 0x8010 0 [(2, tokKind t), (1, chanNo c)]).tokResult_frame c (tokKind t) 1 true
  refine ⟨hresp, (Dev.nonceOf_congr (hp.trans (Dev.note_pilot _ _ _ _)) c).trans ?_⟩
  rw [Dev.tokEffect_nonceOf, hnonce]

theorem Dev.judge_busy (h : d.pilotBusy = true) : d.judge c t = d.tokResult c (tokKind t) 7 false := by
  rw [Dev.judge, if_pos h]

theorem Dev.judge_faulty {r : Nat} (h : d.pilotBusy = false) (hf : d.tokFault c t = some r) : d.judge c t = d.rejected c t r := by
  rw [Dev.judge, if_neg (by simp [h]), hf]
  rfl

/-- A token without a fault is accepted, unless the fuse write of its kind fails. -/
theorem Dev.judge_good (h : TokenGood d c t) : d.judge c t =
    if (decide (3 ≤ tokKind t) && Config.choice d.fresh) = true then d.rejected c t 8 else d.tokAccepted c t := by
  obtain ⟨hbusy, hfault⟩ := h
  rw [Dev.judge, if_neg (by simp [hbusy]), hfault]
  by_cases hc : (decide (3 ≤ tokKind t) && Config.choice d.fresh) = true
  · simp only [if_pos hc]; rfl
  · simp only [if_neg hc]; rfl

theorem Dev.judge_nonce (h : d.pilotBusy = false) : (d.judge c t).nonceOf c = none := by
  cases hf : d.tokFault c t with
  | some r =>
    obtain ⟨-, hnonce, -⟩ := d.rejected_frame c t r
    rwa [Dev.judge_faulty h hf]
  | none =>
    rw [Dev.judge_good ⟨h, hf⟩]
    split
    · exact (d.rejected_frame c t 8).2.1
    · exact (d.tokAccepted_frame c t).2

/-- What a token that passes every check has shown (16 R615). -/
theorem Dev.tokFault_none (h : d.tokFault c t = none) : tok t 0x10 16 = fit 16 d.fuses.serial ∧ d.nonceOf c = some (tok t 0x20 32) ∧
    d.keyMatches (tokNat t 0xA 1) (tok t 0x80 1312) = true ∧ maySign (tokNat t 0xA 1) (tokKind t) (tokArg t) = true := by
  unfold Dev.tokFault at h
  by_cases hok : tokOk t = false
  · simp [hok] at h
  by_cases hserial : (tok t 0x10 16 != fit 16 d.fuses.serial) = true
  · simp [hok, hserial] at h
  by_cases hnonce : (d.nonceOf c != some (tok t 0x20 32)) = true
  · simp [hok, hserial, hnonce] at h
  by_cases hkey : (d.keyMatches (tokNat t 0xA 1) (tok t 0x80 1312) && maySign (tokNat t 0xA 1) (tokKind t) (tokArg t)) = true
  · simp only [bne_iff_ne, ne_eq, not_not] at hserial hnonce
    exact ⟨hserial, hnonce, (Bool.and_eq_true _ _).mp hkey⟩
  · simp [hok, hserial, hnonce, hkey] at h

/-! ### Submitting -/

/-- A token command submits its token as one of its kind. -/
theorem TokenCommand.exec {c : Channel → List Byte → Instr} {kind : Nat} (h : TokenCommand c kind) (chan : Channel) (t : List Byte) (s : State) :
    Machine.exec (c chan t) s = actOn s fun d => d.submit kind chan t := by
  obtain ⟨rfl, rfl⟩ | ⟨rfl, rfl⟩ | ⟨rfl, rfl⟩ | ⟨rfl, rfl⟩ | ⟨rfl, rfl⟩ := h <;> rfl

theorem TokenCommand.does {c : Channel → List Byte → Instr} {kind : Nat} (h : TokenCommand c kind) {s : State} (chan : Channel) (t : List Byte)
    (hc : s.dev.clocked = true) : Does (c chan t) s (s.dev.submit kind chan t) :=
  does_of_actOn hc (h.exec chan t s)

theorem Dev.submit_bmc (d : Dev) (kind : Nat) (t : List Byte) :
    d.submit kind .bmc t = if tokKind t = kind ∨ tokOk t = false then d.judge .bmc t else d := by
  simp [Dev.submit, Dev.meetToken, Dev.tokenOf]

/-- The host's token is read from the pool first (16 R620). -/
theorem Dev.submit_host (hup : d.ticking = true) (kind : Nat) (t : List Byte) {d1 : Dev} {u : List Byte} (hd1 : d1 = d.meetToken .host)
    (hu : u = d1.tokenOf .host t) : d.submit kind .host t = if tokKind u = kind ∨ tokOk u = false then d1.judge .host u else d1 := by
  subst hd1 hu
  simp [Dev.submit, hup]

/-- Settles O57, from the verdict on a token and what a rejection and an acceptance leave. -/
theorem tokensAreJudged : Obligations.TokensAreJudged := by
  unfold Obligations.TokensAreJudged
  refine ⟨fun c kind hc s t => ⟨fun hclk hk => ?_, fun hclk hk hok => ?_, fun hup d1 u hd1 hu => ⟨fun hk => ?_, fun hk hok => ?_⟩⟩,
    fun d c t hbusy => ?busy, fun d c t hfree => Dev.judge_nonce hfree, fun d d1 c t r hfree hfault hd1 => ?faulty, fun d c t hgood => ?good⟩
  · have hdoes := hc.does .bmc t hclk
    rwa [Dev.submit_bmc, if_pos hk] at hdoes
  · have hdoes := hc.does .bmc t hclk
    rwa [Dev.submit_bmc, if_neg (by simp [hk, hok])] at hdoes
  · have hdoes := hc.does .host t hup.1
    rwa [Dev.submit_host hup.2 kind t hd1 hu, if_pos hk] at hdoes
  · have hdoes := hc.does .host t hup.1
    rwa [Dev.submit_host hup.2 kind t hd1 hu, if_neg (by simp [hk, hok])] at hdoes
  case busy =>
    obtain ⟨hresp, hpilot, hfuses⟩ := d.tokResult_frame c (tokKind t) 7 false
    rw [Dev.judge_busy hbusy]
    exact ⟨hresp, Dev.nonceOf_congr hpilot c, hfuses⟩
  case faulty =>
    obtain ⟨hresp, -, hfuses⟩ := d.rejected_frame c t r
    subst hd1
    rw [Dev.judge_faulty hfree hfault]
    exact ⟨hresp, hfuses, rfl⟩
  case good =>
    have hjudge := Dev.judge_good hgood
    refine ⟨fun hk => ?_, fun hk => ?_, Dev.tokFault_none hgood.2⟩
    · rw [hjudge, if_neg (by simp [hk]), Dev.tokAccepted, Dev.judged, if_neg (by omega)]
    · rw [hjudge]
      split
      · exact .inr ⟨(d.rejected_frame c t 8).1, (d.rejected_frame c t 8).2.2⟩
      · exact .inl (d.tokAccepted_frame c t).1

end Sys2Proof.Machine
end

section
/-! The pilot's commands on nonces, evidence, micro-program stages and the flash (16 R606 to R618). -/
namespace Sys2Proof.Machine

theorem exec_newNonce (h : Nat) (s : State) : exec (.newNonce h) s = execNewNonce h s := rfl
theorem exec_getNonce (s : State) : exec .getNonce s = execGetNonce s := rfl
theorem exec_getEvidence (n : List Byte) (s : State) : exec (.getEvidence n) s = execGetEvidence n s := rfl
theorem exec_stageMp (h : Nat) (s : State) : exec (.stageMp h) s = execStageMp h s := rfl
theorem exec_flashRelease (h : Nat) (s : State) : exec (.flashRelease h) s = execFlashRelease h s := rfl
theorem exec_flashAcquire (h : Nat) (s : State) : exec (.flashAcquire h) s = execFlashAcquire h s := rfl
theorem exec_debugLock (h : Nat) (s : State) : exec (.debugLock h) s = execDebugLock h s := rfl

/-- A command that a hart makes by writing a register acts when the hart runs. -/
theorem does_ofHart {s : State} {c : Instr} {h : Nat} {f : Dev → Dev} (hup : Up s) (hh : s.dev.hartUp h = true)
    (hexec : exec c s = actUp s fun d => if d.hartUp h then f d else d) : Does c s (f s.dev) := by
  have hdoes := does_of_actUp hup hexec
  rwa [if_pos hh] at hdoes

section
variable {s : State} {h : Nat} (hup : Up s) (hh : s.dev.hartUp h = true)
include hup hh

theorem does_newNonce : Does (.newNonce h) s ((s.dev.newNonce .host).answer (.ok 0)) := does_ofHart hup hh (exec_newNonce h s)
theorem does_stageMp : Does (.stageMp h) s (s.dev.stageMp h) := does_ofHart hup hh (exec_stageMp h s)
theorem does_flashRelease : Does (.flashRelease h) s (s.dev.flashRelease h) := does_ofHart hup hh (exec_flashRelease h s)
theorem does_flashAcquire : Does (.flashAcquire h) s s.dev.flashAcquire := does_ofHart hup hh (exec_flashAcquire h s)
theorem does_debugLock : Does (.debugLock h) s s.dev.debugLock := does_ofHart hup hh (exec_debugLock h s)

end

theorem does_getNonce {s : State} (hc : s.dev.clocked = true) :
    Does .getNonce s ((s.dev.newNonce .bmc).answer (.data (fit 32 (Config.nonce s.dev.fresh)))) :=
  does_of_actOn hc (exec_getNonce s)

/-- Evidence is refused while firmware debug is unlocked: scope bit 3 (16 R617). -/
theorem does_getEvidence {s : State} (n : List Byte) (hc : s.dev.clocked = true) : Does (.getEvidence n) s
    (s.dev.answer (if bit (s.dev.get F.pilDebug_SCOPE) 3 then .error else .data (s.dev.evidence n ++ Config.deviceCertificate))) := by
  have hdoes := does_of_actOn hc (exec_getEvidence n s)
  cases hscope : bit (s.dev.get F.pilDebug_SCOPE) 3 <;> simpa [Dev.mayAttest, hscope] using hdoes

/-! ### Evidence -/

theorem fit_length (n : Nat) (bs : List Byte) : (fit n bs).length = n := by
  simp [fit]

/-- A fitted list begins with what its first part begins with. -/
theorem take_fit_append {k n : Nat} (a b : List Byte) (hk : k ≤ n) (ha : k ≤ a.length) : (fit n (a ++ b)).take k = a.take k := by
  rw [fit, List.take_take, Nat.min_eq_left hk, List.append_assoc, List.take_append_of_le_length ha]

/-- Evidence begins with its magic. -/
theorem Dev.evidence_eq (d : Dev) (n : List Byte) : ∃ rest body sig, d.evidence n =
    fit 4096 (fit 0x680 (fit 0x80 (ascii "OLHXEVD1" ++ rest) ++ body) ++ sig) := by
  unfold Dev.evidence
  simp only [List.append_assoc]
  exact ⟨_, _, _, rfl⟩

theorem ascii_magic_length : (ascii "OLHXEVD1").length = 8 := by decide

theorem Dev.evidence_magic (d : Dev) (n : List Byte) : (d.evidence n).take 8 = ascii "OLHXEVD1" := by
  obtain ⟨rest, body, sig, h⟩ := d.evidence_eq n
  rw [h, take_fit_append _ _ (by decide) (by rw [fit_length]; decide), take_fit_append _ _ (by decide) (by rw [fit_length]; decide),
    take_fit_append _ _ (by decide) (by rw [ascii_magic_length])]
  exact List.take_of_length_le (by rw [ascii_magic_length])

theorem Dev.evidence_length (d : Dev) (n : List Byte) : (d.evidence n).length = 4096 := by
  obtain ⟨rest, body, sig, h⟩ := d.evidence_eq n
  rw [h, fit_length]

/-! ### Stages and the flash -/

variable {d : Dev} {h : Nat}

theorem Dev.stageMp_refused (hs : d.get F.pilStatus_STAGING = 1) : d.stageMp h = d.refuse h pilCmdOff := if_pos hs

theorem Dev.stageMp_waits (hs : d.get F.pilStatus_STAGING = 0) (hw : d.flashWriting = true) :
    d.stageMp h = (d.flag F.pilStatus_STAGING true).answer (.ok 0) := by
  rw [Dev.stageMp, if_neg (by omega), if_pos hw]
  rfl

theorem Dev.stageMp_stages (hs : d.get F.pilStatus_STAGING = 0) (hw : d.flashWriting = false) :
    d.stageMp h = d.stage.answer (.ok 0) := by
  rw [Dev.stageMp, if_neg (by omega), if_neg (by simp [hw])]
  rfl

/-- A flash write is in hand or waits. -/
def Dev.flashWanted (d : Dev) : Prop := ∃ it ∈ d.items, it.typ = tMaint ∧ it.activity = 6 ∧ it.phase ≠ .finished

theorem Dev.flashWanted_iff (d : Dev) :
    d.items.any (fun it => it.typ == tMaint && it.activity == 6 && it.phase != .finished) = true ↔ d.flashWanted := by
  simp [Dev.flashWanted, and_assoc]

theorem Dev.flashRelease_refused (hs : d.get F.pilStatus_STAGING = 1 ∨ d.flashWanted) : d.flashRelease h = d.refuse h pilCmdOff := by
  rw [Dev.flashRelease, if_pos]
  rwa [Bool.or_eq_true, d.flashWanted_iff, decide_eq_true_eq]

theorem Dev.flashRelease_releases (hs : d.get F.pilStatus_STAGING = 0) (hw : ¬ d.flashWanted) : d.flashRelease h =
    ((d.flag F.pilStatus_FLASH_RELEASED true).modPilot (fun p => { p with flashOut := true })).answer (.ok 0) := by
  rw [Dev.flashRelease, if_neg]
  · rfl
  · rw [Bool.or_eq_true, d.flashWanted_iff, decide_eq_true_eq, hs]
    simp [hw]

variable {d1 : Dev} (hd1 : d1 = d.flag F.pilStatus_STAGING false)
include hd1

theorem Dev.stage_fails {c : Nat} (hv : d1.verifyImage false = .error c) : d.stage = d1.note 0x8002 0 [(1, c)] := by
  rw [Dev.stage, ← hd1, hv]

theorem Dev.stage_stages {m : Manifest} (hv : d1.verifyImage false = .ok m) : ∃ v w, d.stage.pilot.vecNext = some v ∧
    d.stage.pilot.wharfNext = some w ∧ v.version = m.mpVersion ∧ w.version = m.mpVersion ∧ v.slots = m.slots 8 ∧ w.slots = m.slots 9 ∧
    d.stage.pilot.vecStore = d.pilot.vecStore := by
  have hpilot : d1.pilot = d.pilot := hd1 ▸ d.flag_pilot _ _ _
  rw [Dev.stage, ← hd1, hv]
  simp only [Dev.note_pilot, Dev.modPilot]
  exact ⟨_, _, rfl, rfl, rfl, rfl, rfl, rfl, congrArg Pilot.vecStore hpilot⟩

end Sys2Proof.Machine
end

section
/-! The obligation on nonces, evidence, stages and the flash. -/
namespace Sys2Proof.Machine

/-- Settles O58, from what each command of the pilot does. -/
theorem noncesEvidenceStagesAndFlash : Obligations.NoncesEvidenceStagesAndFlash := by
  unfold Obligations.NoncesEvidenceStagesAndFlash
  refine ⟨fun s h hup hh => ?new, fun s hc => ?get, fun s n hc => ?evidence, fun d n => ⟨d.evidence_length n, d.evidence_magic n⟩,
    fun s h hup hh => ?commands, fun d d1 hd1 => ⟨fun c hv => Dev.stage_fails hd1 hv, fun m hv => Dev.stage_stages hd1 hv⟩⟩
  case new =>
    obtain ⟨hnew, hother, hfresh⟩ := s.dev.newNonce_frame .host
    exact ⟨_, does_newNonce hup hh, hnew, hother, hfresh, rfl⟩
  case get =>
    obtain ⟨hnew, hother, -⟩ := s.dev.newNonce_frame .bmc
    exact ⟨_, does_getNonce hc, rfl, hnew, hother, rfl⟩
  case evidence =>
    have hdoes := does_getEvidence n hc
    refine ⟨fun hscope => ?_, fun hscope => ?_⟩ <;> simpa [hscope] using hdoes
  case commands =>
    have hstage := does_stageMp hup hh
    have hrelease := does_flashRelease hup hh
    refine ⟨fun hs => ⟨?_, ?_⟩, fun hs => ⟨fun hw => ?_, fun hw => ?_, fun hnone => ?_⟩, fun it hit htyp hact hph => ?_,
      does_flashAcquire hup hh, does_debugLock hup hh⟩
    · rwa [Dev.stageMp_refused hs] at hstage
    · rwa [Dev.flashRelease_refused (.inl hs)] at hrelease
    · rwa [Dev.stageMp_waits hs hw] at hstage
    · rwa [Dev.stageMp_stages hs hw] at hstage
    · rwa [Dev.flashRelease_releases hs fun ⟨it, hit, htyp, hact, hph⟩ => hph (hnone it hit htyp hact)] at hrelease
    · rwa [Dev.flashRelease_refused (.inr ⟨it, hit, htyp, hact, hph⟩)] at hrelease

end Sys2Proof.Machine
end

section
/-! Changes of registers, the logbook and the pins alone, and where the states of rings and the preserved-state record
lie among the registers (18 R659, R660). -/
namespace Sys2Proof.Machine

/-- `d'` is `d` but for the logbook, the pins and registers. -/
def RegsOnly (d d' : Dev) : Prop := ∃ l p rs, d' = { d with log := l, pins := p, regs := rs }

theorem RegsOnly.refl (d : Dev) : RegsOnly d d := ⟨d.log, d.pins, d.regs, rfl⟩

theorem RegsOnly.trans {a b c : Dev} (hab : RegsOnly a b) (hbc : RegsOnly b c) : RegsOnly a c := by
  obtain ⟨l, p, rs, rfl⟩ := hab
  obtain ⟨l', p', rs', rfl⟩ := hbc
  exact ⟨l', p', rs', rfl⟩

theorem LogsOnly.regsOnly {d d' : Dev} (h : LogsOnly d d') : RegsOnly d d' := h.1

theorem regsOnly_setReg (d : Dev) (r : Reg) (i : Nat) (v : W64) : RegsOnly d (d.setReg r i v) := ⟨d.log, d.pins, _, rfl⟩

theorem regsOnly_put (d : Dev) (f : Fld) (v i : Nat) : RegsOnly d (d.put f v i) := regsOnly_setReg d _ _ _

theorem regsOnly_note (d : Dev) (code loc : Nat) (vs : List (Nat × Nat)) : RegsOnly d (d.note code loc vs) :=
  (d.note_logsOnly code loc vs).regsOnly

theorem regsOnly_foldl {α : Type} {f : Dev → α → Dev} (h : ∀ d a, RegsOnly d (f d a)) (l : List α) (d : Dev) : RegsOnly d (l.foldl f d) :=
  List.foldlRecOn l f (motive := RegsOnly d) (.refl d) fun d' hd' a _ => hd'.trans (h d' a)

section
variable {d d' : Dev} (h : RegsOnly d d')
include h

theorem RegsOnly.coh : d'.coh = d.coh := by obtain ⟨l, p, rs, rfl⟩ := h; rfl
theorem RegsOnly.host : d'.host = d.host := by obtain ⟨l, p, rs, rfl⟩ := h; rfl
theorem RegsOnly.rings : d'.rings = d.rings := by obtain ⟨l, p, rs, rfl⟩ := h; rfl
theorem RegsOnly.links : d'.links = d.links := by obtain ⟨l, p, rs, rfl⟩ := h; rfl

end

/-! ### Offsets -/

/-- The states of two rings lie at different offsets. -/
theorem hmRingStatus_offset_inj {m n : Nat} (h : m ≠ n) : Reg.offset .hmRingStatus m ≠ Reg.offset .hmRingStatus n := by
  rw [hmRingStatus_offset, hmRingStatus_offset]
  split <;> split <;> omega

theorem mntPsr_offset (k : Nat) : Reg.offset .mntPsr k = 0x80400 + 8 * k := by
  simp [Reg.offset, Reg.segs, dimsOffset, Nat.mul_comm]

/-- The preserved-state record lies apart from the state of each of the 1,024 rings. -/
theorem hmRingStatus_offset_ne_mntPsr {n k : Nat} (hn : n < 1024) (hk : k < 64) : Reg.offset .hmRingStatus n ≠ Reg.offset .mntPsr k := by
  rw [hmRingStatus_offset, mntPsr_offset]
  split <;> omega

theorem hmRingStatus_ne_logStatus (n : Nat) : Reg.offset .hmRingStatus n ≠ Reg.offset .logStatus 0 := by
  have hlog : Reg.offset .logStatus 0 = 0x60000 := by decide
  rw [hlog, hmRingStatus_offset]
  split <;> omega

theorem dimsIndex_lt {n stride o i : Nat} (h : dimsIndex [(n, stride)] o = some i) : i < n := by
  unfold dimsIndex at h
  split at h
  · next hlt =>
    obtain ⟨j, hj, rfl⟩ := Option.map_eq_some_iff.1 h
    obtain rfl : j = 0 := by
      unfold dimsIndex at hj
      split at hj
      · exact (Option.some.inj hj).symm
      · cases hj
    change o / stride * 1 + 0 < n
    omega
  · cases h

/-- The rings that are not DISABLED are among the 1,024. -/
theorem Dev.liveRings_lt {d : Dev} {n : Nat} (h : n ∈ d.liveRings) : n < 1024 := by
  obtain ⟨e, -, he⟩ := List.mem_filterMap.1 (List.mem_filter.1 h).1
  obtain ⟨g, hg, hn⟩ := List.exists_of_findSome?_eq_some he
  obtain ⟨k, hk, hfirst⟩ : ∃ k, g.dims = [(k, 0x40)] ∧ g.first + k ≤ 1024 := by
    simp only [Reg.segs, List.mem_cons, List.not_mem_nil, or_false] at hg
    obtain rfl | rfl := hg
    · exact ⟨960, rfl, by decide⟩
    · exact ⟨64, rfl, by decide⟩
  rw [hk] at hn
  split at hn
  · obtain ⟨i, hi, rfl⟩ := Option.map_eq_some_iff.1 hn
    have := dimsIndex_lt hi
    omega
  · cases hn

end Sys2Proof.Machine
end

section
/-! RESUME after a HOST_ONLY reset (13 R514, R516; 11 R449, R450). -/
namespace Sys2Proof.Machine

variable {d : Dev} {m n : Nat}

/-! ### The state of one ring -/

theorem Dev.setRing_state_same (d : Dev) (n st : Nat) (h : st < 16) : (d.setRing n st).ringState n = st := by
  rw [Dev.ringState, Dev.setRing, Dev.put_get_same _ _ _ _ (by decide)]
  exact Nat.mod_eq_of_lt h

theorem Dev.setRing_state_other (d : Dev) (st : Nat) (h : m ≠ n) : (d.setRing n st).ringState m = d.ringState m :=
  Dev.get_congr (d.put_reg_other st (hmRingStatus_offset_inj h))

theorem Dev.modRing_state (d : Dev) (m n : Nat) (f : Ring → Ring) : (d.modRing n f).ringState m = d.ringState m := rfl

theorem Dev.modRing_ring_other (d : Dev) (f : Ring → Ring) (h : m ≠ n) : (d.modRing n f).ring m = d.ring m :=
  tget_tset_other _ _ h

/-! ### Resuming -/

theorem Dev.resumeRing_still (h : d.ringState n ≠ 3) : d.resumeRing n = d := if_pos h

/-- A HELD ring goes on, or is in ERROR when it has lost a record. -/
theorem Dev.resumeRing_state (h : d.ringState n = 3) : (d.resumeRing n).ringState n = if (d.ring n).lostHeld then 5 else 1 := by
  rw [Dev.resumeRing, if_neg (not_not_intro h)]
  split <;> exact Dev.setRing_state_same _ _ _ (by decide)

/-- Resuming another ring leaves a ring's state and what it has lost. -/
theorem Dev.resumeRing_other (h : m ≠ n) : (d.resumeRing n).ringState m = d.ringState m ∧ (d.resumeRing n).ring m = d.ring m := by
  unfold Dev.resumeRing
  split
  · exact ⟨rfl, rfl⟩
  · split <;> exact ⟨Dev.setRing_state_other _ _ h, (Dev.setRing_ring _ _ _ _).trans (Dev.modRing_ring_other _ _ h)⟩

theorem Dev.resumeAll_still (h : d.ringState n ≠ 3) (l : List Nat) : (l.foldl Dev.resumeRing d).ringState n = d.ringState n := by
  induction l generalizing d with
  | nil => rfl
  | cons k l ih =>
    rw [List.foldl_cons]
    by_cases hk : n = k
    · rw [← hk, Dev.resumeRing_still h, ih h]
    · have hstate := (Dev.resumeRing_other (d := d) hk).1
      rw [ih (hstate.symm ▸ h), hstate]

theorem Dev.resumeAll_held (h : d.ringState n = 3) {l : List Nat} (hn : n ∈ l) :
    (l.foldl Dev.resumeRing d).ringState n = if (d.ring n).lostHeld then 5 else 1 := by
  induction l generalizing d with
  | nil => simp at hn
  | cons k l ih =>
    rw [List.foldl_cons]
    by_cases hk : n = k
    · have hnew := Dev.resumeRing_state h
      rw [← hk, Dev.resumeAll_still _ l, hnew]
      rw [hnew]
      split <;> decide
    · obtain ⟨hstate, hring⟩ := Dev.resumeRing_other (d := d) hk
      rw [ih (hstate.trans h) ((List.mem_cons.1 hn).resolve_left hk), hring]

/-! ### The command -/

theorem exec_resume (hart : Nat) (s : State) : exec (.resume hart) s = execResume hart s := rfl

theorem does_resume {s : State} {hart : Nat} (hup : Up s) (hh : s.dev.hartUp hart = true) : Does (.resume hart) s (s.dev.resume hart) :=
  does_ofHart hup hh (exec_resume hart s)

theorem Dev.resume_valid {hart : Nat} {d1 : Dev} (hv : d.psrValid = true) (hd1 : d1 = d.liveRings.foldl Dev.resumeRing d) :
    d.resume hart = (((d1.pendingRings.foldl Dev.raiseMsi d1).setPsr 0 16 16 0).note 0x1403 0).answer (.ok 0) := by
  rw [Dev.resume, hv, hd1]
  rfl

theorem Dev.resume_invalid {hart : Nat} (hv : d.psrValid = false) :
    d.resume hart = d.regError (.host hart) true (Reg.offset .mntHostCmd 0) 3 := by
  rw [Dev.resume, hv]
  rfl

/-! ### Pending interrupts -/

theorem Dev.mem_pendingRings (d : Dev) (n : Nat) : n ∈ d.pendingRings ↔ n < 1024 ∧ bit (d.psr (20 + n / 64)) (n % 64) = true := by
  simp only [Dev.pendingRings, List.mem_flatMap, List.mem_filterMap, List.mem_range, Option.ite_none_right_eq_some, Option.some.injEq]
  constructor
  · rintro ⟨k, hk, i, hi, hbit, rfl⟩
    have hdiv : (64 * k + i) / 64 = k := by omega
    have hmod : (64 * k + i) % 64 = i := by omega
    rw [hdiv, hmod]
    exact ⟨by omega, hbit⟩
  · rintro ⟨hn, hbit⟩
    exact ⟨n / 64, by omega, n % 64, by omega, hbit, by omega⟩

theorem Dev.raiseMsi_none (h : d.get F.hmRingMsiAddr_ADDR n = 0) : d.raiseMsi n = d.modRing n (fun r => { r with msiPending := false }) := by
  rw [Dev.raiseMsi, if_pos h]

theorem Dev.raiseMsi_free (h : d.get F.hmRingMsiAddr_ADDR n ≠ 0) (hst : d.ringState n ≠ 3) : d.raiseMsi n =
    if d.msiSpent n then d.modRing n (fun r => { r with msiPending := true }) else d.sendMsi n := by
  rw [Dev.raiseMsi, if_neg h, if_neg hst]

/-! ### VALID -/

/-- Sealing writes P63 alone. -/
theorem Dev.sealPsr_psr (d : Dev) {k : Nat} (hk : k ≠ 63) : d.sealPsr.psr k = d.psr k := by
  have hoff : Reg.offset .mntPsr k ≠ Reg.offset .mntPsr 63 := by
    rw [mntPsr_offset, mntPsr_offset]
    omega
  rw [Dev.psr, Dev.sealPsr, Dev.setReg_other _ _ hoff, Dev.psr]

theorem Dev.setPsr_valid (d : Dev) : (d.setPsr 0 16 16 0).psrValid = false := by
  rw [Dev.psrValid, Dev.setPsr, Dev.sealPsr_psr _ (by decide), Dev.psr, Dev.setReg_reg, bit, BitVec.toNat_ofNat, Nat.testBit_mod_two_pow,
    testBit_setBits, if_pos (by decide), Nat.zero_testBit, Bool.and_false]

/-- Settles O54, from what RESUME does, and what each ring resumed becomes. -/
theorem resumeReactivatesHeldRings : Obligations.ResumeReactivatesHeldRings := by
  unfold Obligations.ResumeReactivatesHeldRings
  refine ⟨fun s hart d1 hup hh hd1 => ?_, fun d n hn => ⟨fun h => Dev.resumeAll_held h hn, fun h => Dev.resumeAll_still h _⟩,
    fun d n => ⟨fun ha hst hsp => ?_, fun ha hst hsp => ?_, Dev.raiseMsi_none⟩, Dev.mem_pendingRings, Dev.setPsr_valid⟩
  · have hdoes := does_resume hup hh
    refine ⟨fun hv => ?_, fun hv => ?_⟩
    · rwa [Dev.resume_valid hv hd1] at hdoes
    · rwa [Dev.resume_invalid hv] at hdoes
  · rw [Dev.raiseMsi_free ha hst, if_neg (by simp [hsp])]
  · rw [Dev.raiseMsi_free ha hst, if_pos hsp]

end Sys2Proof.Machine
end

section
/-! The HOST_ONLY reset: its causes, what it leaves of the host die, and the return of the host die (13 R512 to R514;
16 R610). -/
namespace Sys2Proof.Machine

variable {d : Dev}

/-! ### What it leaves -/

theorem regsOnly_sealPsr (d : Dev) : RegsOnly d d.sealPsr := regsOnly_setReg d _ _ _

theorem regsOnly_linkPut (d : Dev) (deck host : Fld) (v key : Nat) : RegsOnly d (d.linkPut deck host v key) := by
  unfold Dev.linkPut
  split
  · exact regsOnly_put _ _ _ _
  · exact regsOnly_foldl (fun d i => regsOnly_put d _ _ _) _ d

theorem Dev.hostEndAfresh_coh (d : Dev) : d.hostEndAfresh.coh = d.coh :=
  ((regsOnly_linkPut d _ _ _ _).trans (regsOnly_linkPut _ _ _ _ _)).coh

theorem Dev.hostEndAfresh_host (d : Dev) : d.hostEndAfresh.host = d.host :=
  ((regsOnly_linkPut d _ _ _ _).trans (regsOnly_linkPut _ _ _ _ _)).host

theorem Dev.loseNonces_coh (d : Dev) : d.loseNonces.coh = d.coh :=
  (Dev.showNonce_keeps _ Dev.coh fun d v k => d.put_coh _ v k).trans rfl

theorem Dev.loseNonces_host (d : Dev) : d.loseNonces.host = d.host :=
  (Dev.showNonce_keeps _ Dev.host fun d v k => d.put_host _ v k).trans rfl

/-- No L2 holds a line, no transaction is left and no hart has a reservation. -/
def Coherence.Emptied (c : Coherence) : Prop := c.l2 = [] ∧ c.txns = [] ∧ c.resv = []

theorem Dev.poisonHost_emptied (d : Dev) : d.poisonHost.coh.Emptied := by
  have hcoh : ∃ (d1 : Dev) (c : Coherence), d.poisonHost.coh = d1.coh ∧ d1.coh = c ∧ c.Emptied :=
    ⟨_, _, ((regsOnly_note _ _ _ _).trans ((regsOnly_setReg _ _ _ _).trans (regsOnly_sealPsr _))).coh, rfl, rfl, rfl, rfl⟩
  obtain ⟨d1, c, h1, h2, hc⟩ := hcoh
  rwa [h1, h2]

theorem Dev.withHost_coh (d : Dev) (h : HostDie) : ({ d with host := h } : Dev).coh = d.coh := rfl

theorem Dev.hostReset_coh (d : Dev) (cause : Nat) : (d.hostReset cause).coh.Emptied := by
  rw [Dev.hostReset, Dev.hostEndAfresh_coh, Dev.loseNonces_coh, Dev.withHost_coh]
  exact Dev.poisonHost_emptied _

/-- The host die is stopped at step 4, with its interrupts and its IOMMU as at reset. -/
theorem Dev.hostReset_host (d : Dev) (cause : Nat) : (d.hostReset cause).host.running = false ∧ (d.hostReset cause).host.resetStep = 4 ∧
    (d.hostReset cause).host.irqs = [] ∧ (d.hostReset cause).host.aplic = [] ∧ (d.hostReset cause).host.iommu = [] := by
  rw [Dev.hostReset, Dev.hostEndAfresh_host, Dev.loseNonces_host]
  exact ⟨rfl, rfl, rfl, rfl, rfl⟩

/-! ### The rings held -/

/-- Setting states of rings: those set hold the new one. -/
theorem Dev.setRings_state {n st : Nat} (hst : st < 16) {l : List Nat} (hn : n ∈ l) (d : Dev) :
    (l.foldl (fun d n => d.setRing n st) d).ringState n = st := by
  induction l using List.reverseRecOn with
  | nil => simp at hn
  | append_singleton l k ih =>
    rw [List.foldl_append, List.foldl_cons, List.foldl_nil]
    by_cases hk : n = k
    · rw [← hk, Dev.setRing_state_same _ _ _ hst]
    · rw [Dev.setRing_state_other _ _ hk, ih ((List.mem_append.1 hn).resolve_right (by simpa using hk))]

theorem Dev.sealPsr_ringState {n : Nat} (hn : n < 1024) : d.sealPsr.ringState n = d.ringState n :=
  Dev.get_congr (d.setReg_other _ (hmRingStatus_offset_ne_mntPsr hn (by decide)))

/-- Writing the words of the preserved-state record leaves the states of rings. -/
theorem Dev.setPsrs_ringState {n : Nat} (hn : n < 1024) (v : Nat → W64) {l : List Nat} (hl : ∀ k ∈ l, k < 64) (d : Dev) :
    (l.foldl (fun d k => d.setReg .mntPsr k (v k)) d).ringState n = d.ringState n :=
  List.foldlRecOn l _ (motive := fun d' : Dev => d'.ringState n = d.ringState n) rfl fun d' hd' k hk =>
    (Dev.get_congr (d'.setReg_other (v k) (hmRingStatus_offset_ne_mntPsr hn (hl k hk)))).trans hd'

theorem Dev.preserve_holds {n : Nat} (cause : Nat) (hn : n ∈ d.liveRings) (hst : d.ringState n = 1 ∨ d.ringState n = 2) :
    (d.preserve cause).ringState n = 3 := by
  have hlt := Dev.liveRings_lt hn
  rw [Dev.preserve, Dev.sealPsr_ringState hlt, Dev.setPsrs_ringState hlt _ (fun k hk => by have := List.mem_range.1 hk; omega)]
  exact Dev.setRings_state (by decide) (List.mem_filter.2 ⟨hn, by simpa using hst⟩) d

/-! ### The causes and quiescence -/

theorem exec_hostCmdReset (h : Nat) (s : State) : exec (.hostCmdReset h) s = execHostCmdReset h s := rfl
theorem exec_hostReset (s : State) : exec .hostReset s = execHostReset s := rfl
theorem exec_hostDieInternalError (s : State) : exec .hostDieInternalError s = execHostDieInternalError s := rfl
theorem exec_hostResetQuiescent (s : State) : exec .hostResetQuiescent s = execHostResetQuiescent s := rfl
theorem exec_hostDieLeavesReset (s : State) : exec .hostDieLeavesReset s = execHostDieLeavesReset s := rfl

section
variable {s : State} (hup : Up s)
include hup

theorem does_hostCmdReset (h : Nat) : Does (.hostCmdReset h) s
    (if s.dev.hartUp h && s.dev.mayHostReset then (s.dev.hostReset 1).answer (.ok 0) else s.dev) :=
  (does_of_actUp hup (exec_hostCmdReset h s) :)

theorem does_hostReset : Does .hostReset s
    (if s.dev.mayHostReset then (s.dev.hostReset 2).answer (.ok 0) else s.dev.regError .bmc true 0 3) := by
  have hdoes := does_of_actOn hup.1 (exec_hostReset s)
  rwa [hup.2, Bool.true_and] at hdoes

theorem does_hostDieInternalError : Does .hostDieInternalError s (if s.dev.mayHostReset then s.dev.hostReset 4 else s.dev) :=
  (does_of_actUp hup (exec_hostDieInternalError s) :)

theorem does_hostResetQuiescent : Does .hostResetQuiescent s
    (if s.dev.psrValid && !bit (s.dev.psr 0) 17 && s.dev.items.all (fun it => it.phase == .fetched) then
      (s.dev.setPsr 0 17 17 1).note 0x1402 0 [(4, bits (s.dev.psr 3) 63 32)] else s.dev) :=
  (does_of_actUp hup (exec_hostResetQuiescent s) :)

end

/-! ### The host die leaves reset -/

/-- The host die can try to leave reset: it waits at step 4, no other reset is under way and its link is back. -/
def Dev.mayLeaveReset (d : Dev) : Prop := d.host.running = false ∧ d.host.resetStep = 4 ∧ d.reset = none ∧ d.linkState 32 = 4

/-- What the step makes of the image in flash (16 R610). -/
def Dev.leaveReset (d : Dev) : Dev :=
  match d.verifyImage false with
  | .error c => d.hostStays c
  | .ok m => match m.comps.find? (fun c => c.typ == 7) with
    | none => d.hostStays 9
    | some c => if d.placeable c.load c.length then
        { (d.placeHostFw c).put F.pilStatus_HALT_CAUSE 0 with host := { ((d.placeHostFw c).put F.pilStatus_HALT_CAUSE 0).host with running := true, resetStep := 0 } }
      else d.hostStays 9

theorem does_hostDieLeavesReset_waits {s : State} (hup : Up s) (h : ¬ s.dev.mayLeaveReset) : Does .hostDieLeavesReset s s.dev := by
  have hdoes := does_of_actUp hup (exec_hostDieLeavesReset s)
  rwa [if_pos] at hdoes
  unfold Dev.mayLeaveReset at h
  simp only [Bool.or_eq_true, decide_eq_true_eq, ne_eq, Option.isSome_iff_ne_none]
  by_contra hno
  push Not at hno
  obtain ⟨⟨⟨hrun, hstep⟩, hreset⟩, hlink⟩ := hno
  exact h ⟨by simpa using hrun, hstep, hreset, hlink⟩

theorem does_hostDieLeavesReset {s : State} (hup : Up s) (h : s.dev.mayLeaveReset) : Does .hostDieLeavesReset s s.dev.leaveReset := by
  obtain ⟨hrun, hstep, hreset, hlink⟩ := h
  have hdoes := does_of_actUp hup (exec_hostDieLeavesReset s)
  rwa [if_neg (by simp [hrun, hstep, hreset, hlink])] at hdoes

theorem Dev.leaveReset_fails {c : Nat} (hv : d.verifyImage false = .error c) : d.leaveReset = d.hostStays c := by
  rw [Dev.leaveReset, hv]

section
variable {m : Manifest} (hv : d.verifyImage false = .ok m)
include hv

theorem Dev.leaveReset_noFirmware (hc : m.comps.find? (fun c => c.typ == 7) = none) : d.leaveReset = d.hostStays 9 := by
  rw [Dev.leaveReset, hv]
  simp only [hc]

theorem Dev.leaveReset_firmware {c : Component} (hc : m.comps.find? (fun c => c.typ == 7) = some c) : d.leaveReset =
    if d.placeable c.load c.length then
      { (d.placeHostFw c).put F.pilStatus_HALT_CAUSE 0 with host := { (d.placeHostFw c).host with running := true, resetStep := 0 } }
    else d.hostStays 9 := by
  rw [Dev.leaveReset, hv]
  simp only [hc, Dev.put_host]

end

theorem Dev.placeHostFw_entry (d : Dev) (c : Component) : (d.placeHostFw c).host.entry = c.load := rfl

theorem Dev.hostStays_host (d : Dev) (c : Nat) : (d.hostStays c).host = { d.host with resetStep := 5 } := by
  unfold Dev.hostStays
  dsimp only
  rw [Dev.put_host]
  split
  · rfl
  · rw [(regsOnly_note d _ _ _).host]

/-- Settles O53, from what each cause, quiescence and the host die's return do, and what the reset leaves. -/
theorem hostOnlyReset : Obligations.HostOnlyReset := by
  unfold Obligations.HostOnlyReset
  refine ⟨fun s hup => ⟨fun hmay => ?begins, fun hno => ?refused⟩, fun d n cause => Dev.preserve_holds cause, fun d cause => ?leaves,
    fun s hup => ?quiescent, fun s hup => ⟨fun hno => ?waits, fun hrun hstep hreset hlink => ?leavesReset⟩, fun d c => ?stays⟩
  case begins =>
    have hbmc := does_hostReset hup
    have herr := does_hostDieInternalError hup
    rw [if_pos hmay] at hbmc herr
    refine ⟨fun h hh => ?_, hbmc, herr⟩
    have hhart := does_hostCmdReset hup h
    rwa [hh, hmay, Bool.and_self, if_pos rfl] at hhart
  case refused =>
    have hbmc := does_hostReset hup
    have herr := does_hostDieInternalError hup
    rw [if_neg (by simp [hno])] at hbmc herr
    refine ⟨fun h => ?_, hbmc, herr⟩
    have hhart := does_hostCmdReset hup h
    rwa [if_neg (by simp [hno])] at hhart
  case leaves =>
    obtain ⟨hl2, htxns, hresv⟩ := d.hostReset_coh cause
    obtain ⟨hrunning, hstep, hirqs, haplic, hiommu⟩ := d.hostReset_host cause
    exact ⟨hrunning, hstep, hl2, htxns, hresv, hirqs, haplic, hiommu⟩
  case quiescent =>
    have hdoes := does_hostResetQuiescent hup
    refine ⟨fun hv hq hall => ?_, fun hno => ?_⟩
    · rwa [if_pos (by rw [hv, hq, hall]; rfl)] at hdoes
    · rwa [if_neg] at hdoes
      rcases hno with h | h | ⟨it, hit, hph⟩
      · simp [h]
      · simp [h]
      · simp only [Bool.and_eq_true, not_and]
        exact fun _ hall => hph (by simpa using List.all_eq_true.1 hall it hit)
  case waits =>
    refine does_hostDieLeavesReset_waits hup fun ⟨hrun, hstep, hreset, hlink⟩ => ?_
    rcases hno with h | h | h | h
    · simp [hrun] at h
    · exact h hstep
    · simp [hreset] at h
    · exact h hlink
  case leavesReset =>
    have hdoes := does_hostDieLeavesReset hup ⟨hrun, hstep, hreset, hlink⟩
    refine ⟨fun c hv => ?_, fun m hv hc => ?_, fun m c hv hc => ?_⟩
    · rwa [Dev.leaveReset_fails hv] at hdoes
    · rwa [Dev.leaveReset_noFirmware hv hc] at hdoes
    · rw [Dev.leaveReset_firmware hv hc] at hdoes
      refine ⟨fun hno => ?_, fun hyes => ?_⟩
      · rwa [if_neg (by simp [hno])] at hdoes
      · rw [if_pos hyes] at hdoes
        exact ⟨_, hdoes, rfl, rfl, s.dev.placeHostFw_entry c, rfl⟩
  case stays =>
    rw [d.hostStays_host c]
    exact ⟨rfl, rfl⟩

end Sys2Proof.Machine
end

section
/-! Hawser ports: what taking one out of service leaves, and what each command does to its state (14 R521 to R542). -/
namespace Sys2Proof.Machine

variable {d : Dev} {p : Nat}

/-! ### Registers of a port -/

/-- A field of the same register, apart from the one put, reads as before. -/
theorem Dev.put_get_apart (d : Dev) {f g : Fld} (v i : Nat) (hreg : f.reg = g.reg) (h : f.hi < g.lo ∨ g.hi < f.lo) (hg : g.hi < 64) :
    (d.put f v i).get g i = d.get g i := by
  rw [Dev.get, Dev.get, Dev.put, ← hreg, Dev.setReg_reg, bits_ofNat _ _ hg, bits_setBits_apart _ _ h]

theorem hawPortStatus_offset (p : Nat) : Reg.offset .hawPortStatus p = 0x200000 + 0x10000 * p := by
  simp [Reg.offset, Reg.segs, dimsOffset, Nat.mul_comm]

/-- The status of a port lies apart from the counts of ports and from every register below them. -/
theorem hawPortStatus_apart (p k : Nat) : Reg.offset .hawPortStatus p ≠ Reg.offset .hawPortCounts k ∧
    Reg.offset .hawPortStatus p ≠ Reg.offset .logStatus 0 ∧ Reg.offset .hawPortStatus p ≠ Reg.offset .tideStatus 0 ∧
    Reg.offset .hawNode 0 ≠ Reg.offset .hawPortStatus p := by
  have hcounts : Reg.offset .hawPortCounts k = 0x200010 + 0x10000 * k := by
    simp [Reg.offset, Reg.segs, dimsOffset, Nat.mul_comm]
  have hlog : Reg.offset .logStatus 0 = 0x60000 := by decide
  have htide : Reg.offset .tideStatus 0 = 0x40030 := by decide
  have hnode : Reg.offset .hawNode 0 = 0x208000 := by decide
  rw [hcounts, hlog, htide, hnode, hawPortStatus_offset]
  omega

theorem Dev.uncouple_portStatus (d : Dev) (p k : Nat) : (d.uncouple k).reg .hawPortStatus p = d.reg .hawPortStatus p := by
  obtain ⟨-, hlog, htide, -⟩ := hawPortStatus_apart p 0
  unfold Dev.uncouple
  split
  · rw [Dev.note_reg _ _ _ _ hlog, Dev.putBit, Dev.put_reg_other _ _ htide]
  · rfl

/-- A port taken out of service is in the state given, with no lanes active. -/
theorem Dev.portOut_status (d : Dev) (p : Nat) {st : Nat} (hst : st < 16) :
    (d.portOut p st).portState p = st ∧ (d.portOut p st).get F.hawPortStatus_ACTIVE_LANES p = 0 := by
  have hreg := ((d.put F.hawPortStatus_STATE st p).put F.hawPortStatus_ACTIVE_LANES 0 p).uncouple_portStatus p p
  refine ⟨?_, ?_⟩
  · rw [Dev.portState, Dev.portOut, Dev.get_congr hreg, Dev.put_get_apart (f := F.hawPortStatus_ACTIVE_LANES) (g := F.hawPortStatus_STATE) _ _ _ rfl (by decide) (by decide), Dev.put_get_same _ _ _ _ (by decide)]
    exact Nat.mod_eq_of_lt hst
  · rw [Dev.portOut, Dev.get_congr hreg, Dev.put_get_same _ _ _ _ (by decide)]
    rfl

theorem Dev.drainPort_regs (d : Dev) (p : Nat) : (d.drainPort p).regs = d.regs := by
  unfold Dev.drainPort
  split <;> rfl

theorem Dev.portSend_regs (d : Dev) (p : Nat) (m : LinkMsg) : (d.portSend p m).regs = d.regs := Dev.drainPort_regs _ p

theorem Dev.reg_congr {d d' : Dev} (h : d'.regs = d.regs) (r : Reg) (i : Nat) : d'.reg r i = d.reg r i := by
  rw [Dev.reg, Dev.reg, h]

theorem Dev.modPort_reg (d : Dev) (p : Nat) (f : Port → Port) (r : Reg) (i : Nat) : (d.modPort p f).reg r i = d.reg r i := rfl

theorem Dev.withBroken_reg (d : Dev) (bs : List (Nat × Nat)) (r : Reg) (i : Nat) : ({ d with broken := bs } : Dev).reg r i = d.reg r i := rfl

/-- The status of a port says nothing of this node's id. -/
theorem Dev.putSpares_node (d : Dev) (p v : Nat) : (d.put F.hawPortStatus_SPARES_USED v p).node = d.node :=
  Dev.get_congr (d.put_reg_other v (hawPortStatus_apart p 0).2.2.2)

theorem Dev.modPort_node (d : Dev) (p : Nat) (f : Port → Port) : (d.modPort p f).node = d.node := rfl
theorem Dev.modPort_broken (d : Dev) (p : Nat) (f : Port → Port) : (d.modPort p f).broken = d.broken := rfl
theorem Dev.modPort_port_same (d : Dev) (p : Nat) (f : Port → Port) : tget Port.new (d.modPort p f).ports p = f (tget Port.new d.ports p) :=
  tget_tset_same _ _ _

/-! ### DOWN -/

theorem Dev.portDown_still (h : d.portUp p = false) (c : Nat) : d.portDown p c = d := if_pos (by rw [h]; rfl)

/-- A port that goes DOWN keeps the status it has been taken out of service with. -/
theorem Dev.portDown_reg (h : d.portUp p = true) (c : Nat) : (d.portDown p c).reg .hawPortStatus p = (d.portOut p 7).reg .hawPortStatus p := by
  obtain ⟨hcounts, hlog, -, -⟩ := hawPortStatus_apart p p
  have hcounted : ∀ n, (((d.portOut p 7).note 0x4002 (locPort p) [(1, p), (1, c)]).discards p n).reg .hawPortStatus p =
      (d.portOut p 7).reg .hawPortStatus p := fun n => by
    rw [Dev.discards, Dev.addSat_reg_other _ _ hcounts, Dev.note_reg _ _ _ _ hlog]
  rw [Dev.portDown, if_neg (by rw [h]; decide)]
  dsimp only
  split
  · rw [Dev.withBroken_reg, Dev.modPort_reg, hcounted]
  · rw [Dev.reg_congr (Dev.portSend_regs _ _ _), Dev.withBroken_reg, Dev.modPort_reg, hcounted]

theorem Dev.portDown_status (h : d.portUp p = true) (c : Nat) :
    (d.portDown p c).portState p = 7 ∧ (d.portDown p c).get F.hawPortStatus_ACTIVE_LANES p = 0 := by
  obtain ⟨hstate, hlanes⟩ := d.portOut_status p (st := 7) (by decide)
  have hreg := Dev.portDown_reg h c
  exact ⟨(Dev.get_congr hreg).trans hstate, (Dev.get_congr hreg).trans hlanes⟩

end Sys2Proof.Machine
end

section
/-! The commands of ports, and the obligation on their states (14 R521 to R542). -/
namespace Sys2Proof.Machine

theorem exec_portTrainingDone (p : Nat) (r : PortTraining) (s : State) : exec (.portTrainingDone p r) s = execPortTrainingDone p r s := rfl
theorem exec_laneSpare (p lane : Nat) (s : State) : exec (.laneSpare p lane) s = execLaneSpare p lane s := rfl
theorem exec_portDown (p c : Nat) (s : State) : exec (.portDown p c) s = execPortDown p c s := rfl
theorem exec_laserModuleFault (p c : Nat) (s : State) : exec (.laserModuleFault p c) s = execLaserModuleFault p c s := rfl
theorem exec_linkRetry (p c : Nat) (s : State) : exec (.linkRetry p c) s = execLinkRetry p c s := rfl
theorem exec_oeFiltered (p c : Nat) (s : State) : exec (.oeFiltered p c) s = execOeFiltered p c s := rfl
theorem exec_retrain (h p laser : Nat) (s : State) : exec (.retrain h p laser) s = execRetrain h p laser s := rfl
theorem exec_disable (h p : Nat) (s : State) : exec (.disable h p) s = execDisable h p s := rfl
theorem exec_routeSwap (h dims : Nat) (s : State) : exec (.routeSwap h dims) s = execRouteSwap h dims s := rfl

section
variable {s : State} {p : Nat} (hup : Up s) (hp : p < 6)
include hup hp

/-! ### Training -/

section
variable {r : PortTraining} (htrain : s.dev.portState p = 3)
include htrain

theorem does_portTrainingDone_waits (hno : s.dev.oeActive p = false ∨ r.flitMode = false) : Does (.portTrainingDone p r) s s.dev := by
  have h := does_of_actUp hup (exec_portTrainingDone p r s)
  rw [if_pos (by simp [hp, htrain])] at h
  rwa [if_pos (by rcases hno with h | h <;> simp [h])] at h

section
variable (hoe : s.dev.oeActive p = true) (hflit : r.flitMode = true)
include hoe hflit

theorem does_portTrainingDone_refused (hcap : capable r = false) :
    Does (.portTrainingDone p r) s ((s.dev.portOut p 2).note 0x4006 (locOe p) [(16, r.capability)]) := by
  have h := does_of_actUp hup (exec_portTrainingDone p r s)
  rw [if_pos (by simp [hp, htrain]), if_neg (by simp [hoe, hflit])] at h
  rwa [if_pos (by simp [hcap])] at h

section
variable {d1 : Dev} (hcap : capable r = true)
  (hd1 : d1 = (s.dev.put F.hawPortStatus_PEER_NODE r.peerNode p).put F.hawPortStatus_PROGRESS 10000 p)
include hcap hd1

theorem does_portTrainingDone_miswired (hw : d1.wiredRight p r.peerNode = false) :
    Does (.portTrainingDone p r) s ((d1.portOut p 6).note 0x4005 (locPort p) [(1, p), (2, r.peerNode)]) := by
  have h := does_of_actUp hup (exec_portTrainingDone p r s)
  rw [if_pos (by simp [hp, htrain]), if_neg (by simp [hoe, hflit]), if_neg (by simp [hcap])] at h
  subst hd1
  rwa [if_pos (by simp [hw])] at h

/-- The link of a trained port is no longer known broken; counting its spares leaves this node's id. -/
theorem does_portTrainingDone_wired {d2 : Dev} (hw : d1.wiredRight p r.peerNode = true)
    (hd2 : d2 = { (d1.modPort p (fun x => { x with good := min 26 r.goodLanes, linkSeq := 0, rxLinkSeq := 0, credits := [], retry := [] })).put
      F.hawPortStatus_SPARES_USED (26 - max 24 (min 26 r.goodLanes)) p with broken := d1.broken.filter (fun b => b != (d1.node, p)) }) :
    Does (.portTrainingDone p r) s
      (if 24 ≤ min 26 r.goodLanes then
        (((d2.put F.hawPortStatus_STATE 4 p).put F.hawPortStatus_ACTIVE_LANES 24 p).note 0x4001 (locPort p) [(1, p), (2, r.peerNode)]).drainPort p
      else if 12 ≤ min 26 r.goodLanes then
        (((d2.put F.hawPortStatus_STATE 5 p).put F.hawPortStatus_ACTIVE_LANES 12 p).note 0x4004 (locPort p)).drainPort p
      else d2.portOut p 7) := by
  have h := does_of_actUp hup (exec_portTrainingDone p r s)
  rw [if_pos (by simp [hp, htrain]), if_neg (by simp [hoe, hflit]), if_neg (by simp [hcap])] at h
  subst hd1
  rw [if_neg (by simp [hw])] at h
  dsimp only at h
  rw [Dev.putSpares_node, Dev.put_broken, Dev.modPort_node, Dev.modPort_broken] at h
  rw [hd2]
  exact h

end
end
end

/-! ### Lanes, light and DOWN -/

theorem does_laneSpare {lane g : Nat} {d1 : Dev} (hpu : s.dev.portUp p = true) (hg : g = (tget .new s.dev.ports p).good - 1)
    (hd1 : d1 = (s.dev.addSat F.hawPortCounts_LANE_FAULTS 1 p).modPort p (fun x => { x with good := x.good - 1 })) :
    Does (.laneSpare p lane) s
      (if 24 ≤ g then (d1.put F.hawPortStatus_SPARES_USED (26 - g) p).note 0x4003 (locPort p) [(1, p), (1, lane), (1, 49 - g)]
      else if g < 12 then d1.portDown p (Config.causeCode 0x4002 1)
      else if d1.portState p = 4 then ((d1.put F.hawPortStatus_STATE 5 p).put F.hawPortStatus_ACTIVE_LANES 12 p).note 0x4004 (locPort p)
      else d1) := by
  have h := does_of_actUp hup (exec_laneSpare p lane s)
  rw [if_pos (by simp [hp, hpu])] at h
  dsimp only at h
  rw [Dev.modPort_port_same, Dev.addSat, Dev.put_ports, ← hg] at h
  rw [hd1]
  exact h

theorem does_portDown (c : Nat) : Does (.portDown p c) s (s.dev.portDown p c) := by
  have h := does_of_actUp hup (exec_portDown p c s)
  rwa [if_pos hp] at h

theorem does_laserModuleFault {c : Nat} {d1 : Dev}
    (hd1 : d1 = ((s.dev.put F.hawPortStatus_LASER_CLASS 0 p).note 0x4008 (locPort p) [(1, p), (2, c)]).modPilot (fun x => { x with
      lasers := tset 0 x.lasers p 0 })) :
    Does (.laserModuleFault p c) s
      (if d1.portUp p then d1.portDown p (Config.causeCode 0x4002 2) else if d1.portState p = 3 then d1.portOut p 1 else d1) := by
  have h := does_of_actUp hup (exec_laserModuleFault p c s)
  rw [if_pos hp] at h
  rw [hd1]
  exact h

theorem does_linkRetry {c : Nat} {m : Nat × LinkMsg} (hm : m ∈ (tget Port.new s.dev.ports p).retry) (hlo : m.1 ≤ c)
    (hhi : c < m.1 + msgFlits m.2.body) (hpu : s.dev.portUp p = true) : Does (.linkRetry p c) s (s.dev.addSat F.hawPortCounts_RETRIES 1 p) := by
  have h := does_of_actUp hup (exec_linkRetry p c s)
  have hkept : (tget Port.new s.dev.ports p).retry.any (fun m => m.1 ≤ c && c < m.1 + msgFlits m.2.body) = true :=
    List.any_eq_true.2 ⟨m, hm, by simp [hlo, hhi]⟩
  rwa [if_pos (by rw [decide_eq_true hp, hpu, hkept]; rfl)] at h

theorem does_oeFiltered (c : Nat) : Does (.oeFiltered p c) s (s.dev.note 0x4007 (locOe p) [(1, p), (1, c)]) := by
  have h := does_of_actUp hup (exec_oeFiltered p c s)
  rwa [if_pos hp] at h

/-! ### A hart's commands -/

theorem does_retrain {h laser : Nat} (hh : s.dev.hartUp h = true) {d1 : Dev}
    (hd1 : d1 = s.dev.modPilot (fun x => { x with lasers := tset 0 x.lasers p (min 4 laser) })) :
    Does (.retrain h p laser) s ((d1.retrain p laser).answer (.ok 0)) := by
  have hdoes := does_of_actUp hup (exec_retrain h p laser s)
  rw [if_pos (by simp [hp, hh])] at hdoes
  rw [hd1]
  exact hdoes

theorem does_disable {h : Nat} (hh : s.dev.hartUp h = true) : Does (.disable h p) s ((s.dev.disablePort p).answer (.ok 0)) := by
  have hdoes := does_of_actUp hup (exec_disable h p s)
  rwa [if_pos (by simp [hp, hh])] at hdoes

end

theorem does_routeSwap {s : State} {h dims : Nat} (hup : Up s) (hh : s.dev.hartUp h = true) :
    Does (.routeSwap h dims) s ((s.dev.routeSwap dims).answer (.ok 0)) := does_ofHart hup hh (exec_routeSwap h dims s)

/-- A port held DISABLED stays so; any other trains afresh, and one in service has discarded what waited. -/
theorem Dev.retrain_eq (d : Dev) (p laser : Nat) : d.retrain p laser =
    if d.get F.hawPortCmd_DISABLE p = 1 then d
    else ((if d.portUp p then d.discards p (tget Port.new d.ports p).out.length else d).modPort p
      (fun x => { x with out := [], retry := [] })).trainPort p (min 4 laser) := rfl

/-- Settles O44, from what each command does at each state of its port. -/
theorem portsTrainSpareAndFail : Obligations.PortsTrainSpareAndFail := by
  unfold Obligations.PortsTrainSpareAndFail
  refine ⟨fun s p r d1 d2 hup hp htrain => ?training, fun s p lane g d1 hup hp hpu hg hd1 => ?lanes,
    fun s p c d1 hup hp => ⟨fun hpu => ⟨does_portDown hup hp c, Dev.portDown_status hpu c⟩, fun hpu => ?still, fun hd1 => ?laser,
      fun m hm hlo hhi hpu => does_linkRetry hup hp hm hlo hhi hpu, does_oeFiltered hup hp c⟩,
    fun s h p laser d1 hup hh hp hd1 => ?hart⟩
  case training =>
    refine ⟨does_portTrainingDone_waits hup hp htrain, does_portTrainingDone_refused hup hp htrain,
      fun hoe hflit hcap hd1 => ⟨does_portTrainingDone_miswired hup hp htrain hoe hflit hcap hd1, fun hw hd2 => ?_⟩⟩
    have hdoes := does_portTrainingDone_wired hup hp htrain hoe hflit hcap hd1 hw hd2
    refine ⟨fun hgood => ?_, fun hlo hhi => ?_, fun hbad => ?_⟩
    · rwa [if_pos (by omega)] at hdoes
    · rwa [if_neg (by omega), if_pos (by omega)] at hdoes
    · rwa [if_neg (by omega), if_neg (by omega)] at hdoes
  case lanes =>
    have hdoes := does_laneSpare (lane := lane) hup hp hpu hg hd1
    refine ⟨fun hgood => ?_, fun hlo hhi => ⟨fun hst => ?_, fun hst => ?_⟩, fun hbad => ?_⟩
    · rwa [if_pos hgood] at hdoes
    · rwa [if_neg (by omega), if_neg (by omega), if_pos hst] at hdoes
    · rwa [if_neg (by omega), if_neg (by omega), if_neg hst] at hdoes
    · rwa [if_neg (by omega), if_pos hbad] at hdoes
  case still =>
    have hdoes := does_portDown hup hp c
    rwa [Dev.portDown_still hpu] at hdoes
  case laser =>
    have hdoes := does_laserModuleFault hup hp hd1
    refine ⟨fun hpu => ?_, fun hst => ?_, fun hpu hst => ?_⟩
    · rwa [if_pos hpu] at hdoes
    · rwa [if_neg (by simp [Dev.portUp, hst]), if_pos hst] at hdoes
    · rwa [if_neg (by simp [hpu]), if_neg hst] at hdoes
  case hart =>
    have hdoes := does_retrain (laser := laser) hup hp hh hd1
    rw [Dev.retrain_eq] at hdoes
    refine ⟨fun hdis => ?_, fun hdis hpu => ?_, fun hdis hpu => ?_, does_disable hup hp hh, does_routeSwap hup hh⟩
    · rwa [if_pos hdis] at hdoes
    · rwa [if_neg hdis, if_neg (by simp [hpu])] at hdoes
    · rwa [if_neg hdis, if_pos hpu] at hdoes

end Sys2Proof.Machine
end

section
/-! Recording an event may assert DEV_ALERT_N, and changes no other pin (19 R691). -/
namespace Sys2Proof.Machine

/-- The pins are as before, or DEV_ALERT_N has been asserted. -/
def MayAlert (d d' : Dev) : Prop := d'.pins = d.pins ∨ d'.pins = { d.pins with alert := true }

theorem MayAlert.of_eq {d d' : Dev} (h : d'.pins = d.pins) : MayAlert d d' := .inl h

theorem MayAlert.trans {a b c : Dev} (hab : MayAlert a b) (hbc : MayAlert b c) : MayAlert a c := by
  unfold MayAlert at *
  rcases hab with h | h <;> rcases hbc with h' | h' <;> simp [h, h']

theorem mayAlert_raiseAlert (d : Dev) : MayAlert d d.raiseAlert := .inr rfl

theorem mayAlert_put (d : Dev) (f : Fld) (v i : Nat) : MayAlert d (d.put f v i) := .of_eq (d.put_pins f v i)

theorem mayAlert_log (d : Dev) (l : LogBook) : MayAlert d { d with log := l } := .of_eq rfl

theorem mayAlert_logWrite (d : Dev) (code loc supp : Nat) (pay : List Byte) : MayAlert d (d.logWrite code loc supp pay) := by
  unfold Dev.logWrite
  dsimp only
  split
  · split
    · exact ((mayAlert_log d _).trans (mayAlert_put _ F.logStatus_COUNT _ _)).trans (mayAlert_raiseAlert _)
    · exact (mayAlert_log d _).trans (mayAlert_put _ F.logStatus_COUNT _ _)
  · exact (((mayAlert_log d _).trans (mayAlert_put _ F.logStatus_COUNT _ _)).trans
      (mayAlert_put _ F.logStatus_DROPPED _ _)).trans (mayAlert_put _ F.logStatus_FULL _ _)

theorem mayAlert_endWindow (d : Dev) (code : Nat) : MayAlert d (d.endWindow code) := by
  unfold Dev.endWindow
  split
  · exact .of_eq rfl
  · split
    · dsimp only
      split
      · exact (mayAlert_log d _).trans (mayAlert_logWrite _ _ _ _ _)
      · exact mayAlert_log d _
    · exact .of_eq rfl

theorem mayAlert_logRaw (d : Dev) (code loc : Nat) (pay : List Byte) : MayAlert d (d.logRaw code loc pay) := by
  unfold Dev.logRaw
  split
  · exact mayAlert_put _ _ _ _
  · split
    · exact mayAlert_logWrite _ _ _ _ _
    · refine (mayAlert_endWindow d code).trans ?_
      dsimp only
      split
      · exact mayAlert_put _ _ _ _
      · split
        · exact (mayAlert_log _ _).trans (mayAlert_logWrite _ _ _ _ _)
        · split
          · exact (mayAlert_log _ _).trans (mayAlert_logWrite _ _ _ _ _)
          · exact mayAlert_log _ _

variable (d : Dev) (code loc : Nat) (vs : List (Nat × Nat))

theorem Dev.note_mayAlert : MayAlert d (d.note code loc vs) := mayAlert_logRaw d code loc _

theorem Dev.note_thermtrip : (d.note code loc vs).pins.thermtrip = d.pins.thermtrip := by
  rcases d.note_mayAlert code loc vs with h | h <;> rw [h]

theorem Dev.note_por : (d.note code loc vs).pins.por = d.pins.por := by
  rcases d.note_mayAlert code loc vs with h | h <;> rw [h]

/-- An alert already asserted stays so. -/
theorem Dev.note_alert (halert : d.pins.alert = true) : (d.note code loc vs).pins.alert = true := by
  rcases d.note_mayAlert code loc vs with h | h <;> rw [h]
  exact halert

end Sys2Proof.Machine
end

section
/-! Droop, the cap pin, the thermal trip and the rails (15 R571, R572, R580, R581, R587, R588; 19 R692). -/
namespace Sys2Proof.Machine

theorem exec_droopDetected (lc : Nat) (s : State) : exec (.droopDetected lc) s = execDroopDetected lc s := rfl
theorem exec_droopRelease (lc : Nat) (s : State) : exec (.droopRelease lc) s = execDroopRelease lc s := rfl
theorem exec_capNowAssert (ns : Nat) (s : State) : exec (.capNowAssert ns) s = execCapNowAssert ns s := rfl
theorem exec_capNowDeassert (s : State) : exec .capNowDeassert s = execCapNowDeassert s := rfl
theorem exec_thermalTrip (loc c : Nat) (s : State) : exec (.thermalTrip loc c) s = execThermalTrip loc c s := rfl
theorem exec_pmbAlert (rail : Nat) (off : Bool) (st : Nat) (s : State) : exec (.pmbAlert rail off st) s = execPmbAlert rail off st s := rfl

/-- A command of a pin or a supply leaves what its arm makes of the device, whether the clocks run or not. -/
theorem does_of_act {s : State} {c : Instr} {f : Dev → Dev} (h : exec c s = act s f) : Does c s (f s.dev) := by
  rw [Does, h, act_eq]

/-! ### Droop -/

section
variable {s : State} {lc : Nat} (hc : s.dev.clocked = true)
include hc

theorem does_droopDetected_still (hno : 176 ≤ lc ∨ (tget .new s.dev.clusters lc).stretched = true ∨ s.dev.dieActive (lc / 4) = false) :
    Does (.droopDetected lc) s s.dev := by
  have h := does_of_actOn hc (exec_droopDetected lc s)
  rwa [if_pos (by rcases hno with h | h | h <;> simp [h])] at h

section
variable {d1 : Dev} (hlc : lc < 176) (hst : (tget .new s.dev.clusters lc).stretched = false) (hdie : s.dev.dieActive (lc / 4) = true)
  (hd1 : d1 = (((s.dev.syncCycles lc).modCluster lc (fun c => { c with stretched := true })).addSat F.lkpDroop_STRETCHES 1).modDie (lc / 4)
    (fun x => { x with stretchedTide := true }))
include hlc hst hdie hd1

theorem does_droopDetected_noStep (ht : (tget .new d1.dies (lc / 4)).target = none) : Does (.droopDetected lc) s d1 := by
  have h := does_of_actOn hc (exec_droopDetected lc s)
  rw [if_neg (by simp [hst, hdie, Nat.not_le.2 hlc])] at h
  subst hd1
  dsimp only at h
  rwa [ht] at h

/-- A raise whose ramp is in progress is abandoned (15 R581). -/
theorem does_droopDetected_step {f ready : Nat} (ht : (tget .new d1.dies (lc / 4)).target = some (f, ready)) : Does (.droopDetected lc) s
    (if d1.get F.lkpDie_FREQ (lc / 4) < f && d1.now < ready then
      (d1.modDie (lc / 4) (fun x => { x with target := none, deferred := false })).addSat F.lkpDroop_ABANDONED 1 else d1) := by
  have h := does_of_actOn hc (exec_droopDetected lc s)
  rw [if_neg (by simp [hst, hdie, Nat.not_le.2 hlc])] at h
  subst hd1
  dsimp only at h
  rwa [ht] at h

end

theorem does_droopRelease : Does (.droopRelease lc) s
    (if lc < 176 && (tget .new s.dev.clusters lc).stretched then (s.dev.syncCycles lc).modCluster lc (fun c => { c with stretched := false })
    else s.dev) :=
  (does_of_actOn hc (exec_droopRelease lc s) :)

end

/-- Counting a cluster's cycles up to now leaves their number and its clock. -/
theorem Dev.syncCycles_cluster (d : Dev) (lc : Nat) : (d.syncCycles lc).cycles lc = d.cycles lc ∧
    ((d.syncCycles lc).cluster lc).stretched = (d.cluster lc).stretched := by
  have hc : (d.syncCycles lc).cluster lc = { d.cluster lc with cyc := d.rawCycles lc, cycSince := d.now } := tget_tset_same _ _ _
  refine ⟨?_, by rw [hc]⟩
  have hraw : (d.syncCycles lc).rawCycles lc = d.rawCycles lc := by
    change ((d.syncCycles lc).cluster lc).cyc + ((d.syncCycles lc).now - ((d.syncCycles lc).cluster lc).cycSince) * _ * _ = _
    rw [hc]
    change d.rawCycles lc + (d.now - d.now) * _ * _ = _
    rw [Nat.sub_self, Nat.zero_mul, Nat.zero_mul, Nat.add_zero]
  rw [Dev.cycles, Dev.cycles, hraw]

/-! ### The cap pin and the trip -/

theorem does_capNowAssert_still {s : State} {ns : Nat} (h : s.dev.pins.capNow = true ∨ ns < 100) : Does (.capNowAssert ns) s s.dev := by
  have hdoes := does_of_act (exec_capNowAssert ns s)
  rwa [if_pos (by rcases h with h | h <;> simp [h])] at hdoes

theorem does_capNowAssert {s : State} {ns : Nat} {d1 : Dev} (hcap : s.dev.pins.capNow = false) (hns : 1000 ≤ ns)
    (hd1 : d1 = { s.dev with pins := { s.dev.pins with capNow := true } }) : Does (.capNowAssert ns) s
      (if d1.clocked then ((d1.flag F.lkpStatus_CAP_NOW true).note 0x5201 0 [(1, Config.causeCode 0x5201 1)]).slowDies else d1) := by
  have hdoes := does_of_act (exec_capNowAssert ns s)
  rw [if_neg (by simp [hcap]; omega)] at hdoes
  simp only [decide_eq_true hns, Bool.true_or, Bool.not_true, Bool.false_eq_true, if_false, if_pos hns] at hdoes
  rw [hd1]
  exact hdoes

theorem does_capNowDeassert {s : State} {d1 : Dev} (hcap : s.dev.pins.capNow = true)
    (hd1 : d1 = { s.dev with pins := { s.dev.pins with capNow := false } }) : Does .capNowDeassert s
      (if d1.clocked then (d1.flag F.lkpStatus_CAP_NOW false).note 0x5201 0 [(1, Config.causeCode 0x5201 0)] else d1) := by
  have hdoes := does_of_act (exec_capNowDeassert s)
  rw [if_neg (by simp [hcap])] at hdoes
  rw [hd1]
  exact hdoes

theorem does_thermalTrip_below {s : State} {loc c : Nat} (hc : c < 115) : Does (.thermalTrip loc c) s s.dev := by
  have hdoes := does_of_act (exec_thermalTrip loc c s)
  rwa [if_pos (by simp [hc])] at hdoes

/-- The device once a comparator has tripped (15 R587). -/
def Dev.tripped (d : Dev) (loc c : Nat) : Dev :=
  (({ d with pins := { d.pins with thermtrip := true, alert := true } } : Dev).note 0x5510 loc [(2, loc), (2, c)]).stopClocks

theorem does_thermalTrip {s : State} {loc c : Nat} (hpin : s.dev.pins.thermtrip = false) (hc : 115 ≤ c) :
    Does (.thermalTrip loc c) s (s.dev.tripped loc c) := by
  have hdoes := does_of_act (exec_thermalTrip loc c s)
  rwa [if_neg (by simp [hpin, Nat.not_lt.2 hc])] at hdoes

theorem Dev.stopClocks_clocked (d : Dev) : d.stopClocks.clocked = false := Bool.and_false _

theorem Dev.tripped_frame (d : Dev) (loc c : Nat) : (d.tripped loc c).clocked = false ∧ (d.tripped loc c).pins.thermtrip = true ∧
    (d.tripped loc c).pins.alert = true ∧ (d.tripped loc c).items = d.items ∧ (d.tripped loc c).mem = d.mem :=
  ⟨Dev.stopClocks_clocked _, Dev.note_thermtrip _ _ _ _, Dev.note_alert _ _ _ _ rfl, Dev.note_items _ _ _ _, Dev.note_mem _ _ _ _⟩

/-! ### Rails -/

section
variable {s : State} {rail st : Nat} (hc : s.dev.clocked = true) (hrail : rail < 100)
include hc hrail

theorem does_pmbAlert_warning : Does (.pmbAlert rail false st) s
    ((s.dev.note 0x5204 (locModule 2 rail) [(1, rail), (2, st)]).slowDies) := by
  have h := does_of_actOn hc (exec_pmbAlert rail false st s)
  rwa [if_neg (Nat.not_le.2 hrail)] at h

/-- The unit that a rail serves is noted as lost. -/
def Dev.railLost (d : Dev) (rail st loc : Nat) : Dev := d.note 0x5205 loc [(1, rail), (2, st), (2, loc)]

variable {d1 : Dev} (hd1 : d1 = { s.dev with power := { s.dev.power with cdRails := s.dev.power.cdRails.filter (· != rail) } })
include hd1

/-- What a rail that is off costs, by the unit it serves (15 R572). -/
theorem does_pmbAlert_off : Does (.pmbAlert rail true st) s
    (if rail < 48 then
      match d1.logicalOf rail with
      | some ld => (d1.railLost rail st (locPhys rail)).fenceDie ld (Config.causeCode 0x9301 4)
      | none =>
        if (d1.railLost rail st (locPhys rail)).get F.dckSpareStatus_PRESENT (rail / 6) = 1 &&
            (d1.railLost rail st (locPhys rail)).get F.dckSpareStatus_SITE (rail / 6) = rail % 6 then
          (d1.railLost rail st (locPhys rail)).put F.dckSpareStatus_RESULT 2 (rail / 6)
        else d1.railLost rail st (locPhys rail)
    else if 58 ≤ rail && rail < 90 then (d1.railLost rail st (locStack ((rail - 58) % 16))).fenceStack ((rail - 58) % 16)
    else if 91 ≤ rail && rail < 97 then
      if (d1.railLost rail st (locPort (rail - 91))).portUp (rail - 91) then
        (d1.railLost rail st (locPort (rail - 91))).portDown (rail - 91) (Config.causeCode 0x4002 5)
      else (d1.railLost rail st (locPort (rail - 91))).portOut (rail - 91) 7
    else (d1.note 0x5206 (locModule 2 rail) [(1, rail), (2, st)]).supplyStop) := by
  have h := does_of_actOn hc (exec_pmbAlert rail true st s)
  rw [if_neg (Nat.not_le.2 hrail)] at h
  rw [hd1]
  exact h

end

theorem Dev.supplyStop_frame (d : Dev) : d.supplyStop.clocked = false ∧ d.supplyStop.pins.alert = true := ⟨Dev.stopClocks_clocked _, rfl⟩

/-- Settles O49, from what each event of a clock, a pin and a rail does. -/
theorem droopCapTripAndRailEvents : Obligations.DroopCapTripAndRailEvents := by
  unfold Obligations.DroopCapTripAndRailEvents
  refine ⟨fun s lc d1 hc => ⟨does_droopDetected_still hc, fun hlc hst hdie hd1 => ⟨does_droopDetected_noStep hc hlc hst hdie hd1, fun f ready ht => ?droop⟩⟩,
    fun s lc hc hlc => ?release, fun d lc => d.syncCycles_cluster lc, fun s ns d1 => ⟨does_capNowAssert_still, fun hcap hns hd1 => ?cap⟩,
    fun s d1 hcap hd1 => ?uncap, fun s loc c hpin => ⟨does_thermalTrip_below, fun hc => ?trip⟩, fun s rail st d1 hc hrail hd1 => ?rails⟩
  case droop =>
    have hdoes := does_droopDetected_step hc hlc hst hdie hd1 ht
    refine ⟨fun hup hramp => ?_, fun hno => ?_⟩
    · rwa [if_pos (by simp [hup, hramp])] at hdoes
    · rwa [if_neg (by rcases hno with h | h <;> simp [Nat.not_lt.2 h])] at hdoes
  case release =>
    have hdoes := does_droopRelease (lc := lc) hc
    refine ⟨fun hst => ?_, fun hst => ?_⟩
    · rwa [if_pos (by simp [hlc, hst])] at hdoes
    · rwa [if_neg (by simp [hst])] at hdoes
  case cap =>
    have hdoes := does_capNowAssert hcap hns hd1
    have hclk : d1.clocked = s.dev.clocked := by rw [hd1]; rfl
    rw [hclk] at hdoes
    refine ⟨fun hc => ?_, fun hc => ?_⟩
    · rwa [if_pos hc] at hdoes
    · rwa [if_neg (by simp [hc])] at hdoes
  case uncap =>
    have hdoes := does_capNowDeassert hcap hd1
    have hclk : d1.clocked = s.dev.clocked := by rw [hd1]; rfl
    rw [hclk] at hdoes
    refine ⟨fun hc => ?_, fun hc => ?_⟩
    · rwa [if_pos hc] at hdoes
    · rwa [if_neg (by simp [hc])] at hdoes
  case trip =>
    obtain ⟨hclk, htrip, halert, hitems, hmem⟩ := s.dev.tripped_frame loc c
    exact ⟨_, does_thermalTrip hpin hc, hclk, htrip, halert, hitems, hmem, rfl⟩
  case rails =>
    have hdoes := does_pmbAlert_off (st := st) hc hrail hd1
    refine ⟨does_pmbAlert_warning hc hrail, fun hdie => ⟨fun ld hld => ?_, fun hnone => ?_⟩, fun hlo hhi => ?_, fun hlo hhi => ?_, fun hlo hno => ?_⟩
    · rw [if_pos hdie, hld] at hdoes
      exact hdoes
    · rw [if_pos hdie, hnone] at hdoes
      refine ⟨_, hdoes, ?_⟩
      dsimp only
      split
      · exact .inr rfl
      · exact .inl rfl
    · rw [if_neg (by omega), if_pos (by simp [hlo, hhi])] at hdoes
      exact hdoes
    · rw [if_neg (by omega), if_neg (by simp; omega), if_pos (by simp [hlo, hhi])] at hdoes
      refine ⟨_, hdoes, ?_⟩
      split
      · next hpu => exact (Dev.portDown_status hpu _).1
      · exact (Dev.portOut_status _ _ (by decide)).1
    · rw [if_neg (by omega), if_neg (by simp; omega), if_neg (by simp; omega)] at hdoes
      exact ⟨_, hdoes, Dev.supplyStop_frame _⟩

end Sys2Proof.Machine
end

section
/-! Sharing a budget, the common step and the decided step of a die (15 R567, R568, R574, R575). -/
namespace Sys2Proof.Machine

/-! ### The budget -/

/-- One class of the allocation, in priority order. -/
def shareStep (floors dem : List Nat) (acc : List Nat × Nat) (k : Nat) : List Nat × Nat :=
  (acc.1 ++ [floors.getD k 0 + min acc.2 (dem.getD k 0 - floors.getD k 0)], acc.2 - min acc.2 (dem.getD k 0 - floors.getD k 0))

theorem shareBudget_eq (floors dem : List Nat) (b : Nat) :
    shareBudget floors dem b = (List.range 5).foldl (shareStep floors dem) ([], b - floors.sum) := rfl

/-- The first `n` classes have been given allocations from `b0` above their floors: each has its floor and at most
its demand, and one that is short leaves nothing to those after it. -/
structure Shared (floors dem : List Nat) (b0 n : Nat) (acc : List Nat × Nat) : Prop where
  length : acc.1.length = n
  total : acc.1.sum + acc.2 = ((List.range n).map (fun k => floors.getD k 0)).sum + b0
  floor : ∀ k, k < n → floors.getD k 0 ≤ acc.1.getD k 0
  demand : ∀ k, k < n → acc.1.getD k 0 ≤ max (floors.getD k 0) (dem.getD k 0)
  spent : ∀ k, k < n → acc.1.getD k 0 < dem.getD k 0 → acc.2 = 0
  after : ∀ k j, k < j → j < n → acc.1.getD k 0 < dem.getD k 0 → acc.1.getD j 0 = floors.getD j 0

theorem getD_append_singleton (l : List Nat) (x k : Nat) : (l ++ [x]).getD k 0 = if k = l.length then x else l.getD k 0 := by
  simp only [List.getD_eq_getElem?_getD]
  rcases Nat.lt_trichotomy k l.length with h | h | h
  · rw [List.getElem?_append_left h, if_neg (by omega)]
  · rw [if_pos h, h, List.getElem?_concat_length, Option.getD_some]
  · rw [if_neg (by omega), List.getElem?_eq_none (by simp; omega), List.getElem?_eq_none (by omega)]

theorem shared_start (floors dem : List Nat) (b0 : Nat) : Shared floors dem b0 0 ([], b0) :=
  ⟨rfl, by simp, fun k h => by omega, fun k h => by omega, fun k h => by omega, fun k j _ h => by omega⟩

theorem Shared.step {floors dem : List Nat} {b0 n : Nat} {acc : List Nat × Nat} (h : Shared floors dem b0 n acc) :
    Shared floors dem b0 (n + 1) (shareStep floors dem acc n) := by
  obtain ⟨hlen, htotal, hfloor, hdemand, hspent, hafter⟩ := h
  have hget : ∀ k, (shareStep floors dem acc n).1.getD k 0 =
      if k = n then floors.getD n 0 + min acc.2 (dem.getD n 0 - floors.getD n 0) else acc.1.getD k 0 := fun k => by
    rw [shareStep, getD_append_singleton, hlen]
  have hleft : (shareStep floors dem acc n).2 = acc.2 - min acc.2 (dem.getD n 0 - floors.getD n 0) := rfl
  refine ⟨by simp [shareStep, hlen], ?total, fun k hk => ?floor, fun k hk => ?demand, fun k hk hshort => ?spent, fun k j hkj hj hshort => ?after⟩
  case total =>
    rw [List.range_succ, List.map_append, List.sum_append, hleft]
    simp only [shareStep, List.sum_append, List.map_cons, List.map_nil, List.sum_cons, List.sum_nil]
    omega
  case floor =>
    rw [hget]
    split
    · next h => subst h; omega
    · exact hfloor k (by omega)
  case demand =>
    rw [hget]
    split
    · next h => subst h; omega
    · exact hdemand k (by omega)
  case spent =>
    rw [hget] at hshort
    rw [hleft]
    split at hshort
    · next h => subst h; omega
    · have := hspent k (by omega) hshort
      omega
  case after =>
    rw [hget, if_neg (by omega)] at hshort
    have hzero := hspent k (by omega) hshort
    rw [hget]
    split
    · next h => subst h; omega
    · exact hafter k j hkj (by omega) hshort

theorem Shared.range (floors dem : List Nat) (b0 n : Nat) : Shared floors dem b0 n ((List.range n).foldl (shareStep floors dem) ([], b0)) := by
  induction n with
  | zero => exact shared_start floors dem b0
  | succ n ih =>
    rw [List.range_succ, List.foldl_append]
    exact ih.step

theorem map_getD_range_sum (l : List Nat) : ((List.range l.length).map (fun k => l.getD k 0)).sum = l.sum := by
  congr 1
  refine List.ext_getElem (by simp) fun k h1 h2 => ?_
  simp [List.getD_eq_getElem?_getD, List.getElem?_eq_getElem h2]

/-! ### Steps -/

/-- The common step of at most `f` that fits an allocation, and why none above it was taken. -/
theorem Dev.commonStep_spec (d : Dev) (q : Prediction) (ceil : Nat → Nat) (alloc f : Nat) :
    d.commonStep q ceil alloc f ≤ f ∧
    (0 < d.commonStep q ceil alloc f → (d.liveDies.map (fun ld => d.diePower q ld (min (d.commonStep q ceil alloc f) (ceil ld)))).sum ≤ alloc) ∧
    ∀ g, d.commonStep q ceil alloc f < g → g ≤ f → alloc < (d.liveDies.map (fun ld => d.diePower q ld (min g (ceil ld)))).sum := by
  induction f with
  | zero => exact ⟨Nat.le_refl 0, fun h => absurd h (Nat.lt_irrefl 0), fun g hlo hhi => by omega⟩
  | succ f ih =>
    obtain ⟨hle, hfits, habove⟩ := ih
    by_cases hf : (d.liveDies.map (fun ld => d.diePower q ld (min (f + 1) (ceil ld)))).sum ≤ alloc
    · rw [Dev.commonStep, if_pos hf]
      exact ⟨Nat.le_refl _, fun _ => hf, fun g hlo hhi => by omega⟩
    · rw [Dev.commonStep, if_neg hf]
      refine ⟨by omega, hfits, fun g hlo hhi => ?_⟩
      rcases Nat.lt_or_ge f g with hg | hg
      · obtain rfl : g = f + 1 := by omega
        omega
      · exact habove g hlo hg

section
variable {d : Dev} (q : Prediction) {ld f : Nat}

theorem Dev.modDie_die_same (d : Dev) (ld : Nat) (g : Die → Die) : tget Die.new (d.modDie ld g).dies ld = g (tget Die.new d.dies ld) :=
  tget_tset_same _ _ _

theorem Dev.setDecision_same (h : f = d.get F.lkpDie_FREQ ld) : (tget .new (d.setDecision q ld f).dies ld).target = none := by
  rw [Dev.setDecision, Dev.modDie_die_same]
  exact if_pos h

theorem Dev.setDecision_lower (h : f < d.get F.lkpDie_FREQ ld) : (tget .new (d.setDecision q ld f).dies ld).target = some (f, d.now) := by
  rw [Dev.setDecision, Dev.modDie_die_same]
  simp [Nat.ne_of_lt h, Nat.le_of_lt h]

theorem Dev.setDecision_higher (h : d.get F.lkpDie_FREQ ld < f) (hmv : d.get F.lkpDie_VOLTAGE_MV ld < d.vf ld f)
    (hnone : (tget .new d.dies ld).target = none) :
    (tget .new (d.setDecision q ld f).dies ld).target = some (f, d.now + q.settleNs.getD ld 0) := by
  rw [Dev.setDecision, Dev.modDie_die_same, hnone]
  simp [Nat.ne_of_gt h, Nat.not_le.2 h, Nat.not_le.2 hmv]

end

end Sys2Proof.Machine
end

section
/-! The fence of a compute die (17 R626): what it leaves of the die's state, the pilot's record and the items. -/
namespace Sys2Proof.Machine

/-- A die's state lies apart from the states of tiles, whatever their numbers. -/
theorem cdLocation_apart (ld lc : Nat) : Reg.offset .cdLocation ld ≠ Reg.offset .cdClusterStatus lc ∧
    Reg.offset .cdLocation ld ≠ Reg.offset .logStatus 0 := by
  have hdie : Reg.offset .cdLocation ld = 0x400000 + 0x1000 * ld := by
    simp [Reg.offset, Reg.segs, dimsOffset, Nat.mul_comm]
  have hcluster : Reg.offset .cdClusterStatus lc = 0x400040 + (0x1000 * (lc / 4) + 8 * (lc % 4)) := by
    simp [Reg.offset, Reg.segs, dimsOffset, Nat.mul_comm]
  have hlog : Reg.offset .logStatus 0 = 0x60000 := by decide
  rw [hdie, hcluster, hlog]
  omega

/-- What a compute die's fence is known by: its state, and the physical dies remembered as bad. -/
def Dev.dieRecord (d : Dev) (ld : Nat) : W64 × List Nat := (d.reg .cdLocation ld, d.pilot.deadDies)

variable (d : Dev) (ld : Nat)

theorem Dev.setTileState_dieRecord (t st : Nat) : (d.setTileState t st).dieRecord ld = d.dieRecord ld :=
  Prod.ext (d.put_reg_other _ (cdLocation_apart ld _).1) (congrArg Pilot.deadDies (d.put_pilot _ _ _))

theorem Dev.stopTiles_dieRecord (l : Launch) : (d.stopTiles l).dieRecord ld = d.dieRecord ld := by
  unfold Dev.stopTiles
  refine foldl_keeps (fun d => Dev.dieRecord d ld) (fun d t => ?_) _ _
  dsimp only
  split
  · rfl
  · exact Dev.setTileState_dieRecord _ _ _ _

theorem Dev.failLaunch_dieRecord (ring index status detail : Nat) : (d.failLaunch ring index status detail).dieRecord ld = d.dieRecord ld := by
  unfold Dev.failLaunch
  dsimp only
  split
  · rfl
  · split
    · exact Dev.stopTiles_dieRecord _ _ _
    · rfl

/-- A cluster's caches lose their lines and translations. -/
def Dev.dropCaches (d : Dev) (lc : Nat) : Dev :=
  let d := d.modCluster lc (fun c => { c with tc := [], side := [] })
  { d with xlat := tset .new d.xlat (holderKey (.cluster lc)) .new }

/-- A MOVE that the lighters of a fenced die carry out ends. -/
def fenceItem (ld : Nat) (it : Item) : Item :=
  if it.typ == tMove && it.started && it.phase != .finished && it.engine / 4 == ld then { it.finish 0x13 with pos := it.reached } else it

theorem fenceItem_ended (it : Item) : (fenceItem ld it).typ = tMove → (fenceItem ld it).started = true → (fenceItem ld it).phase ≠ .finished →
    (fenceItem ld it).engine / 4 ≠ ld := by
  unfold fenceItem
  split
  · exact fun _ _ hph => absurd (it.finish_ended 0x13 0).1 hph
  · next hno =>
    intro htyp hst hph heng
    exact hno (by simp [htyp, hst, hph, heng])

variable {d ld}

theorem Dev.fenceDie_still (h : d.dieActive ld = false) (c : Nat) : d.fenceDie ld c = d := if_pos (by rw [h]; rfl)

/-- The fence is logged and the physical die remembered as bad. -/
def Dev.noteBadDie (d : Dev) (ld loc c : Nat) : Dev :=
  let d := d.note 0x9301 loc [(1, c)]
  d.modPilot (fun p => { p with deadDies := p.deadDies ++ [d.physDie ld] })

theorem Dev.note_dieMap (d : Dev) (code loc : Nat) (vs : List (Nat × Nat)) : (d.note code loc vs).dieMap = d.dieMap := by
  obtain ⟨⟨l, p, rs, h⟩, -⟩ := d.note_logsOnly code loc vs
  rw [h]

theorem Dev.noteBadDie_record (d : Dev) (ld loc c : Nat) :
    (d.noteBadDie ld loc c).dieRecord ld = (d.reg .cdLocation ld, d.pilot.deadDies ++ [d.physDie ld]) := by
  have hreg : (d.noteBadDie ld loc c).reg .cdLocation ld = d.reg .cdLocation ld := d.note_reg _ _ _ (cdLocation_apart ld 0).2
  have hdead : (d.noteBadDie ld loc c).pilot.deadDies = (d.note 0x9301 loc [(1, c)]).pilot.deadDies ++
      [(d.note 0x9301 loc [(1, c)]).physDie ld] := rfl
  rw [Dev.dieRecord, hreg, hdead, Dev.note_pilot, Dev.physDie, Dev.note_dieMap]
  rfl

theorem Dev.fenceDie_record (h : d.dieActive ld = true) (c : Nat) : ∃ d1 : Dev, d.fenceDie ld c = { d1 with items := d1.items.map (fenceItem ld) } ∧
    d1.dieRecord ld = ((d.put F.cdLocation_STATE 1 ld).reg .cdLocation ld, d.pilot.deadDies ++ [d.physDie ld]) := by
  have hcaches := fun d : Dev => foldl_keeps (f := Dev.dropCaches) (fun d => Dev.dieRecord d ld) (fun _ _ => rfl) (rangeFrom (4 * ld) 4) d
  rw [Dev.fenceDie, if_neg (by rw [h]; decide)]
  refine ⟨_, rfl, (hcaches _).trans ?_⟩
  refine (foldl_keeps (fun d => Dev.dieRecord d ld) (fun d l => d.failLaunch_dieRecord ld _ _ _ _) _ _).trans ?_
  refine (Dev.noteBadDie_record _ ld (d.locDie ld) c).trans ?_
  rw [Dev.put_pilot, Dev.physDie, Dev.put_dieMap, Dev.physDie]

/-- A fenced die is out of service and remembered as bad, and no MOVE of its lighters goes on. -/
theorem Dev.fenceDie_frame (h : d.dieActive ld = true) (c : Nat) : (d.fenceDie ld c).dieActive ld = false ∧
    (d.fenceDie ld c).pilot.deadDies = d.pilot.deadDies ++ [d.physDie ld] ∧
    ∀ it ∈ (d.fenceDie ld c).items, it.typ = tMove → it.started = true → it.phase ≠ .finished → it.engine / 4 ≠ ld := by
  obtain ⟨d1, heq, hrec⟩ := Dev.fenceDie_record h c
  rw [Dev.dieRecord, Prod.mk.injEq] at hrec
  obtain ⟨hreg, hdead⟩ := hrec
  rw [heq]
  refine ⟨?_, hdead, fun it hit => ?_⟩
  · change (d1.get F.cdLocation_STATE ld == 0) = false
    rw [Dev.get_congr hreg, Dev.put_get_same _ _ _ _ (by decide)]
    rfl
  · obtain ⟨it0, -, rfl⟩ := List.mem_map.1 hit
    exact fenceItem_ended ld it0

/-! ### The commands -/

theorem exec_lockkeeperDecision (q : Prediction) (s : State) : exec (.lockkeeperDecision q) s = execLockkeeperDecision q s := rfl
theorem exec_ageingUpdate (offsets : List Nat) (s : State) : exec (.ageingUpdate offsets) s = execAgeingUpdate offsets s := rfl
theorem exec_computeDieFence (ld c : Nat) (s : State) : exec (.computeDieFence ld c) s = execComputeDieFence ld c s := rfl

theorem does_lockkeeperDecision {s : State} (q : Prediction) (hup : Up s) : Does (.lockkeeperDecision q) s
    (if !s.dev.power.decided && s.dev.get F.tideLastTickNs_VALUE + s.dev.period * 7 / 8 ≤ s.dev.now then s.dev.lockkeeper q else s.dev) :=
  (does_of_actUp hup (exec_lockkeeperDecision q s) :)

theorem does_computeDieFence {s : State} (ld c : Nat) (hup : Up s) :
    Does (.computeDieFence ld c) s (if ld < 44 then s.dev.fenceDie ld c else s.dev) :=
  (does_of_actUp hup (exec_computeDieFence ld c s) :)

/-- Settles O48, from how a budget is shared, how a step is decided, and what the lockkeeper's commands do. -/
theorem powerIsSharedAndStepsDecided : Obligations.PowerIsSharedAndStepsDecided := by
  unfold Obligations.PowerIsSharedAndStepsDecided
  refine ⟨fun floors dem b hlen hcovers => ?shares, fun d => d.commonStep_spec,
    fun d q ld f => ⟨Dev.setDecision_same q, Dev.setDecision_lower q, Dev.setDecision_higher q⟩, fun s q hup => ?decides,
    fun s offsets hup => (does_of_actUp hup (exec_ageingUpdate offsets s) :), fun s ld c hup => ⟨fun hno => ?idle, fun hld hactive => ?fences⟩⟩
  case shares =>
    rw [shareBudget_eq]
    obtain ⟨hlength, htotal, hfloor, hdemand, -, hafter⟩ := Shared.range floors dem (b - floors.sum) 5
    have hsum := map_getD_range_sum floors
    rw [hlen] at hsum
    exact ⟨hlength, by omega, fun k hk => ⟨hfloor k hk, hdemand k hk, fun j hkj hj => hafter k j hkj hj⟩⟩
  case decides =>
    have hdoes := does_lockkeeperDecision q hup
    refine ⟨fun hdec hlate => ?_, fun hno => ?_⟩
    · rwa [if_pos (by simp [hdec, hlate])] at hdoes
    · rwa [if_neg (by rcases hno with h | h <;> simp [h])] at hdoes
  case idle =>
    have hdoes := does_computeDieFence ld c hup
    rcases hno with h | h
    · rwa [Dev.fenceDie_still h, ite_self] at hdoes
    · rwa [if_neg (Nat.not_lt.2 h)] at hdoes
  case fences =>
    have hdoes := does_computeDieFence ld c hup
    rw [if_pos hld] at hdoes
    exact ⟨_, hdoes, Dev.fenceDie_frame hactive c⟩

end Sys2Proof.Machine
end

section
/-! Start-up (16 R593 to R607): its phases, its halts, and RETRY. -/
namespace Sys2Proof.Machine

theorem exec_lossOfPower (s : State) : exec .lossOfPower s = execLossOfPower s := rfl
theorem exec_pkgPorNAssert (s : State) : exec .pkgPorNAssert s = execPkgPorNAssert s := rfl
theorem exec_pkgPorNDeassert (s : State) : exec .pkgPorNDeassert s = execPkgPorNDeassert s := rfl
theorem exec_identitySweep (r : Sweep) (s : State) : exec (.identitySweep r) s = execIdentitySweep r s := rfl
theorem exec_imageVerification (e : Bool) (s : State) : exec (.imageVerification e) s = execImageVerification e s := rfl
theorem exec_bringUp (r : BringUp) (s : State) : exec (.bringUp r) s = execBringUp r s := rfl
theorem exec_hostRelease (s : State) : exec .hostRelease s = execHostRelease s := rfl
theorem exec_retry (s : State) : exec .retry s = execRetry s := rfl

/-! ### The power-on reset pin -/

/-- What a POR leaves while PKG_POR_N is held low. -/
def Dev.porHeld (d : Dev) : Dev := { d.afterPor with pins := { d.afterPor.pins with por := true, thermtrip := false, alert := false } }

section
variable {s : State}

theorem does_lossOfPower (s : State) : Does .lossOfPower s (s.dev.porHeld.modPilot (fun p => { p with flashOut := true })) :=
  (does_of_act (exec_lossOfPower s) :)

theorem does_pkgPorNAssert (h : s.dev.pins.por = false) : Does .pkgPorNAssert s s.dev.porHeld := by
  have hdoes := does_of_act (exec_pkgPorNAssert s)
  rwa [if_neg (by simp [h])] at hdoes

theorem does_pkgPorNAssert_again (h : s.dev.pins.por = true) : Does .pkgPorNAssert s s.dev := by
  have hdoes := does_of_act (exec_pkgPorNAssert s)
  rwa [if_pos h] at hdoes

theorem does_pkgPorNDeassert_again (h : s.dev.pins.por = false) : Does .pkgPorNDeassert s s.dev := by
  have hdoes := does_of_act (exec_pkgPorNDeassert s)
  rwa [if_pos (by simp [h])] at hdoes

theorem does_pkgPorNDeassert (h : s.dev.pins.por = true) {d1 : Dev} (hd : d1 = { s.dev with pins := { s.dev.pins with por := false }, now := 0 }) :
    Does .pkgPorNDeassert s (if s.dev.pins.thermtrip = true then d1.stopClocks else d1.startUp 0) := by
  have hdoes := does_of_act (exec_pkgPorNDeassert s)
  rw [if_neg (by simp [h])] at hdoes
  subst hd
  exact hdoes

end

/-- Start-up halts at once where the fuses fail. -/
theorem Dev.startUp_badFuses {d : Dev} (h : d.fuses.ok = false) :
    d.startUp 0 = ((d.modPilot (fun p => { p with startKind := 0, startedAt := d.now })).beginPhase 0).halt 1 := by
  have hfuses : ((d.modPilot (fun p => { p with startKind := 0, startedAt := d.now })).beginPhase 0).fuses.ok = false := by
    rw [Dev.beginPhase, Dev.note_fuses]
    exact h
  rw [Dev.startUp, if_neg (by decide)]
  exact if_pos (by rw [hfuses]; rfl)

/-! ### The sweep -/

/-- A step of the sweep that halts, or whose predecessor has. -/
theorem Swept.on_cause {x : Swept} {f : Dev → Swept} {c : Nat} (h : (x.on f).2 = some c) : x.2 = some c ∨ (f x.1).2 = some c := by
  unfold Swept.on at h
  split at h
  · exact .inl h
  · exact .inr h

section
variable {d : Dev} {c : Nat}

theorem Dev.sweepBoard_cause {b : Option BoardAnswer} (h : (d.sweepBoard b).2 = some c) : c = 2 := by
  unfold Dev.sweepBoard at h
  dsimp only at h
  split at h
  · exact (Option.some.inj h).symm
  · split at h
    · cases h
    · exact (Option.some.inj h).symm

theorem Dev.sweepFlash_cause {a : Option FlashAnswer} (h : (d.sweepFlash a).2 = some c) : c = 3 := by
  unfold Dev.sweepFlash at h
  dsimp only at h
  split at h
  · exact (Option.some.inj h).symm
  · split at h
    · exact (Option.some.inj h).symm
    · cases h

theorem Dev.sweepVrms_cause {l : List (Option VrmAnswer)} (h : (d.sweepVrms l).2 = some c) : c = 4 := by
  unfold Dev.sweepVrms at h
  dsimp only at h
  split at h
  · exact (Option.some.inj h).symm
  · cases h

/-- The sweep halts for the board, the flash or the supplies. -/
theorem Dev.sweep_cause (r : Sweep)
    (h : (((d.sweepBoard r.board).on (fun d => d.sweepFlash r.flash)).on (fun d => d.sweepVrms r.vrms)).2 = some c) : c ∈ [2, 3, 4] := by
  rcases Swept.on_cause h with h | h
  · rcases Swept.on_cause h with h | h
    · simp [Dev.sweepBoard_cause h]
    · simp [Dev.sweepFlash_cause h]
  · simp [Dev.sweepVrms_cause h]

/-! ### The image -/

theorem Dev.componentsFail_cause {cs : List Component} (h : d.componentsFail cs = some c) : c = 5 ∨ c = 8 := by
  induction cs with
  | nil => cases h
  | cons x xs ih =>
    unfold Dev.componentsFail at h
    split at h
    · exact .inr (Option.some.inj h).symm
    · split at h
      · exact .inl (Option.some.inj h).symm
      · exact ih h

theorem Dev.verifyImage_cause {e : Bool} (h : d.verifyImage e = .error c) : c ∈ [3, 5, 6, 7, 8] := by
  unfold Dev.verifyImage at h
  dsimp only at h
  split at h
  · cases h; simp
  split at h
  · cases h; simp
  split at h
  · cases h; simp
  split at h
  · cases h; simp
  split at h
  · cases h; simp
  split at h
  · next hfail =>
    cases h
    rcases Dev.componentsFail_cause hfail with rfl | rfl <;> simp
  · cases h

end

/-! ### Each phase's command -/

section
variable {s : State} (hc : s.dev.clocked = true)
include hc

theorem does_identitySweep (r : Sweep) : Does (.identitySweep r) s (if s.dev.phase ≠ 1 then s.dev else
    match (((s.dev.sweepBoard r.board).on (fun d => d.sweepFlash r.flash)).on (fun d => d.sweepVrms r.vrms)).2 with
    | some c => (((s.dev.sweepBoard r.board).on (fun d => d.sweepFlash r.flash)).on (fun d => d.sweepVrms r.vrms)).1.halt c
    | none => (((((((s.dev.sweepBoard r.board).on (fun d => d.sweepFlash r.flash)).on
        (fun d => d.sweepVrms r.vrms)).1.sweepLasers r.lasers).sweepStacks r.hbm)).loadLedger).beginPhase 2) :=
  (does_of_actOn hc (exec_identitySweep r s) :)

theorem does_imageVerification (e : Bool) : Does (.imageVerification e) s (if s.dev.phase ≠ 2 then s.dev else
    match s.dev.verifyImage e with
    | .error c => (if c = 3 then s.dev else s.dev.note 0x8002 0 [(1, c)]).halt c
    | .ok m => (s.dev.loadImage m).beginPhase 3) :=
  (does_of_actOn hc (exec_imageVerification e s) :)

/-- The device that the bring-up of links, memory, dies and rails leaves. -/
def Dev.broughtUp (d : Dev) (r : BringUp) : Dev :=
  (((((d.trainLinks r.links).zeroMemory).relocate).trainStacks r).testDies r.badDies).enableRails

theorem does_bringUp (r : BringUp) : Does (.bringUp r) s (if s.dev.phase ≠ 3 then s.dev else
    if !r.hubOk then (s.dev.broughtUp r).halt 11
    else if (s.dev.broughtUp r).linkState 32 ≠ 4 then (s.dev.broughtUp r).halt 10 else (s.dev.broughtUp r).beginPhase 4) :=
  (does_of_actOn hc (exec_bringUp r s) :)

theorem does_hostRelease : Does .hostRelease s (if s.dev.phase ≠ 4 then s.dev else
    match s.dev.fixInterleave.hostFw with
    | none => s.dev.fixInterleave.halt 9
    | some c => if s.dev.fixInterleave.placeable c.load c.length then ((s.dev.fixInterleave.placeFw c).advanceSvn).openHost
      else s.dev.fixInterleave.halt 9) :=
  (does_of_actOn hc (exec_hostRelease s) :)

theorem does_retry : Does .retry s (if s.dev.phase = 0xFF then
      ((((s.dev.put F.pilStatus_HALT_CAUSE 0).flag F.pilStatus_FLASH_RELEASED false).beginPhase 1).answer (.ok 0))
    else if s.dev.ticking && s.dev.host.resetStep = 5 && s.dev.reset.isNone then
      (({ s.dev with host := { s.dev.host with resetStep := 4 } } : Dev).answer (.ok 0))
    else s.dev.regError .bmc true 0 3) :=
  (does_of_actOn hc (exec_retry s) :)

end

/-! ### Halts -/

/-- The registers and the logbook of a halt. -/
def Dev.haltNoted (d : Dev) (c : Nat) : Dev :=
  (((d.put F.pilBootProgress_PHASE 0xFF).put F.pilBootProgress_PERCENT 0).put F.pilStatus_HALT_CAUSE c).note 0x1003 0 [(1, c)]

/-- Start-up stops after a halt is noted. -/
def Dev.stopBoot (d : Dev) : Dev :=
  let d := (d.flag F.pilStatus_FLASH_RELEASED true).modPilot (fun p => { p with flashOut := true })
  ({ d with host := { d.host with running := false } } : Dev).raiseAlert

theorem Dev.halt_eq (d : Dev) (c : Nat) : d.halt c = (d.haltNoted c).stopBoot := rfl

theorem Dev.haltNoted_fuses (d : Dev) (c : Nat) : (d.haltNoted c).fuses = d.fuses := by
  rw [Dev.haltNoted, Dev.note_fuses, Dev.put_fuses, Dev.put_fuses, Dev.put_fuses]

theorem Dev.stopBoot_frame (d : Dev) : d.stopBoot.host.running = false ∧ d.stopBoot.pins.alert = true ∧
    d.stopBoot.pilot.flashOut = true ∧ d.stopBoot.fuses = d.fuses := ⟨rfl, rfl, rfl, rfl⟩

theorem Dev.halt_frame (d : Dev) (c : Nat) : (d.halt c).host.running = false ∧ (d.halt c).pins.alert = true ∧
    (d.halt c).pilot.flashOut = true ∧ (d.halt c).fuses = d.fuses := by
  rw [Dev.halt_eq, ← d.haltNoted_fuses c]
  exact (d.haltNoted c).stopBoot_frame

/-- Settles O50, from the pin's two edges, each phase's command and what a halt leaves. -/
theorem startUpPhases : Obligations.StartUpPhases := by
  unfold Obligations.StartUpPhases
  refine ⟨fun s => ⟨_, s.dev.porHeld, does_lossOfPower s, rfl, rfl, rfl, rfl, rfl, rfl, rfl, rfl, rfl, rfl,
      fun h => ⟨does_pkgPorNAssert h, rfl, rfl, rfl, rfl, rfl, rfl, rfl, rfl⟩, does_pkgPorNAssert_again, does_pkgPorNDeassert_again⟩,
    fun s d1 hpor hd => ?release, fun s hc => ?outOfPhase, fun s r x hc hph hx => ?sweep, fun s e hc hph => ?image,
    fun s r d1 hc hph hd => ?bringUp, fun s d1 hc hph hd => ?host, fun d c _ => d.halt_frame c, fun s hc => ?retry⟩
  case release =>
    have hdoes := does_pkgPorNDeassert hpor hd
    refine ⟨fun htrip => by rwa [if_pos htrip] at hdoes, fun htrip => ⟨by rwa [if_neg (by simp [htrip])] at hdoes, fun hbad => ?_⟩⟩
    subst hd
    exact Dev.startUp_badFuses hbad
  case outOfPhase =>
    refine ⟨fun r h => ?_, fun e h => ?_, fun r h => ?_, fun h => ?_⟩
    · simpa only [if_pos h] using does_identitySweep hc r
    · simpa only [if_pos h] using does_imageVerification hc e
    · simpa only [if_pos h] using does_bringUp hc r
    · simpa only [if_pos h] using does_hostRelease hc
  case sweep =>
    have hdoes := does_identitySweep hc r
    rw [if_neg (by simp [hph]), ← hx] at hdoes
    refine ⟨fun c hcause => ?_, fun hnone => ?_⟩
    · rw [hcause] at hdoes
      exact ⟨hdoes, Dev.sweep_cause r (hx ▸ hcause)⟩
    · rwa [hnone] at hdoes
  case image =>
    have hdoes := does_imageVerification hc e
    rw [if_neg (by simp [hph])] at hdoes
    refine ⟨fun m hm => ?_, fun c hcause => ?_⟩
    · rwa [hm] at hdoes
    · rw [hcause] at hdoes
      exact ⟨hdoes, Dev.verifyImage_cause hcause⟩
  case bringUp =>
    have hdoes := does_bringUp hc r
    obtain rfl : d1 = s.dev.broughtUp r := hd
    rw [if_neg (by simp [hph])] at hdoes
    refine ⟨fun hhub => ?_, fun hhub hlink => ?_, fun hhub hlink => ?_⟩
    · rwa [if_pos (by simp [hhub])] at hdoes
    · rwa [if_neg (by simp [hhub]), if_pos hlink] at hdoes
    · rwa [if_neg (by simp [hhub]), if_neg (not_not.2 hlink)] at hdoes
  case host =>
    have hdoes := does_hostRelease hc
    rw [if_neg (by simp [hph]), ← hd] at hdoes
    refine ⟨fun c hfw hplace => ?_, fun c hfw hplace => ?_, fun hfw => ?_⟩
    · rw [hfw] at hdoes
      simpa only [if_pos hplace] using hdoes
    · rw [hfw] at hdoes
      simpa only [hplace, Bool.false_eq_true, if_false] using hdoes
    · rwa [hfw] at hdoes
  case retry =>
    have hdoes := does_retry hc
    refine ⟨fun hph => ?_, fun htick hstep hreset => ?_, fun hph hno => ?_⟩
    · rwa [if_pos hph] at hdoes
    · have hph : s.dev.phase ≠ 0xFF := by
        have h5 : s.dev.phase = 5 := of_decide_eq_true htick
        rw [h5]
        decide
      rwa [if_neg hph, if_pos (by simp [htick, hstep, hreset])] at hdoes
    · rwa [if_neg hph, if_neg (by rcases hno with h | h | h <;> simp [h, Option.isSome_iff_ne_none.1])] at hdoes

end Sys2Proof.Machine
end

section
/-! A reset's record of an item whose status stands already (17 R628). -/
namespace Sys2Proof.Machine

/-- A released item that has started, and whose status is set to 0 already. -/
def statusStands : Item := { (default : Item) with phase := .released, started := true, status := some 0 }

/-- A reset leaves the status that stands: `Item.finish` sets one only where there is none. -/
theorem statusStands_cutOff : statusStands.cutOff.status = some 0 := by decide

/-- Refutes O51: an item that has started and not ended may hold a status already, and then the reset leaves that
status in place of FAIL_HW (0x13); the statement speaks of every item that has not ended, so it lacks "without a
status". -/
theorem not_resetsAccountForItems : ¬ Obligations.ResetsAccountForItems := by
  unfold Obligations.ResetsAccountForItems
  rintro ⟨-, -, -, -, -, -, hcutOff, -⟩
  obtain ⟨hstarted, -⟩ := hcutOff statusStands (by decide)
  obtain ⟨hstatus, -⟩ := hstarted rfl
  rw [statusStands_cutOff] at hstatus
  exact absurd hstatus (by decide)

end Sys2Proof.Machine
end

section
/-! The items and the launches stay as they are through what happens in memory and on the snoop ring: writes and
reads of the units, the probes, grants and write-backs of a line's transactions, and the waves that a stack writes
(10 R380; 13 R496 to R502). -/
namespace Sys2Proof.Machine

/-- The items and the launches. -/
def Dev.work (d : Dev) : List Item × List Launch := (d.items, d.launches)

theorem LogsOnly.work {d d' : Dev} (h : LogsOnly d d') : d'.work = d.work := by
  obtain ⟨⟨l, p, rs, rfl⟩, -⟩ := h
  rfl

/-- What leaves the work of a device as it is, where it is carried out. -/
def KeepsWork (d : Dev) (r : Except AccErr Dev) : Prop := ∀ x, r = .ok x → x.work = d.work

theorem keepsWork_error (d : Dev) (e : AccErr) : KeepsWork d (.error e) := fun _ h => nomatch h

theorem keepsWork_ok {d x : Dev} (h : x.work = d.work) : KeepsWork d (.ok x) := fun _ hx => Except.ok.inj hx ▸ h

section
variable (d : Dev)

theorem Dev.note_work (code loc : Nat) (vs : List (Nat × Nat)) : (d.note code loc vs).work = d.work :=
  (d.note_logsOnly code loc vs).work

theorem Dev.put_work (f : Fld) (v i : Nat) : (d.put f v i).work = d.work := rfl
theorem Dev.putBit_work (f : Fld) (k : Nat) (b : Bool) (i : Nat) : (d.putBit f k b i).work = d.work := rfl
theorem Dev.addSat_work (f : Fld) (n i : Nat) : (d.addSat f n i).work = d.work := rfl
theorem Dev.modCoh_work (f : Coherence → Coherence) : (d.modCoh f).work = d.work := rfl
theorem Dev.modTxn_work (line : Nat) (f : Txn → Txn) : (d.modTxn line f).work = d.work := rfl

/-! ### Memory -/

theorem Dev.logAcc_work (e : AccErr) (loc : Nat) : (d.logAcc e loc).work = d.work := by
  cases e with
  | unmapped => exact d.note_work _ _ _
  | dieWindow => exact d.note_work _ _ _
  | isolated => rfl
  | retired => exact d.note_work _ _ _
  | poison => rfl

theorem Dev.modStack_work (s : Nat) (f : Stack → Stack) : (d.modStack s f).work = d.work := rfl
theorem Dev.modDeck_work (k : Nat) (f : Deck → Deck) : (d.modDeck k f).work = d.work := rfl

theorem Dev.notePoison_work (pa : Nat) : (d.notePoison pa).work = d.work := by
  have hunit : ({ d with mem := d.mem.poisonUnit (unitOf pa) } : Dev).work = d.work := rfl
  unfold Dev.notePoison
  dsimp only
  split
  · rw [Dev.modStack_work, Dev.addSat_work, Dev.note_work, hunit]
  · rw [Dev.modDeck_work, Dev.addSat_work, Dev.note_work, hunit]
  · rw [Dev.note_work, hunit]

theorem Dev.findCold_work (us : List Nat) : (d.findCold us).work = d.work := by
  unfold Dev.findCold
  split
  · rfl
  · refine foldl_keeps Dev.work (fun d u => ?_) _ _
    split
    · exact d.notePoison_work u
    · rfl

theorem Dev.meetWrite_work (pa len : Nat) : (d.meetWrite pa len).work = d.work := by
  unfold Dev.meetWrite
  split
  · rfl
  · exact d.findCold_work _

theorem Dev.zeroTile_work (t : Nat) : (d.zeroTile t).work = d.work := rfl

theorem Dev.wakeCluster_work (lc : Nat) : (d.wakeCluster lc).work = d.work := by
  unfold Dev.wakeCluster
  split
  · rfl
  · dsimp only
    split
    · exact (foldl_keeps (f := Dev.zeroTile) Dev.work Dev.zeroTile_work _ _).trans (d.putBit_work _ _ _ _)
    · exact d.putBit_work _ _ _ _

theorem Dev.useCluster_work (lc : Nat) : (d.useCluster lc).work = d.work := rfl

theorem Dev.touch_work (pa : Nat) : (d.touch pa).work = d.work := by
  unfold Dev.touch
  split
  · split
    · rfl
    · rw [Dev.useCluster_work, Dev.wakeCluster_work]
  · rfl

theorem Dev.bellDrop_work (pa len : Nat) : (d.bellDrop pa len).work = d.work := rfl
theorem Dev.stripWaves_work (a len : Nat) : (d.stripWaves a len).work = d.work := rfl
theorem Dev.holdWrite_work (pa : Nat) (bs : List Byte) (hub : Bool) : (d.holdWrite pa bs hub).work = d.work := rfl

theorem Dev.stripResv_work (a len : Nat) : (d.stripResv a len).work = d.work := by
  unfold Dev.stripResv
  split <;> rfl

theorem Dev.bellWrite_work (pa len : Nat) : (d.bellWrite pa len).work = d.work := by
  unfold Dev.bellWrite
  split <;> rfl

theorem Dev.writeNow_work (pa : Nat) (bs : List Byte) : KeepsWork d (d.writeNow pa bs) := by
  unfold Dev.writeNow
  split
  · exact keepsWork_error d _
  · dsimp only
    split
    · exact keepsWork_error d _
    · refine keepsWork_ok ?_
      rw [Dev.bellWrite_work, Dev.stripResv_work, Dev.stripWaves_work]
      exact (Dev.touch_work _ _).trans (d.bellDrop_work pa bs.length)

theorem Dev.writePa_work (pa : Nat) (bs : List Byte) : KeepsWork d (d.writePa pa bs) := by
  unfold Dev.writePa
  split
  · next x hx =>
    refine keepsWork_ok ?_
    split
    · rfl
    · exact d.writeNow_work pa bs x hx
  · exact keepsWork_error d _

theorem Dev.issuedBefore_work {f : Dev → Except AccErr Dev} (h : ∀ d, KeepsWork d (f d)) : KeepsWork d (d.issuedBefore f) := by
  unfold Dev.issuedBefore
  split
  · next x hx => exact keepsWork_ok ((h _ x hx :))
  · exact keepsWork_error d _

theorem Dev.homeStore_work (line : Nat) (bs : List Byte) (p : Bool) : (d.homeStore line bs p).work = d.work := by
  unfold Dev.homeStore
  split
  · exact d.logAcc_work _ _
  · split <;> rfl

/-! ### The transactions of a line -/

theorem Dev.probeMonitor_work (line : Nat) (p : Probe) : (d.probeMonitor line p).work = d.work := by
  cases p <;> rfl

theorem Dev.probe_work (k line : Nat) (p : Probe) : (d.probe k line p).work = d.work := by
  unfold Dev.probe
  dsimp only
  split
  · exact (Dev.probeMonitor_work _ line p).trans (d.modTxn_work line _)
  · split
    · rfl
    · split <;> rfl

theorem Dev.sendProbes_work (line : Nat) : (d.sendProbes line).work = d.work := rfl

theorem Dev.request_work (t : Txn) : (d.request t).work = d.work := by
  unfold Dev.request
  dsimp only
  split <;> rfl

theorem Dev.meetHome_work (t : Txn) : (d.meetHome t).work = d.work := by
  unfold Dev.meetHome
  split
  · rfl
  · exact d.findCold_work _

theorem Dev.include_work (line : Nat) (v : List Byte × Bool) : (d.include line v).work = d.work := by
  unfold Dev.include
  split <;> rfl

theorem Dev.keepDirty_work (t : Txn) : (d.keepDirty t).work = d.work := by
  unfold Dev.keepDirty
  split <;> rfl

theorem Dev.cleanHome_work (t : Txn) : (d.cleanHome t).work = d.work := by
  unfold Dev.cleanHome
  dsimp only
  split
  · rfl
  · rw [Dev.modCoh_work, Dev.homeStore_work]

theorem Dev.refuseTxn_work (t : Txn) (e : AccErr) : (d.refuseTxn t e).1.work = d.work := by
  unfold Dev.refuseTxn
  dsimp only
  split
  · rw [Dev.modCoh_work, Dev.keepDirty_work, Dev.logAcc_work]
  · exact d.logAcc_work _ _

theorem Dev.grantTxn_work (t : Txn) : (d.grantTxn t).1.work = d.work := by
  have hmet : (if t.kind.accesses then d.meetHome t else d).work = d.work := by
    split
    · exact d.meetHome_work t
    · rfl
  unfold Dev.grantTxn
  split
  · exact d.refuseTxn_work t _
  dsimp only
  generalize (if t.kind.accesses then d.meetHome t else d) = d1 at hmet
  rw [← hmet]
  split
  · rfl
  · split
    · rfl
    · rw [Dev.modCoh_work]
      split
      · rfl
      · exact d1.include_work _ _
  · rw [Dev.modCoh_work, Dev.include_work]
  · have hkept : (if (t.got.map (·.2.1)).getD false then d1.keepDirty t else d1).work = d1.work := by
      split
      · exact d1.keepDirty_work t
      · rfl
    generalize (if (t.got.map (·.2.1)).getD false then d1.keepDirty t else d1) = d2 at hkept
    rw [← hkept]
    split
    · rfl
    · rw [Dev.modCoh_work, Dev.include_work]
  · split
    · next x hx => exact (Dev.issuedBefore_work (d1.modCoh _) (fun d => d.writePa_work _ _) x hx :)
    · rfl
  · split
    · rw [Dev.modCoh_work, Dev.keepDirty_work]
    · rfl
  · rw [Dev.modCoh_work, Dev.cleanHome_work]
  · rw [Dev.modCoh_work, Dev.cleanHome_work]
  · rfl

theorem Dev.finishTxn_work (t : Txn) : (d.finishTxn t).1.work = d.work := by
  unfold Dev.finishTxn
  dsimp only
  split
  · rw [Dev.sendProbes_work, Dev.modCoh_work, Dev.grantTxn_work]
  · rw [Dev.modCoh_work, Dev.grantTxn_work]

theorem Dev.runTxn_work (line : Nat) : (d.runTxn line).1.work = d.work := by
  unfold Dev.runTxn
  split
  · rfl
  · next t _ =>
    have hprobed : (t.probes.foldl (fun d k => d.probe k line t.kind.probe) d).work = d.work :=
      foldl_keeps (f := fun (d : Dev) k => d.probe k line t.kind.probe) Dev.work (fun d k => d.probe_work k line _) _ _
    dsimp only
    split
    · exact hprobed
    · exact (Dev.finishTxn_work _ _).trans hprobed

theorem Dev.drainLine_work (line : Nat) : (d.drainLine line).work = d.work :=
  foldl_keeps (f := fun (d : Dev) (_ : Txn) => (d.runTxn line).1) Dev.work (fun d _ => d.runTxn_work line) _ _

theorem Dev.cohDrop_work (line : Nat) : (d.cohDrop line).work = d.work := by
  unfold Dev.cohDrop
  dsimp only
  rw [Dev.modCoh_work]
  split
  · rw [Dev.homeStore_work, Dev.drainLine_work]
  · exact d.drainLine_work line

theorem Dev.hubWrite_work (pa : Nat) (bs : List Byte) : KeepsWork d (d.hubWrite pa bs) := by
  unfold Dev.hubWrite
  split
  · split
    · exact keepsWork_error d _
    · split
      · split
        · exact keepsWork_ok (d.holdWrite_work pa bs true)
        · exact keepsWork_error d _
      · intro x hx
        exact (Dev.writePa_work _ pa bs x hx).trans
          (foldl_keeps (f := fun (d : Dev) u => d.cohDrop (u / 64)) Dev.work (fun d u => d.cohDrop_work _) _ _)
  · exact d.writePa_work pa bs

/-! ### Waves -/

theorem Dev.writeWave_work (w : Wave) : (d.writeWave w).1.work = d.work := by
  unfold Dev.writeWave
  refine foldl_keeps (fun a : Dev × Option AccErr => a.1.work) (fun a p => ?_) _ _
  dsimp only
  rw [← Dev.meetWrite_work a.1 p.1 p.2.length]
  split
  · next x hx =>
    refine Dev.issuedBefore_work _ (fun d => ?_) x hx
    split
    · exact d.hubWrite_work _ _
    · exact d.writePa_work _ _
  · rfl

theorem Dev.writeWaves_work (ws : List Wave) : (d.writeWaves ws).1.work = d.work := by
  unfold Dev.writeWaves
  exact foldl_keeps (f := fun (acc : Dev × Option AccErr) w => ((acc.1.writeWave w).1, match acc.2 with | some x => some x | none => (acc.1.writeWave w).2))
    (fun a : Dev × Option AccErr => a.1.work) (fun a w => a.1.writeWave_work w) _ _

theorem Dev.unlock_work (ws : List Wave) : (d.unlock ws).work = d.work := by
  unfold Dev.unlock
  refine foldl_keeps Dev.work (fun d w => foldl_keeps Dev.work (fun d h => ?_) _ _) _ _
  split
  · next x hx =>
    refine Dev.issuedBefore_work _ (fun d => ?_) x hx
    split
    · exact d.hubWrite_work _ _
    · exact d.writePa_work _ _
  · rfl

end

end Sys2Proof.Machine
end

section
/-! SEG_INVAL, and the teardown of a context: what becomes of its items and its launches (12 R476 to R482). -/
namespace Sys2Proof.Machine

/-! ### Items and launches that end with their context -/

/-- What the end of an item depends on. -/
def Item.life (it : Item) : Nat × Nat × Nat × Phase × Option Nat × Bool := (it.ring, it.index, it.ctx, it.phase, it.status, it.started)

/-- The lives of the items, and the launches. -/
def Dev.lives (d : Dev) : List (Nat × Nat × Nat × Phase × Option Nat × Bool) × List Launch := (d.items.map Item.life, d.launches)

theorem Dev.lives_of_work {d d' : Dev} (h : d'.work = d.work) : d'.lives = d.lives := by
  obtain ⟨hitems, hlaunches⟩ := Prod.mk.inj h
  rw [Dev.lives, Dev.lives, hitems, hlaunches]

theorem Dev.modItem_lives (d : Dev) (ring index : Nat) {f : Item → Item} (hf : ∀ it, (f it).life = it.life) :
    (d.modItem ring index f).lives = d.lives := by
  refine Prod.ext ?_ rfl
  simp only [Dev.lives, Dev.modItem, List.map_map]
  refine List.map_congr_left fun it _ => ?_
  rw [Function.comp]
  split
  · exact hf it
  · rfl

/-- What an item has reached and counted once a wave is written. -/
def Item.waveDone (i : Item) (w : Wave) : Item :=
  { i with
    waved := max i.waved w.upTo
    sat := min 0xFFFFFFFF (i.sat + w.sat)
    flushed := min 0xFFFFFFFF (i.flushed + w.flushed) }

/-- An item leaves its waves: what it has reached and counted may change, nothing that its end depends on. -/
theorem Dev.endWaves_lives (d : Dev) (it : Item) : (d.endWaves it).lives = d.lives := by
  unfold Dev.endWaves
  dsimp only
  refine (foldl_keeps (f := fun (d : Dev) w => d.modItem it.ring it.index (fun i => i.waveDone w)) Dev.lives
    (fun d w => d.modItem_lives it.ring it.index fun _ => rfl) _ _).trans (Dev.lives_of_work ?_)
  exact (Dev.unlock_work _ _).trans (Dev.writeWaves_work _ _)

/-- Which of a context's items end under `endItems`, and how. -/
def Dev.endItem (d : Dev) (ctx running waiting : Nat) (it : Item) : Item :=
  if it.ctx ≠ ctx || it.phase == .finished then it
  else if (d.launch? it.ring it.index).isSome && ((d.launch? it.ring it.index).bind (·.start)).isSome then it
  else if it.started then { it.finish running with pos := it.reached }
  else { it.finish waiting with pos := if waiting = 0x14 then it.pos else 0 }

/-- The items of a context have ended; its launches have not. -/
def Dev.endOnlyItems (d : Dev) (ctx running waiting : Nat) : Dev :=
  let d := (d.items.filter (fun it => it.ctx == ctx && it.phase == .released)).foldl Dev.endWaves d
  ({ d with items := d.items.map (d.endItem ctx running waiting) } : Dev).wharfIdle

/-- The started launches of a context fail. -/
def Dev.failLaunches (d : Dev) (ctx status : Nat) : Dev :=
  (d.launches.filter (fun l => l.ctx = ctx)).foldl (fun d l => if l.start.isSome then d.failLaunch l.ring l.index status else d) d

theorem Dev.endItems_eq (d : Dev) (ctx running waiting : Nat) : d.endItems ctx running waiting =
    { (d.endOnlyItems ctx running waiting).failLaunches ctx running with
      launches := ((d.endOnlyItems ctx running waiting).failLaunches ctx running).launches.filter (fun l => !(l.ctx = ctx && l.start.isNone)) } := rfl

theorem Dev.wharfIdle_work (d : Dev) : d.wharfIdle.work = d.work := by
  unfold Dev.wharfIdle
  refine foldl_keeps Dev.work (fun d s => ?_) _ _
  split
  · exact d.put_work _ _ _
  · rfl

/-! ### Failed launches -/

/-- What the failure of a launch changes, beside its detail and its counts. -/
def Launch.life (l : Launch) : Nat × Nat × Nat × Option Nat × Option Nat := (l.ring, l.index, l.ctx, l.start, l.status)

theorem Dev.modLaunch_lives (d : Dev) (ring index : Nat) {f : Launch → Launch} (hf : ∀ l, (f l).life = l.life) :
    (d.modLaunch ring index f).launches.map Launch.life = d.launches.map Launch.life := by
  simp only [Dev.modLaunch, List.map_map]
  refine List.map_congr_left fun l _ => ?_
  rw [Function.comp]
  split
  · exact hf l
  · rfl

theorem Dev.setTileState_items (d : Dev) (t st : Nat) : (d.setTileState t st).items = d.items := rfl
theorem Dev.setTileState_launches (d : Dev) (t st : Nat) : (d.setTileState t st).launches = d.launches := rfl
theorem Dev.stopJobs_launches (d : Dev) (t : Nat) : (d.stopJobs t).launches = d.launches := rfl

theorem Dev.stopTiles_items (d : Dev) (l : Launch) : (d.stopTiles l).items = d.items := by
  unfold Dev.stopTiles
  refine foldl_keeps Dev.items (fun d t => ?_) _ _
  dsimp only
  split
  · rfl
  · rw [Dev.setTileState_items]
    rfl

theorem Dev.stopTiles_launches (d : Dev) (l : Launch) : (d.stopTiles l).launches.map Launch.life = d.launches.map Launch.life := by
  unfold Dev.stopTiles
  refine foldl_keeps (fun d : Dev => d.launches.map Launch.life) (fun d t => ?_) _ _
  dsimp only
  split
  · rfl
  · rw [Dev.setTileState_launches, modTile_launches, Dev.stopJobs_launches]
    exact d.modLaunch_lives l.ring l.index fun _ => rfl

/-- A launch takes a failure, unless it has one. -/
def failMark (ring index status : Nat) (l : Launch) : Launch :=
  if l.ring == ring && l.index == index then if l.status.isSome then l else { l with status := some status, detail := BitVec.ofNat 64 0 } else l

theorem Dev.failLaunch_items (d : Dev) (ring index status : Nat) : (d.failLaunch ring index status).items = d.items := by
  unfold Dev.failLaunch
  dsimp only
  split
  · rfl
  · split
    · exact Dev.stopTiles_items _ _
    · rfl

theorem Dev.failLaunch_launches (d : Dev) (ring index status : Nat) :
    (d.failLaunch ring index status).launches.map Launch.life = d.launches.map (fun l => (failMark ring index status l).life) := by
  have hmarked : (d.modLaunch ring index (fun l => if l.status.isSome then l else
      { l with status := some status, detail := BitVec.ofNat 64 0 })).launches.map Launch.life =
        d.launches.map (fun l => (failMark ring index status l).life) := by
    rw [Dev.modLaunch, List.map_map]
    rfl
  unfold Dev.failLaunch
  dsimp only
  split
  · exact hmarked
  · split
    · exact (Dev.stopTiles_launches _ _).trans hmarked
    · exact hmarked

/-- A started launch is among a device's, unfailed or failed with a status. -/
def Dev.RunsOrFails (d : Dev) (ring index ctx status : Nat) (ended : Bool) : Prop :=
  ∃ l ∈ d.launches, l.ring = ring ∧ l.index = index ∧ l.ctx = ctx ∧ l.start.isSome = true ∧
    (l.status = some status ∨ (ended = false ∧ l.status = none))

section
variable {d : Dev} {ring index ctx status : Nat}

/-- A failure keeps a started launch, and gives it its status when it is the launch's own. -/
theorem Dev.RunsOrFails.failLaunch {ended : Bool} (h : d.RunsOrFails ring index ctx status ended) (r i : Nat) :
    (d.failLaunch r i status).RunsOrFails ring index ctx status (ended || (ring == r && index == i)) := by
  obtain ⟨l, hl, hring, hindex, hctx, hstart, hstatus⟩ := h
  have hmem : (failMark r i status l).life ∈ (d.failLaunch r i status).launches.map Launch.life := by
    rw [Dev.failLaunch_launches]
    exact List.mem_map_of_mem hl
  obtain ⟨l', hl', hlife⟩ := List.mem_map.1 hmem
  obtain ⟨hr', hi', hc', hs', hst'⟩ : l'.ring = (failMark r i status l).ring ∧ l'.index = (failMark r i status l).index ∧
      l'.ctx = (failMark r i status l).ctx ∧ l'.start = (failMark r i status l).start ∧
      l'.status = (failMark r i status l).status := by
    simpa only [Launch.life, Prod.mk.injEq] using hlife
  refine ⟨l', hl', ?_⟩
  rw [hr', hi', hc', hs', hst']
  unfold failMark
  by_cases hkey : (l.ring == r && l.index == i) = true
  · rw [if_pos hkey]
    rcases hstatus with hstatus | ⟨-, hstatus⟩
    · rw [if_pos (by rw [hstatus]; rfl)]
      exact ⟨hring, hindex, hctx, hstart, .inl hstatus⟩
    · rw [if_neg (by rw [hstatus]; decide)]
      exact ⟨hring, hindex, hctx, hstart, .inl rfl⟩
  · rw [if_neg hkey]
    refine ⟨hring, hindex, hctx, hstart, hstatus.imp_right fun ⟨hended, hnone⟩ => ⟨?_, hnone⟩⟩
    rw [hended, Bool.false_or]
    subst hring hindex
    exact Bool.eq_false_iff.2 hkey

/-- Started launches fail one after another: one that runs or has failed so still does at the end, and has failed
once it was among them. -/
theorem Dev.RunsOrFails.foldl {ended : Bool} (h : d.RunsOrFails ring index ctx status ended) (ls : List Launch) :
    (ls.foldl (fun (d : Dev) l => if l.start.isSome then d.failLaunch l.ring l.index status else d) d).RunsOrFails ring index ctx status
      (ended || ls.any (fun l => l.start.isSome && (ring == l.ring && index == l.index))) := by
  induction ls generalizing d ended with
  | nil => simpa using h
  | cons l ls ih =>
    rw [List.foldl_cons, List.any_cons]
    by_cases hs : l.start.isSome = true
    · rw [if_pos hs, hs, Bool.true_and, ← Bool.or_assoc]
      exact ih (h.failLaunch l.ring l.index)
    · rw [if_neg hs, Bool.eq_false_iff.2 hs, Bool.false_and, Bool.false_or]
      exact ih h

end

theorem Dev.failLaunches_items (d : Dev) (ctx status : Nat) : (d.failLaunches ctx status).items = d.items := by
  unfold Dev.failLaunches
  refine foldl_keeps Dev.items (fun d l => ?_) _ _
  split
  · exact d.failLaunch_items _ _ _
  · rfl

/-! ### What the end of a context's work leaves -/

section
variable (d : Dev) (ctx : Nat)

/-- The device whose released items of a context have left their waves. -/
def Dev.wavesEnded : Dev := (d.items.filter (fun it => it.ctx == ctx && it.phase == .released)).foldl Dev.endWaves d

theorem Dev.wavesEnded_lives : (d.wavesEnded ctx).lives = d.lives := foldl_keeps (f := Dev.endWaves) Dev.lives Dev.endWaves_lives _ _

theorem Dev.wavesEnded_launches : (d.wavesEnded ctx).launches = d.launches := congrArg Prod.snd (d.wavesEnded_lives ctx)

theorem Dev.endOnlyItems_items : (d.endOnlyItems ctx 0x12 0x14).items = (d.wavesEnded ctx).items.map ((d.wavesEnded ctx).endItem ctx 0x12 0x14) :=
  congrArg Prod.fst (Dev.wharfIdle_work _)

theorem Dev.endOnlyItems_launches : (d.endOnlyItems ctx 0x12 0x14).launches = d.launches :=
  (congrArg Prod.snd (Dev.wharfIdle_work _)).trans (d.wavesEnded_launches ctx)

theorem Dev.endItems_items : (d.endItems ctx 0x12 0x14).items = (d.wavesEnded ctx).items.map ((d.wavesEnded ctx).endItem ctx 0x12 0x14) := by
  rw [← Dev.endOnlyItems_items, Dev.endItems_eq]
  exact Dev.failLaunches_items _ _ _

end

/-- An item of the context that no started launch belongs to ends, with the status of what it had come to. -/
theorem Dev.endItem_ended {d : Dev} {ctx running waiting : Nat} {it : Item} (hctx : it.ctx = ctx) (hph : it.phase ≠ .finished)
    (hst : it.status = none) (hl : ∀ l, d.launch? it.ring it.index = some l → l.start = none) :
    (d.endItem ctx running waiting it).phase = .finished ∧
      (d.endItem ctx running waiting it).status = some (if it.started then running else waiting) := by
  have hlaunch : ((d.launch? it.ring it.index).isSome && ((d.launch? it.ring it.index).bind (·.start)).isSome) = false := by
    cases hl1 : d.launch? it.ring it.index with
    | none => rfl
    | some l => simp [hl l hl1]
  have hfin : ∀ status, it.finish status = { it with phase := .finished, status := some status, detail := BitVec.ofNat 64 0 } :=
    fun status => by rw [Item.finish, hst]
  rw [Dev.endItem, if_neg (by simp [hctx, hph]), if_neg (by simp only [hlaunch, Bool.false_eq_true, not_false_eq_true])]
  split
  · rw [hfin]
    exact ⟨rfl, rfl⟩
  · rw [hfin]
    exact ⟨rfl, rfl⟩

theorem Dev.endItems_item {d : Dev} {ctx k : Nat} {it it' : Item} (hit : d.items[k]? = some it)
    (hit' : (d.endItems ctx 0x12 0x14).items[k]? = some it') (hctx : it.ctx = ctx) (hph : it.phase ≠ .finished) (hst : it.status = none)
    (hl : ∀ l, d.launch? it.ring it.index = some l → l.start = none) :
    it'.phase = .finished ∧ it'.status = some (if it.started then 0x12 else 0x14) := by
  rw [d.endItems_items ctx, List.getElem?_map, Option.map_eq_some_iff] at hit'
  obtain ⟨it1, hit1, rfl⟩ := hit'
  have hlives : (d.wavesEnded ctx).items.map Item.life = d.items.map Item.life := congrArg Prod.fst (d.wavesEnded_lives ctx)
  have hlife : it1.life = it.life := by
    have hk := congrArg (fun l => l[k]?) hlives
    simp only [List.getElem?_map, hit, hit1, Option.map_some, Option.some.injEq] at hk
    exact hk
  simp only [Item.life, Prod.mk.injEq] at hlife
  obtain ⟨hr1, hi1, hc1, hp1, hs1, hstarted⟩ := hlife
  rw [← hstarted]
  refine Dev.endItem_ended (hc1.trans hctx) (hp1 ▸ hph) (hs1.trans hst) fun l hl1 => ?_
  rw [Dev.launch?, d.wavesEnded_launches ctx, hr1, hi1] at hl1
  exact hl l hl1

theorem Dev.endItems_launch {d : Dev} {ctx : Nat} {l : Launch} (hl : l ∈ d.launches) (hctx : l.ctx = ctx) (hstart : l.start.isSome = true)
    (hst : l.status = none) :
    ∃ l' ∈ (d.endItems ctx 0x12 0x14).launches, l'.ring = l.ring ∧ l'.index = l.index ∧ l'.status = some 0x12 := by
  have hbefore : (d.endOnlyItems ctx 0x12 0x14).RunsOrFails l.ring l.index ctx 0x12 false :=
    ⟨l, d.endOnlyItems_launches ctx ▸ hl, rfl, rfl, hctx, hstart, .inr ⟨rfl, hst⟩⟩
  have hafter := hbefore.foldl ((d.endOnlyItems ctx 0x12 0x14).launches.filter (fun l => l.ctx = ctx))
  obtain ⟨l', hl', hring, hindex, hctx', hstart', hstatus⟩ := hafter
  have hany : ((d.endOnlyItems ctx 0x12 0x14).launches.filter (fun l => l.ctx = ctx)).any
      (fun x => x.start.isSome && (l.ring == x.ring && l.index == x.index)) = true := by
    rw [List.any_eq_true]
    exact ⟨l, List.mem_filter.2 ⟨d.endOnlyItems_launches ctx ▸ hl, by simp [hctx]⟩, by simp [hstart]⟩
  refine ⟨l', ?_, hring, hindex, hstatus.resolve_right fun ⟨h, _⟩ => ?_⟩
  · rw [Dev.endItems_eq]
    exact List.mem_filter.2 ⟨hl', by cases hs : l'.start <;> simp_all⟩
  · rw [hany] at h
    exact absurd h (by decide)

/-! ### The commands -/

theorem exec_segInvalWhole (ring index : Nat) (s : State) : exec (.segInvalWhole ring index) s = execSegInvalWhole ring index s := rfl
theorem exec_segInvalRange (ring index : Nat) (s : State) : exec (.segInvalRange ring index) s = execSegInvalRange ring index s := rfl
theorem exec_segInvalDrained (ring index : Nat) (s : State) : exec (.segInvalDrained ring index) s = execSegInvalDrained ring index s := rfl
theorem exec_teardown (hart ctx : Nat) (s : State) : exec (.teardown hart ctx) s = execTeardown hart ctx s := rfl
theorem exec_ctxTeardownDone (ctx : Nat) (s : State) : exec (.ctxTeardownDone ctx) s = execCtxTeardownDone ctx s := rfl

section
variable {s : State} {ring index : Nat} {it : Item} (hup : Up s) (hit : InHand s ring index it) (htyp : it.typ = tSegInval)
include hup hit htyp

theorem does_segInval {whole : Bool} (hwhole : it.b 1 22 = whole) (hno : (ring, index) ∉ s.dev.draining) :
    Does (if whole then .segInvalWhole ring index else .segInvalRange ring index) s ({ s.dev with
      xlat := s.dev.xlat.map (fun e => (e.1, ⟨e.2.segs.map (fun x => if it.coversSeg x then { x with stale := true } else x),
        e.2.pages.map (fun p => if it.coversPage p then { p with stale := true } else p)⟩))
      draining := s.dev.draining ++ [(ring, index)] } : Dev) := by
  have hexec : exec (if whole then .segInvalWhole ring index else .segInvalRange ring index) s =
      actUp s fun d => d.onInval ring index whole := by
    cases whole
    · exact exec_segInvalRange ring index s
    · exact exec_segInvalWhole ring index s
  obtain ⟨hfound, hph⟩ := hit
  have hdoes := does_of_actUp hup hexec
  obtain ⟨rfl, rfl⟩ := Dev.item_key hfound
  rw [Dev.onInval, Dev.onItem_hit _ hfound hph (by simp [htyp, hwhole, hno])] at hdoes
  exact hdoes

/-- A wave of the context of an invalidation is in flight. -/
def Dev.invalBusy (d : Dev) (it : Item) : Bool :=
  d.hbmStacks.any (fun e => e.2.waves.any (fun w => match d.item? w.ring w.index with | some o => o.ctx == it.invCtx | none => false))

omit hup hit htyp in
theorem Dev.invalBusy_iff (d : Dev) (it : Item) : d.invalBusy it = true ↔
    ∃ k ∈ d.hbmStacks, ∃ w ∈ k.2.waves, ∃ o, d.item? w.ring w.index = some o ∧ o.ctx = it.invCtx := by
  simp only [Dev.invalBusy, List.any_eq_true]
  refine exists_congr fun k => and_congr_right fun _ => exists_congr fun w => and_congr_right fun _ => ?_
  cases d.item? w.ring w.index with
  | none => simp
  | some o => simp

/-- The stale entries that a SEG_INVAL covers are gone, and it drains no longer. -/
def Dev.staleRemoved (d : Dev) (it : Item) (ring index : Nat) : Dev :=
  { d with
    xlat := (d.xlat.map (fun e => (e.1, (⟨e.2.segs.filter (fun x => !(x.stale && it.coversSeg x)),
      e.2.pages.filter (fun p => !(p.stale && it.coversPage p))⟩ : Xlat)))).filter (fun e => e.2 != .new)
    draining := d.draining.filter (fun r => r != (ring, index)) }

theorem does_segInvalDrained (hin : (ring, index) ∈ s.dev.draining) : Does (.segInvalDrained ring index) s
    (if s.dev.invalBusy it then s.dev else ((s.dev.staleRemoved it ring index).addSat F.segWalkStatus_INVALS 1).finish ring index 0) := by
  obtain ⟨hfound, hph⟩ := hit
  have hdoes := does_of_actUp hup (exec_segInvalDrained ring index s)
  rwa [Dev.onItem_hit _ hfound hph (by simp [htyp, hin])] at hdoes

end

theorem does_teardown {s : State} {hart ctx : Nat} (hup : Up s) (hh : s.dev.hartUp hart = true) (hc : ctx < 256) :
    Does (.teardown hart ctx) s (s.dev.teardown hart ctx) := by
  have hdoes := does_of_actUp hup (exec_teardown hart ctx s)
  rwa [if_pos (by simp [hh, hc])] at hdoes

theorem does_ctxTeardownDone {s : State} {ctx : Nat} (hup : Up s) (hc : ctx < 256) (hst : (s.dev.ctx ctx).state = 2)
    (hno : ∀ l ∈ s.dev.launches, l.ctx ≠ ctx) {d1 d2 : Dev} (hd1 : d1 = (s.dev.invalOwner ctx).dropXlat (fun _ => true) ctx)
    (hd2 : d2 = (d1.ctxConns ctx).foldl Dev.connClose d1) : Does (.ctxTeardownDone ctx) s
      ((d2.modCtx ctx (fun c => { c with state := 0, faultVa := 0, faultInfo := 0, cancelled := 0 })).note 0x6211 0
        [(1, ctx), (4, (d2.ctx ctx).cancelled)]) := by
  have hdoes := does_of_actUp hup (exec_ctxTeardownDone ctx s)
  rw [if_pos (by simpa [hc, hst] using hno)] at hdoes
  subst hd1 hd2
  exact hdoes

/-- Settles O22, from the SEG_INVAL commands, the teardown commands, and what the end of a context's work leaves of
its items and its launches. -/
theorem contextWithdrawal : Obligations.ContextWithdrawal := by
  unfold Obligations.ContextWithdrawal
  refine ⟨fun s ring index it hup hit htyp => ⟨fun whole hwhole hno => does_segInval hup hit htyp hwhole hno, fun hin => ?drained⟩,
    fun s hart ctx hup hh hc => ⟨fun hno => ?refused, fun hc0 hst d1 d2 n m hd1 hd2 hn hm => ?withdrawn⟩,
    fun d ctx k it it' => Dev.endItems_item, fun d ctx l => Dev.endItems_launch,
    fun s ctx d1 d2 hup hc hst hno hd1 hd2 => does_ctxTeardownDone hup hc hst hno hd1 hd2⟩
  case drained =>
    have hdoes := does_segInvalDrained hup hit htyp hin
    refine ⟨fun hbusy => ?_, fun hfree => ?_⟩
    · rwa [if_pos ((Dev.invalBusy_iff _ _).2 hbusy)] at hdoes
    · have hidle : ¬ s.dev.invalBusy it = true := fun hbusy => by
        obtain ⟨k, hk, w, hw, o, ho, hctx⟩ := (Dev.invalBusy_iff _ _).1 hbusy
        exact hfree k hk w hw o ho hctx
      rwa [if_neg hidle] at hdoes
  case refused =>
    have hdoes := does_teardown hup hh hc
    rwa [Dev.teardown, if_pos (by simpa using hno)] at hdoes
  case withdrawn =>
    have hdoes := does_teardown hup hh hc
    rw [Dev.teardown, if_neg (by simp [hc0, hst])] at hdoes
    subst hd1 hd2 hn hm
    exact hdoes

end Sys2Proof.Machine
end

section
/-! The snoop ring: requests queue at their line's home, and what a probe leaves of an L2's copy (13 R496 to R501). -/
namespace Sys2Proof.Machine

/-! ### The current transaction of a line -/

theorem find?_modFirst_apart {p q : Txn → Bool} {f : Txn → Txn} (hf : ∀ t, p t = true → q t = false ∧ q (f t) = false) (l : List Txn) :
    (modFirst p f l).find? q = l.find? q := by
  induction l with
  | nil => rfl
  | cons t rest ih =>
    rw [modFirst]
    split
    · next hp =>
      obtain ⟨ht, hft⟩ := hf t hp
      rw [List.find?_cons_of_neg (by rw [hft]; decide), List.find?_cons_of_neg (by rw [ht]; decide)]
    · rw [List.find?_cons, List.find?_cons, ih]

/-- The probes of one line's transaction are no matter of another line's. -/
theorem Dev.sendProbes_txn_other (d : Dev) {line l : Nat} (h : l ≠ line) : (d.sendProbes line).coh.txn l = d.coh.txn l := by
  refine find?_modFirst_apart (fun t ht => ?_) _
  have hline : t.line = line := by simpa using ht
  exact ⟨by simpa [hline] using Ne.symm h, by simpa [hline] using Ne.symm h⟩

/-- A request leaves a line's current transaction as it is. -/
theorem Dev.request_txn (d : Dev) (t : Txn) {l : Nat} {u : Txn} (h : d.coh.txn l = some u) : (d.request t).coh.txn l = some u := by
  have hadded : ∀ t', (d.modCoh (fun c => { c with txns := c.txns ++ [t'] })).coh.txn l = some u := fun t' => by
    rw [Coherence.txn] at h
    rw [Coherence.txn, Dev.modCoh, List.find?_append, h, Option.some_or]
  unfold Dev.request
  dsimp only
  split
  · next hidle =>
    have hne : l ≠ t.line := fun heq => by simp [heq ▸ h] at hidle
    exact (Dev.sendProbes_txn_other _ hne).trans (hadded _)
  · exact hadded _

/-! ### Copies -/

section
variable (c : Coherence) (k line : Nat)

theorem Coherence.held_line {l : L2Line} (h : c.held k line = some l) : l.line = line := by
  simpa using List.find?_some h

theorem Coherence.st_of_held {l : L2Line} (h : c.held k line = some l) : c.st k line = l.st := by
  rw [Coherence.st, h, Option.map_some, Option.getD_some]

theorem Coherence.st_of_none (h : c.held k line = none) : c.st k line = 0 := by
  rw [Coherence.st, h, Option.map_none, Option.getD_none]

theorem Coherence.setHeld_held {l : L2Line} (h : l.line = line) : (c.setHeld k l).held k line = some l := by
  rw [Coherence.held, Coherence.setHeld, tget_tset_same, List.find?_append, List.find?_eq_none.2, Option.none_or,
    List.find?_cons_of_pos (by simp [h])]
  intro x hx
  simpa [h] using (List.mem_filter.1 hx).2

theorem Coherence.dropHeld_held : (c.dropHeld k line).held k line = none := by
  rw [Coherence.held, Coherence.dropHeld, Coherence.stripLine, tget_tset_same, List.find?_eq_none]
  intro x hx
  simpa using (List.mem_filter.1 hx).2

end

/-! ### Probes -/

section
variable (d : Dev) {k line : Nat}

theorem Dev.modTxn_held (l : Nat) (f : Txn → Txn) : (d.modTxn l f).coh.held k line = d.coh.held k line := rfl

/-- An L2 without a copy has none after a probe. -/
theorem Dev.probe_none (hk : k < 12) (p : Probe) (h : d.coh.held k line = none) : (d.probe k line p).coh.st k line = 0 := by
  have hnone : (d.modTxn line (fun t => { t with probes := t.probes.filter (· != k) })).coh.held k line = none := h
  unfold Dev.probe
  dsimp only
  rw [if_neg (by omega), hnone]
  exact Coherence.st_of_none _ _ _ hnone

/-- What an L2's copy is after a probe. -/
theorem Dev.probe_some (hk : k < 12) (p : Probe) {l : L2Line} (h : d.coh.held k line = some l) :
    (d.probe k line p).coh.st k line = ((l.probed p).1.map (·.st)).getD 0 := by
  have hsome : (d.modTxn line (fun t => { t with probes := t.probes.filter (· != k) })).coh.held k line = some l := h
  have hline : l.line = line := d.coh.held_line k line h
  unfold Dev.probe
  dsimp only
  rw [if_neg (by omega), hsome]
  dsimp only
  rw [Coherence.st, Dev.modTxn_held]
  cases hkeep : (l.probed p).1 with
  | none =>
    dsimp only [Dev.modCoh]
    rw [Coherence.dropHeld_held, Option.map_none]
  | some l' =>
    have hline' : l'.line = line := by
      cases p <;> simp only [L2Line.probed, Option.some.injEq, reduceCtorEq] at hkeep <;> subst hkeep <;> exact hline
    dsimp only [Dev.modCoh]
    rw [Coherence.setHeld_held _ _ _ hline']

theorem Dev.probe_leaves (hk : k < 12) : (d.probe k line .take).coh.st k line = 0 ∧ (d.probe k line .drop).coh.st k line = 0 ∧
    (d.probe k line .share).coh.st k line ≠ 2 ∧ (d.probe k line .share).coh.st k line ≠ 4 ∧
    (d.coh.st k line < 5 → (d.probe k line .clean).coh.st k line < 3) := by
  cases h : d.coh.held k line with
  | none => simp [d.probe_none hk _ h]
  | some l =>
    simp only [d.probe_some hk _ h, d.coh.st_of_held k line h, L2Line.probed, Option.map_some, Option.getD_some, Option.map_none, Option.getD_none]
    refine ⟨trivial, trivial, ?_, ?_, fun hst => ?_⟩
    · split
      · decide
      · split
        · decide
        · assumption
    · split
      · decide
      · split
        · decide
        · assumption
    · split
      · decide
      · split
        · decide
        · omega

end

/-! ### The commands -/

section
variable (agent line : Nat) (s : State)

theorem exec_look : exec (.look agent line) s = execLook agent line s := rfl
theorem exec_putfull (data : List Byte) : exec (.putfull agent line data) s = execPutfull agent line data s := rfl
theorem exec_atomichome (pa size : Nat) (op : AtomicOp) (x y : Nat) :
    exec (.atomichome agent pa size op x y) s = execAtomichome agent pa size op x y s := rfl
theorem exec_probeshare : exec (.probeshare agent line) s = execProbeshare agent line s := rfl
theorem exec_probetake : exec (.probetake agent line) s = execProbetake agent line s := rfl
theorem exec_probeclean : exec (.probeclean agent line) s = execProbeclean agent line s := rfl
theorem exec_probedrop : exec (.probedrop agent line) s = execProbedrop agent line s := rfl
theorem exec_retire : exec (.retire agent line) s = execRetire agent line s := rfl
theorem exec_yield : exec (.yield agent line) s = execYield agent line s := rfl
theorem exec_snoopResponse : exec (.snoopResponse agent line) s = execSnoopResponse agent line s := rfl
theorem exec_snoopData : exec (.snoopData agent line) s = execSnoopData agent line s := rfl

theorem exec_l2Request {c : Nat → Nat → Instr} {kind : ReqKind} {ok : Nat → Bool} (h : L2Request c kind ok) :
    exec (c agent line) s = actUp s fun d => d.l2Request agent line ok kind := by
  rcases h with ⟨rfl, rfl, rfl⟩ | ⟨rfl, rfl, rfl⟩ | ⟨rfl, rfl, rfl⟩ | ⟨rfl, rfl, rfl⟩ | ⟨rfl, rfl, rfl⟩ | ⟨rfl, rfl, rfl⟩ <;> rfl

variable {agent line s} (hup : Up s)
include hup

theorem does_l2Request {c : Nat → Nat → Instr} {kind : ReqKind} {ok : Nat → Bool} (h : L2Request c kind ok) (hagent : agent < 12)
    (hline : line < poolLines) (hhost : s.dev.hostUp = true) : Does (c agent line) s
      (if ok (s.dev.coh.st agent line) = true then s.dev.request { kind := kind, agent := agent, line := line } else s.dev) := by
  have hdoes := does_of_actUp hup (exec_l2Request agent line s h)
  rw [Dev.l2Request] at hdoes
  simpa only [hagent, hline, hhost, decide_true, Bool.true_and] using hdoes

theorem does_look (hline : line < poolLines) (hagent : agent = 14 ∨ (agent < 13 ∧ s.dev.hostUp = true)) :
    Does (.look agent line) s (s.dev.request { kind := .look, agent := agent, line := line }) := by
  have hdoes := does_of_actUp hup (exec_look agent line s)
  rwa [if_pos (by simpa [hline] using hagent)] at hdoes

theorem does_putfull {bs : List Byte} (hline : line < poolLines) (hbs : bs.length = 64)
    (hagent : agent = 14 ∨ (agent = 12 ∧ s.dev.hostUp = true)) :
    Does (.putfull agent line bs) s (s.dev.request { kind := .putFull, agent := agent, line := line, data := bs }) := by
  have hdoes := does_of_actUp hup (exec_putfull agent line s bs)
  rwa [if_pos (by simpa [hline, hbs] using hagent)] at hdoes

theorem does_atomichome {off size x y : Nat} {op : AtomicOp} (hline : line < poolLines) (hoff : off < 64)
    (hok : amoOk op size (64 * line + off) = true) (hagent : agent = 14 ∨ (agent < 13 ∧ s.dev.hostUp = true)) :
    Does (.atomichome agent (64 * line + off) size op x y) s (s.dev.request
      { kind := .atomicHome, agent := agent, line := line, op := op, off := off, size := size, operand := x, compare := y }) := by
  have hlt : line < 2 ^ 34 := hline
  have hpool : 64 * line + off < 2 ^ 40 := by omega
  have hdoes := does_of_actUp hup (exec_atomichome agent s (64 * line + off) size op x y)
  rwa [if_pos (by simpa only [hok, decide_eq_true hpool, Bool.and_true, Bool.true_and, Bool.or_eq_true, Bool.and_eq_true, decide_eq_true_eq] using hagent), show (64 * line + off) / 64 = line by omega,
    show (64 * line + off) % 64 = off by omega] at hdoes

theorem does_probeCommand {c : Nat → Nat → Instr} {p : Probe} (h : ProbeCommand c p) {t : Txn} (ht : s.dev.coh.txn line = some t) :
    Does (c agent line) s (if t.probes.contains agent && decide (t.kind.probe = p) then s.dev.probe agent line p else s.dev) := by
  have hprobed : s.dev.probed agent line p =
      if t.probes.contains agent && decide (t.kind.probe = p) then s.dev.probe agent line p else s.dev := by
    rw [Dev.probed, ht]
  rw [← hprobed]
  rcases h with ⟨rfl, rfl⟩ | ⟨rfl, rfl⟩ | ⟨rfl, rfl⟩ | ⟨rfl, rfl⟩
  · exact (does_of_actUp hup (exec_probeshare agent line s) :)
  · exact (does_of_actUp hup (exec_probetake agent line s) :)
  · exact (does_of_actUp hup (exec_probeclean agent line s) :)
  · have hdoes := does_of_actUp hup (exec_probedrop agent line s)
    rwa [if_pos (by rw [ht]; rfl)] at hdoes

theorem does_probedrop_evict (ht : s.dev.coh.txn line = none) : Does (.probedrop agent line) s (s.dev.evict agent line) := by
  have hdoes := does_of_actUp hup (exec_probedrop agent line s)
  rwa [if_neg (by rw [ht]; decide)] at hdoes

theorem does_retire {l : L2Line} (hl : s.dev.coh.held agent line = some l) : Does (.retire agent line) s
    (if l.st < 3 then s.dev else s.dev.modCoh (fun c => (c.dropHeld agent line).setSys
      { line := line, data := l.data, dirty := true, poisoned := l.poisoned })) := by
  have hdoes := does_of_actUp hup (exec_retire agent line s)
  rwa [hl] at hdoes

theorem does_yield : Does (.yield agent line) s
    (if s.dev.coh.st agent line = 2 then s.dev.modCoh (fun c => c.dropHeld agent line) else s.dev) :=
  (does_of_actUp hup (exec_yield agent line s) :)

section
variable {t : Txn} (ht : s.dev.coh.txn line = some t)
include ht

omit hup in
theorem Dev.conclude_some (data : Bool) : s.dev.conclude agent line data =
    if t.waiting.isEmpty && t.agent == agent && t.kind.answersData == data then (s.dev.finishTxn t).1.answer (s.dev.finishTxn t).2 else s.dev := by
  rw [Dev.conclude, ht]

theorem does_snoopResponse : Does (.snoopResponse agent line) s (if t.waiting.contains agent then
      if t.probes.contains agent then s.dev else s.dev.modTxn line (fun t => { t with waiting := t.waiting.filter (· != agent) })
    else s.dev.conclude agent line false) := by
  have hdoes := does_of_actUp hup (exec_snoopResponse agent line s)
  rwa [ht] at hdoes

omit ht in
theorem does_snoopData : Does (.snoopData agent line) s (s.dev.conclude agent line true) :=
  (does_of_actUp hup (exec_snoopData agent line s) :)

end
end

/-- Settles O55, from where a request waits, what a probe leaves of a copy, and the commands of the snoop ring. -/
theorem snoopRingTransactions : Obligations.SnoopRingTransactions := by
  unfold Obligations.SnoopRingTransactions
  refine ⟨fun c kind ok hc s agent line hup hagent hline hhost => ⟨fun hok => ?sent, fun hok => ?unsent⟩,
    fun s agent line hup hline => ⟨does_look hup hline, fun bs => does_putfull hup hline,
      fun off size op x y hoff hok => does_atomichome hup hline hoff hok⟩,
    fun d t u l => d.request_txn t,
    fun c p hc s agent line t hup ht => ⟨fun hin hkind => ?handled, fun hout => ?again⟩,
    fun d k line hk => d.probe_leaves hk,
    fun s agent line hup => ⟨does_probedrop_evict hup, fun l hl => ⟨fun hst => ?retire, fun hst => ?clean⟩, fun hst => ?yield, fun hst => ?kept⟩,
    fun s agent line t hup ht => ⟨fun hwait hprobe => ?answered, fun hwait hprobe => ?early, fun hne => ⟨fun hwait => ?other, ?data⟩,
      fun hnil hagent => ⟨fun hkind => ?acknowledged, fun hkind => ?granted⟩⟩⟩
  case sent =>
    have hdoes := does_l2Request hup hc hagent hline hhost
    rwa [if_pos hok] at hdoes
  case unsent =>
    have hdoes := does_l2Request hup hc hagent hline hhost
    rwa [if_neg (by rw [hok]; decide)] at hdoes
  case handled =>
    have hdoes := does_probeCommand (agent := agent) hup hc ht
    rwa [if_pos (by rw [hin, decide_eq_true hkind]; rfl)] at hdoes
  case again =>
    have hdoes := does_probeCommand (agent := agent) hup hc ht
    rwa [if_neg (by rw [hout, Bool.false_and]; decide)] at hdoes
  case retire =>
    have hdoes := does_retire hup hl
    rwa [if_neg (Nat.not_lt.2 hst)] at hdoes
  case clean =>
    have hdoes := does_retire hup hl
    rwa [if_pos hst] at hdoes
  case yield =>
    have hdoes := does_yield (agent := agent) (line := line) hup
    rwa [if_pos hst] at hdoes
  case kept =>
    have hdoes := does_yield (agent := agent) (line := line) hup
    rwa [if_neg hst] at hdoes
  case answered =>
    have hdoes := does_snoopResponse (agent := agent) hup ht
    rwa [if_pos hwait, if_neg (by rw [hprobe]; decide)] at hdoes
  case early =>
    have hdoes := does_snoopResponse (agent := agent) hup ht
    rwa [if_pos hwait, if_pos hprobe] at hdoes
  case other =>
    have hdoes := does_snoopResponse (agent := agent) hup ht
    rwa [if_neg (by rw [hwait]; decide), Dev.conclude_some ht, if_neg (by simp [hne])] at hdoes
  case data =>
    have hdoes := does_snoopData (agent := agent) (line := line) hup
    rwa [Dev.conclude_some ht, if_neg (by simp [hne])] at hdoes
  case acknowledged =>
    have hdoes := does_snoopResponse (agent := agent) hup ht
    rwa [if_neg (by simp [hnil]), Dev.conclude_some ht, if_pos (by simp [hnil, hagent, hkind])] at hdoes
  case granted =>
    have hdoes := does_snoopData (agent := agent) (line := line) hup
    rwa [Dev.conclude_some ht, if_pos (by simp [hnil, hagent, hkind])] at hdoes

end Sys2Proof.Machine
end

section
/-! Accesses of the host's harts and of PCIe requests (13 R487 to R494, R500, R502). -/
namespace Sys2Proof.Machine

/-! ### Loads and stores of a hart -/

theorem exec_hostLoad (h pa size : Nat) (k : AccessKind) (ca : Bool) (s : State) :
    exec (.hostLoad h pa size k ca) s = execHostLoad h pa size k ca s := rfl
theorem exec_hostStore (h pa size : Nat) (k : AccessKind) (ca : Bool) (v : W64) (s : State) :
    exec (.hostStore h pa size k ca v) s = execHostStore h pa size k ca v s := rfl

theorem does_hostLoad {s : State} {h pa size : Nat} {k : AccessKind} {ca : Bool} (hat : HartAt s h pa size (decide (k = .loadReserved)) ca) :
    Does (.hostLoad h pa size k ca) s (s.dev.hostLoad h pa size k ca) := by
  obtain ⟨hup, hacc⟩ := hat
  have hdoes := does_of_actUp hup (exec_hostLoad h pa size k ca s)
  rwa [if_pos hacc] at hdoes

theorem does_hostStore {s : State} {h pa size : Nat} {k : AccessKind} {ca : Bool} (v : W64) (hat : HartAt s h pa size true ca) (hsz : size ≤ 8) :
    Does (.hostStore h pa size k ca v) s (s.dev.hostStore h pa size k ca v) := by
  obtain ⟨hup, hacc⟩ := hat
  have hdoes := does_of_actUp hup (exec_hostStore h pa size k ca v s)
  rwa [if_pos (by rw [hacc, decide_eq_true hsz]; rfl)] at hdoes

section
variable {d : Dev} {h pa size : Nat}

/-- A line that the L2 holds as the access needs it is not fetched. -/
theorem Dev.lineFor_held {k line : Nat} {unique : Bool} {l : L2Line} (hl : d.coh.held k line = some l) (hst : 0 < l.st)
    (hunique : unique = true → l.st = 2 ∨ l.st = 4) : d.lineFor k line unique = d := by
  unfold Dev.lineFor
  dsimp only
  rw [d.coh.st_of_held k line hl]
  cases unique with
  | true => rw [if_pos rfl, if_pos (by simpa using hunique rfl)]
  | false => rw [if_neg Bool.false_ne_true, if_neg (Nat.ne_of_gt hst)]

section
variable {l : L2Line} (hok : d.paErr pa size = none) (hl : d.coh.held (h / 8) (pa / 64) = some l) (hclean : l.poisoned = false)
include hok hl hclean

theorem Dev.loadCacheable_held {k : AccessKind} (hst : 0 < l.st) (hunique : k = .loadReserved → l.st = 2 ∨ l.st = 4) : d.loadCacheable h pa size k =
    (if k = .loadReserved then d.modCoh (fun c => { c with resv := c.resv.filter (fun r => r.1 != h) ++ [(h, pa, size)] }) else d).answer
      (loadResp ((l.data.drop (pa % 64)).take size)) := by
  unfold Dev.loadCacheable
  rw [hok]
  dsimp only
  rw [Dev.lineFor_held hl hst (fun hk => hunique (of_decide_eq_true hk)), hl]
  dsimp only
  rw [if_neg (by rw [hclean]; decide)]

/-- A cacheable store that is carried out: into the copy its L2 owns. -/
theorem Dev.storeCacheable_held {k : AccessKind} (v : W64) (hst : l.st = 2 ∨ l.st = 4) (hkind : k ≠ .cacheBlock)
    (hmine : k = .storeConditional → (h, pa, size) ∈ d.coh.resv) : d.storeCacheable h pa size k v =
      ((if k = .storeConditional then d.modCoh (fun c => { c with resv := c.resv.filter (fun r => r.1 != h) }) else d).storeHeld h pa size
        (leNat (leBytes size v.toNat)) l).answer (.ok 0) := by
  have hgo : (decide (k = .storeConditional) && !d.coh.resv.any (fun r => r.1 == h && r.2.1 == pa && r.2.2 == size)) = false := by
    by_cases hk : k = .storeConditional
    · have hany : d.coh.resv.any (fun r => r.1 == h && r.2.1 == pa && r.2.2 == size) = true :=
        List.any_eq_true.2 ⟨_, hmine hk, by simp⟩
      rw [hany, Bool.not_true, Bool.and_false]
    · rw [decide_eq_false hk, Bool.false_and]
  have hcoh : ∀ d' : Dev, d'.coh.held (h / 8) (pa / 64) = some l → d'.lineFor (h / 8) (pa / 64) true = d' :=
    fun d' hl' => Dev.lineFor_held hl' (by omega) fun _ => hst
  have hl1 : (if k = .storeConditional then d.modCoh (fun c => { c with resv := c.resv.filter (fun r => r.1 != h) }) else d).coh.held
      (h / 8) (pa / 64) = some l := by
    split
    · exact hl
    · exact hl
  have hline : { l with poisoned := false } = l := by rw [← hclean]
  unfold Dev.storeCacheable
  rw [hok]
  dsimp only
  rw [if_neg (by rw [hgo]; decide), hcoh _ hl1, hl1]
  dsimp only
  rw [if_neg (by rw [hclean, Bool.false_and]; decide), hline, storeBytes, if_neg hkind]

end

/-- A store-conditional without its reservation stores nothing. -/
theorem Dev.storeCacheable_lost (v : W64) (hok : d.paErr pa size = none) (hno : (h, pa, size) ∉ d.coh.resv) :
    d.storeCacheable h pa size .storeConditional v =
      (d.modCoh (fun c => { c with resv := c.resv.filter (fun r => r.1 != h) })).answer (.ok 1) := by
  have hnone : d.coh.resv.any (fun r => r.1 == h && r.2.1 == pa && r.2.2 == size) = false := by
    rw [List.any_eq_false]
    rintro ⟨h', pa', size'⟩ hr hkey
    obtain ⟨⟨rfl, rfl⟩, rfl⟩ : (h' = h ∧ pa' = pa) ∧ size' = size := by simpa using hkey
    exact hno hr
  unfold Dev.storeCacheable
  rw [hok]
  dsimp only
  rw [hnone, if_pos rfl]
  rfl

theorem Dev.storeHeld_frame (v : Nat) {l : L2Line} (hline : l.line = pa / 64) :
    (d.storeHeld h pa size v l).coh.st (h / 8) (pa / 64) = 4 ∧ (d.storeHeld h pa size v l).mem = d.mem :=
  ⟨Coherence.st_of_held _ _ _ (d.coh.setHeld_held (h / 8) (pa / 64) (l := { l with st := 4, data := patch l.data (pa % 64) size v }) hline), rfl⟩

theorem Dev.loadUnit_reads {bs : List Byte} (k : AccessKind) (hread : (d.reach pa size).readPa pa size = .ok bs) :
    d.loadUnit h pa size k = (d.reach pa size).answer (loadResp bs) := by
  unfold Dev.loadUnit
  dsimp only
  rw [hread]

theorem Dev.loadUnit_fails {e : AccErr} (k : AccessKind) (hread : (d.reach pa size).readPa pa size = .error e) :
    d.loadUnit h pa size k = ((d.reach pa size).logAcc e (locHart h)).answer (loadFaultOf k) := by
  unfold Dev.loadUnit
  dsimp only
  rw [hread]
  rfl

theorem Dev.storeUnit_writes {d' : Dev} (v : W64) (hwrite : (d.meetWrite pa size).writePa pa (leBytes size v.toNat) = .ok d') :
    d.storeUnit h pa size .scalar v = d'.answer (.ok 0) := by
  unfold Dev.storeUnit storeBytes
  dsimp only
  rw [if_neg (by decide), hwrite]

theorem Dev.storeUnit_fails {e : AccErr} (v : W64) (hwrite : (d.meetWrite pa size).writePa pa (leBytes size v.toNat) = .error e) :
    d.storeUnit h pa size .scalar v = ((d.meetWrite pa size).logAcc e (locHart h)).answer .storeFault := by
  unfold Dev.storeUnit storeBytes
  dsimp only
  rw [if_neg (by decide), hwrite]
  rfl

/-! ### Loads and stores by the part an address lies in -/

theorem Dev.hostLoad_cacheable (k : AccessKind) (hsp : space pa = .pool) : d.hostLoad h pa size k true = d.loadCacheable h pa size k := by
  rw [Dev.hostLoad, hsp]
  rfl

theorem Dev.hostLoad_uncached (hsp : space pa = .pool) : d.hostLoad h pa size .scalar false = d.loadUnit h pa size .scalar := by
  rw [Dev.hostLoad, hsp]
  rfl

theorem Dev.hostLoad_regs {off : Nat} (hsp : space pa = .regs off) : d.hostLoad h pa 8 .scalar false = d.hostRead h off := by
  rw [Dev.hostLoad, hsp]
  rfl

theorem Dev.hostLoad_unmapped (k : AccessKind) (hsp : space pa = .unmapped) :
    d.hostLoad h pa size k false = (d.logAcc .unmapped (locHart h)).answer (loadFaultOf k) := by
  rw [Dev.hostLoad, hsp]
  rfl

theorem Dev.hostStore_cacheable (k : AccessKind) (v : W64) (hsp : space pa = .pool) :
    d.hostStore h pa size k true v = d.storeCacheable h pa size k v := by
  rw [Dev.hostStore, hsp]
  rfl

theorem Dev.hostStore_uncached (v : W64) (hsp : space pa = .pool) : d.hostStore h pa size .scalar false v = d.storeUnit h pa size .scalar v := by
  rw [Dev.hostStore, hsp]
  rfl

theorem Dev.hostStore_regs {off : Nat} (v : W64) (hsp : space pa = .regs off) : d.hostStore h pa 8 .scalar false v = d.hostWrite h off v := by
  rw [Dev.hostStore, hsp]
  rfl

theorem Dev.hostStore_unmapped (k : AccessKind) (v : W64) (hsp : space pa = .unmapped) :
    d.hostStore h pa size k false v = (d.logAcc .unmapped (locHart h)).answer .storeFault := by
  rw [Dev.hostStore, hsp]
  rfl

theorem Dev.hostStore_msi (v : W64) (hsp : space pa = .host) (hin : inImsic pa = true) (hal : pa % 4 = 0) :
    d.hostStore h pa 4 .scalar false v = (d.hostMsi pa (v.toNat % 2 ^ 32)).answer (.ok 0) := by
  have hhost : inHostSpace pa = true := by simp [inHostSpace, hin]
  rw [Dev.hostStore, hsp]
  dsimp only
  rw [if_neg (by rw [hhost]; decide), if_neg (by decide), if_pos (by simp [hin, hal])]

end

/-! ### Cache-block operations -/

theorem exec_cboClean (h pa : Nat) (s : State) : exec (.cboClean h pa) s = execCboClean h pa s := rfl
theorem exec_cboFlush (h pa : Nat) (s : State) : exec (.cboFlush h pa) s = execCboFlush h pa s := rfl
theorem exec_cboInval (h pa : Nat) (p : Bool) (s : State) : exec (.cboInval h pa p) s = execCboInval h pa p s := rfl

section
variable {d : Dev} {h pa : Nat} (hh : d.hartUp h = true) (hsp : space pa = .pool)
include hh hsp

theorem Dev.cacheBlock_serves (hok : d.paErr pa 1 = none) {kind : ReqKind} {d' : Dev} {r : Resp}
    (hserve : d.serve { kind := kind, agent := h / 8, line := pa / 64 } = (d', r)) : d.cacheBlock h pa kind = d'.answer r := by
  rw [Dev.cacheBlock, if_neg (by rw [hh]; decide), hsp]
  dsimp only
  rw [hok]
  dsimp only
  rw [hserve]

theorem Dev.cacheBlock_fails {e : AccErr} (hok : d.paErr pa 1 = some e) (kind : ReqKind) :
    d.cacheBlock h pa kind = (d.logAcc e (locHart h)).answer .storeFault := by
  rw [Dev.cacheBlock, if_neg (by rw [hh]; decide), hsp]
  dsimp only
  rw [hok]

end

section
variable {s : State} (h pa : Nat) (hup : Up s)
include hup

theorem does_cboClean : Does (.cboClean h pa) s (s.dev.cacheBlock h pa .clean) := (does_of_actUp hup (exec_cboClean h pa s) :)
theorem does_cboFlush : Does (.cboFlush h pa) s (s.dev.cacheBlock h pa .purge) := (does_of_actUp hup (exec_cboFlush h pa s) :)
theorem does_cboInval (p : Bool) : Does (.cboInval h pa p) s (s.dev.cacheBlock h pa (if p then .discard else .purge)) :=
  (does_of_actUp hup (exec_cboInval h pa p s) :)

end

/-! ### Atomics of a hart -/

theorem exec_hostAtomic (h : Nat) (op : AtomicOp) (size : Nat) (ca : Bool) (pa x y : Nat) (s : State) :
    exec (.hostAtomic h op size ca pa x y) s = execHostAtomic h op size ca pa x y s := rfl

theorem does_hostAtomic {s : State} {h : Nat} (op : AtomicOp) (size : Nat) (ca : Bool) (pa x y : Nat) (hup : Up s) (hh : s.dev.hartUp h = true) :
    Does (.hostAtomic h op size ca pa x y) s (s.dev.hostAtomic h op size ca pa x y) := by
  have hdoes := does_of_actUp hup (exec_hostAtomic h op size ca pa x y s)
  rwa [if_pos hh] at hdoes

section
variable {d : Dev} {h pa size x y : Nat} {op : AtomicOp}

/-- An atomic on an address without memory fails in a warehouse's unit as it does for a hart. -/
theorem Dev.whOp_unmapped (hin : inWarehouse pa = true) (hsp : space pa = .unmapped) (hsize : size = 4 ∨ size = 8) (hal : pa % size = 0) :
    d.whOp (hostReq h pa size x y) op = (d.note 0x2040 (locHart h)).answer .storeFault := by
  have hat : atSize (hostReq h pa size x y) = size := by
    rcases hsize with rfl | rfl <;> rfl
  have hwin : inWarehouse (hostReq h pa size x y).pa = true := hin
  have hpa : (hostReq h pa size x y).pa = pa := rfl
  have hno : d.paErr pa size = some .unmapped := by
    rw [Dev.paErr]
    dsimp only
    rw [hsp]
  have htouch : d.touch pa = d := by rw [Dev.touch, hsp]
  have hmeet : d.meet pa size = d := if_pos (by rw [hno]; rfl)
  have hatomic : ∀ f, d.atomicAt pa size false f = .error .unmapped := fun f => by
    rw [Dev.atomicAt, Bool.false_and, if_neg Bool.false_ne_true]
    dsimp only
    rw [Dev.readPa, hno]
  rw [Dev.whOp, if_pos hwin, Dev.atomicCmd, hat, hpa, if_neg (by simp [hal])]
  dsimp only
  rw [htouch, hmeet, hno]
  dsimp only
  rw [show (hostReq h pa size x y).shared = false from rfl, hatomic]
  rfl

theorem inWarehouse_space (hin : inWarehouse pa = true) : (∃ k o, space pa = .warehouse k o) ∨ space pa = .unmapped := by
  obtain ⟨hlo, hhi⟩ : 0x10000000000 ≤ pa ∧ pa < 0x10100000000 := of_decide_eq_true hin
  unfold space
  rw [if_neg (Nat.not_lt.2 hlo), if_pos hhi]
  dsimp only
  split
  · exact .inl ⟨_, _, rfl⟩
  · exact .inr rfl

section
variable (hok : amoOk op size pa = true) (hop : op ≠ .fadd)
include hok hop

theorem Dev.hostAtomic_at (ca : Bool) : d.hostAtomic h op size ca pa x y = match space pa with
    | .pool =>
      if ca then d.atomicCacheable h pa size op x y
      else if (decide (size = 4) || decide (size = 8)) = true then d.farOp (hostReq h pa size x y) op
      else d.answer .storeFault
    | .warehouse _ _ => if (decide (size = 4) || decide (size = 8)) = true then d.whOp (hostReq h pa size x y) op else d.answer .storeFault
    | .localMem _ _ => if size = 16 then d.answer .storeFault else d.atomicLocal h pa size op x y
    | .regs off => d.regError (.host h) true off 1
    | .unmapped => (d.note 0x2040 (locHart h)).answer .storeFault
    | .host => d.answer .storeFault := by
  rw [Dev.hostAtomic, if_neg hop, if_neg (by rw [hok]; decide)] <;> rfl

theorem Dev.hostAtomic_far (hsize : size = 4 ∨ size = 8) (hsp : space pa = .pool) :
    d.hostAtomic h op size false pa x y = d.farOp (hostReq h pa size x y) op := by
  rw [Dev.hostAtomic_at hok hop, hsp]
  dsimp only
  rw [if_neg Bool.false_ne_true, if_pos (by simpa using hsize)]

theorem Dev.hostAtomic_warehouse (hsize : size = 4 ∨ size = 8) (hin : inWarehouse pa = true) (ca : Bool) :
    d.hostAtomic h op size ca pa x y = d.whOp (hostReq h pa size x y) op := by
  rw [Dev.hostAtomic_at hok hop]
  rcases inWarehouse_space hin with ⟨k, o, hsp⟩ | hsp
  · rw [hsp]
    exact if_pos (by simpa using hsize)
  · have hal : pa % size = 0 := by
      simp only [amoOk, Bool.and_eq_true, beq_iff_eq] at hok
      exact hok.1.2
    rw [hsp]
    exact (Dev.whOp_unmapped hin hsp hsize hal).symm

theorem Dev.hostAtomic_local {t o : Nat} (hsize : size ≠ 16) (hsp : space pa = .localMem t o) (ca : Bool) :
    d.hostAtomic h op size ca pa x y = d.atomicLocal h pa size op x y := by
  rw [Dev.hostAtomic_at hok hop, hsp]
  exact if_neg hsize

theorem Dev.hostAtomic_cacheable (hsp : space pa = .pool) : d.hostAtomic h op size true pa x y = d.atomicCacheable h pa size op x y := by
  rw [Dev.hostAtomic_at hok hop, hsp]
  rfl

end

theorem Dev.atomicCacheable_held (hok : d.paErr pa size = none) {l : L2Line} (hl : d.coh.held (h / 8) (pa / 64) = some l)
    (hst : l.st = 2 ∨ l.st = 4) (hclean : l.poisoned = false) : d.atomicCacheable h pa size op x y =
      (d.storeHeld h pa size (amoNew op size (leNat ((l.data.drop (pa % 64)).take size)) x y) l).answer
        (.data (leBytes size (leNat ((l.data.drop (pa % 64)).take size)))) := by
  unfold Dev.atomicCacheable
  rw [hok]
  dsimp only
  rw [hl]
  dsimp only
  rw [if_pos (by simpa using hst), if_neg (by rw [hclean]; decide)]

theorem Dev.atomicCacheable_home (hok : d.paErr pa size = none) (h2 : d.coh.st (h / 8) (pa / 64) ≠ 2) (h4 : d.coh.st (h / 8) (pa / 64) ≠ 4)
    {d' : Dev} {r : Resp} (hserve : d.serve
      { kind := .atomicHome, agent := h / 8, line := pa / 64, op := op, off := pa % 64, size := size, operand := x, compare := y } = (d', r)) : d.atomicCacheable h pa size op x y = d'.answer r := by
  unfold Dev.atomicCacheable
  rw [hok]
  dsimp only
  cases hl : d.coh.held (h / 8) (pa / 64) with
  | none =>
    dsimp only
    rw [hserve]
  | some l =>
    rw [d.coh.st_of_held _ _ hl] at h2 h4
    dsimp only
    rw [if_neg (by simp [h2, h4]), hserve]

end

/-! ### PCIe requests -/

theorem exec_inboundRequest (port rq : Nat) (a : InboundAddr) (len : Nat) (wr : Option (List Byte)) (s : State) :
    exec (.inboundRequest port rq a len wr) s = execInboundRequest port rq a len wr s := rfl

theorem does_inboundRequest {s : State} {port rq addr len n : Nat} {kind : InboundKind} {wr : Option (List Byte)} (hup : Up s) (hport : port < 4)
    (hhost : s.dev.hostUp = true) (hn : n = (wr.map List.length).getD len) (hpos : 0 < n) (hpage : addr % 4096 + n ≤ 4096) :
    Does (.inboundRequest port rq ⟨kind, addr⟩ len wr) s (s.dev.rootPort port rq kind addr n wr) := by
  subst hn
  have hdoes := does_of_actUp hup (exec_inboundRequest port rq ⟨kind, addr⟩ len wr s)
  rwa [if_pos (by simp [hport, hhost, hpos, hpage])] at hdoes

section
variable {d : Dev} {port rq : Nat}

section
variable {addr len : Nat} {wr : Option (List Byte)} {d1 : Dev} (hwait : d.poolWaits 0 = false)
include hwait

theorem Dev.rootPort_faulted (htr : d.translateInbound port rq addr wr.isSome = (d1, none)) :
    d.rootPort port rq .untranslated addr len wr = d1.answer .unsupported := by
  rw [Dev.rootPort, if_neg (by decide), hwait, Bool.and_false, if_neg Bool.false_ne_true, htr]

theorem Dev.rootPort_translated {pa : Nat} (htr : d.translateInbound port rq addr wr.isSome = (d1, some pa)) (hgo : d1.poolWaits pa = false) :
    d.rootPort port rq .untranslated addr len wr = d1.inbound port rq pa len wr := by
  rw [Dev.rootPort, if_neg (by decide), hwait, Bool.and_false, if_neg Bool.false_ne_true, htr]
  dsimp only
  rw [if_neg (by rw [hgo]; decide)]

end

/-- A translation that takes the device as it stands. -/
theorem ioDev_bind_go {α : Type} (f : Dev → IoM α) (d : Dev) : (ioDev >>= f).go d = (f d).go d := rfl

theorem Dev.translateInbound_bare (addr : Nat) (wr : Bool) (h : d.ioWord 16 % 16 = 1) : d.translateInbound port rq addr wr = (d, some addr) := by
  have hgo : (ioTranslate (port % 4 * 2 ^ 16 + rq % 2 ^ 16) addr wr).go d = (d, .ok addr) := by
    rw [ioTranslate, ioDev_bind_go]
    dsimp only
    rw [if_neg (by omega), if_pos h]
    rfl
  rw [Dev.translateInbound, hgo]

/-! ### The breakwater -/

theorem Dev.windows_none {pa len : Nat} {wr : Bool} (h : ∀ w, w < 16 → d.windowAllows w port pa len wr = false) :
    (List.range 16).any (fun w => d.windowAllows w port pa len wr) = false := by
  rw [List.any_eq_false]
  intro w hw
  rw [h w (List.mem_range.1 hw)]
  decide

theorem Dev.windows_some {w pa len : Nat} {wr : Bool} (hw : w < 16) (h : d.windowAllows w port pa len wr = true) :
    (List.range 16).any (fun w => d.windowAllows w port pa len wr) = true :=
  List.any_eq_true.2 ⟨w, List.mem_range.2 hw, h⟩

theorem Dev.windowAllows_range {w pa len : Nat} {wr : Bool} (h : d.windowAllows w port pa len wr = true) :
    d.get F.bwfWinCfg_ENABLE w = 1 ∧ bit (d.get F.bwfWinCfg_PORTS w) port = true ∧ d.get F.bwfWinBase_BASE w * 2 ^ 21 ≤ pa ∧
      pa + len ≤ (d.get F.bwfWinBase_BASE w + d.get F.bwfWinCfg_LIMIT w) * 2 ^ 21 := by
  simp only [Dev.windowAllows, Bool.and_eq_true, beq_iff_eq, decide_eq_true_eq] at h
  obtain ⟨⟨⟨hen, hport⟩, -⟩, hlo, hhi⟩ := h
  exact ⟨hen, hport, hlo, by rw [Nat.add_mul]; exact hhi⟩

/-- The record of a denied request, taken where it is clear. -/
def Dev.deniedRecord (d : Dev) (port rq pa kind : Nat) : Dev :=
  if d.get F.bwfDeniedInfo_VALID = 0 then
    ((d.addSat F.bwfDeniedCount_COUNT 1).setReg .bwfDeniedAddr 0 (BitVec.ofNat 64 pa)).setReg .bwfDeniedInfo 0
      (BitVec.ofNat 64 (2 ^ 63 + rq % 2 ^ 16 * 2 ^ 8 + port % 4 * 2 ^ 6 + kind))
  else d.addSat F.bwfDeniedCount_COUNT 1

theorem Dev.denyInbound_eq (d : Dev) (port rq pa kind : Nat) : d.denyInbound port rq pa kind =
    ((d.deniedRecord port rq pa kind).note 0x8201 locHub [(8, pa), (2, rq), (1, port), (1, kind)]).answer
      (if kind = 1 then .completerAbort else .dropped) := by
  have hvalid : (d.addSat F.bwfDeniedCount_COUNT 1).get F.bwfDeniedInfo_VALID = d.get F.bwfDeniedInfo_VALID :=
    Dev.get_congr (d.addSat_reg_other 1 (by decide))
  unfold Dev.denyInbound Dev.deniedRecord
  dsimp only
  rw [hvalid]

theorem Dev.deniedRecord_count (d : Dev) (port rq pa kind : Nat) : (d.deniedRecord port rq pa kind).get F.bwfDeniedCount_COUNT =
    min F.bwfDeniedCount_COUNT.max (d.get F.bwfDeniedCount_COUNT + 1) := by
  rw [← d.addSat_get_same F.bwfDeniedCount_COUNT 1 0 (by decide)]
  refine Dev.get_congr ?_
  unfold Dev.deniedRecord
  split
  · rw [Dev.setReg_other _ _ (by decide), Dev.setReg_other _ _ (by decide)]
  · rfl

theorem Dev.deniedRecord_mem (d : Dev) (port rq pa kind : Nat) : (d.deniedRecord port rq pa kind).mem = d.mem := by
  unfold Dev.deniedRecord
  split <;> rfl

theorem Dev.answer_get (d : Dev) (r : Resp) (f : Fld) (i : Nat) : (d.answer r).get f i = d.get f i := rfl
theorem Dev.answer_resp_mem (d : Dev) (r : Resp) : (d.answer r).resp = r ∧ (d.answer r).mem = d.mem := ⟨rfl, rfl⟩

/-- A denied request is answered and counted, and memory is as before. -/
theorem Dev.denyInbound_frame (d : Dev) (port rq pa kind : Nat) :
    (d.denyInbound port rq pa kind).resp = (if kind = 1 then .completerAbort else .dropped) ∧ (d.denyInbound port rq pa kind).mem = d.mem ∧
      (d.denyInbound port rq pa kind).get F.bwfDeniedCount_COUNT = min F.bwfDeniedCount_COUNT.max (d.get F.bwfDeniedCount_COUNT + 1) := by
  rw [Dev.denyInbound_eq, Dev.answer_get]
  refine ⟨(Dev.answer_resp_mem _ _).1, ?_, ?_⟩
  · rw [(Dev.answer_resp_mem _ _).2, Dev.note_mem, Dev.deniedRecord_mem]
  · rw [Dev.get_congr (Dev.note_reg _ _ _ _ (by decide)), Dev.deniedRecord_count]

section
variable {pa len : Nat}

theorem Dev.inbound_read_denied (h : ∀ w, w < 16 → d.windowAllows w port pa len false = false) :
    d.inbound port rq pa len none = d.denyInbound port rq pa 1 := by
  have hno := Dev.windows_none h
  unfold Dev.inbound
  dsimp only [Option.isSome]
  rw [if_neg (by rw [hno]; decide)]

theorem Dev.inbound_read {w : Nat} {bs : List Byte} (hw : w < 16) (h : d.windowAllows w port pa len false = true)
    (hread : (d.look pa len).hubRead pa len = .ok bs) : d.inbound port rq pa len none = (d.look pa len).answer (.data bs) := by
  unfold Dev.inbound
  dsimp only [Option.isSome]
  rw [if_pos (Dev.windows_some hw h), hread]

variable {bs : List Byte}

theorem Dev.inbound_msi (hin : inImsic pa = true) (hlen : bs.length = 4) (hal : pa % 4 = 0) :
    d.inbound port rq pa len (some bs) = (d.hostMsi pa (leNat bs)).answer (.ok 0) := by
  unfold Dev.inbound
  dsimp only
  rw [if_pos (by simp [hin, hlen, hal])]

theorem Dev.inbound_write_denied (hno : inImsic pa = false ∨ bs.length ≠ 4 ∨ pa % 4 ≠ 0)
    (h : ∀ w, w < 16 → d.windowAllows w port pa len true = false) :
    d.inbound port rq pa len (some bs) = d.denyInbound port rq pa (if inImsic pa then 3 else 2) := by
  have hdeny := Dev.windows_none h
  unfold Dev.inbound
  dsimp only [Option.isSome]
  rw [if_neg (by rcases hno with h | h | h <;> simp [h]), if_neg (by rw [hdeny]; decide)]

theorem Dev.inbound_write {w : Nat} {d' : Dev} (hw : w < 16) (hin : inImsic pa = false) (h : d.windowAllows w port pa len true = true)
    (hwrite : (d.meetWrite pa bs.length).hubWrite pa bs = .ok d') : d.inbound port rq pa len (some bs) = d'.answer (.ok 0) := by
  unfold Dev.inbound
  dsimp only [Option.isSome]
  rw [if_neg (by simp [hin]), if_pos (Dev.windows_some hw h), hwrite]

end
end

/-- Settles O56, from what an access does in each part of the address space, and what the breakwater does with a
request. -/
theorem hostAndInboundAccesses : Obligations.HostAndInboundAccesses := by
  unfold Obligations.HostAndInboundAccesses
  refine ⟨⟨fun s h pa size k l hat hsp hok hl hclean hst => ⟨fun hk => ?load, fun hk hunique => ?loadReserved⟩,
    fun s h pa size v l d1 hat hsp hsz hok hl hclean hst hd1 => ⟨?store, fun hin => ?conditional, fun hout => ?lost⟩,
    fun d h pa size v l => Dev.storeHeld_frame v,
    fun s h pa size d1 hat => ⟨fun bs hsp hd1 hread => ?loadUnit, fun e hsp hd1 hread => ?loadFails, fun off hsp hsz => ?loadReg,
      fun k hk hsp => ?loadNowhere⟩,
    fun s h pa size v d1 hat hsz => ⟨fun d' hsp hd1 hwrite => ?storeUnit, fun e hsp hd1 hwrite => ?storeFails, fun off hsp hsz8 => ?storeReg,
      fun k hsp => ?storeNowhere, fun hsp hin hsz4 hal => ?storeMsi⟩,
    fun s h pa hup hh => ⟨fun hsp hok d' r => ⟨fun hserve => ?clean, fun hserve => ?flush, fun hserve => ?inval⟩, fun e hsp hno p => ?blockFails⟩,
    fun s h pa size x y op hup hh hok hop => ⟨fun hsize hsp => ?far, fun hsize hin ca => ?warehouse, fun t o ca hsize hsp => ?localMem,
      fun hsp hpa => ⟨fun l hl hst hclean => ?held, fun d' r h2 h4 hserve => ?home⟩⟩⟩,
    fun s port rq addr len n kind wr d1 hup hport hhost hn hpos hpage => ⟨fun hk => ?refused, fun hk hwait => ⟨fun htr => ?faulted, fun pa htr hgo => ?inbound⟩⟩,
    fun d port rq addr wr => Dev.translateInbound_bare addr wr,
    fun d d1 port rq pa len => ⟨fun h => ?readDenied, fun w bs hw h hd1 hread => ?read⟩,
    fun d port rq pa len bs => ⟨Dev.inbound_msi, fun hno h => ?writeDenied, fun w d' hw hin h hwrite => Dev.inbound_write hw hin h hwrite⟩,
    fun d port rq pa kind d1 hset hclear => ?denies, fun d w port pa len wr => Dev.windowAllows_range⟩
  case load =>
    have hdoes := does_hostLoad hat
    rwa [Dev.hostLoad_cacheable k hsp, Dev.loadCacheable_held hok hl hclean hst (fun h => absurd h hk), if_neg hk] at hdoes
  case loadReserved =>
    have hdoes := does_hostLoad hat
    rwa [Dev.hostLoad_cacheable k hsp, Dev.loadCacheable_held hok hl hclean hst (fun _ => hunique), if_pos hk] at hdoes
  case store =>
    have hdoes := does_hostStore (k := .scalar) v hat hsz
    rwa [Dev.hostStore_cacheable _ v hsp, Dev.storeCacheable_held hok hl hclean v hst (by decide) (fun h => absurd h (by decide)),
      if_neg (by decide)] at hdoes
  case conditional =>
    have hdoes := does_hostStore (k := .storeConditional) v hat hsz
    rwa [Dev.hostStore_cacheable _ v hsp, Dev.storeCacheable_held hok hl hclean v hst (by decide) (fun _ => hin), if_pos rfl, ← hd1] at hdoes
  case lost =>
    have hdoes := does_hostStore (k := .storeConditional) v hat hsz
    rwa [Dev.hostStore_cacheable _ v hsp, Dev.storeCacheable_lost v hok hout, ← hd1] at hdoes
  case loadUnit =>
    have hdoes := does_hostLoad (k := .scalar) hat
    rwa [Dev.hostLoad_uncached hsp, Dev.loadUnit_reads _ (hd1 ▸ hread), ← hd1] at hdoes
  case loadFails =>
    have hdoes := does_hostLoad (k := .scalar) hat
    rwa [Dev.hostLoad_uncached hsp, Dev.loadUnit_fails _ (hd1 ▸ hread), ← hd1] at hdoes
  case loadReg =>
    subst hsz
    have hdoes := does_hostLoad (k := .scalar) hat
    rwa [Dev.hostLoad_regs hsp] at hdoes
  case loadNowhere =>
    have hkind : HartAt s h pa size (decide (k = .loadReserved)) false := by rwa [decide_eq_false hk]
    have hdoes := does_hostLoad hkind
    rwa [Dev.hostLoad_unmapped k hsp] at hdoes
  case storeUnit =>
    have hdoes := does_hostStore (k := .scalar) v hat hsz
    rwa [Dev.hostStore_uncached v hsp, Dev.storeUnit_writes v (hd1 ▸ hwrite)] at hdoes
  case storeFails =>
    have hdoes := does_hostStore (k := .scalar) v hat hsz
    rwa [Dev.hostStore_uncached v hsp, Dev.storeUnit_fails v (hd1 ▸ hwrite), ← hd1] at hdoes
  case storeReg =>
    subst hsz8
    have hdoes := does_hostStore (k := .scalar) v hat hsz
    rwa [Dev.hostStore_regs v hsp] at hdoes
  case storeNowhere =>
    have hdoes := does_hostStore (k := k) v hat hsz
    rwa [Dev.hostStore_unmapped k v hsp] at hdoes
  case storeMsi =>
    subst hsz4
    have hdoes := does_hostStore (k := .scalar) v hat hsz
    rwa [Dev.hostStore_msi v hsp hin hal] at hdoes
  case clean =>
    have hdoes := does_cboClean h pa hup
    rwa [Dev.cacheBlock_serves hh hsp hok hserve] at hdoes
  case flush =>
    have hflush := does_cboFlush h pa hup
    have hinval := does_cboInval h pa hup false
    rw [if_neg Bool.false_ne_true] at hinval
    rw [Dev.cacheBlock_serves hh hsp hok hserve] at hflush hinval
    exact ⟨hflush, hinval⟩
  case inval =>
    have hdoes := does_cboInval h pa hup true
    rwa [if_pos rfl, Dev.cacheBlock_serves hh hsp hok hserve] at hdoes
  case blockFails =>
    have hclean := does_cboClean h pa hup
    have hflush := does_cboFlush h pa hup
    have hinval := does_cboInval h pa hup p
    rw [Dev.cacheBlock_fails hh hsp hno] at hclean hflush hinval
    exact ⟨_, rfl, hclean, hflush, hinval⟩
  case far =>
    have hdoes := does_hostAtomic op size false pa x y hup hh
    rwa [Dev.hostAtomic_far hok hop hsize hsp] at hdoes
  case warehouse =>
    have hdoes := does_hostAtomic op size ca pa x y hup hh
    rwa [Dev.hostAtomic_warehouse hok hop hsize hin] at hdoes
  case localMem =>
    have hdoes := does_hostAtomic op size ca pa x y hup hh
    rwa [Dev.hostAtomic_local hok hop hsize hsp] at hdoes
  case held =>
    have hdoes := does_hostAtomic op size true pa x y hup hh
    rwa [Dev.hostAtomic_cacheable hok hop hsp, Dev.atomicCacheable_held hpa hl hst hclean] at hdoes
  case home =>
    have hdoes := does_hostAtomic op size true pa x y hup hh
    rwa [Dev.hostAtomic_cacheable hok hop hsp, Dev.atomicCacheable_home hpa h2 h4 hserve] at hdoes
  case refused =>
    have hdoes := does_inboundRequest (rq := rq) (kind := kind) hup hport hhost hn hpos hpage
    rwa [Dev.rootPort, if_pos hk] at hdoes
  case faulted =>
    subst hk
    have hdoes := does_inboundRequest (rq := rq) (kind := .untranslated) hup hport hhost hn hpos hpage
    rwa [Dev.rootPort_faulted hwait htr] at hdoes
  case inbound =>
    subst hk
    have hdoes := does_inboundRequest (rq := rq) (kind := .untranslated) hup hport hhost hn hpos hpage
    rwa [Dev.rootPort_translated hwait htr hgo] at hdoes
  case readDenied =>
    rw [Dev.inbound_read_denied h]
    exact d.denyInbound_frame port rq pa 1
  case read =>
    subst hd1
    exact Dev.inbound_read hw h hread
  case writeDenied =>
    rw [Dev.inbound_write_denied hno h]
    obtain ⟨hresp, hmem, hcount⟩ := d.denyInbound_frame port rq pa (if inImsic pa then 3 else 2)
    exact ⟨hresp.trans (if_neg (by split <;> decide)), hmem, hcount⟩
  case denies =>
    have hrecord : d1 = d.deniedRecord port rq pa kind := by
      unfold Dev.deniedRecord
      split
      · next hv => exact hclear hv
      · next hv => exact hset hv
    rw [hrecord]
    exact d.denyInbound_eq port rq pa kind

end Sys2Proof.Machine
end

section
/-! Loading descriptors and pages, and the fills of a transit cache (12 R461 to R472; 13 R505, R511). -/
namespace Sys2Proof.Machine

/-! ### Descriptors and pages -/

theorem exec_segmentDescriptorLoad (h : Holder) (ctx seg : Nat) (s : State) :
    exec (.segmentDescriptorLoad h ctx seg) s = execSegmentDescriptorLoad h ctx seg s := rfl
theorem exec_pageWalk (h : Holder) (ctx seg page : Nat) (s : State) : exec (.pageWalk h ctx seg page) s = execPageWalk h ctx seg page s := rfl

section
variable {s : State} {h : Holder} {ctx seg : Nat} (hup : Up s) (hctx : ctx < 256) (hseg : seg < 14)
include hup hctx hseg

theorem does_segmentDescriptorLoad_held {e : SegEntry}
    (hheld : (s.dev.xl h).segs.find? (fun e => e.ctx == ctx && e.seg == seg && !e.stale) = some e) :
    Does (.segmentDescriptorLoad h ctx seg) s s.dev := by
  have hdoes := does_of_actUp hup (exec_segmentDescriptorLoad h ctx seg s)
  rwa [if_pos (by simp [hctx, hseg]), hheld] at hdoes

section
variable (hnone : (s.dev.xl h).segs.find? (fun e => e.ctx == ctx && e.seg == seg && !e.stale) = none)
include hnone

theorem does_segmentDescriptorLoad_loads {d : Dev} {e : SegEntry} (hload : s.dev.loadSeg h ctx seg = (d, .ok e)) :
    Does (.segmentDescriptorLoad h ctx seg) s d := by
  have hdoes := does_of_actUp hup (exec_segmentDescriptorLoad h ctx seg s)
  rwa [if_pos (by simp [hctx, hseg]), hnone, hload] at hdoes

theorem does_segmentDescriptorLoad_fails {d : Dev} {x : XFail} (hload : s.dev.loadSeg h ctx seg = (d, .error x)) :
    Does (.segmentDescriptorLoad h ctx seg) s (d.checkFailed ctx (w64 (seg * 2 ^ 60)) (d.locHolder h) 1 x) := by
  have hdoes := does_of_actUp hup (exec_segmentDescriptorLoad h ctx seg s)
  rwa [if_pos (by simp [hctx, hseg]), hnone, hload] at hdoes

end

theorem does_pageWalk_noDescriptor {d : Dev} {x : XFail} (page : Nat) (hsegOf : s.dev.segOf h ctx seg = (d, .error x)) :
    Does (.pageWalk h ctx seg page) s (d.checkFailed ctx (w64 (seg * 2 ^ 60 + page * 2 ^ 21)) (d.locHolder h) 1 x) := by
  have hdoes := does_of_actUp hup (exec_pageWalk h ctx seg page s)
  rwa [if_pos (by simp [hctx, hseg]), hsegOf] at hdoes

theorem does_pageWalk {d : Dev} {e : SegEntry} (page : Nat) (hsegOf : s.dev.segOf h ctx seg = (d, .ok e)) : Does (.pageWalk h ctx seg page) s
    (if !e.valid || decide (e.limit ≤ page) || !e.paged then d else match d.pageOf h e page with
      | (d, .ok _) => d
      | (d, .error x) => d.checkFailed ctx (w64 (seg * 2 ^ 60 + page * 2 ^ 21)) (d.locHolder h) 1 x) := by
  have hdoes := does_of_actUp hup (exec_pageWalk h ctx seg page s)
  rw [if_pos (by simp [hctx, hseg]), hsegOf] at hdoes
  exact hdoes

end

theorem mem_putEntry {α : Type} (n victim : Nat) (l : List α) (e : α) : e ∈ putEntry n victim l e := by
  unfold putEntry
  split <;> simp

theorem LogsOnly.xl {d d' : Dev} (h : LogsOnly d d') (k : Holder) : d'.xl k = d.xl k := by
  obtain ⟨⟨l, p, rs, rfl⟩, -⟩ := h
  rfl

theorem Dev.misplaced_xl (d : Dev) (e : SegEntry) (page base len : Nat) (h : Holder) : (d.misplaced e page base len).xl h = d.xl h := by
  unfold Dev.misplaced
  dsimp only
  split
  · exact (Dev.note_logsOnly _ _ _ _).xl h
  · rfl

/-- The descriptor that 32 bytes hold. -/
def segEntry (ctx seg : Nat) (bs : List Byte) : SegEntry :=
  { ctx := ctx, seg := seg, dw := (List.range 4).map (fun i => BitVec.ofNat 64 (leNat ((bs.drop (8 * i)).take 8))) }

theorem segEntry_w (ctx seg : Nat) (bs : List Byte) {i : Nat} (hi : i < 4) :
    (segEntry ctx seg bs).w i = leNat ((bs.drop (8 * i)).take 8) % 2 ^ 64 := by
  rw [SegEntry.w, segEntry, List.getD_eq_getElem?_getD, List.getElem?_map, List.getElem?_range hi]
  rfl

/-- A translation cache holds a descriptor from now on. -/
def Dev.holdSeg (d : Dev) (h : Holder) (e : SegEntry) : Dev :=
  (d.modXl h (fun x => { x with
    segs := putEntry (holderSize h).1 (Config.xlatVictim d.fresh)
      (x.segs.filter (fun s => !(s.ctx == e.ctx && s.seg == e.seg && !s.stale))) e })).draw

theorem Dev.mem_holdSeg (d : Dev) (h : Holder) (e : SegEntry) : e ∈ ((d.holdSeg h e).xl h).segs := by
  have hxl : (d.holdSeg h e).xl h = { d.xl h with
    segs := putEntry (holderSize h).1 (Config.xlatVictim d.fresh)
      ((d.xl h).segs.filter (fun s => !(s.ctx == e.ctx && s.seg == e.seg && !s.stale))) e } := tget_tset_same _ _ _
  rw [hxl]
  exact mem_putEntry _ _ _ e

/-- A descriptor is loaded from where its table holds it, and held. -/
theorem Dev.loadSeg_ok {d d1 : Dev} {h : Holder} {ctx seg : Nat} {e : SegEntry} (hload : d.loadSeg h ctx seg = (d1, .ok e)) :
    e ∈ (d1.xl h).segs ∧ ∃ bs, (d.look (d.get F.segCtxTableBase_BASE * 4096 + 512 * ctx + 32 * seg) 32).hubRead
      (d.get F.segCtxTableBase_BASE * 4096 + 512 * ctx + 32 * seg) 32 = .ok bs ∧ e = segEntry ctx seg bs := by
  unfold Dev.loadSeg at hload
  dsimp only at hload
  split at hload
  · cases hload
  · next bs hread =>
    obtain ⟨hd1, he⟩ := Prod.mk.inj hload
    obtain rfl : segEntry ctx seg bs = e := Except.ok.inj he
    refine ⟨?_, bs, hread, rfl⟩
    have hxl : d1.xl h = (Dev.holdSeg (d.look (d.get F.segCtxTableBase_BASE * 4096 + 512 * ctx + 32 * seg) 32) h (segEntry ctx seg bs)).xl h := by
      rw [← hd1]
      split
      · rw [Dev.misplaced_xl]
        split
        · rfl
        · exact (Dev.note_logsOnly _ _ _ _).xl h
      · split
        · rfl
        · exact (Dev.note_logsOnly _ _ _ _).xl h
    rw [hxl]
    exact Dev.mem_holdSeg _ h _

/-! ### Fills -/

theorem exec_transitFill (lc line : Nat) (f : TcFill) (s : State) : exec (.transitFill lc line f) s = execTransitFill lc line f s := rfl

section
variable {s : State} {lc line ctx : Nat} {shared stream : Bool} (hup : Up s) (hlc : lc < 176) (hline : line < 2 ^ 33) (hctx : ctx < 256)
include hup hlc hline hctx

/-- A fill, by what the cache holds and what the check of the line found. -/
theorem does_transitFill (err : Option TcErr) : Does (.transitFill lc line ⟨ctx, shared, stream, err⟩) s
    (match err, (s.dev.cluster lc).line? line with
    | none, some _ => s.dev
    | none, none => (s.dev.fill lc ctx 0 (line * 128) shared stream).1
    | some e, some l =>
      if l.dirty = 0 && !e.tag then ((s.dev.parityClean lc line).fill lc ctx 0 (line * 128) l.shared l.next).1
      else s.dev.parityDirty lc l e
    | some _, none =>
      if (s.dev.cluster lc).side.any (fun x => x.line == line) then ((s.dev.parityClean lc line).fill lc ctx 0 (line * 128) shared stream).1
      else s.dev) := by
  have hdoes := does_of_actUp hup (exec_transitFill lc line ⟨ctx, shared, stream, err⟩ s)
  rw [if_pos (by simpa [hlc, hctx, clusterCount] using hline)] at hdoes
  exact hdoes

end

section
variable {d d1 : Dev} {lc line ctx : Nat} {shared stream : Bool} (hring : d.ringLine line = false)
  (hd1 : d1 = (if shared then d.look (line * 128) 128 else d.meet (line * 128) 128))
include hring hd1

theorem Dev.fill_done {a b : List Byte} (ha : d1.fillHalf shared (line * 128) = .ok a) (hb : d1.fillHalf shared (line * 128 + 64) = .ok b) :
    d.fill lc ctx 0 (line * 128) shared stream = (d1.allocate lc ctx 0
      { line := line, way := 0, data := a ++ b, owner := ctx, shared := shared, next := stream }, .done) := by
  unfold Dev.fill
  dsimp only
  rw [Nat.mul_div_cancel line (by decide), if_neg (by rw [hring]; decide), ← hd1, ha, hb]

theorem Dev.fill_failed {e : AccErr} (ha : d1.fillHalf shared (line * 128) = .error e) :
    d.fill lc ctx 0 (line * 128) shared stream = (d1, .failed e) := by
  unfold Dev.fill
  dsimp only
  rw [Nat.mul_div_cancel line (by decide), if_neg (by rw [hring]; decide), ← hd1, ha]
  cases d1.fillHalf shared (line * 128 + 64) with
  | ok b => 
    dsimp only
    rw [Nat.mul_mod_left, if_pos (by decide)]
  | error x => rfl

end

/-- A cluster's cache and side buffer hold a line no longer. -/
def Dev.dropLine (d : Dev) (lc line : Nat) : Dev :=
  d.modCluster lc (fun c => { c with
    tc := c.tc.filter (fun (x : TcLine) => x.line != line), side := c.side.filter (fun (x : TcLine) => x.line != line) })

theorem Dev.modCluster_cluster (d : Dev) (lc : Nat) (f : Cluster → Cluster) : (d.modCluster lc f).cluster lc = f (d.cluster lc) := tget_tset_same _ _ _

theorem Dev.dropLine_gone (d : Dev) (lc line : Nat) (x : TcLine)
    (hx : x ∈ ((d.dropLine lc line).cluster lc).tc ∨ x ∈ ((d.dropLine lc line).cluster lc).side) : x.line ≠ line := by
  rw [Dev.dropLine, Dev.modCluster_cluster] at hx
  rcases hx with hx | hx
  · simpa using (List.mem_filter.1 hx).2
  · simpa using (List.mem_filter.1 hx).2

theorem Dev.parityClean_eq (d : Dev) (lc line : Nat) : d.parityClean lc line =
    ((d.dropLine lc line).note 0x2005 (d.locCluster lc) [(8, line * 128), (2, d.locCluster lc)]).addSat F.cdTcStatus_PARITY_CLEAN 1 lc := rfl

/-! ### A dirty line that is lost -/

/-- Good dirty bytes of a line go to memory, the home lines under its bad ones are poisoned, and it leaves the cache. -/
def Dev.loseLine (d : Dev) (lc : Nat) (l : TcLine) (e : TcErr) : Dev :=
  let bad := l.dirty &&& chunkBytes e.chunks
  let d := (d.wbLine lc { l with dirty := l.dirty ^^^ bad }).1
  let d := ((List.range 2).filter (fun h => bad / 2 ^ (64 * h) % 2 ^ 64 ≠ 0)).foldl
    (fun d h => d.notePoison (l.line * 128 + 64 * h)) d
  d.modCluster lc (fun c => { c with tc := c.tc.filter (fun (x : TcLine) => x.line != l.line) })

theorem Dev.loseLine_gone (d : Dev) (lc : Nat) (l : TcLine) (e : TcErr) (x : TcLine) (hx : x ∈ ((d.loseLine lc l e).cluster lc).tc) :
    x.line ≠ l.line := by
  unfold Dev.loseLine at hx
  dsimp only at hx
  rw [Dev.modCluster_cluster] at hx
  simpa using (List.mem_filter.1 hx).2

/-- The loss of a line, noted and counted. -/
def Dev.lossNoted (d : Dev) (lc : Nat) (l : TcLine) : Dev :=
  (d.note 0x2006 (d.locCluster lc) [(8, l.line * 128), (2, d.locCluster lc), (1, l.owner)]).addSat F.cdTcStatus_PARITY_DIRTY 1 lc

/-- The contexts whose launches a bad tag takes with it. -/
def Dev.tagVictims (d : Dev) (lc : Nat) (e : TcErr) : List Nat :=
  if e.tag then (d.launches.filter (fun x => x.start.isSome && x.clusters.contains lc)).map (·.ctx) else []

theorem Dev.parityDirty_eq (d : Dev) (lc : Nat) (l : TcLine) (e : TcErr) : d.parityDirty lc l e =
    (l.owner :: ((d.loseLine lc l e).lossNoted lc l).tagVictims lc e).foldl (fun d c => (d.failOwner c).killCtx c 0x2006)
      ((d.loseLine lc l e).lossNoted lc l) := rfl

/-- Settles O40, from the loads of descriptors and pages, the fills of a line, and what is left of a line with an error. -/
theorem translationAndFills : Obligations.TranslationAndFills := by
  unfold Obligations.TranslationAndFills
  refine ⟨⟨fun s h ctx seg hup hctx hseg => ⟨fun e => does_segmentDescriptorLoad_held hup hctx hseg,
      fun hnone => ⟨fun d e => does_segmentDescriptorLoad_loads hup hctx hseg hnone, fun d x => does_segmentDescriptorLoad_fails hup hctx hseg hnone⟩,
      fun page d x => does_pageWalk_noDescriptor hup hctx hseg page,
      fun page d e hsegOf => ⟨fun hno => ?noPage, fun hvalid hpaged hlimit => ⟨fun d1 w hpage => ?page, fun d1 x hpage => ?pageFails⟩⟩⟩,
    fun d d1 h ctx seg e hload => ?loaded⟩,
    fun s lc line ctx shared stream hup hlc hline hctx => ⟨fun l hl => ?held, fun hnone => ⟨?fills, fun e => ⟨fun hside => ?side, fun hside => ?nothing⟩⟩,
      fun l e hl => ⟨fun hclean htag => ?clean, fun hdirty => ?dirty⟩⟩,
    fun d d1 lc line ctx shared stream hring hd1 => ⟨fun a b => Dev.fill_done hring hd1, fun e => Dev.fill_failed hring hd1⟩,
    fun d lc line => ⟨d.dropLine lc line, d.dropLine_gone lc line, d.parityClean_eq lc line⟩,
    fun d lc l e => ⟨d.loseLine lc l e, _, d.loseLine_gone lc l e, d.parityDirty_eq lc l e, fun htag => if_neg (by rw [htag]; decide)⟩⟩
  case noPage =>
    have hdoes := does_pageWalk hup hctx hseg page hsegOf
    rwa [if_pos (by rcases hno with h | h | h <;> simp [h])] at hdoes
  case page =>
    have hdoes := does_pageWalk hup hctx hseg page hsegOf
    rwa [if_neg (by simp [hvalid, hpaged, hlimit]), hpage] at hdoes
  case pageFails =>
    have hdoes := does_pageWalk hup hctx hseg page hsegOf
    rwa [if_neg (by simp [hvalid, hpaged, hlimit]), hpage] at hdoes
  case loaded =>
    obtain ⟨hmem, bs, hread, rfl⟩ := Dev.loadSeg_ok hload
    exact ⟨rfl, rfl, hmem, bs, hread, fun i hi => segEntry_w ctx seg bs hi⟩
  case held =>
    have hdoes := does_transitFill (shared := shared) (stream := stream) hup hlc hline hctx none
    rwa [hl] at hdoes
  case fills =>
    have hdoes := does_transitFill (shared := shared) (stream := stream) hup hlc hline hctx none
    rwa [hnone] at hdoes
  case side =>
    have hdoes := does_transitFill (shared := shared) (stream := stream) hup hlc hline hctx (some e)
    rw [hnone] at hdoes
    simpa only [if_pos hside] using hdoes
  case nothing =>
    have hdoes := does_transitFill (shared := shared) (stream := stream) hup hlc hline hctx (some e)
    rw [hnone] at hdoes
    simpa only [hside, Bool.false_eq_true, if_false] using hdoes
  case clean =>
    have hdoes := does_transitFill (shared := shared) (stream := stream) hup hlc hline hctx (some e)
    rw [hl] at hdoes
    dsimp only at hdoes
    rwa [if_pos (by simp [hclean, htag])] at hdoes
  case dirty =>
    have hdoes := does_transitFill (shared := shared) (stream := stream) hup hlc hline hctx (some e)
    rw [hl] at hdoes
    dsimp only at hdoes
    rwa [if_neg (by rcases hdirty with h | h <;> simp [h])] at hdoes

end Sys2Proof.Machine
end

section
/-! Connections, and the REMOTE items that use them (14 R545 to R554). -/
namespace Sys2Proof.Machine

/-! ### Messages that arrive -/

/-- A message for this node is taken up by the device that has received it. -/
theorem Arrives.onMessage {s : State} {p : Nat} {m : LinkMsg} {d : Dev} (h : Arrives s p m d) (f : Dev → Dev) : s.dev.onMessage p m f = f d := by
  obtain ⟨-, hp, hport, hdest, rfl⟩ := h
  exact if_pos (by simp [hp, hport, hdest])

theorem Arrives.up {s : State} {p : Nat} {m : LinkMsg} {d : Dev} (h : Arrives s p m d) : Up s := by
  obtain ⟨hup, -⟩ := h
  exact hup

/-! ### Opening and closing -/

theorem exec_connOpen (h c : Nat) (s : State) : exec (.connOpen h c) s = execConnOpen h c s := rfl
theorem exec_connClose (h c : Nat) (s : State) : exec (.connClose h c) s = execConnClose h c s := rfl

section
variable {s : State} {h c : Nat} (hup : Up s) (hh : s.dev.hartUp h = true) (hc : c < 4096)
include hup hh hc

theorem does_connOpen : Does (.connOpen h c) s (s.dev.connOpen c) := by
  have hdoes := does_of_actUp hup (exec_connOpen h c s)
  rwa [if_pos (by simp [hh, hc])] at hdoes

theorem does_connClose : Does (.connClose h c) s ((s.dev.connClose c).answer (.ok 0)) := by
  have hdoes := does_of_actUp hup (exec_connClose h c s)
  rwa [if_pos (by simp [hh, hc])] at hdoes

end

section
variable {d : Dev} {c : Nat}

theorem Dev.connOpen_idle (hno : (d.conn c).state ≠ 0 ∨ cwValid (d.cw0 c) = false) : d.connOpen c = d.answer (.ok 0) :=
  if_pos (by simpa using hno)

section
variable (hst : (d.conn c).state = 0) (hvalid : cwValid (d.cw0 c) = true)
include hst hvalid

theorem Dev.connOpen_valid : d.connOpen c = if cwGroup (d.cw0 c) = true then (d.establish c).accepted
    else if (!d.inTorus (cwNode (d.cw0 c))) = true then (d.connLost c 5).accepted
    else (((d.modConn c (fun _ => { state := 1, lastProgress := d.now })).writeConn c).sendOpen c).accepted :=
  if_neg (by simp [hst, hvalid])

theorem Dev.connOpen_group (hg : cwGroup (d.cw0 c) = true) : d.connOpen c = (d.establish c).answer (.ok 0) := by
  rw [Dev.connOpen_valid hst hvalid, if_pos hg]
  rfl

theorem Dev.connOpen_outside (hg : cwGroup (d.cw0 c) = false) (hout : d.inTorus (cwNode (d.cw0 c)) = false) :
    d.connOpen c = (d.connLost c 5).answer (.ok 0) := by
  rw [Dev.connOpen_valid hst hvalid, if_neg (by rw [hg]; decide), if_pos (by rw [hout]; rfl)]
  rfl

theorem Dev.connOpen_point (hg : cwGroup (d.cw0 c) = false) (hin : d.inTorus (cwNode (d.cw0 c)) = true) :
    d.connOpen c = (((d.modConn c (fun _ => { state := 1, lastProgress := d.now })).writeConn c).sendOpen c).answer (.ok 0) := by
  rw [Dev.connOpen_valid hst hvalid, if_neg (by rw [hg]; decide), if_neg (by rw [hin]; decide)]
  rfl

end

theorem Dev.connClose_closed (hst : (d.conn c).state = 0) : d.connClose c = d := if_pos hst

theorem Dev.connClose_open {d1 : Dev} (hst : (d.conn c).state ≠ 0) (hd1 : d1 = (if cwGroup (d.cw0 c) then d else d.sendPlain c .close)) :
    d.connClose c = ((d1.connLost c 6).modConn c (fun x => { x with closing := true })).connSettled c := by
  subst hd1
  exact if_neg hst

end

/-! ### Answers -/

theorem exec_openAck (p : Nat) (m : LinkMsg) (s : State) : exec (.openAck p m) s = execOpenAck p m s := rfl
theorem exec_ack (p : Nat) (m : LinkMsg) (s : State) : exec (.ack p m) s = execAck p m s := rfl
theorem exec_getData (p : Nat) (m : LinkMsg) (s : State) : exec (.getData p m) s = execGetData p m s := rfl
theorem exec_atomicResp (p : Nat) (m : LinkMsg) (s : State) : exec (.atomicResp p m) s = execAtomicResp p m s := rfl

section
variable {s : State} {p : Nat} {m : LinkMsg} {d : Dev} (harr : Arrives s p m d)
include harr

/-- An answer to an OPEN on an entry that awaits it from its node. -/
theorem does_openAck {ok : Bool} (hbody : m.body = .openAck ok) (hst : (d.conn m.conn).state = 1) (hsrc : cwNode (d.cw0 m.conn) = m.src) :
    Does (.openAck p m) s (if ok then d.establish m.conn else
      if (d.modConn m.conn (fun x => { x with notReady := x.notReady + 1, timeouts := 0 })).get F.hawConnCfg_RETRY_LIMIT ≤
          ((d.modConn m.conn (fun x => { x with notReady := x.notReady + 1, timeouts := 0 })).conn m.conn).notReady then
        (d.modConn m.conn (fun x => { x with notReady := x.notReady + 1, timeouts := 0 })).connLost m.conn 5
      else d.modConn m.conn (fun x => { x with notReady := x.notReady + 1, timeouts := 0 })) := by
  have hdoes := does_of_actUp harr.up (exec_openAck p m s)
  rw [hbody] at hdoes
  dsimp only at hdoes
  rw [harr.onMessage, if_neg (by simp [hst, hsrc])] at hdoes
  exact hdoes

/-- An acknowledgement of an ESTABLISHED connection. -/
theorem does_ack {upTo code va : Nat} (hbody : m.body = .ack upTo code va) (hst : (d.conn m.conn).state = 2) : Does (.ack p m) s
    (if cwGroup (d.cw0 m.conn) then match d.nbKeyOf m.conn m.src with
        | some key => ((d.acknowledge key upTo).1).pumpKey key m.conn 64
        | none => d
      else if cwNode (d.cw0 m.conn) = m.src then d.pointAck m.conn upTo code va else d) := by
  have hdoes := does_of_actUp harr.up (exec_ack p m s)
  rw [hbody] at hdoes
  dsimp only at hdoes
  rw [harr.onMessage, if_neg (by simp [hst])] at hdoes
  exact hdoes

theorem does_getData {data : List Byte} {code va : Nat} (hbody : m.body = .getData data code va) :
    Does (.getData p m) s (d.answered m code va fun d it =>
      match d.dmaPut (.pier p) it.ctx ((it.w 2 + it.pos) % 2 ^ 64) data with
      | (d, .ok ()) => d.modItem it.ring it.index (fun it => { it with pos := it.pos + data.length })
      | (d, .error (x, a)) => d.xfail it.ring it.index it.pos x a) := by
  have hdoes := does_of_actUp harr.up (exec_getData p m s)
  rw [hbody] at hdoes
  dsimp only at hdoes
  rw [harr.onMessage] at hdoes
  exact hdoes

theorem does_atomicResp {old : W64} {code va : Nat} (hbody : m.body = .atomicResp old code va) :
    Does (.atomicResp p m) s (d.answered m code va fun d it =>
      match d.dmaPut (.pier p) it.ctx (it.w 2) (leBytes it.asize old.toNat) with
      | (d, .ok ()) => d.modItem it.ring it.index (fun it => { it with pos := 1 })
      | (d, .error (x, a)) => d.xfail it.ring it.index it.pos x a) := by
  have hdoes := does_of_actUp harr.up (exec_atomicResp p m s)
  rw [hbody] at hdoes
  dsimp only at hdoes
  rw [harr.onMessage] at hdoes
  exact hdoes

end

section
variable {d d1 : Dev} {c upTo : Nat} {done : List Unacked} (hack : d.acknowledge c upTo = (d1, done))
include hack

theorem Dev.pointAck_ok (va : Nat) : d.pointAck c upTo 0 va = (done.foldl Dev.putAcked d1).pump c 64 := by
  rw [Dev.pointAck, hack]
  rfl

theorem Dev.pointAck_failed {code : Nat} (va : Nat) (hcode : code ≠ 0) : d.pointAck c upTo code va =
    ((done.dropLast.foldl Dev.putAcked d1).remoteFailed c ((done.getLast?).bind (·.item)) code va).pump c 64 := by
  rw [Dev.pointAck, hack]
  dsimp only
  rw [if_neg hcode, if_neg hcode]

end

/-! ### Retransmission -/

theorem exec_retransmitTimeout (c : Nat) (s : State) : exec (.retransmitTimeout c) s = execRetransmitTimeout c s := rfl

section
variable {d d1 : Dev} {c key : Nat} (hd1 : d1 = d.modConn key (fun x => { x with timeouts := x.timeouts + 1 }))

theorem Dev.modConn_conn (d : Dev) (k : Nat) (f : Conn → Conn) : (d.modConn k f).conn k = f (d.conn k) := tget_tset_same _ _ _

theorem Dev.retransmit_early (h : d.now < (d.conn key).lastProgress + d.get F.hawConnCfg_RTO_US * 1000) : d.retransmit c key = d := by
  have hrto : d.rtoOver key = false := decide_eq_false (Nat.not_le.2 h)
  unfold Dev.retransmit
  dsimp only
  rw [if_pos (by rw [hrto]; rfl)]

variable (hrto : (d.conn key).lastProgress + d.get F.hawConnCfg_RTO_US * 1000 ≤ d.now)
include hrto hd1

/-- A sequence whose timer is over counts a timeout, and its connection is lost at the limit. -/
theorem Dev.retransmit_over (hgo : ((d.conn c).state = 1 ∧ key = c) ∨ ((d.conn c).state = 2 ∧ (d.conn key).unacked ≠ [])) :
    d.retransmit c key = if d.get F.hawConnCfg_RETRY_LIMIT ≤ (d.conn key).timeouts + 1 then d1.connLost c 1
      else if (d.conn c).state = 1 then (d1.modConn key (fun x => { x with lastProgress := d.now })).sendOpen c else d1.resend key c := by
  subst hd1
  have hover : d.rtoOver key = true := decide_eq_true hrto
  unfold Dev.retransmit
  dsimp only
  rw [if_neg, Dev.modConn_conn]
  · rfl
  · rcases hgo with ⟨hst, hkey⟩ | ⟨hst, hun⟩
    · subst hkey
      simp [hover, hst]
    · simp [hover, hst, hun]

theorem Dev.retransmit_opening (hst : (d.conn c).state = 1) (hkey : key = c) : d.retransmit c key =
    if d.get F.hawConnCfg_RETRY_LIMIT ≤ (d.conn key).timeouts + 1 then d1.connLost c 1
    else (d1.modConn key (fun x => { x with lastProgress := d.now })).sendOpen c := by
  rw [Dev.retransmit_over hd1 hrto (.inl ⟨hst, hkey⟩), if_pos hst]

theorem Dev.retransmit_established (hst : (d.conn c).state = 2) (hun : (d.conn key).unacked ≠ []) : d.retransmit c key =
    if d.get F.hawConnCfg_RETRY_LIMIT ≤ (d.conn key).timeouts + 1 then d1.connLost c 1 else d1.resend key c := by
  have hne : ¬ (d.conn c).state = 1 := by omega
  rw [Dev.retransmit_over hd1 hrto (.inr ⟨hst, hun⟩), if_neg hne]

end

theorem does_retransmitTimeout {s : State} {c : Nat} (hup : Up s) (hc : c < 4096) :
    Does (.retransmitTimeout c) s ((s.dev.connKeys c).foldl (fun d key => d.retransmit c key) s.dev) := by
  have hdoes := does_of_actUp hup (exec_retransmitTimeout c s)
  rwa [if_pos hc] at hdoes

/-! ### REMOTE slices -/

theorem exec_remoteOp {e : (Nat → Nat → Instr) × Nat} (he : e ∈ remoteOps) (ring index : Nat) (s : State) :
    exec (e.1 ring index) s = actUp s fun d => d.remoteSlice ring index e.2 := by
  simp only [remoteOps, List.mem_cons, List.not_mem_nil, or_false] at he
  rcases he with rfl | rfl | rfl <;> rfl

section
variable {e : (Nat → Nat → Instr) × Nat} (he : e ∈ remoteOps) {s : State} {ring index : Nat} {it : Item}
include he

theorem does_remoteOp (hup : Up s) (hit : InHand s ring index it) (htyp : it.typ = tRemote) (hop : it.rop = e.2) (hnew : it.begunTo ≠ it.sliceEnd) :
    Does (e.1 ring index) s (if (s.dev.conn it.connOf).state ≠ 2 then s.dev.finishAt ring index 0x17 it.pos else
      (s.dev.modItem ring index (fun it => { it with carry := [w64 it.pos, 0, 0, w64 it.sliceEnd] })).pump it.connOf 64) := by
  obtain ⟨hfound, hph⟩ := hit
  have hdoes := does_of_actUp hup (exec_remoteOp he ring index s)
  rw [Dev.remoteSlice, Dev.onItem_hit _ hfound hph (by simp [htyp, hop, hnew])] at hdoes
  exact hdoes

end

/-- Settles O46, from opening and closing, the answers that arrive, retransmission, and the slices of REMOTE items. -/
theorem connectionsAndRemoteItems : Obligations.ConnectionsAndRemoteItems := by
  unfold Obligations.ConnectionsAndRemoteItems
  refine ⟨fun s h c hup hh hc => ⟨fun hno => ?idle, fun hst hvalid => ⟨fun hg => ?group, fun hg hout => ?outside, fun hg hin => ?point⟩,
      fun hst => ?closed, fun d1 hst hd1 => ?closes⟩,
    fun s p m d harr => ⟨fun hbody hst hsrc => ?established, fun d1 hbody hst hsrc hd1 => ?notReady,
      fun upTo code va d1 done hbody hst hg hsrc hack => ⟨fun hcode => ?acked, fun hcode => ?refused⟩,
      fun upTo code va key hbody hst hg hkey => ?groupAcked, fun data code va => does_getData harr, fun old code va => does_atomicResp harr⟩,
    fun s c hup hc => does_retransmitTimeout hup hc,
    fun d d1 c key hd1 => ⟨Dev.retransmit_early, fun hrto => ⟨Dev.retransmit_opening hd1 hrto, Dev.retransmit_established hd1 hrto⟩⟩,
    fun e he s ring index it hup hit htyp hop hnew => ⟨fun hst => ?lost, fun hst => ?sends⟩⟩
  case idle =>
    have hdoes := does_connOpen hup hh hc
    rwa [Dev.connOpen_idle hno] at hdoes
  case group =>
    have hdoes := does_connOpen hup hh hc
    rwa [Dev.connOpen_group hst hvalid hg] at hdoes
  case outside =>
    have hdoes := does_connOpen hup hh hc
    rwa [Dev.connOpen_outside hst hvalid hg hout] at hdoes
  case point =>
    have hdoes := does_connOpen hup hh hc
    rwa [Dev.connOpen_point hst hvalid hg hin] at hdoes
  case closed =>
    have hdoes := does_connClose hup hh hc
    rwa [Dev.connClose_closed hst] at hdoes
  case closes =>
    have hdoes := does_connClose hup hh hc
    rwa [Dev.connClose_open hst hd1] at hdoes
  case established =>
    have hdoes := does_openAck harr hbody hst hsrc
    rwa [if_pos rfl] at hdoes
  case notReady =>
    have hdoes := does_openAck harr hbody hst hsrc
    rw [if_neg Bool.false_ne_true, ← hd1] at hdoes
    have hcount : (d1.conn m.conn).notReady = (d.conn m.conn).notReady + 1 := by rw [hd1, Dev.modConn_conn]
    have hlimit : d1.get F.hawConnCfg_RETRY_LIMIT = d.get F.hawConnCfg_RETRY_LIMIT := by rw [hd1]; rfl
    rwa [hcount, hlimit] at hdoes
  case acked =>
    have hdoes := does_ack harr hbody hst
    subst hcode
    rwa [if_neg (by rw [hg]; decide), if_pos hsrc, Dev.pointAck_ok hack] at hdoes
  case refused =>
    have hdoes := does_ack harr hbody hst
    rwa [if_neg (by rw [hg]; decide), if_pos hsrc, Dev.pointAck_failed hack va hcode] at hdoes
  case groupAcked =>
    have hdoes := does_ack harr hbody hst
    rwa [if_pos hg, hkey] at hdoes
  case lost =>
    have hdoes := does_remoteOp he hup hit htyp hop hnew
    rwa [if_pos hst] at hdoes
  case sends =>
    have hdoes := does_remoteOp he hup hit htyp hop hnew
    rwa [if_neg (not_not.2 hst)] at hdoes

end Sys2Proof.Machine
end

section
/-! Collectives: their slices, their messages, and the sum of two elements (14 R555 to R560). -/
namespace Sys2Proof.Machine

/-! ### Slices -/

theorem exec_collOp {e : (Nat → Nat → Instr) × Nat} (he : e ∈ collOps) (ring index : Nat) (s : State) :
    exec (e.1 ring index) s = actUp s fun d => d.collSlice ring index e.2 := by
  simp only [collOps, List.mem_cons, List.not_mem_nil, or_false] at he
  rcases he with rfl | rfl | rfl | rfl <;> rfl

/-- A collective begins on a device: it is at work, and its syncs go out. -/
def Dev.collBegin (d : Dev) (it : Item) (ring index : Nat) : Dev :=
  let d : Dev := { d with colls := d.colls ++ [{ ring := ring, index := index, since := d.now }] }
  ((d.nbs it).foldl (fun d nb => d.sendNb it.connOf nb (it.syncBody false it.collN)) d).collGo it

section
variable {e : (Nat → Nat → Instr) × Nat} (he : e ∈ collOps) {s : State} {ring index : Nat} {it : Item}
include he

theorem does_collOp (hup : Up s) (hit : InHand s ring index it) (htyp : it.typ = tCollective) (hop : it.collOp = e.2) :
    Does (e.1 ring index) s (if (s.dev.conn it.connOf).state ≠ 2 then s.dev.finishAt ring index 0x17 it.pos else
      match s.dev.coll? it with
      | some _ => s.dev.collGo it
      | none => if s.dev.groupBusy it then s.dev else s.dev.collBegin it ring index) := by
  obtain ⟨hfound, hph⟩ := hit
  have hdoes := does_of_actUp hup (exec_collOp he ring index s)
  rw [Dev.collSlice, Dev.onItem_hit _ hfound hph (by simp [htyp, hop])] at hdoes
  exact hdoes

end

/-! ### Messages -/

theorem exec_collData (p : Nat) (m : LinkMsg) (s : State) : exec (.collData p m) s = execCollData p m s := rfl
theorem exec_collSync (p : Nat) (m : LinkMsg) (s : State) : exec (.collSync p m) s = execCollSync p m s := rfl

/-- A message of a collective, with the command of its kind. -/
def CollMessage (m : LinkMsg) (c : Nat → LinkMsg → Instr) : Prop :=
  ((∃ i k c t g a b, m.body = .collData i k c t g a b) ∧ c = .collData) ∨ ((∃ i o f ds ph n r a, m.body = .collSync i o f ds ph n r a) ∧ c = .collSync)

theorem does_collMessage {s : State} {p : Nat} {m : LinkMsg} {c : Nat → LinkMsg → Instr} (hup : Up s) (hm : CollMessage m c) :
    Does (c p m) s (s.dev.collMessage p m) := by
  rcases hm with ⟨⟨i, k, ch, t, g, a, b, hbody⟩, rfl⟩ | ⟨⟨i, o, f, ds, ph, n, r, a, hbody⟩, rfl⟩
  · have hdoes := does_of_actUp hup (exec_collData p m s)
    rwa [hbody] at hdoes
  · have hdoes := does_of_actUp hup (exec_collSync p m s)
    rwa [hbody] at hdoes

/-- A message in sequence is acknowledged. -/
def Dev.collAcked (d : Dev) (key : Nat) (m : LinkMsg) : Dev :=
  ((d.modConn key (fun x => { x with rxSeq := (m.seq + 1) % 2 ^ 32 })).inject
    (plainMsg m.src m.conn m.seq (.ack ((m.seq + 1) % 2 ^ 32) 0 0))).1

/-- A message is kept. -/
def Dev.keepColl (d : Dev) (m : LinkMsg) : Dev := { d with collIn := d.collIn ++ [m] }

/-- The collective that a message belongs to moves on. -/
def Dev.collMove (d : Dev) (m : LinkMsg) : Dev :=
  match d.items.find? (fun it => it.typ == tCollective && some it.collId == msgColl m.body && (d.coll? it).isSome) with
  | some it => d.collGo it
  | none => d

section
variable {s : State} {p key : Nat} {m : LinkMsg} {d : Dev} (harr : Arrives s p m d) (hkey : d.nbKeyOf m.conn m.src = some key)
  (hst : (d.conn m.conn).state = 2) (hg : cwGroup (d.cw0 m.conn) = true)
include harr hkey hst hg

/-- What a neighbour's message does on an ESTABLISHED group. -/
theorem Dev.collMessage_eq : s.dev.collMessage p m =
    if m.seq ≠ (d.conn key).rxSeq then
      (if seqBefore m.seq (d.conn key).rxSeq then (d.inject (plainMsg m.src m.conn m.seq (.ack (d.conn key).rxSeq 0 0))).1 else d)
    else ((d.collAcked key m).keepColl m).collMove m := by
  have hopen : ((d.conn m.conn).state == 2 && cwGroup (d.cw0 m.conn)) = true := by simp [hst, hg]
  rw [Dev.collMessage, harr.onMessage]
  dsimp only
  rw [hkey, hopen]
  rfl

end

/-! ### Syncs and timeouts -/

section
variable {d : Dev} {it : Item} {m : LinkMsg} {i op f ds n r key : Nat} {ph abort : Bool} (hbody : m.body = .collSync i op f ds ph n r abort)
  (hkey : d.nbKeyOf it.connOf m.src = some key)
include hbody hkey

theorem Dev.collSynced_eq : d.collSynced it m = if abort then d.collFail it n true
    else if op = it.collOp && f = it.collFmt && ds = it.collDims && ph = it.collPh1 && n = it.collN && r = it.collRoot then
      d.modColl it (fun g => { g with synced := key :: g.synced.filter (· != key), since := d.now })
    else (d.note 0x4030 0).collFail it 0x16 true := by
  rw [Dev.collSynced, hbody, hkey]

end

theorem exec_collTimeout (ring index : Nat) (s : State) : exec (.collTimeout ring index) s = execCollTimeout ring index s := rfl

theorem does_collTimeout {s : State} {ring index : Nat} {it : Item} {g : Coll} (hup : Up s) (hit : InHand s ring index it)
    (htyp : it.typ = tCollective) (hg : s.dev.coll? it = some g) : Does (.collTimeout ring index) s
      (if g.since + s.dev.get F.hawConnCfg_COLL_TIMEOUT_MS * 1000000 ≤ s.dev.now then (s.dev.note 0x4031 0).collFail it 0x17 true else s.dev) := by
  obtain ⟨hfound, hph⟩ := hit
  have hdoes := does_of_actUp hup (exec_collTimeout ring index s)
  rw [Dev.onItem_hit _ hfound hph (by simp [htyp]), hg] at hdoes
  exact hdoes

/-! ### The sum of two elements -/

/-- A sum overflows: it is infinite though both terms are finite. -/
def FV.overflows (a b r : FV) : Bool :=
  (match a, b with | .fin _ _, .fin _ _ => true | _, _ => false) && (match r with | .inf _ => true | _ => false)

theorem FV.overflows_iff (a b r : FV) : a.overflows b r = true ↔ (∃ q k, a = .fin q k) ∧ (∃ q k, b = .fin q k) ∧ ∃ q, r = .inf q := by
  cases a <;> cases b <;> cases r <;> simp [FV.overflows]

theorem b2n_eq_one (b : Bool) : b2n b = 1 ↔ b = true := by cases b <;> decide

/-- The sum of two elements of a binary format whose bytes are given. -/
theorem collAdd_binary {f w v x : Nat} {p : FpFmt} (hf : f ≠ 14) (hp : (if f = 10 then fpH16 else fpF32) = p) (hw : fmtBits f / 8 = w)
    (hv : v < 2 ^ (8 * w)) (hx : x < 2 ^ (8 * w)) : collAdd f false (leBytes w v) (leBytes w x) =
      (leBytes w (p.rne ((p.decode v).add (p.decode x))),
        b2n ((p.decode v).overflows (p.decode x) (p.decode (p.rne ((p.decode v).add (p.decode x)))))) := by
  have hval : ∀ y, y < 2 ^ (8 * w) → leNat (leBytes w y) = y := fun y hy => by
    rw [leNat_leBytes]
    exact Nat.mod_eq_of_lt (by rwa [show 256 = 2 ^ 8 from rfl, ← Nat.pow_mul])
  unfold collAdd
  rw [if_neg hf]
  dsimp only
  rw [hp, hw, hval v hv, hval x hx]
  rfl

/-- Settles O47, from the slices, the messages, the syncs and timeouts of collectives, and the sum of two elements. -/
theorem collectives : Obligations.Collectives := by
  unfold Obligations.Collectives
  refine ⟨fun e he s ring index it d1 hup hit htyp hop => ⟨fun hst => ?lost, fun hst => ⟨fun g hg => ?goesOn, fun hnone hbusy => ?waits,
      fun hnone hfree hd1 => ?begins⟩⟩,
    fun s p key m d d1 d2 c harr hkey hst hg hm => ⟨fun hseq hd1 hd2 => ⟨fun it hfind => ?moves, fun hfind => ?kept⟩,
      fun hseq => ⟨fun hold => ?again, fun hnew => ?discarded⟩⟩,
    fun d it m i op f ds n r key ph abort hbody hkey => ⟨fun habort => ?aborted, fun habort hdiff => ?differs, fun habort hsame hid => ?noted⟩,
    fun s ring index it g hup hit htyp hg => ⟨fun hover => ?timeout, fun hearly => ?early⟩,
    fun e he v x r hv hx hr => ?sum⟩
  case lost =>
    have hdoes := does_collOp he hup hit htyp hop
    rwa [if_pos hst] at hdoes
  case goesOn =>
    have hdoes := does_collOp he hup hit htyp hop
    rwa [if_neg (not_not.2 hst), hg] at hdoes
  case waits =>
    have hdoes := does_collOp he hup hit htyp hop
    rw [if_neg (not_not.2 hst), hnone] at hdoes
    simpa only [if_pos hbusy] using hdoes
  case begins =>
    have hdoes := does_collOp he hup hit htyp hop
    rw [if_neg (not_not.2 hst), hnone] at hdoes
    simp only [hfree, Bool.false_eq_true, if_false] at hdoes
    subst hd1
    exact hdoes
  case moves =>
    have hdoes := does_collMessage (p := p) harr.up hm
    obtain rfl : d1 = d.collAcked key m := hd1
    obtain rfl : d2 = (d.collAcked key m).keepColl m := hd2
    rwa [Dev.collMessage_eq harr hkey hst hg, if_neg (not_not.2 hseq), Dev.collMove, hfind] at hdoes
  case kept =>
    have hdoes := does_collMessage (p := p) harr.up hm
    obtain rfl : d1 = d.collAcked key m := hd1
    obtain rfl : d2 = (d.collAcked key m).keepColl m := hd2
    rwa [Dev.collMessage_eq harr hkey hst hg, if_neg (not_not.2 hseq), Dev.collMove, hfind] at hdoes
  case again =>
    have hdoes := does_collMessage (p := p) harr.up hm
    rwa [Dev.collMessage_eq harr hkey hst hg, if_pos hseq, if_pos hold] at hdoes
  case discarded =>
    have hdoes := does_collMessage (p := p) harr.up hm
    rwa [Dev.collMessage_eq harr hkey hst hg, if_pos hseq, if_neg (by rw [hnew]; decide)] at hdoes
  case aborted =>
    rw [Dev.collSynced_eq hbody hkey, if_pos habort]
  case differs =>
    rw [Dev.collSynced_eq hbody hkey, if_neg (by rw [habort]; decide), if_neg]
    rcases hdiff with h | h | h | h | h | h <;> simp [h]
  case noted =>
    obtain ⟨-, rfl, rfl, rfl, rfl, rfl, rfl, -⟩ : i = it.collId ∧ op = it.collOp ∧ f = it.collFmt ∧ ds = it.collDims ∧ ph = it.collPh1 ∧
        n = it.collN ∧ r = it.collRoot ∧ abort = false := by
      simpa only [hbody, Item.syncBody, MsgBody.collSync.injEq] using hsame
    rw [Dev.collSynced_eq hbody hkey, if_neg (by rw [habort]; decide), if_pos (by simp)]
  case timeout =>
    have hdoes := does_collTimeout hup hit htyp hg
    rwa [if_pos hover] at hdoes
  case early =>
    have hdoes := does_collTimeout hup hit htyp hg
    rwa [if_neg (Nat.not_le.2 hearly)] at hdoes
  case sum =>
    have hadd : collAdd e.1 false (leBytes e.2.1 v) (leBytes e.2.1 x) =
        (leBytes e.2.1 r, b2n ((e.2.2.decode v).overflows (e.2.2.decode x) (e.2.2.decode r))) := by
      rw [hr]
      simp only [List.mem_cons, List.not_mem_nil, or_false] at he
      rcases he with rfl | rfl
      · exact collAdd_binary (by decide) rfl rfl hv hx
      · exact collAdd_binary (by decide) rfl rfl hv hx
    rw [hadd, b2n_eq_one, FV.overflows_iff]
    exact ⟨rfl, Iff.rfl⟩

end Sys2Proof.Machine
end
